-- ==== Sys2Proof/Word.lean ====
section
/-! DEFINITION. The word type of the register window (R38: every register is 64 bits wide), the byte, and the sparse
table the state is built from. Nothing here computes on registers; the bit-field helpers stand in Machine/Bits.lean. -/

namespace Sys2Proof

/-- A register of the window (R38). -/
abbrev Word := BitVec 64

/-- A byte of a frame, a package or a memory. -/
abbrev Byte := BitVec 8

/-- A 256-bit key; bits 7:0 are its first byte (Table 18.5 sends the lowest bits first). -/
abbrev Key := BitVec 256

/-- A byte string. -/
abbrev Bytes := List Byte

/-- A sparse table by number, kept in one canonical form: keys strictly rising, no entry equal to the table's default.
Its operations are in Machine/Bits.lean. -/
abbrev Table (α : Type) := List (Nat × α)

end Sys2Proof
end

