-- ==== Sys2Proof/Syntax.lean ====
section
/-! DEFINITION. The commands the block takes: one constructor of Instr for each row of the spec's table, with the
operands the row's rule names. A register command carries the attributes of its access and the whole written word. -/

namespace Sys2Proof

/-- The status words of Table 19.3 (R541: the block produces no other). -/
inductive Status where
  | ok | badArg | badFormat | bounds | quota | budgetExhausted | wrongState | transitionTorn | lockRefused
  | partition | destDenied | keyRevoked | sigFail | tagFail | inputRejected | descMismatch | orderTimeout
  | deadline | aborted | memberAbsent | arithMismatch | pipeRetired | fuseMarginal | eccUncorrectable
  | busError | paused
  deriving DecidableEq, Repr

/-- Who issues a register access (Table 2.1). -/
inductive Source where
  /-- the host register port, through the trusted bridge -/
  | host
  /-- Helm firmware -/
  | helm
  /-- a Rhumb channel -/
  | rhumb (ch : BitVec 4)
  deriving DecidableEq, Repr

/-- The attributes of one register access (Table 2.1, R16): its source, whether it is tagged, its partition tag and
its management bit as the source gives them. -/
structure Access where
  src : Source
  tagged : Bool
  ptag : BitVec 5
  mgmt : Bool
  deriving DecidableEq, Repr

/-- A frame as it arrives on an ingress port (Table 18.3): the port (0 to 7 `FSP_IN`, 8 to 11 `LSP_IN`), the two
sideband fields the block uses (R517), whether its beats ran whole from `SOP` to `EOP` (R518), and its bytes. -/
structure Arrival where
  port : BitVec 4
  vc : Bool
  wireLen : BitVec 15
  whole : Bool
  bytes : Bytes
  deriving DecidableEq, Repr

/-- The three decision kinds of the verdict comparator (Table 1.2). -/
inductive VerdictKind where
  | boot | lifecycle | keyRelease
  deriving DecidableEq, Repr

/-- The operands Sounding taps (R261, Table 8.1): unpacked and shifted elements, lanes as read, addend, lanes as written, the selected maximum or
minimum, the lanes and the noise of an output tile, and the elements at the encryptor. -/
inductive Tap where
  | x | y | o | a | w | m | lanes | noise | out
  deriving DecidableEq, Repr

/-- An error of one of Sounding's own sums: the operand, the row or column, and what the sum gained (R259, R260). -/
structure SumErr where
  tap : Tap
  idx : BitVec 4
  err : BitVec 48
  deriving DecidableEq, Repr

/-- What a pipe and Sounding itself did wrong with one tile (R259 to R262, R266): the elements of the tile that left the exact ones, by
number and value (after the shift of stage 2, at the adder, as written, at the encryptor), the lanes whose report of saturation is
inverted, the bits that differ in the record written, and the errors of Sounding's row and column sums. -/
structure TileFault where
  shifted : List (BitVec 8 × BitVec 32)
  addend : List (BitVec 8 × BitVec 32)
  lanes : List (BitVec 8 × BitVec 32)
  elems : List (BitVec 8 × BitVec 32)
  report : List (BitVec 8)
  flags : BitVec 4
  hop : BitVec 8
  exp : BitVec 8
  rows : List SumErr
  cols : List SumErr
  deriving DecidableEq, Repr

/-- The output bytes of one self-test unit that each pipe computes wrong, by place and difference: the pipe under test, the reference
pipe and the third pipe (R273, R274). -/
structure UnitFault where
  tested : List (BitVec 12 × Byte)
  reference : List (BitVec 12 × Byte)
  third : List (BitVec 12 × Byte)
  deriving DecidableEq, Repr

/-- An uncorrectable Phlox codeword: the window and physical line that hold it, and its place in the line (R177, Table 5.26). -/
structure EccHit where
  win : BitVec 13
  line : BitVec 18
  codeword : BitVec 4
  deriving DecidableEq, Repr

/-- What the SECDED code finds in the codewords a command reads: how many it corrects, and an uncorrectable one (R176, R177). -/
structure EccIn where
  corrected : Nat
  bad : Option EccHit
  deriving DecidableEq, Repr

/-- How a Logbook program under way was cut (R434): the pulses that had ended, and the bits of the next pulse that read 1 at
`LOOSE` and at `NOMINAL` afterwards. -/
structure ProgCut where
  pulses : Nat
  loose : BitVec 72
  nominal : BitVec 72
  /-- bits of that pulse that read 1 at `LOOSE` at the wider spreads besides -/
  wide : List (BitVec 72) := []
  deriving DecidableEq, Repr

/-- Programmed bits of one physical word that do not read 1 at a reference after all their pulses (R433). -/
structure PhysMiss where
  phys : BitVec 10
  loose : BitVec 72
  nominal : BitVec 72
  strict : BitVec 72
  /-- at the wider spreads, in order: which of the bits missing at `LOOSE` read 1, and which no longer read 1 at `STRICT` -/
  wide : List (BitVec 72 × BitVec 72) := []
  deriving DecidableEq, Repr

/-- What the pulses of a Logbook command did: the most pulses that any bit needed, and the bits that stayed weak. -/
structure ProgOut where
  pulses : BitVec 3
  misses : List PhysMiss
  deriving DecidableEq, Repr

/-- What a start reads from the host die and finds: the boot store from its first byte (none: its reads end in an error),
whether read-backs of record writes are right, and the blocks of noise samples of the start-up tests. -/
structure BootIn where
  store : Option Bytes
  backOk : Bool
  noise : List (List Bool)
  deriving DecidableEq, Repr

/-- What Helm reads from the slot an update command acts on (none: an error), and whether read-backs are right. -/
structure StoreIn where
  slot : Option Bytes
  backOk : Bool
  deriving DecidableEq, Repr

/-- What a command that may run a boundary or an update unit brings: how many phases of the boundary fire before the next
command (none: all), what Helm reads from the update's target slot, and what the adds of frames it lets go on find in Phlox. -/
structure StepIn where
  phases : Option Nat
  st : StoreIn
  ecc : EccIn
  deriving DecidableEq, Repr

/-- How an Astrolabe operation ends apart from its operands (R403, R404). -/
inductive AstrEnd where
  /-- no hardware fault; Chartroom then takes the `SECRET` slots named, in order (R407) -/
  | sound (taken : List (BitVec 8))
  /-- a check of R403 fails -/
  | arith
  /-- an operand-memory word is uncorrectable -/
  | ecc
  deriving DecidableEq, Repr

/-- How an operation fails that Helm itself runs in Astrolabe (R403, R405). -/
inductive OpFault where
  /-- a check of R403 fails -/
  | arith
  /-- an operand-memory word is uncorrectable -/
  | ecc
  /-- an abort of R405 -/
  | aborted
  deriving DecidableEq, Repr

/-- What `ASSIGN` finds: the policy record in host-die memory, and the failure, if any, of an operation of its step 6 (R307, R498). -/
structure AssignIn where
  bytes : Option Bytes
  fail : Option OpFault
  deriving DecidableEq, Repr

/-- A request in the mailbox that may ask for a signature, and the failure, if any, of an operation that serves it (R503, R511). -/
structure MailReq where
  bytes : Bytes
  fail : Option OpFault
  deriving DecidableEq, Repr

/-- What a service of Chartroom brings: what a frame it lets go on may need, whether the push is cut short (R20), and the slot of a push to
engine 16 that Helm asks for in place of a pipe's request (R396). -/
structure KeyServe where
  step : StepIn
  cut : Bool
  ask : Option (BitVec 9)
  deriving DecidableEq, Repr

/-- The commands. -/
inductive Instr where
  /-- `PORST` (R531) -/
  | porst (profile : BitVec 2) (base : BitVec 32) (cut : ProgCut) (boot : BootIn)
  /-- `TAMPER_ASSERT` (R532) -/
  | tamperAssert (cut : ProgCut)
  /-- `TAMPER_RELEASE` (R532) -/
  | tamperRelease (boot : BootIn)
  /-- `BLK_SOFT_RESET` (R68) -/
  | blkSoftReset (a : Access) (v : Word) (boot : BootIn)
  /-- `LOOP_LOCK_LOSS` (R25) -/
  | loopLockLoss (arith : Bool)
  /-- `PORT_RANGE` (R539) -/
  | portRange (mhz : BitVec 12)
  /-- `VPP_CHANGE` (R533) -/
  | vppChange (inRange : Bool) (cut : ProgCut)
  /-- `VERDICT_WRITE` (R11) -/
  | verdictWrite (kind : VerdictKind) (pathB : Bool) (w : BitVec 32) (gap : Nat)
  /-- `VERDICT_WINDOW_EXPIRE` (R12) -/
  | verdictWindowExpire (kind : VerdictKind)
  /-- `REGISTER_WRITE` (R546) -/
  | registerWrite (a : Access) (addr : BitVec 20) (be : BitVec 8) (v : Word)
  /-- `WIDE_READ_LATCH` (R41) -/
  | wideReadLatch (a : Access) (addr : BitVec 20)
  /-- `INT_SET_WRITE` (R50) -/
  | intSetWrite (a : Access) (page : BitVec 8) (v : Word)
  /-- `PAGE_LOCK_WRITE` (R51) -/
  | pageLockWrite (a : Access) (page : BitVec 8) (v : Word)
  /-- `DATA_FRAME_RECEIVE` (R101) -/
  | dataFrameReceive (f : Arrival) (e : EccIn)
  /-- `SCALE_FRAME_RECEIVE` (R121): the frame, and what the adds of waiting frames find in Phlox -/
  | scaleFrameReceive (f : Arrival × EccIn)
  /-- `RESULT_FRAME_RECEIVE` (R173) -/
  | resultFrameReceive (f : Arrival)
  /-- `ABORT_FRAME_RECEIVE` (R204) -/
  | abortFrameReceive (f : Arrival)
  /-- `STEP_FRAME_RECEIVE` (R289) -/
  | stepFrameReceive (f : Arrival) (x : StepIn)
  /-- `PROBE_FRAME_RECEIVE` (R83) -/
  | probeFrameReceive (f : Arrival)
  /-- `MGMT_FRAME_RECEIVE` (R215) -/
  | mgmtFrameReceive (f : Arrival)
  /-- `UPDATE_FRAME_RECEIVE` (R484) -/
  | updateFrameReceive (f : Arrival) (x : StepIn)
  /-- `CREDIT_GRANT_RECEIVE` (R519) -/
  | creditGrantReceive (port : BitVec 4) (vc : Bool) (n : BitVec 8)
  /-- `EGRESS_FRAME_BUILD` (R161) -/
  | egressFrameBuild (pipe : BitVec 3) (e : EccIn)
  /-- `FRAME_SEND` (R160) -/
  | frameSend (pipe : BitVec 3)
  /-- `CS_DATA_WRITE` (R141) -/
  | csDataWrite (a : Access) (pipe : BitVec 4) (v : Word)
  /-- `CS_COMMIT` (R141) -/
  | csCommit (a : Access) (pipe : BitVec 4) (v : Word)
  /-- `BIND_WRITE` (R142) -/
  | bindWrite (a : Access) (pipe : BitVec 4) (v : Word)
  /-- `DRAIN_END` (R144) -/
  | drainEnd (pipe : BitVec 3) (port : BitVec 4)
  /-- `KC_FLUSH` (R153) -/
  | kcFlush (a : Access) (pipe : BitVec 4) (v : Word)
  /-- `KEY_REQUEST_SERVE` (R366): what it lets go on brings, and whether the push is cut short (R20) -/
  | keyRequestServe (x : KeyServe)
  /-- `CS_PARITY_ERROR` (R272): the words that do not take on the rewrite, and what goes on brings -/
  | csParityError (pipe : BitVec 4) (x : List (BitVec 11 × Word) × StepIn)
  /-- `PHLX_ALLOC` (R170) -/
  | phlxAlloc (a : Access) (v : Word)
  /-- `PHLX_FREE` (R169) -/
  | phlxFree (a : Access) (v : Word)
  /-- `PHLX_OPEN` (R169) -/
  | phlxOpen (a : Access) (v : Word)
  /-- `PHLX_INVALIDATE` (R171) -/
  | phlxInvalidate (a : Access) (v : Word)
  /-- `PHLX_WIN_CMD_DONE` (R184) -/
  | phlxWinCmdDone
  /-- `SOUNDING_CHECK_DONE` (R266) -/
  | soundingCheckDone (pipe : BitVec 4) (fault : Option TileFault)
  /-- `INGRESS_REPLAY` (R267): what its adds find in Phlox -/
  | ingressReplay (pipe : BitVec 4) (e : EccIn)
  /-- `EGRESS_REPLAY` (R268): what its reads find in Phlox -/
  | egressReplay (pipe : BitVec 4) (e : EccIn)
  /-- `SND_ST_CMD` (R275) -/
  | sndStCmd (a : Access) (v : Word)
  /-- `SELF_TEST_UNIT` (R273) -/
  | selfTestUnit (fault : UnitFault)
  /-- `SND_CTX_SAVE` (R278): what its reads find in Phlox, and a tile the pipe gets wrong -/
  | sndCtxSave (a : Access) (v : Word) (e : EccIn × Option (BitVec 15 × TileFault))
  /-- `SND_CTX_RESTORE` (R281): as for a save -/
  | sndCtxRestore (a : Access) (v : Word) (e : EccIn × Option (BitVec 15 × TileFault))
  /-- `GRP_DESC_WRITE` (R189) -/
  | grpDescWrite (a : Access) (word : BitVec 3) (v : Word)
  /-- `MBR_DATA_ACCESS` (R189) -/
  | mbrDataAccess (a : Access) (write : Bool) (v : Word)
  /-- `GRP_COMMIT` (R190) -/
  | grpCommit (a : Access) (v : Word)
  /-- `GRP_CLEAR` (R190) -/
  | grpClear (a : Access) (v : Word)
  /-- `LAUNCH` (R191) -/
  | launch (a : Access) (v : Word)
  /-- `GRP_ABORT` (R203) -/
  | grpAbort (a : Access) (v : Word)
  /-- `RESYNC_SEND` (R221) -/
  | resyncSend (a : Access) (v : Word)
  /-- `RESYNC_RECV` (R221) -/
  | resyncRecv (a : Access) (v : Word)
  /-- `SET_EPOCH` (R220) -/
  | setEpoch (a : Access) (v : Word)
  /-- `GRP_STATION_WRITE` (R223) -/
  | grpStationWrite (a : Access) (v : Word)
  /-- `ENTRY_ACTIVATE` (R194): the partition, and what the adds of its parked frames find in Phlox -/
  | entryActivate (x : BitVec 5 × EccIn)
  /-- `DEADLINE_EXPIRE` (R201) -/
  | deadlineExpire (us : Nat)
  /-- `ABSENCE_CUT` (R209): the microseconds that pass, and what the adds of frames it lets go on find in Phlox -/
  | absenceCut (x : Nat × EccIn)
  /-- `REFILL_DONE` (R217) -/
  | refillDone
  /-- `STRG_TRACK_WRITE` (R214) -/
  | strgTrackWrite (a : Access) (v : Word)
  /-- `STRG_CLEAR` (R214) -/
  | strgClear (a : Access) (v : Word)
  /-- `ZIN_BUDGET` (R254) -/
  | zinBudget (a : Access) (v : Word) (mem policy : Option Bytes)
  /-- `MRD_ADVANCE` (R290) -/
  | mrdAdvance (a : Access) (v : Word) (x : StepIn)
  /-- `MRD_STEP_SET` (R287) -/
  | mrdStepSet (a : Access) (v : Word)
  /-- `STEP_MARK_PULSE` (R286) -/
  | stepMarkPulse (x : StepIn)
  /-- `PENDING_BOUNDARY` (R293) -/
  | pendingBoundary (x : StepIn)
  /-- `SCHEDULE_ENTRY_WRITE` (R295) -/
  | scheduleEntryWrite (a : Access) (idx : BitVec 6) (v : Word)
  /-- `STEP_TIMEOUT` (R299) -/
  | stepTimeout (us : Nat)
  /-- `REMASK_FLOOR` (R361) -/
  | remaskFloor (us : Nat)
  /-- `ASSIGN` (R307) -/
  | assign (a : Access) (part : BitVec 5) (v : Word) (mem : AssignIn)
  /-- `WIPE_DONE` (R310) -/
  | wipeDone (part : BitVec 5)
  /-- `PART_REGION_WRITE` (R315) -/
  | partRegionWrite (a : Access) (part : BitVec 5) (w : BitVec 3) (limit : Bool) (v : Word)
  /-- `REGION_DISABLE_DONE` (R315) -/
  | regionDisableDone (part : BitVec 5) (w : BitVec 3)
  /-- `PART_MBR_RANGE_WRITE` (R319) -/
  | partMbrRangeWrite (a : Access) (part : BitVec 5) (v : Word)
  /-- `PART_CHANNELS_WRITE` (R320) -/
  | partChannelsWrite (a : Access) (part : BitVec 5) (v : Word)
  /-- `PART_QUOTA_WRITE` (R317) -/
  | partQuotaWrite (a : Access) (part : BitVec 5) (second : Bool) (v : Word)
  /-- `RHMB_START` (R325) -/
  | rhmbStart (a : Access) (ch : BitVec 4) (v : Word)
  /-- `RHMB_PAUSE` (R348) -/
  | rhmbPause (a : Access) (ch : BitVec 4) (v : Word)
  /-- `PAUSE_DRAINED` (R348) -/
  | pauseDrained (ch : BitVec 4)
  /-- `RHMB_RESUME` (R348) -/
  | rhmbResume (a : Access) (ch : BitVec 4) (v : Word)
  /-- `RHMB_STOP` (R351) -/
  | rhmbStop (a : Access) (ch : BitVec 4) (v : Word)
  /-- `RHMB_CH_DOORBELL` (R343) -/
  | rhmbChDoorbell (a : Access) (ch : BitVec 4) (v : Word)
  /-- `MOVE` (R338) -/
  | move (ch : BitVec 4)
  /-- `MOVE_SG` (R331) -/
  | moveSg (ch : BitVec 4)
  /-- `FILL` (R333) -/
  | fill (ch : BitVec 4)
  /-- `COMPARE` (R333) -/
  | compare (ch : BitVec 4)
  /-- `SHUFFLE` (R335) -/
  | shuffle (ch : BitVec 4)
  /-- `LOOP` (R334) -/
  | loop (ch : BitVec 4)
  /-- `WAIT` (R343) -/
  | wait (ch : BitVec 4)
  /-- `WAIT_SATISFIED` (R343) -/
  | waitSatisfied
  /-- `SIGNAL` (R344) -/
  | signal (ch : BitVec 4)
  /-- `LIST` (R332) -/
  | list (ch : BitVec 4)
  /-- `END` (R352) -/
  | endRun (ch : BitVec 4)
  /-- `MMP_READ_RESPONSE` (R515) -/
  | mmpReadResponse (id : BitVec 8) (data : Option Bytes)
  /-- `MMP_WRITE_RESPONSE` (R515) -/
  | mmpWriteResponse (id : BitVec 8) (ok : Bool)
  /-- `MMP_TIMEOUT` (R515) -/
  | mmpTimeout (id : BitVec 8) (us : Nat)
  /-- `RHMB_GCTRL_WRITE` (R353) -/
  | rhmbGctrlWrite (a : Access) (v : Word)
  /-- `RHMB_SEM_WRITE` (R353) -/
  | rhmbSemWrite (a : Access) (v : Word)
  /-- `CHRT_IMPORT` (R371) -/
  | chrtImport (a : Access) (v : Word) (pkg policy : Option Bytes)
  /-- `CHRT_CONFIRM` (R373) -/
  | chrtConfirm (a : Access) (v : Word)
  /-- `CHRT_COMMIT` (R374) -/
  | chrtCommit (a : Access) (v : Word)
  /-- `CHRT_DISCARD` (R373) -/
  | chrtDiscard (a : Access) (v : Word)
  /-- `CHRT_DELETE` (R375) -/
  | chrtDelete (a : Access) (v : Word)
  /-- `CHRT_GENERATE` (R373) -/
  | chrtGenerate (a : Access) (v : Word)
  /-- `CHRT_DELIVER` (R378) -/
  | chrtDeliver (a : Access) (v : Word)
  /-- `KDP_ANSWER` (R522) -/
  | kdpAnswer (ack nack : Bool) (dest : BitVec 6) (cycle : Nat)
  /-- `KDP_ACK_TIMEOUT` (R379) -/
  | kdpAckTimeout (cycle : Nat)
  /-- `NOISE_SAMPLE_BLOCK` (R383) -/
  | noiseSampleBlock (samples : List Bool)
  /-- `ASTR_CS_DATA_WRITE` (R392) -/
  | astrCsDataWrite (a : Access) (v : Word)
  /-- `ASTR_CS_COMMIT` (R392) -/
  | astrCsCommit (a : Access) (v : Word)
  /-- `ASTR_SLOT_DESC_WRITE` (R388) -/
  | astrSlotDescWrite (a : Access) (v : Word)
  /-- `ASTR_DATA_ACCESS` (R389) -/
  | astrDataAccess (a : Access) (write : Bool) (v : Word)
  /-- `ASTR_ZERO` (R390) -/
  | astrZero (a : Access) (v : Word)
  /-- `ASTR_RUN` (R395) -/
  | astrRun (a : Access) (v : Word)
  /-- `ASTR_ABORT` (R405) -/
  | astrAbort (a : Access) (v : Word)
  /-- `ASTR_OP_END` (R404) -/
  | astrOpEnd (how : AstrEnd)
  /-- `LOGB_PROGRAM` (R433) -/
  | logbProgram (a : Access) (v : Word)
  /-- `LOGB_REINFORCE` (R437) -/
  | logbReinforce (a : Access) (v : Word)
  /-- `LOCK_WRITE` (R420) -/
  | lockWrite (a : Access) (v : Word)
  /-- `LOCK_READ` (R421) -/
  | lockRead (a : Access) (v : Word)
  /-- `ADVANCE` (R435) -/
  | advance (a : Access) (v : Word)
  /-- `LOGB_REVOKE` (R435) -/
  | logbRevoke (a : Access) (v : Word)
  /-- `GEN_DUS` (R436) -/
  | genDus (a : Access) (v : Word)
  /-- `MARGIN_SCAN` (R438) -/
  | marginScan (a : Access) (v : Word)
  /-- `LOGB_CMD_DONE` (R433) -/
  | logbCmdDone (out : ProgOut)
  /-- `TRANSITION` (R447) -/
  | transition (a : Access) (v : Word) (grant : Option Bytes)
  /-- `LIFE_CHALLENGE` (R456) -/
  | lifeChallenge (a : Access) (v : Word)
  /-- `UNLOCK_PW` (R454) -/
  | unlockPw (a : Access) (v : Word)
  /-- `UNLOCK_GRANT` (R457) -/
  | unlockGrant (a : Access) (v : Word) (grant : Option Bytes)
  /-- `TAP_LIFT_HOLD` (R429) -/
  | tapLiftHold (lift : Bool) (boot : BootIn)
  /-- `TAP_MBOX` (R459) -/
  | tapMbox (w : Word)
  /-- `UPD_BEGIN` (R475) -/
  | updBegin (a : Access) (v : Word) (st : StoreIn)
  /-- `UPD_BLOCK` (R476) -/
  | updBlock (a : Access) (v : Word) (st : StoreIn)
  /-- `UPD_FINISH` (R477) -/
  | updFinish (a : Access) (v : Word) (st : StoreIn)
  /-- `UPD_ABORT` (R478) -/
  | updAbort (a : Access) (v : Word)
  /-- `UPD_SESSION_TIMEOUT` (R478) -/
  | updSessionTimeout (us : Nat)
  /-- `ACTIVATE` (R479) -/
  | activate (a : Access) (v : Word) (st : StoreIn) (boot : BootIn)
  /-- `HELM_CONFIRM` (R480) -/
  | helmConfirm (a : Access) (v : Word) (st : StoreIn)
  /-- `TRIAL_WATCHDOG_EXPIRE` (R469) -/
  | trialWatchdogExpire (us : Nat) (boot : BootIn)
  /-- `HELM_REVOKE` (R481) -/
  | helmRevoke (a : Access) (v : Word) (mem : Option Bytes)
  /-- `FORWARD` (R483) -/
  | forward (a : Access) (v : Word) (st : StoreIn)
  /-- `SETTINGS` (R487) -/
  | settings (a : Access) (v : Word) (st : StoreIn)
  /-- `VERIFY_HOST` (R488) -/
  | verifyHost (a : Access) (v : Word) (mem body : Option Bytes)
  /-- `HELM_STAGE_DATA_ACCESS` (R475) -/
  | helmStageDataAccess (a : Access) (write : Bool) (v : Word)
  /-- `EXTEND` (R472) -/
  | extend (a : Access) (v : Word)
  /-- `GET_VERSION` (R504) -/
  | getVersion (m : Bytes)
  /-- `GET_CAPABILITIES` (R504) -/
  | getCapabilities (m : Bytes)
  /-- `NEGOTIATE_ALGORITHMS` (R504) -/
  | negotiateAlgorithms (m : Bytes)
  /-- `GET_DIGESTS` (R505) -/
  | getDigests (m : Bytes) (area : Option Bytes)
  /-- `GET_CERTIFICATE` (R505) -/
  | getCertificate (m : Bytes) (area : Option Bytes)
  /-- `SPDM_CHALLENGE` (R505) -/
  | spdmChallenge (m : MailReq) (area : Option Bytes)
  /-- `GET_MEASUREMENTS` (R506) -/
  | getMeasurements (m : MailReq)
  /-- `KEY_EXCHANGE` (R504) -/
  | keyExchange (m : MailReq) (area : Option Bytes)
  /-- `FINISH` (R504) -/
  | finish (m : Bytes)
  /-- `KEY_UPDATE` (R504) -/
  | keyUpdate (m : Bytes)
  /-- `END_SESSION` (R504) -/
  | endSession (m : Bytes)
  /-- `PWR_ON` (R538) -/
  | pwrOn (a : Access) (v : Word)
  /-- `PWR_OFF` (R538) -/
  | pwrOff (a : Access) (v : Word)
  /-- `PWR_SLEEP` (R29) -/
  | pwrSleep (a : Access) (v : Word)
  /-- `PWR_ACK_RISE` (R528) -/
  | pwrAckRise (d : BitVec 5) (us : Nat)
  /-- `PWR_ACK_FALL` (R528) -/
  | pwrAckFall (d : BitVec 5)
  /-- `POWER_LOSS` (R530) -/
  | powerLoss (d : BitVec 5)
  /-- `WAKE_REQ` (R527) -/
  | wakeReq (boot : BootIn)
  /-- `PART_CMD_RELEASE` (R309) -/
  | partCmdRelease (a : Access) (part : BitVec 5) (v : Word)
  /-- `REGISTER_READ` (R44) -/
  | registerRead (a : Access) (addr : BitVec 20) (be : BitVec 8)
  /-- `UNSUPPORTED_REQUEST` (R504) -/
  | unsupportedRequest (m : Bytes)
  /-- `LOOP_LOCK_REGAIN` (R208) -/
  | loopLockRegain (arith : Bool)
  deriving DecidableEq, Repr

end Sys2Proof
end

