-- ==== Sys2Proof/Decode.lean ====
section
/-! DEFINITION. The commands a word spells. No row of the spec's command table gives bits, so no word spells one. -/

namespace Sys2Proof

/-- The command that the bits `w` of a row of `nbits` spell: none, for the table gives no row any bits. -/
def decodeTableWord (_nbits _w : Nat) : Option Instr := none

end Sys2Proof
end

