-- ==== Sys2Proof/Config.lean ====
section
/-! DEFINITION. What the spec names but leaves to published standards, to the host die, or open: each is an
uninterpreted constant with no body, so every statement holds whatever its value (assumption logs 3 and 4). -/

namespace Sys2Proof

/-- AES-256 on one block (SP 800-38A): key and counter block, the block's first byte highest. -/
opaque Config.aesBlock : Key → BitVec 128 → BitVec 128

/-- Byte `i` of the AES-256-GCM keystream that covers the payload, under a key and a 96-bit IV (R86, R87). -/
opaque Config.gcmStream : Key → BitVec 96 → Nat → Byte

/-- The 128-bit AES-256-GCM tag over additional data and ciphertext (R86); the value is read most significant byte first. -/
opaque Config.gcmTag : Key → BitVec 96 → Bytes → Bytes → BitVec 128

/-- SHA-384; byte 0 of the digest in bits 7:0. -/
opaque Config.sha384 : Bytes → BitVec 384

/-- SHA3-256; byte 0 of the digest in bits 7:0. -/
opaque Config.sha3_256 : Bytes → BitVec 256

/-- Byte `i` of the SHAKE256 output. -/
opaque Config.shake256 : Bytes → Nat → Byte

/-- Byte `i` of KMAC256 under a key, over a message, with an output length in bytes and a customisation string. -/
opaque Config.kmac256 : Bytes → Bytes → Nat → Bytes → Nat → Byte

/-- HMAC-SHA-384; byte 0 in bits 7:0. -/
opaque Config.hmac384 : Bytes → Bytes → BitVec 384

/-- Byte `i` of CTR_DRBG output (SP 800-90A, AES-256): entropy input, nonce, personalisation string. -/
opaque Config.ctrDrbg : Bytes → Bytes → Bytes → Nat → Byte

/-- ML-DSA-87 public key, 2,592 bytes, from the seed ξ (FIPS 204). -/
opaque Config.mldsaPublic : Bytes → Bytes

/-- ML-DSA-87 signature, 4,627 bytes: the seed ξ, μ, and the number of the hedged randomness. -/
opaque Config.mldsaSign : Bytes → Bytes → Nat → Bytes

/-- The hint encoding of an ML-DSA-87 signature is one FIPS 204 accepts. -/
opaque Config.mldsaHintOk : Bytes → Bool

/-- ML-DSA-87 verification: public key, μ, signature. -/
opaque Config.mldsaVerify : Bytes → Bytes → Bytes → Bool

/-- ML-KEM-1024 encapsulation key, 1,568 bytes, from *d* and *z* (FIPS 203). -/
opaque Config.mlkemPublic : Bytes → Bytes → Bytes

/-- The modulus check of FIPS 203 on an encapsulation key. -/
opaque Config.mlkemKeyOk : Bytes → Bool

/-- ML-KEM-1024 encapsulation: key and the number of the randomness; ciphertext of 1,568 bytes and secret of 32 bytes. -/
opaque Config.mlkemEncaps : Bytes → Nat → Bytes × Bytes

/-- ML-KEM-1024 decapsulation: *d*, *z*, ciphertext; 32 bytes. -/
opaque Config.mlkemDecaps : Bytes → Bytes → Bytes → Bytes

/-- The subject of a DER certificate, as its `Name` (RFC 5280). -/
opaque Config.certSubject : Bytes → Bytes

/-- How an operation of the engine ends that Helm runs for a command written through `REGISTER_WRITE`, which brings no outcome of its own:
free (log 49). -/
opaque Config.freeFault : Nat → Nat

/-- The subject key a DER certificate carries. -/
opaque Config.certKey : Bytes → Bytes

/-- The 8-byte ROM version (16 Table 16.6). -/
opaque Config.romVersion : Bytes

/-- The hash of the Memolen development pair in mask ROM (16 Table 16.5). -/
opaque Config.devPairHash : BitVec 384

/-- The boot microcode image in mask ROM, 4,096 words (chapter 16, cold boot). -/
opaque Config.bootMicrocode : Bytes

/-- The body of a settings record migrated from one version to another (16 R486): fixed by the firmware release. -/
opaque Config.migrateSettings : Nat → Nat → Bytes → Bytes

/-- The SPDM key schedule (17 R504, DSP0274): secret of the key exchange, transcript, and which of the four secrets of a session. -/
opaque Config.spdmSecret : Bytes → Bytes → Nat → Key

/-- The key update of a direction's secret (DSP0274). -/
opaque Config.spdmUpdate : Key → Key

/-- The 48 bytes of verify data under a session secret over a transcript (DSP0274). -/
opaque Config.spdmVerify : Key → Bytes → Bytes

/-- The record layer of DSP0277 under a secret and sequence number: a secured message from a plain one, and back. -/
opaque Config.spdmSeal : Key → Nat → Bytes → Bytes
opaque Config.spdmOpen : Key → Nat → Bytes → Option Bytes

/-- The opaque data of a `KEY_EXCHANGE_RSP` for the opaque data of its request (DSP0277): the spec gives none (log 54). -/
opaque Config.spdmOpaque : Bytes → Bytes

/-- What host-die memory returns to a command written through `REGISTER_WRITE`, which brings no memory of its own: free (log 49). -/
opaque Config.freeBytes : Nat → Option Bytes

/-- `USAGE` in the attribute word of a derived key, by class: the spec leaves it open (log 50). -/
opaque Config.derivedUsage : Nat → BitVec 5

/-- `USAGE` bits Table 12.2 allows a key of a class: the table has no column for them (log 146). -/
opaque Config.classUsage : Nat → BitVec 5

/-- Random number of a draw that a self-test unit cuts an operand from: draw of the random instance, number. The spec gives no mapping from the
random bits to operands (log 133). -/
opaque Config.testWord : Nat → Nat → Nat

/-- A free number: what the spec leaves open, one for each value of the state's counter. -/
opaque Config.freeNat : Nat → Nat

end Sys2Proof
end

