-- ==== Sys2Proof/Machine/Bits.lean ====
section
/-! DEFINITION. The plain helpers every family uses: bit fields of a register as the manual writes them (high bit,
low bit), packing fields into a register, byte order, sparse tables, saturating counts and CRC-32C. -/

namespace Sys2Proof.Machine

/-- Field `hi:lo` of a register, as a number. -/
def fld (v : Word) (hi lo : Nat) : Nat := (v.toNat >>> lo) % 2 ^ (hi + 1 - lo)

/-- Bit `i` of a register. -/
def bitOf (v : Word) (i : Nat) : Bool := v.toNat.testBit i

/-- The low `w` bits of a number. -/
def low (w n : Nat) : Nat := n % 2 ^ w

/-- A register made of fields `(hi, lo, value)`; every field is cut to its width. -/
def pack (l : List (Nat × Nat × Nat)) : Word :=
  BitVec.ofNat 64 (l.foldl (fun acc f => acc + (f.2.2 % 2 ^ (f.1 + 1 - f.2.1)) * 2 ^ f.2.1) 0)

/-- A register holding one number in its low bits. -/
def reg (n : Nat) : Word := BitVec.ofNat 64 n

/-- The word with one bit set. -/
def bitWord (i : Nat) : Word := BitVec.ofNat 64 (2 ^ i)

/-- Set bit `i` of a mask held as a number. -/
def setBit (m i : Nat) : Nat := m ||| 2 ^ i

/-- Clear bit `i` of a mask held as a number. -/
def clrBit (m i : Nat) : Nat := if m.testBit i then m - 2 ^ i else m

/-- Clear in the `w`-bit mask `m` every bit that `c` sets. -/
def maskOff (w m c : Nat) : Nat := m &&& (2 ^ w - 1 - (c % 2 ^ w))

/-- The number of ones among the low `w` bits. -/
def popCount (w m : Nat) : Nat := ((List.range w).filter (fun i => m.testBit i)).length

/-- The set bits of the low `w` bits of a mask, rising. -/
def bitsOf (w m : Nat) : List Nat := (List.range w).filter (fun i => m.testBit i)

/-- Add one, stopping at `top`. -/
def satInc (top n : Nat) : Nat := if n < top then n + 1 else top

/-- Add `k`, stopping at `top`. -/
def satAdd (top n k : Nat) : Nat := min top (n + k)

/-- A number read as two's complement of `w` bits. -/
def sInt (w n : Nat) : Int := if n % 2 ^ w < 2 ^ (w - 1) then ((n % 2 ^ w : Nat) : Int) else ((n % 2 ^ w : Nat) : Int) - 2 ^ w

/-- The `w`-bit two's-complement pattern of an integer. -/
def uNat (w : Nat) (i : Int) : Nat := (i % (2 ^ w : Int)).toNat

/-- Little-endian number of a byte string (byte 0 lowest). -/
def leNat : Bytes → Nat
  | [] => 0
  | b :: r => b.toNat + 256 * leNat r

/-- `k` bytes of a number, lowest first. -/
def leBytes : Nat → Nat → Bytes
  | 0, _ => []
  | k + 1, n => BitVec.ofNat 8 n :: leBytes k (n / 256)

/-- Big-endian number of a byte string. -/
def beNat (l : Bytes) : Nat := leNat l.reverse

/-- `k` bytes of a number, highest first. -/
def beBytes (k n : Nat) : Bytes := (leBytes k n).reverse

/-- The eight bytes of a register value, lowest first. -/
def wordBytes (v : Word) : Bytes := leBytes 8 v.toNat

/-- A register value from the first eight bytes of a string, lowest first. -/
def bytesWord (l : Bytes) : Word := BitVec.ofNat 64 (leNat (l.take 8))

/-- `n` zero bytes. -/
def zeros (n : Nat) : Bytes := List.replicate n 0

/-- `n` bytes of a string from position `k`, reading zero past its end. -/
def slice (l : Bytes) (k n : Nat) : Bytes := ((l.drop k).take n) ++ zeros (n - ((l.drop k).take n).length)

/-- The little-endian number of `n` bytes at position `k`. -/
def leAt (l : Bytes) (k n : Nat) : Nat := leNat (slice l k n)

/-- The big-endian number of `n` bytes at position `k`. -/
def beAt (l : Bytes) (k n : Nat) : Nat := beNat (slice l k n)

/-- The string padded with zero bytes to a multiple of `m`. -/
def padTo (m : Nat) (l : Bytes) : Bytes := l ++ zeros ((m - l.length % m) % m)

/-- Number of `m`-sized pieces that hold `n`: division rounded up. -/
def ceilDiv (n m : Nat) : Nat := (n + m - 1) / m

/-- The ASCII bytes of a string. -/
def ascii (s : String) : Bytes := s.toList.map (fun c => BitVec.ofNat 8 c.toNat)

/-- Entry `k` of a sparse table; a key that is not listed reads as the default. -/
def tget {α : Type} (d : α) : Table α → Nat → α
  | [], _ => d
  | (j, v) :: r, k => if j = k then v else tget d r k

/-- Put an entry into a sparse table in key order, whatever its value. -/
def tins {α : Type} : Table α → Nat → α → Table α
  | [], k, v => [(k, v)]
  | (j, w) :: r, k, v =>
    if k < j then (k, v) :: (j, w) :: r
    else if j = k then (k, v) :: r
    else (j, w) :: tins r k v

/-- Take an entry out of a sparse table. -/
def tdel {α : Type} (t : Table α) (k : Nat) : Table α := t.filter (fun e => e.1 ≠ k)

/-- Write entry `k` of a sparse table: the default is never listed. -/
def tset {α : Type} [DecidableEq α] (d : α) (t : Table α) (k : Nat) (v : α) : Table α :=
  if v = d then tdel t k else tins t k v

/-- The canonical form of a sparse table: keys strictly rising and no entry equal to the default. -/
def tableWf {α : Type} [DecidableEq α] (d : α) (t : Table α) : Bool :=
  decide (t.Pairwise (fun a b => a.1 < b.1)) && t.all (fun e => decide (e.2 ≠ d))

/-- Apply a function to every listed entry, dropping what becomes the default. -/
def tmap {α : Type} [DecidableEq α] (d : α) (f : Nat → α → α) (t : Table α) : Table α :=
  (t.map (fun e => (e.1, f e.1 e.2))).filter (fun e => decide (e.2 ≠ d))

/-- The CRC-32C (Castagnoli) shift register after one bit-serial byte, reflected, polynomial 0x82F63B78. -/
def crcByte (c : Nat) (b : Byte) : Nat :=
  (List.range 8).foldl (fun x _ => if x.testBit 0 then (x >>> 1) ^^^ 0x82F63B78 else x >>> 1) (c ^^^ b.toNat)

/-- CRC-32C of a byte string: initial value and final complement all ones. -/
def crc32c (l : Bytes) : Nat := (l.foldl crcByte 0xFFFFFFFF) ^^^ 0xFFFFFFFF

end Sys2Proof.Machine
end

