-- ==== Sys2Proof/Machine/State.lean ====
section
/-! DEFINITION. The state of the block as plain data: every register, buffer, queue, table, mode and pin the spec names,
each field with the rule that names it and its value at reset, and the queue of waiting commands. -/

namespace Sys2Proof.Machine

/-! ### The control bus, pages and interrupts (chapters 1, 2 and 18) -/

/-- A recorded error: `PAGE_ERR` (Table 2.12) or `BLK_DECODE_ERR` (Table 2.22). -/
structure ErrRec where
  /-- `VALID`, 1 bit (02 R59); reset 0 -/
  valid : Bool := false
  /-- `OVER`, 1 bit (02 R59); reset 0 -/
  again : Bool := false
  /-- `DIR`, 1 bit, 1 for a write (02 R59); reset 0 -/
  dir : Bool := false
  /-- `MGMT`, 1 bit (02 R59); reset 0 -/
  mgmt : Bool := false
  /-- `PTAG`, 5 bits (02 R59); reset 0 -/
  ptag : Nat := 0
  /-- `OFFSET`, 12 bits, or `ADDR`, 20 bits (02 R59, R65); reset 0 -/
  addr : Nat := 0
  /-- `STATUS`, 16 bits (02 R59); reset 0 -/
  status : Nat := 0
  deriving DecidableEq, Repr

/-- The stored part of a page header (Table 2.4). -/
structure Page where
  /-- `INT_CAUSE`, 64 bits (02 R48); reset 0 -/
  cause : Word := 0
  /-- `INT_ENABLE`, 64 bits (02 R48); reset 0 -/
  enable : Word := 0
  /-- `PAGE_LOCK.LOCK`, 1 bit, cleared only by `PORST_N` (02 R51); reset 0 -/
  lock : Bool := false
  /-- `PAGE_ERR`, 64 bits (02 R59); reset 0 -/
  err : ErrRec := {}
  deriving DecidableEq, Repr

/-- The answer of the last register access on the host register port (Table 18.1). -/
structure Resp where
  /-- `HRP_RSP` 0b01, 2 bits (18 R514); reset 0b00 -/
  refused : Bool := false
  /-- `HRP_RSTAT`, 16 bits (18 R514); reset 0 -/
  stat : Nat := 0
  /-- `HRP_RDATA`, 64 bits (18 R514); reset 0 -/
  rdata : Word := 0
  deriving DecidableEq, Repr

/-- The control bus: page headers, decode errors, wide-read latches and the last answer. -/
structure Bus where
  /-- The page headers, by page number 0 to 255 (02 R48) -/
  pages : Table Page := []
  /-- `BLK_DECODE_ERR`, 64 bits (02 R65); reset 0 -/
  decode : ErrRec := {}
  /-- The wide-read latches, one for each of 32 tags and one (32) for management accesses, each up to 6 × 64 bits (02 R41); reset: nothing latched, DESIGN CHOICE 0 -/
  latch : Table (List Word) := []
  /-- `HRP_RSP`, `HRP_RSTAT`, `HRP_RDATA` of the last access (18 R514); reset 0 -/
  resp : Resp := {}
  /-- `INT_LINE_MASK`, 5 bits RWL (02 R62); reset 0x1F -/
  lineMask : Nat := 0x1F
  deriving DecidableEq, Repr

/-- The `BLK` page and the reset state of the block (Tables 1.8, 2.20, 2.24). -/
structure Blk where
  /-- `BLK_IDENT.PROFILE`, 2 bits, the strap sampled at the rise of `PORST_N` (01 R34, 18 R534); reset: strap, 0 before the first sample, DESIGN CHOICE 0 -/
  profile : Nat := 0
  /-- `BLK_STATUS.READY`, 1 bit (02 R69); reset 0 -/
  ready : Bool := false
  /-- `BLK_STATUS.RECOVERY`, 1 bit (16 R474); reset 0 -/
  recovery : Bool := false
  /-- `BLK_STATUS.TORN`, 1 bit (15 R445); reset 0 -/
  torn : Bool := false
  /-- `BLK_STATUS.FUSE_MARGINAL`, 1 bit (14 R428); reset 0 -/
  fuseMarginal : Bool := false
  /-- `BLK_RESET_CAUSE`, 4 bits, kept by a soft reset (02 R67); reset 0x1 -/
  resetCause : Nat := 1
  /-- The block is held in reset: a bad strap, an unusable Logbook, or a domain loss (01 R35, 14 R428, 18 R530); reset 0 -/
  held : Bool := false
  /-- `TAMPER_N` is low and holds the block in reset (18 R532); reset 0 -/
  tamper : Bool := false
  deriving DecidableEq, Repr

/-- The pins whose level is state (Tables 18.5 and 18.7). -/
structure Pins where
  /-- `STATION_LIVE`, 1 bit output (06 R208, 18 Table 18.8); reset 0 -/
  stationLive : Bool := false
  /-- `STATION_LIVE` has risen since `PORST_N`, 1 bit (05 R143); reset 0 -/
  liveSeen : Bool := false
  /-- `KDP_ZEROISE`, 1 bit output (18 R523); reset 1 -/
  kdpZeroise : Bool := true
  /-- `KDP_CANCEL`, 1 bit output (18 R523); reset 0 -/
  kdpCancel : Bool := false
  /-- `KDP_CDEST`, 6 bits output (18 R523); reset 0 -/
  kdpCdest : Nat := 0
  /-- `STRAP_BOOT_BASE`, 32 bits, sampled at the rise of `PORST_N` (18 R534); reset: strap, DESIGN CHOICE 0 before the first sample -/
  bootBase : Nat := 0
  deriving DecidableEq, Repr

/-- The `CLKR` page (Table 18.17). -/
structure Clkr where
  /-- `CLKR_STATUS.ARITH_LOCK`, 1 bit (18 R539); reset 0 -/
  arithLock : Bool := false
  /-- `CLKR_STATUS.SEC_LOCK`, 1 bit (18 R539); reset 0 -/
  secLock : Bool := false
  /-- `CLKR_LOSSES`, 64 bits, kept by a soft reset (18 R539); reset 0 -/
  losses : Word := 0
  /-- `CLKR_PORT_MHZ`, 12 bits (18 R539); reset 0 -/
  portMhz : Nat := 0
  deriving DecidableEq, Repr

/-- The `PWR` page (Table 18.16) and the power sequences. -/
structure Pwr where
  /-- `PWR_STATE.REQ`, 20 bits (18 R528); reset 0x00001 -/
  req : Nat := 1
  /-- `PWR_STATE.ACK`, 20 bits (18 R528); reset 0x00001 -/
  ack : Nat := 1
  /-- `PWR_STATE.LIVE`, 20 bits (18 R528); reset 0x00001 -/
  live : Nat := 1
  /-- `PWR_RESULT.STATUS`, 16 bits (18 R538); reset 0 -/
  status : Nat := 0
  /-- `PWR_RESULT.DOMAIN`, 5 bits (18 R538); reset 0 -/
  domain : Nat := 0
  /-- `PWR_LOST`, 20 bits, kept by a soft reset (18 R530); reset 0 -/
  lost : Nat := 0
  /-- `PWR_WAIT_MAX.US`, 16 bits (18 Table 18.16); reset 0 -/
  waitMax : Nat := 0
  /-- The running `PWR_CMD`: power up (true) or down, and its domain, 6 bits (18 R537); reset none -/
  running : Option (Bool × Nat) := none
  /-- the access that wrote the running `PWR_CMD`; the model's own field; reset Helm's -/
  acc : Access := { src := .helm, tagged := true, ptag := 0, mgmt := true }
  /-- Domains whose request rose and whose acknowledge has not risen yet, 20 bits (18 R528); reset 0 -/
  rising : Nat := 0
  /-- Domains whose next request waits for the fall of their acknowledge, 20 bits (18 R528); reset 0 -/
  again : Nat := 0
  /-- The block is in deep sleep: only `PD00` powered, 1 bit (01 R29); reset 0 -/
  asleep : Bool := false
  deriving DecidableEq, Repr

/-- One pair of verdict registers (Table 1.2): path A's word once written. -/
structure Verdicts where
  /-- Boot pair, path A register, 32 bits, empty once judged (01 R11, R15); reset empty -/
  boot : Option Nat := none
  /-- Lifecycle pair, path A register, 32 bits (01 R11, R15); reset empty -/
  lifecycle : Option Nat := none
  /-- Key-release pair, path A register, 32 bits (01 R11, R15); reset empty -/
  keyRelease : Option Nat := none
  /-- The sticky verdict-fault counter, 32 bits, kept by a soft reset (01 R13, 16); reset 0 -/
  faults : Nat := 0
  deriving DecidableEq, Repr

/-! ### Larkspur pipes (chapter 5) -/

/-- The pipe states of Table 5.1. -/
inductive PipeSt where
  | offline | loading | idle | bound | draining | fault | retired
  deriving DecidableEq, Repr

/-- One entry of a hot key cache (Table 5.21). -/
structure KcEntry where
  /-- `VALID`, 1 bit (05 R150); reset 0 -/
  valid : Bool := false
  /-- `USE`, 3 bits (05 Table 5.21); reset 0 -/
  use : Nat := 0
  /-- `PARTITION`, 5 bits; reset 0 -/
  part : Nat := 0
  /-- `SELECTOR`, 12 bits; reset 0 -/
  sel : Nat := 0
  /-- `KEY_EPOCH`, 16 bits; reset 0 -/
  epoch : Nat := 0
  /-- the frame key, 256 bits (05 R150); reset 0 -/
  key : Key := 0
  /-- Frames in the pipe that need the entry (`HELD` is this above 0) (05 R152); reset 0 -/
  holders : Nat := 0
  /-- The entry is to be zeroed when its last frame leaves, 1 bit (05 R153); reset 0 -/
  flush : Bool := false
  /-- Age in the least-recently-used order: the number of the last use (05 R152); reset 0 -/
  used : Nat := 0
  deriving DecidableEq, Repr

/-- Where a frame stands in an ingress pipe's buffer (Table 5.2). -/
inductive HeldSt where
  /-- behind a frame of its port that waits for a key -/
  | queued
  /-- waits for Chartroom's answer (R151) -/
  | waitKey
  /-- its tiles have been written: this many wait for their Sounding checks (R264), and whether its relayed frame still waits for its
  output checks (R550) -/
  | checking (n : Nat) (relay : Bool)
  deriving DecidableEq, Repr

/-- What Sounding's taps take of one input tile (08 R261, R267): an add with its operands, or the write of a received `RESULT` tile. -/
structure TileJob where
  /-- the write of a `RESULT` tile (point 0x7); else an add -/
  write : Bool
  /-- `OP` of the group -/
  op : Nat
  /-- the tile was `FRESH` -/
  fresh : Bool
  /-- shift *d* and rounding mode of a hop-0 tile (point 0x1) -/
  shift : Option (Nat × Bool) := none
  /-- unpacked elements *x* and shifted elements *y* of a hop-0 tile -/
  x : List Int := []
  y : List Int := []
  /-- lanes as read *o*, and addend *a* -/
  o : List Int
  a : List Int
  /-- the first pipe's deposit *w* − *o*, which a replay takes off (08 R267); none for a first add -/
  dep : List Int := []
  deriving DecidableEq, Repr

/-- What Sounding's taps take of one output tile (08 R261): the lanes of a running sum, or lanes and noise of a release at the positions
that are emitted, and the elements at the encryptor. -/
structure OutCheck where
  /-- 0x5 or 0x6 -/
  point : Nat
  /-- the lanes, with the noise of a release added -/
  exact : List Int
  /-- that noise *Z* -/
  noise : List Int := []
  elems : List Int
  /-- release shift *s* -/
  shift : Nat := 0
  /-- R136 clamped the tile -/
  clamped : Bool := false
  deriving DecidableEq, Repr

/-- A frame in an ingress pipe's buffer. -/
structure HeldFrame where
  /-- number of the frame in order of arrival -/
  id : Nat
  /-- the frame as it arrived -/
  arr : Arrival
  /-- where it stands -/
  st : HeldSt
  /-- cache entries it holds -/
  keys : List Nat := []
  /-- it has returned from parking memory: its credits and its count are settled (05 R98, R180) -/
  again : Bool := false
  /-- its opened payload, where it returned from parking memory to check 11 (06 R194); reset none -/
  plain : Option Bytes := none
  /-- `MRD_WALL_US` at its acceptance (06 R213); reset 0 -/
  seen : Nat := 0
  /-- it runs again for a failed tile: the number of its entry in the replay reserve (08 R267); reset none -/
  replay : Option Nat := none
  deriving DecidableEq, Repr

/-- A frame an egress pipe holds (Table 5.5, stages 5 to 7). -/
structure OutFrame where
  /-- partition, group and ticket of its collective -/
  part : Nat
  group : Nat
  ticket : Nat
  /-- frame class, Table 3.2 -/
  cls : Nat
  /-- destination ports, 12 bits coded as `BIND`, unbound ones left out (R549) -/
  ports : Nat
  /-- the frame bytes, encrypted once (R95) -/
  bytes : Bytes
  /-- output tiles that still wait for their Sounding check (R262) -/
  waits : Nat
  /-- first tile and count of tiles -/
  first : Nat
  count : Nat
  /-- it carries the last flag -/
  last : Bool
  /-- it is a frame of a release at the release point (R265) -/
  release : Bool
  /-- output tiles to be written into the working window once checked: tile, exponent, flags, lanes (R265) -/
  writes : List (Nat × Nat × Nat × List Int) := []
  /-- the ingress frame it relays: ingress pipe and frame number (R550) -/
  relays : Option (Nat × Nat) := none
  /-- it has failed a Sounding check and awaits its replay (R268) -/
  failed : Bool := false
  /-- the failing check also recorded an internal fault (R260) -/
  internal : Bool := false
  /-- its tiles as Sounding taps them (08 R261) -/
  taps : List OutCheck := []
  /-- the pipe that has recomputed it after a failing check (08 R268); reset none -/
  redone : Option Nat := none
  /-- the tile whose check failed -/
  bad : Nat := 0
  /-- a release: its tiles have been written, and the write of each waits for check 0x7 (08 R265) -/
  stored : Bool := false
  /-- its place among the `ABORT` frames a boundary released from the hold queue (03 R93); none for any other frame -/
  heldNo : Option Nat := none
  /-- the step a relayed `STEP` frame names (09 R289); none for any other frame -/
  relayOf : Option Nat := none
  deriving DecidableEq, Repr

/-- One pipe (Tables 5.14 to 5.23); 0 to 7 ingress, 8 to 15 egress. -/
structure Pipe where
  /-- `STATE`, 3 bits (05 Table 5.18); reset `OFFLINE` -/
  st : PipeSt := .offline
  /-- `CS_VALID`, 1 bit (05 Table 5.18); reset 0 -/
  csValid : Bool := false
  /-- Control store, 2,048 × 64 bits (05 R141); reset 0, DESIGN CHOICE: the spec gives no content after power-up -/
  cs : Table Word := []
  /-- `LARK_CS_ADDR`, 11 bits (05 Table 5.19); reset 0 -/
  csAddr : Nat := 0
  /-- `BIND`, 12 bits (05 R142); reset 0 -/
  bind : Nat := 0
  /-- Ports that are draining, 12 bits (05 R144); reset 0 -/
  drain : Nat := 0
  /-- `LARK_KC_SEL`, 6 bits (05 Table 5.21); reset 0 -/
  kcSel : Nat := 0
  /-- `LARK_EPOCH_SEL`, 6 bits (05 Table 5.23); reset 0 -/
  epochSel : Nat := 0
  /-- Hot key cache, 64 entries (05 R150); reset all invalid -/
  kc : Table KcEntry := []
  /-- Counters of Table 5.16 by offset, 64 bits each, wrapping (05 R181); reset 0 -/
  ctr : Table Word := []
  /-- `LARK_IN_DROP_HDR0` to `3`, 64 bits each (05 R149); reset 0 -/
  hdr : List Word := []
  /-- The frame buffer of an ingress pipe, in order of arrival (05 Table 5.2); reset empty -/
  buf : List HeldFrame := []
  /-- The frames an egress pipe holds, in order (05 Table 5.5); reset empty -/
  outs : List OutFrame := []
  /-- Bandwidth allowance of each partition, in beats (10 R321); reset 0 -/
  allow : Table Int := []
  /-- The partition the cyclic service stands at, 5 bits (10 R321); reset 0 -/
  turn : Nat := 0
  /-- Egress: the key request of a stream is outstanding, as its partition, group, ticket (05 R151); reset none -/
  waitKey : Option (Nat × Nat × Nat) := none
  /-- Egress: the stream whose key has come since its lookup missed, its next frame unbuilt (05 R151, Table 5.16); reset none -/
  filled : Option (Nat × Nat × Nat) := none
  deriving DecidableEq, Repr

/-- The credit state of one port (12 ingress, 12 egress), kept in `PD00`. On an ingress port the counts are those the port has given out and
not seen used: the room its sender has (03 R96, 18 R518). -/
structure PortCr where
  /-- Ingress: the allowance has been granted since `PORST_N`, 1 bit (05 R143); reset 0 -/
  granted : Bool := false
  /-- Ingress: it has been bound since `PORST_N`, 1 bit (05 R143); reset 0 -/
  everBound : Bool := false
  /-- Credits the sender holds on channel 0, 16 bits, stops at 65,535 (18 R519); reset 0 -/
  vc0 : Nat := 0
  /-- Credits the sender holds on channel 1, 16 bits (18 R519); reset 0 -/
  vc1 : Nat := 0
  deriving DecidableEq, Repr

/-- A key request a pipe has sent to Chartroom (05 R151, 12 R366). -/
structure KeyReq where
  pipe : Nat
  use : Nat
  part : Nat
  sel : Nat
  epoch : Nat
  deriving DecidableEq, Repr

/-- A sender stream of R102; a fabric-class stream carries the frame's step in place of the ticket, and its class, which counts its `SEQ` alone
(03 R91), in place of the stream bits. -/
structure StreamKey where
  rank : Nat
  part : Nat
  group : Nat
  ticket : Nat
  use : Nat
  bits : Nat
  deriving DecidableEq, Repr

/-- The record of one sender stream (R147). -/
structure StreamRec where
  key : StreamKey
  /-- last accepted `SEQ`, 24 bits -/
  seq : Nat
  /-- last-seen bits: `DATA`, `SCALE` reduce, `SCALE` distribution, `RESULT` -/
  last : Nat
  /-- next tile index of the stream in each of those classes (04 R113) -/
  next : Table Nat
  deriving DecidableEq, Repr

/-- A fabric-class frame that waits, not yet encrypted: no egress pipe is `BOUND` (05 R549), or its pipe lacks the key (05 R151). -/
structure FabWait where
  cls : Nat
  ports : Nat
  part : Nat
  group : Nat
  hop : Nat
  payload : Bytes
  /-- as in `OutFrame` -/
  heldNo : Option Nat
  relayOf : Option Nat
  /-- its pipe lacked the key and has asked for it (05 R151) -/
  asked : Bool := false
  deriving DecidableEq, Repr

/-- The header sideband of a stream port (18 Table 18.4). -/
structure Sideband where
  last : Bool
  part : Nat
  cls : Nat
  vc : Bool
  wireLen : Nat
  deriving DecidableEq, Repr

/-- What leaves the block at its ports. -/
inductive OutEvent where
  /-- frame bytes sent on an egress port (0 to 7 `FSP_OUT`, 8 to 11 `LSP_OUT`), with the sideband of its first beat -/
  | frame (port : Nat) (sb : Sideband) (bytes : Bytes)
  /-- credits returned on an ingress port and virtual channel -/
  | credit (port : Nat) (vc : Bool) (n : Nat)
  /-- one beat on the key delivery port -/
  | kdp (beat dest epoch part : Nat) (data : Word)
  /-- a request on the memory master port: write, tag, beat address, byte enables, partition tag, and the enabled bytes of a write in order -/
  | mmp (we : Bool) (id addr be ptag : Nat) (data : Bytes)
  /-- bytes Helm writes to host-die memory at an address: a record, a slot, settings, the mailbox -/
  | mem (addr : Nat) (bytes : Bytes)
  /-- a mailbox word shifted out on `TDO` -/
  | tap (w : Word)
  deriving DecidableEq, Repr

/-- The pipes together with what they share. -/
structure Lark where
  /-- The 16 pipes (05); reset all `OFFLINE` -/
  pipes : Table Pipe := []
  /-- Ingress port credit state by port 0 to 11 (05 R143) -/
  inCr : Table PortCr := []
  /-- Egress port credit counts by port 0 to 11 (18 R519) -/
  outCr : Table PortCr := []
  /-- Stream records (03 R102); reset none -/
  streams : List StreamRec := []
  /-- Fabric-class frame counters by class at the present step, 24 bits (03 R91); reset 0 -/
  fabSeq : Table Nat := []
  /-- The step those counters belong to, 48 bits (03 R91); reset 0 -/
  fabStep : Nat := 0
  /-- Fabric-class frames that wait unstarted for a `BOUND` egress pipe, oldest first (05 R549); reset none -/
  unsent : List FabWait := []
  /-- The number the next arriving frame takes; the model's own count; reset 0 -/
  nextId : Nat := 0
  /-- The number the next key cache use takes; the model's own count (05 R152); reset 0 -/
  nextUse : Nat := 0
  deriving DecidableEq, Repr

/-! ### Phlox (chapter 5) -/

/-- Window kinds of Table 5.27. -/
inductive WinKind where
  | free | working | shadow
  deriving DecidableEq, Repr

/-- Window states of Table 5.28. -/
inductive WinSt where
  | idle | opened | releasing | done
  deriving DecidableEq, Repr

/-- One entry of the window table (Tables 5.27 and 5.28). -/
structure Win where
  /-- `KIND`, 2 bits; reset free -/
  kind : WinKind := .free
  /-- `PARTITION`, 5 bits; reset 0 -/
  part : Nat := 0
  /-- `GROUP`, 12 bits; reset 0 -/
  group : Nat := 0
  /-- `TILES`, 15 bits; reset 0 -/
  tiles : Nat := 0
  /-- `MAP_BASE`, 14 bits; reset 0 -/
  base : Nat := 0
  /-- `SHADOW_VALID`, 1 bit (05 R174); reset 0 -/
  shadowValid : Bool := false
  /-- `PARTNER` with `HAS_PARTNER`, 14 bits; reset none -/
  partner : Option Nat := none
  /-- `STATE`, 3 bits; reset `IDLE` -/
  st : WinSt := .idle
  /-- `FRONTIER`, 15 bits (05 R178); reset 0 -/
  frontier : Nat := 0
  /-- `TICKET`, 32 bits; reset 0 -/
  ticket : Nat := 0
  deriving DecidableEq, Repr

/-- One tile record (Table 5.7). -/
structure TileRec where
  /-- `SCALE`, 8 bits (05 R168); 0 in a zeroed line -/
  scale : Nat := 0
  /-- `FRESH`, 1 bit (05 R169) -/
  fresh : Bool := false
  /-- `SAT`, `CLIP`, `NOISE`, `SPARSE`, 4 bits, `SAT` highest -/
  flags : Nat := 0
  /-- `HOP`, 8 bits (05 R162) -/
  hop : Nat := 0
  deriving DecidableEq, Repr

/-- A failed or unfinished window command result (Table 5.30). -/
structure WinResult where
  /-- `STATUS`, 16 bits; reset 0 -/
  status : Nat := 0
  /-- `WINDOW`, 13 bits; reset 0 -/
  win : Nat := 0
  /-- `DETAIL`, 2 bits; reset 0 -/
  detail : Nat := 0
  deriving DecidableEq, Repr

/-- The operations of `PHLX_WIN_CMD` (Table 5.29). -/
inductive WinOp where
  | alloc | free | bind | invalidate
  deriving DecidableEq, Repr

/-- Accumulator memory (Tables 5.24 to 5.32). -/
structure Phlx where
  /-- The granule map, 16,384 entries: 0 unused, else 1 + physical granule of 14 bits (05 R164); reset unused -/
  gmap : Table Nat := []
  /-- The window table, 8,192 entries (05 R167); reset free -/
  wins : Table Win := []
  /-- Lanes: 256 of 32 bits signed for each half granule, by 2 × granule + half (05 R164); reset 0 -/
  lanes : Table (List Int) := []
  /-- Tile records, 4 bytes each, by 512 × granule + place (05 R168); reset 0 -/
  recs : Table TileRec := []
  /-- `PHLX_ECC_CORR`, 64 bits wrapping (05 R176); reset 0 -/
  eccCorr : Word := 0
  /-- `PHLX_ECC_UNCORR`, 64 bits wrapping (05 R177); reset 0 -/
  eccUncorr : Word := 0
  /-- `PHLX_ECC_ADDR`, 64 bits (05 R177); reset 0 -/
  eccAddr : Word := 0
  /-- `PHLX_WIN_SEL`, 13 bits; reset 0 -/
  winSel : Nat := 0
  /-- `PHLX_WIN_ARG`, 32 bits used; reset 0 -/
  winArg : Nat := 0
  /-- `PHLX_WIN_RESULT` (05 Table 5.30); reset 0 -/
  result : WinResult := {}
  /-- The running window command's coming result, present while `BUSY` (05 R184); reset none -/
  running : Option WinResult := none
  /-- A window command accepted while the arithmetic loop is unlocked, which starts at its lock: operation, access, word (01 R25); reset none -/
  waiting : Option (WinOp × Access × Word) := none
  /-- `PHLX_MAP_SEL`, 14 bits; reset 0 -/
  mapSel : Nat := 0
  deriving DecidableEq, Repr

/-! ### Groups, tickets and parking (chapter 6) -/

/-- A descriptor of eight words (Tables 6.1, 6.2 and 7.1) with its list digest. -/
structure Desc where
  w0 : Word := 0
  w1 : Word := 0
  w2 : Word := 0
  w3 : Word := 0
  w4 : Word := 0
  w5 : Word := 0
  w6 : Word := 0
  w7 : Word := 0
  /-- the list digest the last `COMMIT` stored, 256 bits (06 R190) -/
  ld : BitVec 256 := 0
  deriving DecidableEq, Repr

/-- Reorder entry states of Table 6.5. -/
inductive EntrySt where
  | known | waiting | active | done | aborted
  deriving DecidableEq, Repr

/-- What a launched entry does. -/
inductive EntryRole where
  | normal
  | resyncSend
  | resyncRecv (rank : Nat)
  deriving DecidableEq, Repr

/-- The progress of one collective's streams at this block. -/
structure Flow where
  /-- marks *h*(*x*) + 1 by source rank (05 R178) -/
  marks : Table Nat := []
  /-- marks of the reduce `SCALE` pass, by source rank (04 R120) -/
  scaleMarks : Table Nat := []
  /-- source ranks a frame of the ticket has been accepted from (06 R210) -/
  heard : List Nat := []
  /-- ranks that stand absent here, and those of absence blocks received: the union of 06 R211 -/
  absent : List Nat := []
  /-- ranks of sources that stand absent (check 10.3) -/
  silent : List Nat := []
  /-- combined reduce exponents by tile, zero marker by default (04 R120) -/
  scaleMax : Table Nat := []
  /-- the reduce `SCALE` frames combined: first tile, count and `HOP` of each (03 R77, 05 R162) -/
  scaleRuns : List (Nat × Nat × Nat) := []
  /-- next tile of the own reduce pass, and of the distribution pass sent (04 R119) -/
  scaleNext : Nat := 0
  distNext : Nat := 0
  /-- distribution tiles known: exponents agreed up to here (04 R123) -/
  agreed : Nat := 0
  /-- the distribution `SCALE` frames received: first tile, count and `HOP` of each (05 R162) -/
  distRuns : List (Nat × Nat × Nat) := []
  /-- next tile of the running-sum, release or resynchronisation stream (05 R179) -/
  dataNext : Nat := 0
  /-- egress pipe of the stream, 8 to 15 (05 R159) -/
  pipe : Option Nat := none
  /-- stream counter (03 R88) -/
  counter : Nat := 0
  /-- tiles whose Sounding check has failed (08 R266) -/
  failed : List Nat := []
  /-- tiles that wait for their Sounding input check, once for each check (05 R178) -/
  unchecked : List Nat := []
  /-- a beat of the `RESULT` stream has left (07 R249) -/
  beatLeft : Bool := false
  /-- the block is past release (06 R202) -/
  swapped : Bool := false
  /-- tiles of the `RESULT` stream written (05 R174) -/
  written : Nat := 0
  /-- relayed `RESULT` frames still to build: ingress pipe, frame number, header words and plaintext (05 R550) -/
  relay : List (Nat × Nat × List Word × Bytes) := []
  /-- last-arrival source, whether local, and its lateness in µs (06 R213) -/
  late : Option (Nat × Bool × Nat) := none
  /-- `MRD_WALL_US` at that source's acceptance (06 R213) -/
  lateSeen : Nat := 0
  /-- lateness of each source entry whose last-flag frame was accepted, by entry number (06 R214) -/
  lates : Table Nat := []
  deriving DecidableEq, Repr

/-- One reorder entry (06 R194 to R201). -/
structure Entry where
  /-- ticket, 32 bits -/
  ticket : Nat
  /-- group, 12 bits; 4,096 while only a `PREV` has named the ticket -/
  group : Nat
  /-- state, Table 6.5 -/
  st : EntrySt
  /-- launched, 1 bit -/
  launched : Bool := false
  /-- made by a launch that named it as `PREV`, 1 bit (06 R197, R201) -/
  byPrev : Bool := false
  /-- of an entry not yet launched: the step at its making and at each boundary since, with `MRD_WALL_US`, oldest first (06 R201) -/
  passed : List (Nat × Nat) := []
  /-- `PREV`, 32 bits -/
  prev : Nat := 0
  /-- launched with `FIRST`, 1 bit -/
  first : Bool := false
  /-- `STEP`, 48 bits, where something has given it one (06 R201) -/
  step : Option Nat := none
  /-- descriptor digest, 64 bits (06 R192) -/
  digest : Nat := 0
  /-- group epoch, 16 bits (06 R191) -/
  gEpoch : Nat := 0
  /-- key epoch, 16 bits (05 R154) -/
  kEpoch : Nat := 0
  /-- the event that made the entry, as `MRD_WALL_US` (06 R201) -/
  madeAt : Nat := 0
  /-- the block's entry into the entry's step, as `MRD_WALL_US`, where it has entered it (06 R201) -/
  stepAt : Option Nat := none
  /-- normal launch or resynchronisation (06 R221) -/
  role : EntryRole := .normal
  /-- recorded drop of a frame of a `KNOWN` entry (06 R197) -/
  dropped : Option Status := none
  /-- `DEADLINE_US` of its step's descriptor, kept once that copy has been retired (06 R201, R217) -/
  limit : Option Nat := none
  /-- budget charge made (07 R248) -/
  charge : Nat := 0
  /-- the block has finished the collective after its release (06 R202), 1 bit -/
  fin : Bool := false
  /-- the entry has left the list and stands here only until its relay has sent its last frame (06 R198, R202), 1 bit -/
  left : Bool := false
  /-- a received `ABORT` of the finished ticket has been relayed (06 R204), 1 bit -/
  relayed : Bool := false
  /-- stream progress -/
  flow : Flow := {}
  deriving DecidableEq, Repr

/-- What the block keeps for one group besides its descriptors. -/
structure GrpRec where
  /-- last launched ticket by key epoch, one more than its 32 bits, for the epoch of the last launch and its neighbours (03 R90); reset none -/
  launched : Table Nat := []
  /-- `GRP_LAST.TICKET`, 32 bits (06 R198); reset 0 -/
  lastTicket : Nat := 0
  /-- `GRP_LAST.KEY_EPOCH`, 16 bits (06 R198); reset 0 -/
  lastEpoch : Nat := 0
  /-- `GRP_LAST.OUTCOME`, 3 bits (06 Table 6.17); reset 0 -/
  outcome : Nat := 0
  /-- The collectives of the group aborted in the block: partition, ticket and key epoch of each (03 R106); reset none -/
  aborted : List (Nat × Nat × Nat) := []
  /-- `GRP_ABORT0.VALID`, 1 bit (06 Table 6.18); reset 0 -/
  abValid : Bool := false
  /-- `GRP_ABORT0.ORIGIN`, 15 bits; reset 0 -/
  abOrigin : Nat := 0
  /-- `GRP_ABORT0.STATUS`, 16 bits; reset 0 -/
  abStatus : Nat := 0
  /-- `GRP_ABORT0.DETAIL`, 32 bits; reset 0 -/
  abDetail : Nat := 0
  /-- `GRP_ABORT1`, 64 bits (06 R200); reset 0 -/
  abLocal : Word := 0
  /-- `GRP_ABORT2`, 64 bits (06 R200); reset 0 -/
  abReceived : Word := 0
  /-- `GRP_EPOCH.MISMATCH_EPOCH`, 16 bits (06 R200); reset 0 -/
  misEpoch : Nat := 0
  /-- `STRG_LAST.RANK`, `LOCAL`, `LATE_US`, 36 bits (06 R213); reset 0 -/
  strgRank : Nat := 0
  strgLocal : Bool := false
  strgLate : Nat := 0
  /-- `STRG_LAST_TICKET.TICKET`, 32 bits (06 R213); reset 0 -/
  strgTicket : Nat := 0
  /-- `STRG_TRACK.EN` with `SLOT`, 9 bits (06 R214); reset off -/
  slot : Option Nat := none
  /-- straggler counters, 64 sources × 8 buckets of 16 bits, by 8 × source + bucket (06 R214); reset 0 -/
  hist : Table Nat := []
  deriving DecidableEq, Repr

/-- The group table, member lists, reorder lists and banked registers. -/
structure Grp where
  /-- Active copy of the descriptors, 4,096 × 8 × 64 bits (06 R189); reset 0 -/
  descA : Table Desc := []
  /-- The other copy: the shadow, or the former active copy while `OLD_HELD` (06 R217); reset 0 -/
  descS : Table Desc := []
  /-- Member list, active copy, 262,144 × 32 bits (06 R186); reset 0 -/
  mbrA : Table Nat := []
  /-- Member list, the other copy (06 R186); reset 0 -/
  mbrS : Table Nat := []
  /-- `GRP_EPOCH.ACTIVE`, 16 bits (06 Table 6.19); reset 0x0000 -/
  epA : Nat := 0
  /-- `GRP_EPOCH.SHADOW`, 16 bits (06 Table 6.19); reset 0x0001 -/
  epS : Nat := 1
  /-- `GRP_EPOCH.FROZEN`, 1 bit (06 R216); reset 0 -/
  frozen : Bool := false
  /-- `GRP_EPOCH.OLD_HELD`, 1 bit (06 R217); reset 0 -/
  oldHeld : Bool := false
  /-- `GRP_EPOCH.REFILL`, 1 bit (06 R217); reset 0 -/
  refill : Bool := false
  /-- The step at which the active copy became active, 48 bits; none: in force at every step (06 R219); reset none -/
  since : Option Nat := none
  /-- The step of the previous swap, 48 bits (06 R216); reset none -/
  lastSwap : Option Nat := none
  /-- Reorder lists by partition, at most 64 entries each in key order (06 R194); reset empty -/
  lists : Table (List Entry) := []
  /-- Per group: last tickets, aborts, straggler state (06) -/
  recs : Table GrpRec := []
  /-- `GRP_INDEX` by bank, 17 bits (02 R45); reset 0 -/
  index : Table Nat := []
  /-- `GRP_ARG0` by bank, 64 bits (06 Table 6.15); reset 0 -/
  arg0 : Table Word := []
  /-- `GRP_ARG1` by bank, 64 bits (06 Table 6.15); reset 0 -/
  arg1 : Table Word := []
  /-- `GRP_RESULT` by bank, 64 bits (06 Table 6.16); reset 0 -/
  result : Table Word := []
  /-- `MBR_INDEX` by bank, 17 bits; reset 0 -/
  mbrIndex : Table Nat := []
  /-- `MBR_ADDR` by bank, 18 bits (06 Table 6.22); reset 0 -/
  mbrAddr : Table Nat := []
  /-- `STRG_INDEX` by bank, 12 bits; reset 0 -/
  strgIndex : Table Nat := []
  /-- `STRG_SRC_SEL`, 6 bits (06 Table 6.24); reset 0 -/
  srcSel : Nat := 0
  /-- `GRP_STATION.RANK_VALID`, 1 bit, kept by a soft reset (06 R223); reset 0 -/
  rankValid : Bool := false
  /-- `GRP_STATION.RANK`, 15 bits, kept by a soft reset (06 R223); reset 0 -/
  rank : Nat := 0
  /-- `GRP_STATION.MGMT_PORTS`, 8 bits (06 Table 6.20); reset 0 -/
  mgmtPorts : Nat := 0
  /-- `GRP_STATION.LIVE_EN`, 1 bit (06 R208); reset 0 -/
  liveEn : Bool := false
  deriving DecidableEq, Repr

/-- Why a frame stands in parking memory. -/
inductive ParkWhy where
  /-- its ticket is not current (R99, check 10.7) -/
  | ticket
  /-- it lacks agreed exponents (R123) -/
  | scale
  /-- its key epoch is newer than the pair (R157 case 4) -/
  | epoch
  deriving DecidableEq, Repr

/-- A parked frame, already decrypted where its tag has been checked. -/
structure Parked where
  part : Nat
  group : Nat
  ticket : Nat
  /-- ingress pipe that parked it -/
  pipe : Nat
  why : ParkWhy
  /-- units of 2 KiB it takes (06 R224) -/
  units : Nat
  arr : Arrival
  /-- payload plaintext, present once check 8 has passed -/
  plain : Option Bytes
  /-- `MRD_WALL_US` at its acceptance (06 R213) -/
  seen : Nat := 0
  deriving DecidableEq, Repr

/-- A failed tile of a frame in the replay reserve (08 R267). -/
structure FailTile where
  tile : Nat
  /-- the failing check also recorded an internal fault (08 R260) -/
  internal : Bool
  /-- the first pipe's deposit *w* − *o* (08 R267) -/
  dep : List Int
  deriving DecidableEq, Repr

/-- A frame in the replay reserve (08 R267): its failed tiles, failing pipe and collective. -/
structure Reserve where
  units : Nat
  pipe : Nat
  part : Nat
  group : Nat
  ticket : Nat
  /-- number of the entry -/
  no : Nat
  /-- number of the frame in the failing pipe's buffer -/
  src : Nat
  /-- the frame, and `MRD_WALL_US` at its acceptance -/
  arr : Arrival
  seen : Nat
  /-- the tiles that have failed and not passed since -/
  tiles : List FailTile
  /-- a pipe has taken the frame -/
  taken : Bool := false
  deriving DecidableEq, Repr

/-- Parking memory and the `PARK` page (Tables 6.25 and 6.26). -/
structure Park where
  /-- Parked frames in order of acceptance (06 R224); reset none -/
  frames : List Parked := []
  /-- Frames in the replay reserve (06 R224, 08 R267); reset none -/
  reserve : List Reserve := []
  /-- The abort hold queue, at most 64: header fields and payload of `ABORT` frames to send (03 R93); reset empty -/
  holdQ : List (Nat × Nat × Nat × Nat × Bytes) := []
  /-- `PARK_PART_SEL`, 5 bits; reset 0 -/
  partSel : Nat := 0
  /-- `PARK_DROP_MISMATCH`, 64 bits wrapping (06 R199); reset 0 -/
  dropMismatch : Word := 0
  /-- `PARK_DROP_ORDER`, 64 bits (06 R199); reset 0 -/
  dropOrder : Word := 0
  /-- `PARK_DROP_ABSENT`, 64 bits (06 R199); reset 0 -/
  dropAbsent : Word := 0
  /-- `PARK_ABORTS`, 64 bits (06 Table 6.25); reset 0 -/
  aborts : Word := 0
  /-- `PARK_MGMT_UNKNOWN`, 64 bits (06 R215); reset 0 -/
  mgmtUnknown : Word := 0
  /-- `PARK_ABORTS_UNSENT`, 64 bits (03 R93); reset 0 -/
  abortsUnsent : Word := 0
  /-- `PARK_UNANSWERED`, 64 bits (03 R93); reset 0 -/
  unanswered : Word := 0
  deriving DecidableEq, Repr

/-! ### Aster, Zinnia and Sounding (chapters 7 and 8) -/

/-- The selection engine's counters (Table 7.11), 64 bits each, wrapping; reset 0 (07 R257). -/
structure Aster where
  selTiles : Word := 0
  scatter : Word := 0
  relTiles : Word := 0
  maxminTiles : Word := 0
  tieCuts : Word := 0
  sparseErr : Word := 0
  deriving DecidableEq, Repr

/-- The budget state of one partition (Table 7.8), kept by a soft reset. -/
structure Budget where
  /-- `TOTAL`, 64 bits signed (07 R247); reset 0 -/
  total : Nat := 0
  /-- `SPENT`, 64 bits (07 R248); reset 0 -/
  spent : Nat := 0
  /-- `GRANT`, 64 bits (07 R250); reset 0 -/
  grant : Nat := 0
  /-- `MIN_CHARGE`, 32 bits (07 R256); reset 0xFFFFFFFF -/
  minCharge : Nat := 0xFFFFFFFF
  /-- `NOISE_MULT2`, 16 bits (07 R256); reset 0xFFFF -/
  noiseMult2 : Nat := 0xFFFF
  /-- `PRIV_REQUIRED`, 1 bit (07 R256); reset 1 -/
  privRequired : Bool := true
  /-- `SEQ`, 64 bits (07 R255); reset 0 -/
  seq : Nat := 0
  deriving DecidableEq, Repr

/-- The privacy engine (Tables 7.12 to 7.14). -/
structure Zin where
  /-- Budget state by partition (07 R247) -/
  budgets : Table Budget := []
  /-- `ZIN_PART_SEL`, 5 bits; reset 0 -/
  partSel : Nat := 0
  /-- `ZIN_CMD_ADDR`, 53 bits; reset 0 -/
  cmdAddr : Word := 0
  /-- `ZIN_CMD_RESULT`, 64 bits (07 R254); reset 0 -/
  result : Word := 0
  /-- the request that waits for Astrolabe, with what the host die's memory holds for it and its policy record (07 R258; log 129); reset none -/
  waiting : Option (Access × Option Bytes × Option Bytes) := none
  /-- `ZIN_SEGMENTS`, 64 bits wrapping (07 R258); reset 0 -/
  segments : Word := 0
  /-- `ZIN_CLIPPED`, 64 bits; reset 0 -/
  clipped : Word := 0
  /-- `ZIN_NOISED`, 64 bits; reset 0 -/
  noised : Word := 0
  /-- `ZIN_REFUNDS`, 64 bits; reset 0 -/
  refunds : Word := 0
  deriving DecidableEq, Repr

/-- Pipe classes of Table 8.11. -/
inductive PipeClass where
  | healthy | suspect | suspended | testing | retired | offline
  deriving DecidableEq, Repr

/-- Sounding's record of one pipe (Table 8.14), kept by a soft reset. -/
structure SndPipe where
  /-- `CLASS`, 3 bits (08 R270); reset `OFFLINE` -/
  cls : PipeClass := .offline
  /-- `LIFE_TRANSIENT`, 16 bits; reset 0 -/
  life : Nat := 0
  /-- `STRIKES`, 8 bits; reset 0 -/
  strikes : Nat := 0
  /-- `UNITS`, 16 bits; reset 0 -/
  units : Nat := 0
  /-- `UNITS_FAILED`, 16 bits; reset 0 -/
  unitsFailed : Nat := 0
  deriving DecidableEq, Repr

/-- One Sounding check that has not finished: its pipe, collective, tile and the frame it belongs to. -/
structure Check where
  pipe : Nat
  part : Nat
  group : Nat
  ticket : Nat
  tile : Nat
  /-- number of the ingress frame, and the frame -/
  frame : Nat
  arr : Arrival
  /-- what Sounding's taps took -/
  job : TileJob
  /-- the check of a replay: the number of its entry in the replay reserve (08 R267) -/
  replay : Option Nat := none
  deriving DecidableEq, Repr

/-- A pipe of a self-test round (08 R275). -/
structure UnderTest where
  pipe : Nat
  /-- units it has still to run -/
  left : Nat
  /-- it runs the confirmation of a suspended pipe (08 R271) -/
  confirm : Bool
  deriving DecidableEq, Repr

/-- A running context command (08 R278 to R282). -/
structure CtxCmd where
  /-- the access that wrote the command -/
  acc : Access
  save : Bool
  win : Nat
  ch : Nat
  /-- `CHUNKS` completed -/
  chunks : Nat
  /-- key epoch of the partition context key -/
  epoch : Nat
  salt : BitVec 128
  /-- image bytes that have passed -/
  passed : Nat
  /-- image bytes not yet complete to a header or chunk -/
  buf : Bytes
  /-- the 64 header bytes (restore) -/
  hdr : Bytes
  /-- the header has passed (restore) -/
  headed : Bool
  /-- the egress pipe that carries the work, 8 to 15 (08 R278) -/
  pipe : Nat
  /-- the save key of a save, derived when it starts (08 R280) -/
  key : Key
  /-- the fault the pipe has with one tile of the window (08 R261, point 0x8); none: it works exactly -/
  fault : Option (Nat × TileFault)
  /-- image bytes of a restore written ahead of those that have passed: offset and bytes (11 Table 11.5) -/
  ahead : List (Nat × Bytes) := []
  deriving DecidableEq, Repr

/-- The arithmetic checking unit (Tables 8.8 to 8.16). -/
structure Snd where
  /-- `SND_POLICY.ST_EN`, 1 bit RWL; reset 1 -/
  stEn : Bool := true
  /-- `SND_POLICY.TRANSIENT_LIMIT`, 8 bits RWL; reset 0x10 -/
  limit : Nat := 0x10
  /-- `SND_POLICY.ST_TILES`, 5 bits RWL; reset 0x10 -/
  stTiles : Nat := 0x10
  /-- Class and statistics of the 16 pipes (08 R270) -/
  pipes : Table SndPipe := []
  /-- Counters of Table 8.9 by offset, 64 bits wrapping, kept by a soft reset (08 R283); reset 0 -/
  ctr : Table Word := []
  /-- The totals Helm keeps beside the counters, by the same offset (08 R277); reset 0 -/
  totals : Table Word := []
  /-- `SND_LAST0`, 64 bits (08 R266); reset 0 -/
  last0 : Word := 0
  /-- `SND_LAST1`, 64 bits; reset 0 -/
  last1 : Word := 0
  /-- `SND_LAST2`, 64 bits; reset 0 -/
  last2 : Word := 0
  /-- `SND_PIPE_SEL`, 4 bits; reset 0 -/
  pipeSel : Nat := 0
  /-- `SND_CTX_RESULT`, 64 bits; reset 0 -/
  ctxResult : Word := 0
  /-- Checks in progress, oldest first (08 R263); reset none -/
  checks : List Check := []
  /-- The running context command (08 R278); reset none -/
  ctx : Option CtxCmd := none
  /-- Pipes of the running self-test round in order (08 R275); reset none -/
  round : List UnderTest := []
  /-- Scratch memory: the output bytes of the last self-test unit on the pipe under test, the reference and the third pipe (08 R273); reset empty -/
  scratch : List Bytes := []
  /-- Ports a suspended pipe had before Helm moved them, by pipe, 12 bits (08 R271); reset 0 -/
  moved : Table Nat := []
  deriving DecidableEq, Repr

/-! ### Meridian (chapter 9) -/

/-- The modes of Table 9.1. -/
inductive MrdMode where
  | off | followFrame | followMark | master
  deriving DecidableEq, Repr

/-- One schedule entry (Table 9.9). -/
structure Sched where
  /-- `STEP`, 48 bits; reset 0 -/
  step : Nat := 0
  /-- `TYPE`, 4 bits; reset 0 -/
  typ : Nat := 0
  /-- `VALID`, 1 bit; reset 0 -/
  valid : Bool := false
  /-- `FIRED`, 1 bit; reset 0 -/
  fired : Bool := false
  /-- `PARTITION`, 5 bits; reset 0 -/
  part : Nat := 0
  /-- `FABRIC`, 1 bit; reset 0 -/
  fabric : Bool := false
  /-- `ARG` as committed, 16 bits; reset 0 -/
  arg : Nat := 0
  /-- `PERIOD` as committed, 20 bits; reset 0 -/
  period : Nat := 0
  /-- word 1 as last written, 64 bits (09 R295); reset 0 -/
  w1 : Word := 0
  /-- phases that have fired, 3 bits: *S* − 1, *S*, *S* + 1 (09 R548); reset 0 -/
  phases : Nat := 0
  deriving DecidableEq, Repr

/-- A command held while a boundary runs (09 R292). -/
inductive HeldCmd where
  | launch (a : Access) (v : Word)
  | resyncSend (a : Access) (v : Word)
  | resyncRecv (a : Access) (v : Word)
  /-- a write of word 0 or word 1 of a schedule entry -/
  | sched (a : Access) (i : Nat) (second : Bool) (v : Word)
  | stepSet (a : Access) (v : Word)
  deriving DecidableEq, Repr

/-- The step clock (Tables 9.6 to 9.9), its counters in `PD00`. -/
structure Mrd where
  /-- `MRD_CTRL.MODE`, 2 bits RWL (09 R284); reset `OFF` -/
  mode : MrdMode := .off
  /-- `MRD_CTRL.MASTER_MARK`, 1 bit RWL; reset 0 -/
  masterMark : Bool := false
  /-- `MRD_CTRL.RELAY_PORTS`, 8 bits RWL; reset 0 -/
  relayPorts : Nat := 0
  /-- `MRD_STEP.SEEN`, 1 bit (03 R92); reset 0 -/
  seen : Bool := false
  /-- `MRD_STEP.STEP`, 48 bits, kept by a soft reset (09 R284); reset 0 -/
  step : Nat := 0
  /-- `MRD_WALL_US`, 64 bits, kept by a soft reset (09 R297); reset 0 -/
  wall : Nat := 0
  /-- `MRD_STEP_TIMEOUT.US`, 20 bits (09 R299); reset 0 -/
  timeout : Nat := 0
  /-- `INT_CAUSE.LATE` has been set for the present wait, 1 bit (09 R299); reset 0 -/
  lateDone : Bool := false
  /-- `MRD_LAST_BOUNDARY`, 64 bits, kept by a soft reset; reset 0 -/
  lastBoundary : Nat := 0
  /-- `MRD_STEP_DROPS`, 64 bits wrapping, kept by a soft reset (09 R300); reset 0 -/
  drops : Word := 0
  /-- `MRD_JUMPS`, 64 bits wrapping, kept by a soft reset (09 R300); reset 0 -/
  jumps : Word := 0
  /-- The schedule table, 64 entries, kept by a soft reset (09 R294); reset empty -/
  sched : Table Sched := []
  /-- A boundary is running with phases not yet fired, and the step it came from (09 R291); reset none -/
  running : Option Nat := none
  /-- The highest step that arrived while a boundary ran (09 R293); reset none -/
  pendingStep : Option Nat := none
  /-- The payload and `HOP` of the relay of that step (09 R289); reset none -/
  pendingRelay : Option (Bytes × Nat) := none
  /-- Commands held while a boundary runs, in order (09 R292); reset none -/
  heldCmds : List HeldCmd := []
  deriving DecidableEq, Repr

/-- The key epoch of a partition or of the fabric (05 R154, R155). -/
structure KeyClock where
  /-- changes in force, newest first: step and epoch (05 R154); reset none, epoch 0, DESIGN CHOICE -/
  hist : List (Nat × Nat) := []
  /-- `LARK_EPOCH_VIEW.LOW`, 16 bits (05 Table 5.23); reset 0 -/
  low : Nat := 0
  /-- `LARK_EPOCH_VIEW.HIGH`, 16 bits; reset 0 -/
  high : Nat := 0
  /-- `LARK_EPOCH_VIEW.PAIR`, 1 bit; reset 0 -/
  pair : Bool := false
  deriving DecidableEq, Repr

/-! ### Partitions (chapter 10) -/

/-- Partition states of Table 10.2. -/
inductive PartSt where
  | free | owned | wiping
  deriving DecidableEq, Repr

/-- One memory region window (Table 10.10), kept by a soft reset. -/
structure Region where
  /-- `EN`, 1 bit (10 R314); reset 0 -/
  en : Bool := false
  /-- `RD`, 1 bit; reset 0 -/
  rd : Bool := false
  /-- `WR`, 1 bit; reset 0 -/
  wr : Bool := false
  /-- `BASE`, 48 bits; reset 0 -/
  base : Nat := 0
  /-- `LIMIT`, 48 bits; reset 0 -/
  limit : Nat := 0
  /-- `EN` was cleared and operations already checked still run, 1 bit (10 R315); reset 0 -/
  closing : Bool := false
  /-- those operations, each a channel and its operation's number (10 R315); reset none -/
  users : List (Nat × Nat) := []
  deriving DecidableEq, Repr

/-- One partition (Tables 10.6 to 10.10); every field -S unless said otherwise. -/
structure Part where
  /-- `PART_STATE.STATE`, 2 bits (10 R303); reset `FREE` -/
  st : PartSt := .free
  /-- `PART_STATE.OWNERS`, 8 bits; reset 0 -/
  owners : Nat := 0
  /-- `PART_CTRL.HOLD`, 1 bit; reset 0 -/
  hold : Bool := false
  /-- policy digest, 384 bits (10 R306); reset 0 -/
  policy : BitVec 384 := 0
  /-- `PART_POLICY_ADDR.ADDR`, 48 bits; reset 0 -/
  policyAddr : Nat := 0
  /-- `PART_RESULT.STATUS`, 16 bits, not -S; reset 0 -/
  status : Nat := 0
  /-- `PART_RESULT.STEP_FAILED`, 8 bits, not -S; reset 0 -/
  stepFailed : Nat := 0
  /-- `SLOTS` quota, 10 bits (10 R316); reset 0 -/
  qSlots : Nat := 0
  /-- `DESCRIPTORS` quota, 13 bits; reset 0 -/
  qDescs : Nat := 0
  /-- `WINDOWS` quota, 14 bits; reset 0 -/
  qWins : Nat := 0
  /-- `GRANULES` quota, 15 bits; reset 0 -/
  qGran : Nat := 0
  /-- `PARK_UNITS` quota, 12 bits; reset 0 -/
  qPark : Nat := 0
  /-- `WEIGHT`, 8 bits (10 R321); reset 0 -/
  weight : Nat := 0
  /-- `PART_MBR_RANGE.BASE`, 18 bits (10 R319); reset 0 -/
  mbrBase : Nat := 0
  /-- `PART_MBR_RANGE.LENGTH`, 19 bits; reset 0 -/
  mbrLen : Nat := 0
  /-- `PART_CHANNELS.MASK`, 16 bits (10 R320); reset 0 -/
  channels : Nat := 0
  /-- overflow mark with `VALID`, 33 bits, not -S (06 R196); reset none -/
  overflow : Option Nat := none
  /-- 8 region windows (10 R312); reset 0 -/
  regions : Table Region := []
  /-- partition tag of the `RELEASE` access while `WIPING`, 5 bits (10 Table 10.4); reset 0 -/
  wipeTag : Nat := 0
  deriving DecidableEq, Repr

/-! ### Chartroom and the hash and random unit (chapter 12) -/

/-- Slot states (12 R356), coded as `CHRT_SLOT_INFO.STATE`. -/
inductive SlotSt where
  | empty | active | shadow | confirmed
  deriving DecidableEq, Repr

/-- What SECDED finds in a stored attribute word: nothing, one wrong bit that a read puts right, or more (12 R360, R362). -/
inductive AttrEcc where
  | clean | single | uncorrectable
  deriving DecidableEq, Repr

/-- One key slot (12 R354). -/
structure Slot where
  /-- state, 2 bits (12 R356); reset `EMPTY` -/
  st : SlotSt := .empty
  /-- `BAD`, 1 bit (12 R363); reset 0 -/
  bad : Bool := false
  /-- first share *K* xor *M* of a masked class, the key of a checked class, 256 bits (12 R360, R362); reset 0 -/
  key : Key := 0
  /-- second share *M* of a masked class, 256 bits (12 R360); reset 0 -/
  mask : Key := 0
  /-- attribute word, 64 bits (12 R355); reset 0 -/
  attr : Word := 0
  /-- integrity tag of a checked class, 64 bits (12 R362); reset 0 -/
  tag : Word := 0
  /-- what the SECDED of a masked class's attribute word finds at a read (12 R360, R362); reset `clean`. The model's form of the
  check bits (log 148) -/
  ecc : AttrEcc := .clean
  /-- owner index the import named, 3 bits: the identity of a key whose attribute word holds no owner (12 R371); reset 0 -/
  owner : Nat := 0
  /-- the paired shadow or target, 9 bits (12 R374); reset none -/
  partner : Option Nat := none
  /-- `MRD_WALL_US` at its last re-mask (12 R361); reset 0 -/
  remaskAt : Nat := 0
  deriving DecidableEq, Repr

/-- An entry of Chartroom's frame-key cache (12 R366). -/
structure FrameKey where
  req : KeyReq
  /-- base slot -/
  slot : Nat
  key : Key
  deriving DecidableEq, Repr

/-- A delivery in progress (12 R378, R379). -/
structure Delivery where
  /-- the access that wrote `DELIVER` -/
  acc : Access
  slot : Nat
  dest : Nat
  /-- the four beats have been sent and the answer is awaited; else the verdict is awaited -/
  sent : Bool
  deriving DecidableEq, Repr

/-- The key store (Tables 12.12 and 12.13). -/
structure Chrt where
  /-- The 512 slots (12 R354); reset `EMPTY` -/
  slots : Table Slot := []
  /-- The root register, 256 bits (12 R365); reset none -/
  root : Option Key := none
  /-- `CHRT_STATUS.TEST_ROOT`, 1 bit; reset 0 -/
  testRoot : Bool := false
  /-- `CHRT_STATUS.MODES`, 16 bits (12 R359); reset per Logbook, DESIGN CHOICE 0 -/
  modes : Nat := 0
  /-- `CHRT_CTRL.FLOOR_MS`, 10 bits RWL (12 R361); reset 0x064 -/
  floorMs : Nat := 0x64
  /-- `CHRT_PUSHES`, 64 bits wrapping (12 R385); reset 0 -/
  pushes : Word := 0
  /-- `CHRT_DERIVES`, 64 bits wrapping (12 R385); reset 0 -/
  derives : Word := 0
  /-- `CHRT_REFUSALS`, 64 bits wrapping (12 R385); reset 0 -/
  refusals : Word := 0
  /-- `CHRT_DELIVERIES`, 64 bits wrapping (12 R379); reset 0 -/
  deliveries : Word := 0
  /-- `CHRT_REMASKS`, 64 bits wrapping (12 R385); reset 0 -/
  remasks : Word := 0
  /-- `CHRT_BAD`, 64 bits wrapping (12 R363); reset 0 -/
  badCount : Word := 0
  /-- The request queue of the pipes, at most 64, oldest first (12 R366); reset empty -/
  queue : List KeyReq := []
  /-- What the last push to engine 16 returned to Helm, 16 bits (13 R396); the model's own field; reset 0 -/
  pushSt : Nat := 0
  /-- The frame-key cache, at most 256, oldest first (12 R366); reset empty -/
  cache : List FrameKey := []
  /-- Integrity key of checked mode, 256 bits (12 R362); reset: drawn at power-up, DESIGN CHOICE 0 before -/
  itKey : Key := 0
  /-- `CHRT_SLOT_SEL.SLOT`, 9 bits; reset 0 -/
  slotSel : Nat := 0
  /-- `CHRT_CMD_ADDR`, 54 bits; reset 0 -/
  cmdAddr : Word := 0
  /-- `CHRT_CMD_ARG`, bits 63:48; reset 0 -/
  cmdArg : Word := 0
  /-- `CHRT_CMD_RESULT.STATUS`, 16 bits; reset 0 -/
  status : Nat := 0
  /-- `CHRT_CMD_RESULT.STAGE`, 8 bits; reset 0 -/
  stage : Nat := 0
  /-- `CHRT_CMD_RESULT.SLOT`, 9 bits; reset 0 -/
  resSlot : Nat := 0
  /-- `CHRT_NONCE0` to `3`, 256 bits (12 R373); reset 0 -/
  nonce : Key := 0
  /-- `CHRT_CONFIRM0` to `3`, 256 bits (12 R373); reset 0 -/
  confirm : Key := 0
  /-- `CHRT_GEN_ATTR`, 64 bits; reset 0 -/
  genAttr : Word := 0
  /-- `CHRT_KD_SEL.DEST`, 6 bits; reset 0 -/
  kdSel : Nat := 0
  /-- `CHRT_KD_LAST.STATUS`, 16 bits (12 R379); reset 0 -/
  kdStatus : Nat := 0
  /-- `CHRT_KD_LAST.DEST`, 6 bits; reset 0 -/
  kdDest : Nat := 0
  /-- `CHRT_KD_LAST.SLOT`, 9 bits; reset 0 -/
  kdSlot : Nat := 0
  /-- `CHRT_EP_SEL.INDEX`, 6 bits; reset 0 -/
  epSel : Nat := 0
  /-- The delivery in progress (12 R378); reset none -/
  delivery : Option Delivery := none
  /-- A `DELETE` waits for this slot's delivery (12 R375); reset none -/
  deleting : Option Nat := none
  /-- Last recorded import `SEQ`, by 8 × partition + owner, 256 the fabric, 64 bits (12 R371); reset 0 -/
  seqs : Table Nat := []
  /-- Context epoch by partition, 16 bits (12 R369); reset 0 -/
  ctxEpoch : Table Nat := []
  deriving DecidableEq, Repr

/-- One DRBG instance (12 R384). -/
structure Drbg where
  /-- `STATE`, 2 bits: 0 uninstantiated, 1 ready, 2 error (12 Table 12.14); reset 0 -/
  st : Nat := 0
  /-- `REQUESTS`, 21 bits (12 Table 12.14); reset 0 -/
  requests : Nat := 0
  deriving DecidableEq, Repr

/-- The hash and random unit (Table 12.14). -/
structure HashU where
  /-- `HASH_NS_STATUS.READY`, 1 bit (12 R383); reset 0 -/
  ready : Bool := false
  /-- `HASH_NS_STATUS.FAILED`, 1 bit, until `PORST_N` (12 R383); reset 0 -/
  failed : Bool := false
  /-- `HASH_HT_FAILS`, 64 bits wrapping, cleared by `PORST_N` alone (12 R386); reset 0 -/
  fails : Word := 0
  /-- Consecutive failing blocks, 3 bits (12 R383); reset 0 -/
  run : Nat := 0
  /-- The last 256 bits of seed material conditioned (12 R383); reset: none yet, DESIGN CHOICE 0 -/
  seed : Key := 0
  /-- The last sample of the repetition count test, 1 bit (12 R383); reset 0, DESIGN CHOICE -/
  rctLast : Bool := false
  /-- Samples equal to it in a row, 6 bits (12 R383); reset 0, DESIGN CHOICE -/
  rctRun : Nat := 0
  /-- `HASH_DRBG_SEL.INSTANCE`, 6 bits; reset 0 -/
  drbgSel : Nat := 0
  /-- The 35 instances of Table 12.11 (12 R384); reset uninstantiated -/
  drbgs : Table Drbg := []
  deriving DecidableEq, Repr

/-! ### Astrolabe (chapter 13) -/

/-- Engine states of Table 13.2; `OFFLINE` follows from `PD03`. -/
inductive AstrSt where
  | loading | ready | running
  deriving DecidableEq, Repr

/-- A slot descriptor with its flags (Table 13.12). -/
structure AstrSlot where
  /-- `BASE`, 12 bits (13 R388); reset 0 -/
  base : Nat := 0
  /-- `LENGTH`, 8 bits (13 R388); reset 0 -/
  len : Nat := 0
  /-- `KEY`, 1 bit (13 R389); reset 0 -/
  key : Bool := false
  /-- `SECRET`, 1 bit (13 R389); reset 0 -/
  secret : Bool := false
  /-- `SEALED`, 1 bit (13 R389); reset 0 -/
  sealed : Bool := false
  /-- the owner, 7 bits: none, the block (32) or a partition (13 R390); reset none -/
  owner : Option Nat := none
  deriving DecidableEq, Repr

/-- The big-number engine (Tables 13.10 to 13.12). -/
structure Astr where
  /-- `ASTR_STATE.STATE`, 3 bits (13 Table 13.2); reset `LOADING` -/
  st : AstrSt := .loading
  /-- `ASTR_STATE.PROGRAM`, 8 bits; reset 0 -/
  prog : Nat := 0
  /-- `ASTR_STATE.CS_VERSION`, 16 bits; reset 0 -/
  csVersion : Nat := 0
  /-- Control store, 4,096 × 64 bits (13 R392); reset 0, DESIGN CHOICE: the spec gives no content after power-up -/
  cs : Table Word := []
  /-- `ASTR_CS_ADDR.ADDR`, 12 bits; reset 0 -/
  csAddr : Nat := 0
  /-- `ASTR_ARG0`, bits 63:4; reset 0 -/
  arg0 : Word := 0
  /-- `ASTR_ARG1`, bits 63:45; reset 0 -/
  arg1 : Word := 0
  /-- arguments of the running or last operation, 2 × 64 bits (13 R395); reset 0 -/
  run0 : Word := 0
  run1 : Word := 0
  /-- `ASTR_RESULT.STATUS`, 16 bits; reset 0 -/
  status : Nat := 0
  /-- `ASTR_RESULT.PROGRAM`, 8 bits; reset 0 -/
  resProg : Nat := 0
  /-- `ASTR_RESULT.ATTEMPTS`, 8 bits; reset 0 -/
  attempts : Nat := 0
  /-- the access that wrote the running command; the model's own field; reset Helm's -/
  acc : Access := { src := .helm, tagged := true, ptag := 0, mgmt := true }
  /-- the random values drawn at the start of the running operation, in order (13 R399); reset none -/
  draws : List Nat := []
  /-- `ASTR_CYCLES`, 64 bits (13 R408); reset 0 -/
  cycles : Word := 0
  /-- `ASTR_KEY_TARGET.EN`, 1 bit (13 R396); reset 0 -/
  keyEn : Bool := false
  /-- `ASTR_KEY_TARGET.SLOT`, 8 bits (13 R396); reset 0 -/
  keySlot : Nat := 0
  /-- `ASTR_OPS`, 64 bits wrapping (13 R409); reset 0 -/
  ops : Word := 0
  /-- `ASTR_REJECTS`, 64 bits wrapping (13 R409); reset 0 -/
  rejects : Word := 0
  /-- `ASTR_FAULTS`, 64 bits wrapping (13 R409); reset 0 -/
  faults : Word := 0
  /-- `ASTR_SLOT_SEL.SLOT`, 8 bits; reset 0 -/
  slotSel : Nat := 0
  /-- `ASTR_DATA_ADDR.WORD`, 7 bits; reset 0 -/
  dataAddr : Nat := 0
  /-- The 256 slot descriptors (13 R388); reset disabled -/
  slots : Table AstrSlot := []
  /-- Operand memory, 8,192 × 64 bits (13 R387); reset 0, DESIGN CHOICE: the spec gives no content after power-up -/
  mem : Table Word := []
  deriving DecidableEq, Repr

/-! ### Logbook and lifecycle (chapters 14 and 15) -/

/-- One physical word as it reads at the three references (14 R410, R424). -/
structure PhysWord where
  /-- the read at `LOOSE`, 72 bits (14 R424); reset: the array as programmed, DESIGN CHOICE blank -/
  loose : Nat := 0
  /-- the read at `NOMINAL`, 72 bits (14 R424); reset: the array as programmed, DESIGN CHOICE blank -/
  nominal : Nat := 0
  /-- the read at `STRICT`, 72 bits (14 R424); reset: the array as programmed, DESIGN CHOICE blank -/
  strict : Nat := 0
  /-- at the wider spreads ±30 %, ±40 % and ±50 %, in that order: the bits that read 1 at `LOOSE` besides, and those that no longer read 1
  at `STRICT`, 72 bits each (14 R417 `REF_SPREAD`); the reads above are those at ±20 %; reset: as programmed, DESIGN CHOICE none -/
  wide : List (Nat × Nat) := []
  deriving DecidableEq, Repr

/-- One pulse of a programming command. -/
inductive Pulse where
  /-- up to 8 bits of a physical word (R433) -/
  | bits (phys mask : Nat)
  /-- one element of a lock fuse: write or read lock, region, element 0 to 2 (R419) -/
  | lock (read : Bool) (region element : Nat)
  deriving DecidableEq, Repr

/-- What a running programming command is. -/
inductive ProgKind where
  /-- a `LOGB_CMD`: its `OP` -/
  | cmd (op : Nat)
  /-- an event word of `TRANSITION` (15 R447 step 6) -/
  | event
  /-- `SCRAP_INTENT`, the wipe, `TO_SCRAPPED` (15 R449 steps 1, 3 and 4) -/
  | intent
  | wipe
  | scrapped
  deriving DecidableEq, Repr

/-- A running programming command (14 R433). -/
structure Prog where
  kind : ProgKind
  /-- the access that wrote the command -/
  acc : Access
  /-- the pulses still to come -/
  pulses : List Pulse
  /-- regions and logical words whose final read decides the status (R433) -/
  words : List (Nat × Nat)
  deriving DecidableEq, Repr

/-- A Logbook command Helm itself issues: `ADVANCE` of a counter to a target, or `REVOKE` of a bit (14 R435). -/
inductive HelmProg where
  | advance (c v : Nat)
  | revoke (k : Nat)
  deriving DecidableEq, Repr

/-- The one-time memory (Tables 14.6 to 14.8). -/
structure Logb where
  /-- The array, 1,024 physical words of 72 bits at three references (14 R410, R424); reset: as programmed, DESIGN CHOICE blank -/
  array : Table PhysWord := []
  /-- The sensed image behind every value in use, kept through soft reset and deep sleep (14 R424); reset: not sensed, DESIGN CHOICE blank -/
  sensed : Table PhysWord := []
  /-- The last reading behind the indications (14 R438); reset: as `sensed` -/
  seen : Table PhysWord := []
  /-- Write-lock fuses by region, 3 elements (14 R419); reset: as blown, DESIGN CHOICE unblown -/
  wFuse : Table Nat := []
  /-- Read-lock fuses by region, 3 elements (14 R419); reset: as blown, DESIGN CHOICE unblown -/
  rFuse : Table Nat := []
  /-- The spread the array is read at, 2 bits coded as `REF_SPREAD` (14 R417); reset: per Logbook, DESIGN CHOICE 0 -/
  spread : Nat := 0
  /-- `LOGB_STATUS.SENSED`, 1 bit; reset 0 -/
  done : Bool := false
  /-- `LOGB_STATUS.HOLD_LIFTED`, 1 bit (14 R429); reset 0 -/
  lifted : Bool := false
  /-- a reset hold of Table 14.3 or 15 R442, R443 stands, 1 bit; reset 0 -/
  hold : Bool := false
  /-- `LOGB_STATUS.MARGINAL`, 1 bit (14 R428); reset 0 -/
  marginal : Bool := false
  /-- `LOGB_STATUS.VPP_OK`, 1 bit (18 R533); reset 0 -/
  vpp : Bool := false
  /-- `LOGB_CORRECTED`, 64 bits wrapping, cleared by `PORST_N` alone (14 R439); reset 0 -/
  corrected : Word := 0
  /-- `LOGB_ARG`, bits 63:37; reset 0 -/
  arg : Word := 0
  /-- `LOGB_DATA`, 64 bits; reset 0 -/
  data : Word := 0
  /-- `LOGB_RESULT.STATUS`, 16 bits; reset 0 -/
  status : Nat := 0
  /-- `LOGB_RESULT.OP`, 4 bits; reset 0 -/
  op : Nat := 0
  /-- `LOGB_RESULT.PULSES`, 4 bits; reset 0 -/
  pulses : Nat := 0
  /-- `LOGB_REGION_SEL.REGION`, 4 bits; reset 0 -/
  regionSel : Nat := 0
  /-- `LOGB_VIEW_SEL`, bits 63:52; reset 0 -/
  viewSel : Word := 0
  /-- The running programming command (14 R433); reset none -/
  running : Option Prog := none
  /-- Commands Helm issues after it (16 R473, R481, 15 R457); reset none -/
  queue : List HelmProg := []
  deriving DecidableEq, Repr

/-- Where a `TRANSITION` stands between its steps (15 R447, R449). -/
inductive LifeRun where
  /-- the lifecycle verdict of step 5 is awaited -/
  | verdict (target : Nat)
  /-- the event word is being programmed -/
  | word (target : Nat)
  /-- `SCRAP_INTENT` is being programmed -/
  | intent
  /-- the wipe is being programmed -/
  | wipe
  /-- the fresh verdict of R449 step 4 is awaited -/
  | verdict2
  /-- `TO_SCRAPPED` is being programmed -/
  | scrapped
  deriving DecidableEq, Repr

/-- The lifecycle and debug gate and the TAP (Tables 15.10 and 15.11). -/
structure Life where
  /-- `LIFE_STATE.STATE`, 3 bits (15 R440, R443); reset 0b000, not decided -/
  st : Nat := 0
  /-- `LIFE_STATE.PENDING`, 3 bits (15 R448); reset 0 -/
  pending : Nat := 0
  /-- `LIFE_STATE.TORN`, 1 bit (15 R443); reset 0 -/
  torn : Bool := false
  /-- `LIFE_STATE.TORN_TARGET`, 3 bits (15 R443); reset 0 -/
  tornTarget : Nat := 0
  /-- `LIFE_STATE.NONCE_VALID`, 1 bit (15 R456); reset 0 -/
  nonceValid : Bool := false
  /-- `LIFE_NONCE0` to `3`, 256 bits (15 R456); reset 0 -/
  nonce : Key := 0
  /-- `LIFE_STATE.PW_LEFT`, 8 bits (15 R455); reset per Logbook, DESIGN CHOICE 0 -/
  pwLeft : Nat := 0
  /-- `LIFE_ARG.TARGET`, 3 bits; reset 0 -/
  target : Nat := 0
  /-- `LIFE_ARG.RIGHTS`, 32 bits; reset 0 -/
  argRights : Nat := 0
  /-- `LIFE_RESULT.STATUS`, 16 bits; reset 0 -/
  status : Nat := 0
  /-- `LIFE_RESULT.OP`, 4 bits; reset 0 -/
  op : Nat := 0
  /-- `LIFE_RESULT.STEP_FAILED`, 4 bits; reset 0 -/
  stepFailed : Nat := 0
  /-- `LIFE_RIGHTS.OPEN`, 32 bits (15 R451); reset 0 -/
  rights : Nat := 0
  /-- `LIFE_PW0` to `3`, 256 bits (15 R454); reset 0 -/
  pw : Key := 0
  /-- `LIFE_GRANT_ADDR.ADDR`, 48 bits; reset 0 -/
  grantAddr : Nat := 0
  /-- the access that wrote the running `TRANSITION`; the model's own field; reset Helm's -/
  acc : Access := { src := .helm, tagged := true, ptag := 0, mgmt := true }
  /-- The running `TRANSITION` (15 R447); reset none -/
  running : Option LifeRun := none
  /-- Scrapping is pending or under way: pages other than 0x00 and 0x12 do not answer, 1 bit (15 R443, R449); reset 0 -/
  scrapping : Bool := false
  /-- A program of the gate that ended while the security loop had no lock: its next step waits for the lock (01 R25); reset none -/
  ended : Option ProgKind := none
  /-- The TAP's instruction register, 8 bits (15 R458); reset PRESUMED 0x01, `IDCODE`, from IEEE 1149.1 (log 177) -/
  tapIr : Nat := 0x01
  /-- The mailbox word Helm has received from the TAP, 64 bits (15 Table 15.8); reset 0, DESIGN CHOICE -/
  mboxIn : Word := 0
  /-- The mailbox word Helm holds for the TAP, 64 bits (15 Table 15.8); reset 0, DESIGN CHOICE -/
  mboxOut : Word := 0
  deriving DecidableEq, Repr

/-! ### Boot, update, measurements and attestation (chapters 16 and 17) -/

/-- A slot entry of the slot control record (Table 16.2). -/
structure SlotEntry where
  /-- `STATE`, 8 bits (16 R462); reset 0 -/
  st : Nat := 0
  /-- `ATTEMPTS`, 8 bits (16 R462); reset 0 -/
  attempts : Nat := 0
  /-- watchdog in s, 10 bits (16 R462); reset 0 -/
  wdog : Nat := 0
  /-- `FW_VERSION`, 9 bits (16 R462); reset 0 -/
  fw : Nat := 0
  /-- `UC_VERSION`, 9 bits (16 R462); reset 0 -/
  uc : Nat := 0
  /-- SHA-384 of the manifest body, 384 bits (16 R462); reset 0 -/
  digest : BitVec 384 := 0
  deriving DecidableEq, Repr

/-- A slot control record (Table 16.2). -/
structure Record where
  /-- `SEQ`, 64 bits (16 R462); reset 0 -/
  seq : Nat := 0
  /-- `ACTIVE`: false slot A, true slot B (16 R462); reset 0 -/
  active : Bool := false
  /-- slot A entry (16 Table 16.2) -/
  a : SlotEntry := {}
  /-- slot B entry (16 Table 16.2) -/
  b : SlotEntry := {}
  deriving DecidableEq, Repr

/-- Boot stages of `HELM_BOOT_STATUS.STAGE`. -/
inductive Stage where
  | rom | loader | firmware | recovery
  deriving DecidableEq, Repr

/-- What a start waits for (16, cold boot). -/
inductive BootWait where
  /-- the noise source start-up tests of step 1 (12 R383) -/
  | noise
  /-- the boot verdict of step 4 -/
  | loader
  /-- the boot verdict of step 8 -/
  | firmware
  /-- a Logbook program, which `READY` waits for (15 R448) -/
  | program
  /-- the lock of the security loop, without which Helm does not start (01 R25) -/
  | clock
  deriving DecidableEq, Repr

/-- A start under way (16, steps 1 to 9). -/
structure BootRun where
  /-- what the start reads and finds -/
  inp : BootIn
  /-- what it waits for -/
  wait : BootWait
  /-- the slot being booted, its trial mark, and whether the other slot has been tried -/
  slot : Bool
  trial : Bool
  second : Bool
  /-- the status the slot's checks reported, `ST_OK` for accepted ones (01 R14) -/
  checks : Status
  /-- the fast path of R490 runs -/
  fast : Bool
  deriving DecidableEq, Repr

/-- The update session (16 R475 to R478). -/
structure Upd where
  /-- `HELM_UPD_STATUS.STATE`, 3 bits: 0 none, 1 `RECEIVING`, 2 `VERIFYING`, 3 `STAGED`, 4 ended; reset 0 -/
  st : Nat := 0
  /-- `TARGET`, 1 bit; reset 0 -/
  target : Bool := false
  /-- `RING`, 1 bit; reset 0 -/
  ring : Bool := false
  /-- `HELM_UPD_MAP0` to `3`, 256 bits (16 Table 16.14); reset 0 -/
  map : Nat := 0
  /-- `DROPS`, 16 bits, stopping (16 R484); reset 0 -/
  drops : Nat := 0
  /-- `BUNDLE`, 64 bits, 31:0 shown (16 R484); reset 0 -/
  bundle : Nat := 0
  /-- `MRD_WALL_US` of the last accepted unit (16 R478); reset 0 -/
  at_ : Nat := 0
  deriving DecidableEq, Repr

/-- Helm's boot and update state (Tables 16.13 and 16.14). -/
structure Helm where
  /-- `HELM_BOOT_STATUS.STAGE`, 3 bits; reset ROM -/
  stage : Stage := .rom
  /-- `SLOT`, 1 bit; reset 0 -/
  slot : Bool := false
  /-- `TRIAL`, 1 bit; reset 0 -/
  trial : Bool := false
  /-- `FAST_WAKE`, 1 bit (16 R490); reset 0 -/
  fastWake : Bool := false
  /-- `FELL_BACK`, 1 bit (16 R468); reset 0 -/
  fellBack : Bool := false
  /-- `COPY_FAULT`, 1 bit (16 R470); reset 0 -/
  copyFault : Bool := false
  /-- `FAIL_STATUS`, 16 bits (16 R468); reset 0 -/
  failStatus : Nat := 0
  /-- The record in force, with both slot entries (16 R462); reset none valid -/
  record : Record := {}
  /-- a valid record exists, 1 bit (16 R468); reset 0 -/
  hasRecord : Bool := false
  /-- `HELM_RECORD.COPY`, 1 bit; reset 0 -/
  copy : Bool := false
  /-- `HELM_RECORD.OTHER_VALID`, 1 bit; reset 0 -/
  otherValid : Bool := false
  /-- `SIGNER` of the booted slot, 8 bits; reset 0 -/
  signer : Nat := 0
  /-- versions of the booted manifest: firmware, microcode, policy format, settings written and oldest (16 Table 16.4); reset 0 -/
  fw : Nat := 0
  uc : Nat := 0
  policyFmt : Nat := 0
  setVer : Nat := 0
  setMin : Nat := 0
  /-- maker pairs whose signature blocks of the running slot verified, 8 bits (16 R482); reset 0 -/
  pairs : Nat := 0
  /-- `HELM_BOOT_TIME`, 64 bits; reset 0 -/
  bootTime : Nat := 0
  /-- the trial watchdog: `MRD_WALL_US` at which it expires (16 R469); reset none -/
  wdog : Option Nat := none
  /-- `HELM_ARG0`, bits 63:6; reset 0 -/
  arg0 : Word := 0
  /-- `HELM_ARG1.ADDR`, 48 bits; reset 0 -/
  arg1 : Nat := 0
  /-- `HELM_RESULT.STATUS`, 16 bits; reset 0 -/
  status : Nat := 0
  /-- `HELM_RESULT.OP`, 4 bits; reset 0 -/
  op : Nat := 0
  /-- `HELM_RESULT.STEP_FAILED`, 4 bits; reset 0 -/
  stepFailed : Nat := 0
  /-- the update session (16 R475) -/
  upd : Upd := {}
  /-- A `CONFIRM` that runs until the counters have advanced, with the access that wrote it (16 R480, R492); reset none -/
  confirming : Option Access := none
  /-- `HELM_UPD_CTRL.RING_ACCEPT`, 1 bit; reset 0 -/
  ringAccept : Bool := false
  /-- `HELM_UPD_CTRL.RING_SRC`, 15 bits; reset 0 -/
  ringSrc : Nat := 0
  /-- `HELM_STAGE_PTR.WORD`, 9 bits; reset 0 -/
  stagePtr : Nat := 0
  /-- The staging buffer, 512 × 64 bits (16 R475); reset 0, DESIGN CHOICE: the spec gives none -/
  staging : Table Word := []
  /-- `HELM_SETTINGS.AREA`, 1 bit; reset 0 -/
  area : Bool := false
  /-- `NONE`, 1 bit (16 R486); reset 0 -/
  noSettings : Bool := false
  /-- `PENDING`, 1 bit; reset 0 -/
  setPending : Bool := false
  /-- `VERSION`, 16 bits; reset 0 -/
  setInUse : Nat := 0
  /-- `SKIPPED`, 12 bits (16 R485); reset 0 -/
  skipped : Nat := 0
  /-- `SEQ` of the settings record in use, 64 bits (16 R485); reset 0 -/
  setSeq : Nat := 0
  /-- the settings record in use, and that being written by successive `SETTINGS` commands (16 R486, R487); reset empty -/
  settings : Bytes := []
  setNew : Bytes := []
  /-- the record that a migration replaces, until `CONFIRM` (16 R486); reset empty -/
  setOld : Bytes := []
  /-- SHA-384 of the booted items in order: loader, manifest, four items, settings, 7 × 384 bits (16 R489); reset empty -/
  digests : List (BitVec 384) := []
  /-- SRAM copies of the microcode, ingress and egress control stores (16 step 6); reset empty -/
  ucCopy : Bytes := []
  csInCopy : Bytes := []
  csOutCopy : Bytes := []
  /-- the certificate area as read at the last start, 64 KiB (17 Table 17.2); reset empty -/
  certs : Bytes := []
  /-- the start that waits for a verdict (16 steps 4 and 8); reset none -/
  boot : Option BootRun := none
  deriving DecidableEq, Repr

/-- The measurement registers (Tables 16.15 and 16.16). -/
structure Meas where
  /-- `MEAS_REG0` to `23`, 384 bits each (16 R471); reset 0 -/
  regs : Table (BitVec 384) := []
  /-- `MEAS_STATUS.LOCKED`, 1 bit; reset 0 -/
  locked : Bool := false
  /-- `MEAS_EVENT0` to `5`, 384 bits; reset 0 -/
  event : BitVec 384 := 0
  /-- `MEAS_RESULT.STATUS`, 16 bits; reset 0 -/
  status : Nat := 0
  deriving DecidableEq, Repr

/-- One SPDM session (17 R504). -/
structure SpdmSession where
  /-- the session is open, 1 bit; reset 0 -/
  isOpen : Bool := false
  /-- the handshake has ended with `FINISH`, 1 bit; reset 0 -/
  finished : Bool := false
  /-- session identifier, 32 bits; reset 0 -/
  id : Nat := 0
  /-- key updates of the requester's and of the responder's direction; reset 0 -/
  updReq : Nat := 0
  updRsp : Nat := 0
  /-- secured messages taken and sent under the present keys, the sequence numbers of the record layer; reset 0 -/
  seqReq : Nat := 0
  seqRsp : Nat := 0
  /-- the handshake transcript that the session's keys and verify data cover; reset empty -/
  trans : Bytes := []
  /-- the secret of the key exchange, from which the application keys derive at `FINISH`; reset empty -/
  dhe : Bytes := []
  deriving DecidableEq, Repr

/-- The SPDM responder (chapter 17) and the identity of the block. -/
structure Spdm where
  /-- the connection state: 0 none, 1 version, 2 capabilities, 3 algorithms (17 R504); reset 0 -/
  conn : Nat := 0
  /-- the selections of `ALGORITHMS` allow sessions, 1 bit (17 Table 17.5); reset 0 -/
  dhe : Bool := false
  /-- the messages of the negotiation, and of the measurement exchange, that signatures cover (17 R505); reset empty -/
  negotiated : Bytes := []
  measured : Bytes := []
  /-- the digest and certificate messages that a challenge signature covers (17 R505); reset empty -/
  certMsgs : Bytes := []
  /-- the two sessions (17 R504); reset closed -/
  s0 : SpdmSession := {}
  s1 : SpdmSession := {}
  /-- *A*, 384 bits (17 R494); reset 0 -/
  idA : BitVec 384 := 0
  /-- `ID_CERT_OK`, 1 bit (17 R500); reset 0 -/
  certOk : Bool := false
  /-- the ECDSA and ML-DSA halves of the block alias pair, DER (17 R497); reset empty -/
  aliasEc : Bytes := []
  aliasMl : Bytes := []
  /-- DeviceID P-384 and ML-DSA-87 public keys (17 R497); reset empty -/
  devEc : Bytes := []
  devMl : Bytes := []
  /-- the ECDSA and ML-DSA halves of the partition alias pairs held, DER, by partition (17 R498); reset empty -/
  partEc : Table Bytes := []
  partMl : Table Bytes := []
  deriving DecidableEq, Repr

/-! ### The retained RAM (chapter 1) -/

/-- What the partition records of the retained RAM hold (01 Table 1.7, 07 R255, 06 R223). The spec gives their content and no layout: they are
held as data beside the tag (log 62). -/
structure PartImage where
  parts : Table Part
  budgets : Table Budget
  rankValid : Bool
  rank : Nat
  /-- state, partner, `BAD` mark and owner of each slot, which the 56 bytes of its own record do not hold; no key (log 151) -/
  marks : Table Slot
  deriving DecidableEq, Repr

/-- The retained RAM of `PD00`, 64 KiB, by the areas of Table 1.7, and the wake key. A byte past the end of an area's list is zero. -/
structure Retained where
  /-- The wake key register of `PD00`, 256 bits (01 R29); reset 0 -/
  wakeKey : Key := 0
  /-- Offset 0x0000: the digest record, 256 bytes (16 Table 16.10); reset zero -/
  digest : Bytes := []
  /-- Offset 0x0100: the Chartroom image, 512 records of 56 bytes (01 Table 1.7); reset zero -/
  slots : Bytes := []
  /-- Offset 0x7100: the partition records, 8 KiB, and their tag, 128 bits (01 Table 1.7); reset none and 0 -/
  image : Option PartImage := none
  imageTag : BitVec 128 := 0
  /-- Offset 0x9100: the group records, 16 KiB (01 R32); reset zero -/
  groups : Bytes := []
  /-- Offset 0xD100: the free area, 11,008 bytes, with the alias record (17 R499); reset zero -/
  freeArea : Bytes := []
  deriving DecidableEq, Repr

/-! ### Rhumb (chapter 11) -/

/-- Channel states of Table 11.2. -/
inductive ChanSt where
  | idle | running | waiting | pausing | paused | halted
  deriving DecidableEq, Repr

/-- A loop counter (11 R334). -/
structure LoopCtr where
  /-- armed, 1 bit (11 Table 11.11); reset 0 -/
  armed : Bool := false
  /-- count, 32 bits (11 Table 11.12); reset 0 -/
  count : Nat := 0
  /-- `pc` of the owning `LOOP`, 48 bits (11 R334); reset 0 -/
  owner : Nat := 0
  deriving DecidableEq, Repr

/-- A run of bytes in one space (Table 11.5). -/
structure Seg where
  sp : Nat
  addr : Nat
  len : Nat
  deriving DecidableEq, Repr

/-- The runs of one side of a data instruction that are still to come: a list, or the row segments of a `SHUFFLE` (R335). -/
inductive SegGen where
  | list (l : List Seg)
  /-- the matrix side: address, `ROW_STRIDE`, `TILE_COLS`, element width, next row segment, bytes of it done, and segments in all -/
  | matrix (base stride cols w next done total : Nat)
  /-- the tile side: address, tile size, bytes of a row, next row segment, bytes of it done, and segments in all -/
  | tiles (base size row next done total : Nat)
  deriving DecidableEq, Repr

/-- What a channel's running data instruction does. -/
inductive JobKind where
  /-- `MOVE`, and `MOVE_SG` once its pairs are read, with `STOP_ON_LAST`; also the store of a `SIGNAL` write -/
  | move (stopOnLast : Bool)
  /-- `FILL` with its pattern -/
  | fill (pat : Word)
  /-- `COMPARE` with `STOP_ON_DIFF` -/
  | compare (stop : Bool)
  /-- `SHUFFLE`: 0 bytes as they are, 1 packs nibbles, 2 unpacks them -/
  | shuffle (form : Nat)
  /-- a descriptor of a `LIST` is being read: descriptors left, it included -/
  | desc (left : Nat)
  /-- a descriptor of a `LIST` runs: descriptors left, it included, its `LAST`, `IRQ` and `NEXT` -/
  | listed (left : Nat) (last irq : Bool) (nxt : Nat)
  /-- the pair lists of a `MOVE_SG` are being read: source pairs and destination pairs -/
  | pairs (nSrc nDst : Nat)
  deriving DecidableEq, Repr

/-- A data instruction in progress (R331 to R342). -/
structure Job where
  kind : JobKind
  /-- bytes of the transfer at its destination -/
  len : Nat
  /-- source of the next byte to request, and of the next byte not yet written -/
  rd : SegGen
  ws : SegGen
  /-- destination of the next byte to issue, and of the next byte not yet acknowledged; the second operand of a `COMPARE` -/
  wd : SegGen
  ad : SegGen
  /-- bytes read and not yet written: the read and funnel buffers -/
  funnel : Bytes := []
  /-- the second operand's bytes of a `COMPARE`; what a `SHUFFLE` of nibbles has left over -/
  funnel2 : Bytes := []
  /-- bytes of the destination done -/
  done : Nat := 0
  /-- the error that ends the instruction once what precedes it is written -/
  stop : Option Status := none
  /-- the frame with the last flag has been taken (R339) -/
  sawLast : Bool := false
  /-- frames taken from a stream source and not yet written whole: bytes left and virtual channel -/
  frames : List (Nat × Bool) := []
  /-- bytes of the last of those frames that still stand in the port, not yet in the funnel (R324) -/
  part : Nat := 0
  /-- bytes of a frame for a stream destination that have left the funnel; the frame goes out when it is whole (R338; log 142) -/
  sent : Bytes := []
  deriving DecidableEq, Repr

/-- What a waiting channel waits for (R340, R343). -/
inductive WaitFor where
  /-- a step; the flag is set at the end of the first boundary that reaches it -/
  | step (target : Nat) (met : Bool)
  | sem (i count : Nat)
  | bell
  /-- a stream endpoint, credits, or a frame -/
  | stream
  deriving DecidableEq, Repr

/-- One channel (Tables 11.10 to 11.12). -/
structure Chan where
  /-- number of the present operation: a fetch, or an instruction (10 R315); reset 0, DESIGN CHOICE -/
  serial : Nat := 0
  /-- windows that operation has been checked against (10 R315); reset none -/
  used : List Nat := []
  /-- `PRIO`, 2 bits (11 R346); reset 0 -/
  prio : Nat := 0
  /-- `STATE`, 3 bits (11 Table 11.2); reset `IDLE` -/
  st : ChanSt := .idle
  /-- `CMP_DIFF` of the state register, 1 bit (11 R333); reset 0 -/
  cmpEnd : Bool := false
  /-- `STATUS`, 16 bits (11 Table 11.11); reset 0 -/
  status : Nat := 0
  /-- `DOORBELLS`, 16 bits (11 R343); reset 0 -/
  bells : Nat := 0
  /-- `PC`, 48 bits (11 R326); reset 0 -/
  pc : Nat := 0
  /-- `RHMB_CH_SRC`: space of 3 bits and address of 48 bits (11 Table 11.12); reset 0 -/
  src : Nat × Nat := (0, 0)
  /-- `RHMB_CH_DST`: space of 3 bits and address of 48 bits (11 Table 11.12); reset 0 -/
  dst : Nat × Nat := (0, 0)
  /-- `RHMB_CH_REMAIN`, 32 bits (11 Table 11.12); reset 0 -/
  remain : Nat := 0
  /-- loop counter 0 (11 R334) -/
  loop0 : LoopCtr := {}
  /-- loop counter 1 (11 R334) -/
  loop1 : LoopCtr := {}
  /-- source offset, 64 bits signed (11 R334); reset 0 -/
  offSrc : Int := 0
  /-- destination offset, 64 bits signed (11 R334); reset 0 -/
  offDst : Int := 0
  /-- `RHMB_CH_ERR`: valid, direction, space, address, 53 bits (11 R349); reset 0 -/
  err : Bool × Bool × Nat × Nat := (false, false, 0, 0)
  /-- `RHMB_CH_CMP.VALID`, 1 bit (11 R333); reset 0 -/
  cmpValid : Bool := false
  /-- `RHMB_CH_CMP.OFFSET`, 32 bits (11 R333); reset 0 -/
  cmpOff : Nat := 0
  /-- `RHMB_CH_BYTES`, 64 bits wrapping (11 R352); reset 0 -/
  bytes : Word := 0
  /-- owner when a run of the channel last went `IDLE`: 0 none, else partition + 1, 6 bits (11 R325); reset none, for no run -/
  lastOwner : Option Nat := none
  /-- the run was started by a management access, 1 bit (11 R342); reset 0 -/
  mgmtStart : Bool := false
  /-- a `STOP` waits for a frame begun on a stream destination, 1 bit (11 R351); reset 0 -/
  stopping : Bool := false
  /-- the instruction fetched and not yet run, 4 × 64 bits (11 R326); reset none -/
  instr : Option (List Word) := none
  /-- the data instruction in progress, with the funnel and read buffers (11 R324); reset none -/
  job : Option Job := none
  /-- what a `WAITING` channel waits for (11 R343); reset none -/
  wait : Option WaitFor := none
  deriving DecidableEq, Repr

/-- One semaphore (Table 11.14). -/
structure Sem where
  /-- `OWNED`, 1 bit (11 R344); reset 0 -/
  owned : Bool := false
  /-- `PARTITION`, 5 bits (11 R344); reset 0 -/
  part : Nat := 0
  /-- `VALUE`, 32 bits (11 R344); reset 0 -/
  value : Nat := 0
  deriving DecidableEq, Repr

/-- What an outstanding memory request brings back. -/
inductive ReqKind where
  /-- an instruction -/
  | fetch
  /-- bytes of the source -/
  | data
  /-- bytes of the second operand of a `COMPARE` -/
  | data2
  /-- a write of this many bytes -/
  | write (n : Nat)
  deriving DecidableEq, Repr

/-- An outstanding request of the memory master port (18 R515). -/
structure Req where
  id : Nat
  /-- its channel; 16 once no channel waits for it -/
  ch : Nat
  /-- the channel that issued it -/
  by_ : Nat
  kind : ReqKind
  /-- beat address -/
  addr : Nat
  /-- first byte of the beat in use, and bytes in use -/
  off : Nat
  n : Nat
  /-- `MRD_WALL_US` at its acceptance -/
  wall : Nat
  /-- its answer, held until every earlier one of the channel and direction has been taken: the data, or none for an error -/
  ans : Option (Option Bytes) := none
  deriving DecidableEq, Repr

/-- The DMA (chapter 11). -/
structure Rhmb where
  /-- The 16 channels (11 R324) -/
  chans : Table Chan := []
  /-- `LSP_SRC`, 4 bits RWL (11 R338); reset 0 -/
  lspSrc : Nat := 0
  /-- `LSP_SINK`, 4 bits RWL (11 R338); reset 0 -/
  lspSink : Nat := 0
  /-- `RHMB_SEM_SEL`, 5 bits; reset 0 -/
  semSel : Nat := 0
  /-- The 32 semaphores (11 R344) -/
  sems : Table Sem := []
  /-- The four management windows (11 R324), Table 10.10 layout; reset 0 -/
  mgmt : Table Region := []
  /-- Claimed stream endpoints, 0 to 3 `LSP_IN` and 4 to 7 `LSP_OUT`: channel + 1, 5 bits each (11 R340); reset none -/
  claims : Table Nat := []
  /-- Credits Rhumb holds as sender on `LSP_IN`k, by k, 16 bits each channel (11 R338); reset 0 -/
  srcCr : Table PortCr := []
  /-- Frames standing at `LSP_OUT`k for Rhumb, by k (11 R339); reset none -/
  sink : Table (List Bytes) := []
  /-- Outstanding requests of the memory master port, at most 256 (18 R515); reset none -/
  reqs : List Req := []
  /-- Numbers of requests that have timed out and whose late answer is still to be ignored, 8 bits each (18 R515); reset none -/
  late : List Nat := []
  /-- The round-robin turn of each priority: the channel served last and the beats of its turn, 0 to 16 (11 R346); reset channel 0, 0 beats,
  DESIGN CHOICE (log 106) -/
  turns : Table (Nat × Nat) := []
  deriving DecidableEq, Repr

/-! ### Outcomes -/

/-- The faults of the block's step: none. Every command ends in a next state or a refusal. -/
inductive Fault where
  deriving DecidableEq, Repr

/-- Why a command stops. -/
inductive Refusal where
  /-- Raised by the dispatcher for a command that has no meaning yet. Safe: the run stops. -/
  | notModelled (mnemonic : String)
  /-- Raised by an access of a test page from offset +0x040 while the right `TEST_PAGES` is open: the spec gives those
  registers nowhere (02 R46, 15 R451). Safe: the run stops. -/
  | testPage (addr : Nat)
  deriving DecidableEq, Repr

/-- The whole state of the block. -/
structure State where
  /-- Commands that wait, first in first out: the model's own field; reset empty -/
  pending : List Instr := []
  bus : Bus := {}
  blk : Blk := {}
  pins : Pins := {}
  clkr : Clkr := {}
  pwr : Pwr := {}
  verdict : Verdicts := {}
  retained : Retained := {}
  lark : Lark := {}
  phlx : Phlx := {}
  grp : Grp := {}
  park : Park := {}
  aster : Aster := {}
  zin : Zin := {}
  snd : Snd := {}
  mrd : Mrd := {}
  /-- Key epochs by partition, 32 the fabric (05 R155) -/
  keyClock : Table KeyClock := []
  /-- The 32 partitions (10 R303) -/
  parts : Table Part := []
  chrt : Chrt := {}
  hashu : HashU := {}
  astr : Astr := {}
  logb : Logb := {}
  life : Life := {}
  rhmb : Rhmb := {}
  helm : Helm := {}
  meas : Meas := {}
  spdm : Spdm := {}
  /-- Counter that numbers the free values: the model's own field; reset 0, DESIGN CHOICE -/
  free : Nat := 0
  /-- What has left the block at its ports, oldest first: the model's own field; reset empty -/
  out : List OutEvent := []
  deriving DecidableEq, Repr

/-- The machine right after reset: every field at the value its docstring gives. -/
def State.reset : State := {}

end Sys2Proof.Machine
end

