-- ==== Sys2Proof/Machine/Operands.lean ====
section
/-! DEFINITION. The operand forms a frame carries: the Stolxo header (chapter 3), dense and sparse tiles (chapters 4
and 7) and absence blocks, read from bytes and written to bytes. -/

namespace Sys2Proof.Machine

/-- The header fields of Table 3.1. -/
structure Hdr where
  version : Nat
  cls : Nat
  part : Nat
  group : Nat
  gEpoch : Nat
  hop : Nat
  rank : Nat
  ticket : Nat
  kEpoch : Nat
  owner : Nat
  fmt : Nat
  op : Nat
  flags : Nat
  step : Nat
  tiles : Nat
  first : Nat
  seq : Nat
  digest : Nat
  payLen : Nat
  /-- every reserved bit is zero -/
  clean : Bool
  deriving DecidableEq, Repr

/-- Header word `i`, least significant byte first (R71). -/
def hdrWord (b : Bytes) (i : Nat) : Word := BitVec.ofNat 64 (leAt b (8 * i) 8)

/-- The header of a frame's bytes (R71). -/
def hdrOf (b : Bytes) : Hdr :=
  let w0 := hdrWord b 0
  let w1 := hdrWord b 1
  let w2 := hdrWord b 2
  let w3 := hdrWord b 3
  let w5 := hdrWord b 5
  { version := fld w0 63 60, cls := fld w0 59 56, part := fld w0 55 51, group := fld w0 50 39, gEpoch := fld w0 38 23,
    hop := fld w0 22 15, rank := fld w0 14 0, ticket := fld w1 63 32, kEpoch := fld w1 31 16, owner := fld w1 15 13,
    fmt := fld w1 12 10, op := fld w1 9 6, flags := fld w1 5 1, step := fld w2 63 16, tiles := fld w2 15 0,
    first := fld w3 63 32, seq := fld w3 31 8, digest := (hdrWord b 4).toNat, payLen := fld w5 63 49,
    clean := !bitOf w1 0 && fld w3 7 0 = 0 && fld w5 48 0 = 0 && hdrWord b 6 = 0 && hdrWord b 7 = 0 }

/-- The 64 bytes of a header (R71). -/
def hdrBytes (h : Hdr) : Bytes :=
  wordBytes (pack [(63, 60, h.version), (59, 56, h.cls), (55, 51, h.part), (50, 39, h.group), (38, 23, h.gEpoch),
    (22, 15, h.hop), (14, 0, h.rank)])
  ++ wordBytes (pack [(63, 32, h.ticket), (31, 16, h.kEpoch), (15, 13, h.owner), (12, 10, h.fmt), (9, 6, h.op), (5, 1, h.flags)])
  ++ wordBytes (pack [(63, 16, h.step), (15, 0, h.tiles)])
  ++ wordBytes (pack [(63, 32, h.first), (31, 8, h.seq)])
  ++ wordBytes (reg h.digest)
  ++ wordBytes (pack [(63, 49, h.payLen)])
  ++ zeros 16

/-- Flags of Table 3.4, by their bit in word 1. -/
def flagSatAny (h : Hdr) : Bool := h.flags.testBit 4
def flagLast (h : Hdr) : Bool := h.flags.testBit 3
def flagElastic (h : Hdr) : Bool := h.flags.testBit 2
def flagAbsent (h : Hdr) : Bool := h.flags.testBit 1
def flagSparse (h : Hdr) : Bool := h.flags.testBit 0

/-- The flags field of a header. -/
def mkFlags (satAny last elastic absent sparse : Bool) : Nat :=
  16 * satAny.toNat + 8 * last.toNat + 4 * elastic.toNat + 2 * absent.toNat + sparse.toNat

/-- `DATA`, `SCALE` and `RESULT` are the collective classes (R73). -/
def isCollective (cls : Nat) : Bool := cls = 1 || cls = 2 || cls = 3

/-- The virtual channel of a class (Table 3.2). -/
def classVc (cls : Nat) : Bool := cls = 4 || cls = 5 || cls = 6 || cls = 8

/-- The key use of a frame (Table 3.8), coded as `USE` of Table 5.21. -/
def keyUse (h : Hdr) : Nat :=
  if isCollective h.cls then (if h.hop = 0 && h.cls ≠ 3 then 0 else 1) else 4

/-- The selector of a frame's key: owner, group, or the class code for fabric (12 R365). -/
def keySel (h : Hdr) : Nat :=
  if keyUse h = 0 then h.owner else if keyUse h = 1 then h.group else h.cls

/-- The 96-bit IV of a frame (Table 3.9). -/
def nonceOf (h : Hdr) : BitVec 96 :=
  BitVec.ofNat 96 (low 13 h.step * 2 ^ 83 + low 12 h.group * 2 ^ 71 + low 32 h.ticket * 2 ^ 39 + low 15 h.rank * 2 ^ 24 + low 24 h.seq)

/-- The stream bits of `SEQ`: a lane in bits 23:22 at hop 0, an egress pipe in bits 23:21 otherwise (R88). -/
def streamBits (h : Hdr) : Nat :=
  if isCollective h.cls then (if h.hop = 0 then h.seq / 2 ^ 22 else h.seq / 2 ^ 21) else 0

/-- Credits a frame of a wire length takes (R96). -/
def creditsOf (wire : Nat) : Nat := ceilDiv wire 128

/-- Exclusive-or of a byte string with the keystream (R86). -/
def xorStream (key : Key) (iv : BitVec 96) (l : Bytes) : Bytes :=
  (List.range l.length).map (fun i => l.getD i 0 ^^^ Config.gcmStream key iv i)

/-- The bytes of a sealed frame: header, ciphertext, tag (R70, R86). -/
def sealFrame (key : Key) (h : Hdr) (plain : Bytes) : Bytes :=
  let hb := hdrBytes h
  let ct := xorStream key (nonceOf h) plain
  hb ++ ct ++ beBytes 16 (Config.gcmTag key (nonceOf h) hb ct).toNat

/-- The plaintext of a received frame, where its tag verifies under a key (R86). -/
def openFrame (key : Key) (b : Bytes) : Option Bytes :=
  let h := hdrOf b
  let ct := slice b 64 h.payLen
  if slice b (64 + h.payLen) 16 = beBytes 16 (Config.gcmTag key (nonceOf h) (b.take 64) ct).toNat
  then some (xorStream key (nonceOf h) ct) else none

/-! ### Tiles (chapters 4 and 7) -/

/-- Bits per element of a format (Table 4.2). -/
def fmtBits (f : Nat) : Nat := if f = 0 then 4 else if f = 1 then 8 else if f = 2 then 16 else 32

/-- Size of a dense tile (Table 3.6). -/
def denseSize (f : Nat) : Nat := 8 + 32 * fmtBits f

/-- Most dense tiles in one frame beside an absence block of `ab` bytes (Table 3.6, R161). -/
def tilesFit (f ab : Nat) : Nat := (16384 - ab) / denseSize f

/-- Number of tiles of a collective of `c` elements (R113). -/
def tilesOf (c : Nat) : Nat := ceilDiv c 256

/-- Count of non-padding elements of tile `t` (R115). -/
def liveElems (c t : Nat) : Nat := min 256 (c - 256 * t)

/-- Element `e` of a run of elements at a byte string (R111). -/
def elemAt (f : Nat) (l : Bytes) (e : Nat) : Int :=
  if f = 0 then
    let b := (l.getD (e / 2) 0).toNat
    sInt 4 (if e % 2 = 0 then b % 16 else b / 16)
  else if f = 1 then sInt 8 (l.getD e 0).toNat
  else if f = 2 then sInt 16 (leAt l (2 * e) 2)
  else sInt 32 (leAt l (4 * e) 4)

/-- A run of elements as bytes (R111); an odd `INT4` run leaves the last high nibble zero. -/
def packElems (f : Nat) (vs : List Int) : Bytes :=
  if f = 0 then
    (List.range (ceilDiv vs.length 2)).map (fun i =>
      BitVec.ofNat 8 (uNat 4 (vs.getD (2 * i) 0) + 16 * uNat 4 (vs.getD (2 * i + 1) 0)))
  else (vs.map (fun v => leBytes (fmtBits f / 8) (uNat (fmtBits f) v))).flatten

/-- A tile as read from a payload. -/
structure Tile where
  /-- tile index (R113) -/
  idx : Nat
  /-- `EXP` byte -/
  exp : Nat
  /-- `SAT`, `CLIP`, `NOISE`, `SPARSE`, `SAT` highest -/
  flags : Nat
  delta : Nat
  /-- reserved header bits are zero -/
  clean : Bool
  /-- dense form: 256 elements -/
  vals : List Int
  /-- entries of a sparse tile: element index and value, in order -/
  entries : List (Nat × Int)
  /-- a sparse tile that breaks R228 or the position rules of R229 -/
  badSparse : Bool
  deriving DecidableEq, Repr

/-- `EXP` is a valid tile code (Table 4.3). -/
def expValid (b : Nat) : Bool := b ≠ 0x80 && b ≠ 0x81

/-- Length of a sparse tile of `n` entries (R228). -/
def sparseLen (f n : Nat) : Nat := 16 + 4 * n + ceilDiv (n * fmtBits f) 8 + (8 - (16 + 4 * n + ceilDiv (n * fmtBits f) 8) % 8) % 8

/-- Read one tile of a format at the head of a byte string, its index following `prev`, and the rest of the string. -/
def readTile (f : Nat) (sparse : Bool) (isFirst : Bool) (prev : Nat) (l : Bytes) : Tile × Bytes :=
  let h := BitVec.ofNat 64 (leAt l 0 8)
  let delta := fld h 15 0
  let idx := if isFirst then prev else prev + delta
  let t : Tile := { idx := idx, exp := fld h 63 56, flags := fld h 55 52, delta := delta, clean := fld h 51 16 = 0,
                    vals := [], entries := [], badSparse := false }
  if sparse then
    let cw := leAt l 8 8
    let n := cw % 512
    let ps := (List.range n).map (fun i => leAt l (16 + 4 * i) 4)
    let vl := (l.drop (16 + 4 * n))
    let used := 16 + 4 * n + ceilDiv (n * fmtBits f) 8
    let es := (List.range n).map (fun i => (ps.getD i 0 - 256 * idx, elemAt f vl i))
    let ok := n ≤ 256 && cw / 512 = 0 && l.length ≥ sparseLen f n
      && decide (ps.Pairwise (· < ·)) && ps.all (fun p => 256 * idx ≤ p && p < 256 * idx + 256)
      && (slice l used (sparseLen f n - used)).all (· = 0)
      && (f ≠ 0 || n % 2 = 0 || (vl.getD (n / 2) 0).toNat / 16 = 0)
    ({ t with vals := (List.range 256).map (fun e => ((es.find? (fun x => x.1 = e)).map (·.2)).getD 0),
              entries := es, badSparse := !ok }, l.drop (sparseLen f n))
  else
    ({ t with vals := (List.range 256).map (elemAt f (l.drop 8)) }, l.drop (denseSize f))

/-- The tiles of a payload: `n` of them from index `first` (R113). -/
def readTiles (f : Nat) (sparse : Bool) : Nat → Bool → Nat → Bytes → List Tile × Bytes
  | 0, _, _, l => ([], l)
  | n + 1, isFirst, prev, l =>
    let r := readTile f sparse isFirst prev l
    let rest := readTiles f sparse n false r.1.idx r.2
    (r.1 :: rest.1, rest.2)

/-- The header word of an emitted tile (Table 4.1). -/
def tileHdr (exp flags delta : Nat) : Bytes := wordBytes (pack [(63, 56, exp), (55, 52, flags), (15, 0, delta)])

/-- A dense tile as bytes. -/
def denseTile (f exp flags delta : Nat) (vs : List Int) : Bytes := tileHdr exp flags delta ++ packElems f vs

/-- A sparse tile as bytes (Table 7.3); entries by element index. -/
def sparseTile (f exp flags delta idx : Nat) (es : List (Nat × Int)) : Bytes :=
  padTo 8 (tileHdr exp (flags ||| 1) delta ++ leBytes 8 es.length
    ++ (es.map (fun e => leBytes 4 (256 * idx + e.1))).flatten ++ packElems f (es.map (·.2)))

/-! ### Absence blocks (R81) -/

/-- Size of an absence block of `n` ranks; none for none. -/
def absenceSize (n : Nat) : Nat := if n = 0 then 0 else 8 + 8 * ceilDiv n 4

/-- An absence block at the head of a payload: its ranks and the rest, where it keeps R81. -/
def readAbsence (l : Bytes) : Option (List Nat × Bytes) :=
  let hd := leAt l 0 8
  let n := hd / 2 ^ 48
  let rs := (List.range n).map (fun i => leAt l (8 + 2 * i) 2)
  if 1 ≤ n ∧ n ≤ 4096 ∧ hd % 2 ^ 48 = 0 ∧ absenceSize n ≤ l.length ∧ rs.Pairwise (· < ·) ∧ (∀ r ∈ rs, r < 24576)
      ∧ (slice l (8 + 2 * n) (absenceSize n - (8 + 2 * n))).all (· = 0)
  then some (rs, l.drop (absenceSize n)) else none

/-- An absence block as bytes, empty for no rank. -/
def absenceBlock (rs : List Nat) : Bytes :=
  if rs = [] then [] else padTo 8 (leBytes 8 (rs.length * 2 ^ 48) ++ (rs.map (leBytes 2)).flatten)

end Sys2Proof.Machine
end

