-- ==== Sys2Proof/Machine/Arith.lean ====
section
/-! DEFINITION. The integer arithmetic of tiles: rounding and requantisation (chapter 4), selection, clipping and the
noise sampler (chapter 7). Every intermediate is an exact integer. -/

namespace Sys2Proof.Machine

/-- Round-half-even of `x` by `d` bits (R125); a shift of 0 leaves `x`. -/
def rhe (x : Int) (d : Nat) : Int :=
  if d = 0 then x
  else
    let q := x / 2 ^ d
    let rem := x - q * 2 ^ d
    let half : Int := 2 ^ (d - 1)
    if rem > half then q + 1 else if rem = half ∧ q % 2 = 1 then q + 1 else q

/-- Stochastic rounding of `x` by `d` bits with the rounding word `u` (R126). -/
def stochRound (x : Int) (d u : Nat) : Int := (x + ((u / 2 ^ (32 - d) : Nat) : Int)) / 2 ^ d

/-- The shift of a hop-0 element to the agreed exponent (R124). -/
def requantIn (stoch : Bool) (x : Int) (d u : Nat) : Int :=
  if d = 0 then x else if 32 ≤ d then 0 else if stoch then stochRound x d u else rhe x d

/-- The rounding word of element `e` of tile `t` (R127, Table 4.5). -/
def roundWord (key : Key) (step group rank t ticket e : Nat) : Nat :=
  let ctr := low 48 step * 2 ^ 80 + low 12 group * 2 ^ 68 + low 15 rank * 2 ^ 53 + low 32 t * 2 ^ 21 + (e / 4) * 2 ^ 15 + low 15 ticket
  ((Config.aesBlock key (BitVec.ofNat 128 ctr)).toNat / 2 ^ (32 * (3 - e % 4))) % 2 ^ 32

/-- The clamp bound *L* for *M* members (R130). -/
def clampBound (m : Nat) : Int := (((2 ^ 31 - 1) / m : Nat) : Int)

/-- Clamp to ±`l`. -/
def clampTo (l y : Int) : Int := if y > l then l else if y < -l then -l else y

/-- The largest lane magnitude. -/
def laneMax : Int := 2 ^ 31 - 1

/-- The lane sum of R131 and R132, and whether it saturated. -/
def addLane (o a : Int) : Int × Bool :=
  if o + a > laneMax then (laneMax, true)
  else if o + a < -(2 ^ 31) then (-laneMax, true) else (o + a, false)

/-- Combine an element into a lane by operation: sum and top-k add, maximum, minimum (R131, R236). -/
def combineLane (op : Nat) (o a : Int) : Int × Bool :=
  if op = 2 then (max o a, false) else if op = 3 then (min o a, false) else addLane o a

/-- The smallest shift that brings magnitude `m` to at most `p` under round-half-even (R134). -/
def outShift (m p : Int) : Nat := ((List.range 40).find? (fun s => rhe m s ≤ p)).getD 40

/-- The largest element code of a format (R134). -/
def fmtMax (f : Nat) : Int := 2 ^ (fmtBits f - 1) - 1

/-- Release of values at agreed exponent `ea`: output exponent byte, elements, and whether R136 clamped (R134 to R136). -/
def requantOut (f : Nat) (ea : Int) (vs : List Int) : Nat × List Int × Bool :=
  let m := vs.foldl (fun acc v => max acc |v|) 0
  let p := fmtMax f
  let s := outShift m p
  if ea + s ≤ 127 then (uNat 8 (ea + s), vs.map (fun v => rhe v s), false)
  else (127, vs.map (fun v => clampTo p (rhe v (127 - ea).toNat)), true)

/-! ### Selection (R232) -/

/-- Insert an entry into a list ranked by magnitude, equal magnitudes after those already there. -/
def rankInsert (x : Nat × Int) : List (Nat × Int) → List (Nat × Int)
  | [] => [x]
  | y :: r => if |y.2| < |x.2| then x :: y :: r else y :: rankInsert x r

/-- Entries, given in position order, ranked by R232. -/
def rankEntries (l : List (Nat × Int)) : List (Nat × Int) := l.foldl (fun acc x => rankInsert x acc) []

/-- Insert by position. -/
def posInsert (x : Nat × Int) : List (Nat × Int) → List (Nat × Int)
  | [] => [x]
  | y :: r => if x.1 < y.1 then x :: y :: r else y :: posInsert x r

/-- The first `k` entries under R232, in position order. -/
def selectTop (k : Nat) (l : List (Nat × Int)) : List (Nat × Int) :=
  ((rankEntries l).take k).foldl (fun acc x => posInsert x acc) []

/-- R232's position rule decided the last entry kept (R257). -/
def tieCut (k : Nat) (l : List (Nat × Int)) : Bool :=
  let r := rankEntries l
  if 1 ≤ k ∧ k < r.length then |(r.getD (k - 1) (0, 0)).2| = |(r.getD k (0, 0)).2| else false

/-! ### Clipping (R239, R240) -/

/-- Integer square root, rounded down, of a number below 2^64. -/
def isqrt (n : Nat) : Nat :=
  (List.range 32).reverse.foldl (fun r i => if (r + 2 ^ i) * (r + 2 ^ i) ≤ n then r + 2 ^ i else r) 0

/-- The least `e` with √`q` ≤ 2^`e` (R239). -/
def clipExp (q : Nat) : Nat := ((List.range 33).find? (fun e => q ≤ 4 ^ e)).getD 33

/-- ρ: 2^(23 + e) ÷ √`q`, rounded to nearest, ties to even (R239). -/
def clipRho (q : Nat) : Nat :=
  let e := clipExp q
  let n := 2 ^ (46 + 2 * e)
  let r := isqrt (n / q)
  let mid := (2 * r + 1) * (2 * r + 1) * q
  if mid < 4 * n then r + 1 else if mid = 4 * n ∧ r % 2 = 1 then r + 1 else r

/-- The clipping factor *f*16 of a segment with sum of squares `q` and bound `b` (R239). -/
def clipFactor (q b : Nat) : Nat :=
  if q ≤ b * b then 0x8000
  else min 0x8000 (rhe ((b * clipRho q : Nat) : Int) (8 + clipExp q)).toNat

/-- A clipped element (R240). -/
def clipElem (f16 : Nat) (y : Int) : Int := rhe (y * f16) 15

/-! ### Noise (R242 to R244) -/

/-- Stream bit `i` of element `e` of tile `t` under the release key (R243). -/
def noiseBit (kr : Key) (t e i : Nat) : Bool :=
  let blk := (Config.aesBlock kr (BitVec.ofNat 128 (low 32 t * 2 ^ 96 + low 8 e * 2 ^ 88 + low 88 (i / 128)))).toNat
  let r := i % 128
  (blk / 2 ^ (8 * (15 - r / 8))).testBit (r % 8)

/-- A draw of `w` bits at stream position `p`: the first bit taken has weight 2^0. -/
def drawBits (bits : Nat → Bool) (p w : Nat) : Nat :=
  (List.range w).foldl (fun acc i => acc + (if bits (p + i) then 2 ^ i else 0)) 0

/-- Number of bits of `n`. -/
def bitLen (n : Nat) : Nat := ((List.range 256).find? (fun i => n < 2 ^ i)).getD 256

/-- The stream of an element has 2^88 blocks of 128 bits (R243), and every turn of a loop of R244 but a first one takes a bit: a loop
of more turns than this has no stream left. -/
def drawLimit : Nat := 2 ^ 96

/-- `uniform(m)`: a value below `m` and the new stream position; none past `drawLimit` draws (R244). -/
def uniformDraw (bits : Nat → Bool) (m : Nat) : Nat → Nat → Option (Nat × Nat)
  | 0, _ => none
  | k + 1, p =>
    if m ≤ 1 then some (0, p)
    else
      let w := bitLen (m - 1)
      let u := drawBits bits p w
      if u < m then some (u, p + w) else uniformDraw bits m k (p + w)

/-- The loop of `bexp(n, d)` for `n` ≤ `d`, from count `k` (R244). -/
def bexpLoop (bits : Nat → Bool) (n d : Nat) : Nat → Nat → Nat → Option (Bool × Nat)
  | 0, _, _ => none
  | f + 1, k, p =>
    match uniformDraw bits (d * k) drawLimit p with
    | none => none
    | some (u, p') => if u < n then bexpLoop bits n d f (k + 1) p' else some (k % 2 = 1, p')

/-- `bexp(n, d)`: 1 with probability exp(−n/d) (R244). -/
def bexp (bits : Nat → Bool) (d : Nat) : Nat → Nat → Nat → Option (Bool × Nat)
  | 0, _, _ => none
  | f + 1, n, p =>
    if n > d then
      match bexpLoop bits 1 1 drawLimit 1 p with
      | none => none
      | some (false, p') => some (false, p')
      | some (true, p') => bexp bits d f (n - d) p'
    else bexpLoop bits n d drawLimit 1 p

/-- `v` of `sample`: successive `bexp(1, 1)` draws of 1 (R244). -/
def geomDraw (bits : Nat → Bool) : Nat → Nat → Nat → Option (Nat × Nat)
  | 0, _, _ => none
  | f + 1, v, p =>
    match bexpLoop bits 1 1 drawLimit 1 p with
    | none => none
    | some (false, p') => some (v, p')
    | some (true, p') => geomDraw bits f (v + 1) p'

/-- `sample(sigma)` of R244; none past `drawLimit`. -/
def sampleNoise (bits : Nat → Bool) (sigma : Nat) : Nat → Nat → Option Int
  | 0, _ => none
  | f + 1, p =>
    let t := sigma + 1
    match uniformDraw bits t drawLimit p with
    | none => none
    | some (u, p1) =>
      match bexp bits t drawLimit u p1 with
      | none => none
      | some (false, p2) => sampleNoise bits sigma f p2
      | some (true, p2) =>
        match geomDraw bits drawLimit 0 p2 with
        | none => none
        | some (v, p3) =>
          let y := u + t * v
          if y ≥ 2 ^ 26 then sampleNoise bits sigma f p3
          else
            match uniformDraw bits 2 drawLimit p3 with
            | none => none
            | some (bv, p4) =>
              let neg := bv < 1
              if neg ∧ y = 0 then sampleNoise bits sigma f p4
              else
                let dlt := ((y * t : Nat) : Int) - ((sigma * sigma : Nat) : Int)
                match bexp bits (2 * sigma * sigma * t * t) drawLimit (dlt * dlt).toNat p4 with
                | none => none
                | some (true, _) => some (if neg then -(y : Int) else (y : Int))
                | some (false, p5) => sampleNoise bits sigma f p5

/-- The noise of element `e` of tile `t` (R245, R246); a sample whose stream ends before it is drawn, to which
the spec gives no value, is free (log 6). -/
def noiseOf (kr : Key) (sigma t e : Nat) : Int :=
  match sampleNoise (noiseBit kr t e) sigma drawLimit 0 with
  | some z => z
  | none => sInt 27 (Config.freeNat (kr.toNat + t * 256 + e))

/-- A key from 32 output bytes of a byte-valued function, byte 0 in bits 7:0. -/
def keyOf (f : Nat → Byte) : Key := BitVec.ofNat 256 (leNat ((List.range 32).map f))

/-- The bytes of a key, byte 0 first. -/
def keyBytes (k : Key) : Bytes := leBytes 32 k.toNat

/-- The release key *K*r (R242). -/
def releaseKey (seed : Key) (ticket group part step : Nat) : Key :=
  keyOf (Config.ctrDrbg (keyBytes seed)
    (beBytes 4 ticket ++ beBytes 2 (low 12 group) ++ beBytes 1 part ++ zeros 3 ++ beBytes 6 step)
    (ascii "ORPV-NZ1"))

/-! ### Sounding's sums (R259) -/

/-- Row sum `i` of a tile. -/
def rowSum (vs : List Int) (i : Nat) : Int := ((vs.drop (16 * i)).take 16).foldl (· + ·) 0

/-- Column sum `j` of a tile. -/
def colSum (vs : List Int) (j : Nat) : Int := (List.range 16).foldl (fun acc i => acc + vs.getD (16 * i + j) 0) 0

end Sys2Proof.Machine
end

