-- ==== Sys2Proof/Machine/Ops.lean ====
section
/-! DEFINITION. The named operations every family shares: access to the tables of State, the control bus with its
checks and error records (chapters 1 and 2, R542), and interrupt causes. -/

namespace Sys2Proof.Machine

/-- The value of a status word (Table 19.3). -/
def stCode : Status → Nat
  | .ok => 0x0000 | .badArg => 0x0101 | .badFormat => 0x0102 | .bounds => 0x0201 | .quota => 0x0202
  | .budgetExhausted => 0x0203 | .wrongState => 0x0301 | .transitionTorn => 0x0302 | .lockRefused => 0x0303
  | .partition => 0x0401 | .destDenied => 0x0402 | .keyRevoked => 0x0403 | .sigFail => 0x0404
  | .tagFail => 0x0405 | .inputRejected => 0x0406 | .descMismatch => 0x0501 | .orderTimeout => 0x0502
  | .deadline => 0x0503 | .aborted => 0x0504 | .memberAbsent => 0x0505 | .arithMismatch => 0x0601
  | .pipeRetired => 0x0602 | .fuseMarginal => 0x0603 | .eccUncorrectable => 0x0604 | .busError => 0x0701
  | .paused => 0x0702

/-! ### The tables of State -/

def State.page (s : State) (p : Nat) : Page := tget {} s.bus.pages p
def State.setPage (s : State) (p : Nat) (v : Page) : State := { s with bus.pages := tset {} s.bus.pages p v }
def State.part (s : State) (p : Nat) : Part := tget {} s.parts p
def State.setPart (s : State) (p : Nat) (v : Part) : State := { s with parts := tset {} s.parts p v }
def State.pipe (s : State) (k : Nat) : Pipe := tget {} s.lark.pipes k
def State.setPipe (s : State) (k : Nat) (v : Pipe) : State := { s with lark.pipes := tset {} s.lark.pipes k v }
def State.win (s : State) (w : Nat) : Win := tget {} s.phlx.wins w
def State.setWin (s : State) (w : Nat) (v : Win) : State := { s with phlx.wins := tset {} s.phlx.wins w v }
def State.grpRec (s : State) (g : Nat) : GrpRec := tget {} s.grp.recs g
def State.setGrpRec (s : State) (g : Nat) (v : GrpRec) : State := { s with grp.recs := tset {} s.grp.recs g v }
def State.entries (s : State) (p : Nat) : List Entry := tget [] s.grp.lists p
def State.setEntries (s : State) (p : Nat) (l : List Entry) : State := { s with grp.lists := tset [] s.grp.lists p l }
def State.budget (s : State) (p : Nat) : Budget := tget {} s.zin.budgets p
def State.setBudget (s : State) (p : Nat) (v : Budget) : State := { s with zin.budgets := tset {} s.zin.budgets p v }
def State.sndPipe (s : State) (k : Nat) : SndPipe := tget {} s.snd.pipes k
def State.setSndPipe (s : State) (k : Nat) (v : SndPipe) : State := { s with snd.pipes := tset {} s.snd.pipes k v }
def State.clockOf (s : State) (i : Nat) : KeyClock := tget {} s.keyClock i
def State.setClock (s : State) (i : Nat) (v : KeyClock) : State := { s with keyClock := tset {} s.keyClock i v }
def State.schedOf (s : State) (i : Nat) : Sched := tget {} s.mrd.sched i
def State.setSched (s : State) (i : Nat) (v : Sched) : State := { s with mrd.sched := tset {} s.mrd.sched i v }

/-- Something leaves the block at a port. -/
def State.emit (s : State) (e : OutEvent) : State := { s with out := s.out ++ [e] }

/-- Scrapping pending at a start waits for `OTP_VPP`: `SCRAP_WAIT`, in which the block stays in reset (15 R450). -/
def scrapWait (s : State) : Bool :=
  s.life.scrapping && !s.blk.ready && s.life.running.isNone && s.logb.running.isNone && !s.logb.vpp

/-- The block stands in reset and nothing in it acts: held (01 R35, 14 R428, 18 R530), under `TAMPER_N` (18 R532), in deep sleep
(01 R29), or in `SCRAP_WAIT`. -/
def inReset (s : State) : Bool := s.blk.held || s.blk.tamper || s.pwr.asleep || scrapWait s

/-- The parts on the arithmetic loop's clocks act: out of reset, and only while that loop holds lock (01 R25, Table 1.5). -/
def arithRuns (s : State) : Bool := !inReset s && s.clkr.arithLock

/-- The parts on the security loop's clock act: out of reset, and only while that loop holds lock (01 R25, Table 1.5). -/
def secRuns (s : State) : Bool := !inReset s && s.clkr.secLock

/-- An action of a part on the arithmetic loop's clocks. -/
def whenArith (s : State) (act : State → State) : State := if arithRuns s then act s else s

/-- An action of a part on the security loop's clock. -/
def whenSec (s : State) (act : State → State) : State := if secRuns s then act s else s

/-- The next free number (a value the spec leaves open), and the state with its counter moved on. -/
def freeDraw (s : State) : Nat × State := (Config.freeNat s.free, { s with free := s.free + 1 })

/-- A DRBG instance of Table 12.11 can serve `n` requests in a row: instantiated, and not due on the way for a reseed that would fail
(12 R383, R384). -/
def drbgServesAll (s : State) (i n : Nat) : Bool :=
  let d : Drbg := tget {} s.hashu.drbgs i
  d.st = 1 && (d.requests + n ≤ 2 ^ 20 || !s.hashu.failed)

/-- A DRBG instance can serve a request. -/
def drbgServes (s : State) (i : Nat) : Bool := drbgServesAll s i 1

/-- A value drawn from a DRBG instance: free, one request each, with a reseed when the interval is used up
(12 R384; log 6). An instance that cannot serve counts no request (R383). -/
def drbgDraw (s : State) (i : Nat) : Nat × State :=
  let d : Drbg := tget {} s.hashu.drbgs i
  let f := freeDraw s
  (f.1, if drbgServes s i then
      { f.2 with hashu.drbgs := tset {} s.hashu.drbgs i { d with requests := if d.requests < 2 ^ 20 then d.requests + 1 else 1 } }
    else f.2)

/-- `n` values drawn in a row. -/
def drbgDraws (s : State) (i : Nat) : Nat → List Nat × State
  | 0 => ([], s)
  | n + 1 =>
    let d := drbgDraw s i
    let r := drbgDraws d.2 i n
    (d.1 :: r.1, r.2)

/-! ### Accesses (chapters 1 and 2) -/

/-- The management bit as it reaches the target: R18 clears it on a host access the trusted bridge did not tag, and on every access of
a data-class channel, 0 to 11 (11 R324). -/
def isMgmt (a : Access) : Bool :=
  match a.src with
  | .host => a.tagged && a.mgmt
  | .helm => a.mgmt
  | .rhumb ch => decide (12 ≤ ch.toNat) && a.mgmt

/-- A tagged access without the management bit. -/
def isTagged (a : Access) : Bool := a.tagged && !isMgmt a

/-- The bank of a banked register: one for each tag, and one (32) for management accesses (R41, R45). -/
def bankOf (a : Access) : Nat := if isMgmt a then 32 else a.ptag.toNat

/-- The tag an error record takes: 0x00 for an untagged access (Table 2.12). -/
def errTag (a : Access) : Nat := if a.tagged then a.ptag.toNat else 0

/-- An access made by Helm firmware with the management bit set. -/
def helmAccess : Access := { src := .helm, tagged := true, ptag := 0, mgmt := true }

/-- The page classes of Table 2.2. -/
inductive PageClass where
  | pub | pubRead | mgmt | indexed | chan (k : Nat) | part (n : Nat) | test | unmapped
  deriving DecidableEq, Repr

/-- The class of a page (Table 2.3). -/
def pageClass (p : Nat) : PageClass :=
  if p = 0x00 then .pub
  else if 0x01 ≤ p ∧ p ≤ 0x03 then .mgmt
  else if p = 0x04 then .pubRead
  else if p = 0x05 then .mgmt
  else if 0x08 ≤ p ∧ p ≤ 0x0E then .mgmt
  else if p = 0x10 ∨ p = 0x11 then .mgmt
  else if p = 0x12 ∨ p = 0x14 ∨ p = 0x15 then .pubRead
  else if 0x20 ≤ p ∧ p ≤ 0x2F then .chan (p - 0x20)
  else if p = 0x30 then .mgmt
  else if 0x40 ≤ p ∧ p ≤ 0x57 then .mgmt
  else if 0x60 ≤ p ∧ p ≤ 0x62 then .indexed
  else if 0x80 ≤ p ∧ p ≤ 0x9F then .part (p - 0x80)
  else if 0xC0 ≤ p ∧ p ≤ 0xC2 then .mgmt
  else if 0xF0 ≤ p ∧ p ≤ 0xFF then .test
  else .unmapped

/-- `PAGE_ID` type and instance of a mapped page (Table 2.3). -/
def pageType (p : Nat) : Nat × Nat :=
  if p = 0x00 then (0x01, 0)
  else if 0x01 ≤ p ∧ p ≤ 0x03 then (0x02, p - 1)
  else if p = 0x04 then (0x03, 0)
  else if p = 0x05 then (0x04, 0)
  else if 0x08 ≤ p ∧ p ≤ 0x0B then (0x05, p - 8)
  else if p = 0x0C ∨ p = 0x0D then (0x06, p - 0x0C)
  else if p = 0x0E then (0x07, 0)
  else if p = 0x10 ∨ p = 0x11 then (0x08, p - 0x10)
  else if p = 0x12 then (0x09, 0)
  else if p = 0x14 ∨ p = 0x15 then (0x0A, p - 0x14)
  else if 0x20 ≤ p ∧ p ≤ 0x2F then (0x0B, p - 0x20)
  else if p = 0x30 then (0x0C, 0)
  else if 0x40 ≤ p ∧ p ≤ 0x47 then (0x0D, p - 0x40)
  else if 0x48 ≤ p ∧ p ≤ 0x4F then (0x0E, p - 0x48)
  else if 0x50 ≤ p ∧ p ≤ 0x53 then (0x0F, p - 0x50)
  else if 0x54 ≤ p ∧ p ≤ 0x57 then (p - 0x44, 0)
  else if 0x60 ≤ p ∧ p ≤ 0x62 then (p - 0x4C, 0)
  else if 0x80 ≤ p ∧ p ≤ 0x9F then (0x17, p - 0x80)
  else if 0xC0 ≤ p ∧ p ≤ 0xC2 then (p - 0xA8, 0)
  else if 0xF0 ≤ p ∧ p ≤ 0xFF then (0x1F, p - 0xF0)
  else (0, 0)

/-- The power domains one of which must be live for a page to respond (Tables 1.1 and 1.6; log 12). -/
def pageDomains (p : Nat) : List Nat :=
  if 0x08 ≤ p ∧ p ≤ 0x0B then [2]
  else if p = 0x0C ∨ p = 0x0D then [3]
  else if p = 0x0E then [4]
  else if 0x20 ≤ p ∧ p ≤ 0x30 then [18]
  else if 0x40 ≤ p ∧ p ≤ 0x47 then [5 + (p - 0x40)]
  else if 0x48 ≤ p ∧ p ≤ 0x4F then [5 + (p - 0x48)]
  else if 0x50 ≤ p ∧ p ≤ 0x53 then [13, 14, 15, 16]
  else if 0x54 ≤ p ∧ p ≤ 0x56 then [17]
  else if p = 0x57 ∨ (0x60 ≤ p ∧ p ≤ 0x62) then [19]
  else [0]

/-- Domain `d` is in service (`PWR_STATE.LIVE`). -/
def domLive (s : State) (d : Nat) : Bool := s.pwr.live.testBit d

/-- The three masks of `PWR_STATE` with a domain in service. -/
def setLive (s : State) (d : Nat) : State :=
  { s with
    pwr.req := setBit s.pwr.req d, pwr.ack := setBit s.pwr.ack d, pwr.live := setBit s.pwr.live d
    pwr.rising := clrBit s.pwr.rising d, pwr.again := clrBit s.pwr.again d }

/-- Pages that answer while the ROM recovery loader runs (16 R474). -/
def recoveryPage (p : Nat) : Bool :=
  p = 0x00 || (0x01 ≤ p && p ≤ 0x03) || p = 0x10 || p = 0x11 || p = 0x12 || p = 0x14 || p = 0x15

/-- The pages that the ROM of a block with a lifted hold reads for the TAP (15 R459). -/
def liftedPage (p : Nat) : Bool := p = 0x00 || p = 0x10 || p = 0x11 || p = 0x12

/-- A page responds: its domain is live, and `READY` has risen unless it is page 0x00 (R47, R69); while scrapping is under way
only pages 0x00 and 0x12 respond (15 R449), and in a lifted block those of R459. -/
def pageUp (s : State) (p : Nat) : Bool :=
  (pageDomains p).any (domLive s) && (!s.life.scrapping || p = 0 || p = 0x12)
    && (if s.logb.lifted then liftedPage p else p = 0 || (s.blk.ready && (!s.blk.recovery || recoveryPage p)))

/-- In a lifted block no register is reachable but by the reads Helm's ROM makes for the TAP's mailbox (14 R429, 15 R459). -/
def liftedBars (s : State) (a : Access) (write : Bool) : Bool := s.logb.lifted && (a.src ≠ .helm || write)

/-- No register is reachable: the block stands in reset, or the port's domain is off (R35, R513). -/
def dead (s : State) : Bool := inReset s || !domLive s 18

/-- Helm runs, so its paths, its routines and the step clock it drives act (15 R449, 18 R531, R532). -/
def helmRuns (s : State) : Bool := secRuns s && domLive s 1

/-- The right `TEST_PAGES` (Table 15.5, R46). -/
def testOpen (s : State) : Bool := s.life.rights.testBit 2

/-- The class of a page as it stands now: test pages are unmapped while no right names them (R46). -/
def pageClassNow (s : State) (p : Nat) : PageClass :=
  match pageClass p with
  | .test => if testOpen s then .test else .unmapped
  | c => c

/-- The partition whose channel mask holds channel `k` (10 R320). -/
def chanOwner (s : State) (k : Nat) : Option Nat := (List.range 32).find? (fun p => (s.part p).channels.testBit k)

/-- The partition a descriptor belongs to in its copy (R547). -/
def descOwner (d : Desc) : Option Nat := if bitOf d.w0 12 then some (fld d.w0 62 58) else none

/-- A descriptor of the active copy, or of the other one. -/
def State.desc (s : State) (shadow : Bool) (g : Nat) : Desc := tget {} (if shadow then s.grp.descS else s.grp.descA) g

def State.setDesc (s : State) (shadow : Bool) (g : Nat) (d : Desc) : State :=
  if shadow then { s with grp.descS := tset {} s.grp.descS g d } else { s with grp.descA := tset {} s.grp.descA g d }

/-- The group, and the copy, that an access's own index register selects on an indexed page (R45, R547). -/
def selected (s : State) (a : Access) (p : Nat) : Nat × Bool :=
  if p = 0x60 then
    let i := tget 0 s.grp.index (bankOf a)
    (low 12 i, i.testBit 16)
  else if p = 0x61 then
    let i := tget 0 s.grp.mbrIndex (bankOf a)
    (low 12 i, i.testBit 16)
  else (low 12 (tget 0 s.grp.strgIndex (bankOf a)), false)

/-- The access carries the tag of the partition that owns the selected group (R45, R547). -/
def ownsSelected (s : State) (a : Access) (p : Nat) : Bool :=
  let gs := selected s a p
  descOwner (s.desc gs.2 gs.1) = some a.ptag.toNat

/-- The class rules of Table 2.2 with R42, R44, R45, R50, R51, R545 and Table 10.2. -/
def classAllows (s : State) (a : Access) (p off : Nat) (write : Bool) : Bool :=
  if !write && (off = 0x00 || off = 0x08) then true
  else if !write && p = 0x00 && (off = 0x40 || off = 0x50) then true
  else if isMgmt a then true
  else if !a.tagged then false
  else if !write && off = 0x38 then true
  else if (s.part a.ptag.toNat).st ≠ .owned
      && !(!write && (off < 0x40 || (pageClassNow s p = .part a.ptag.toNat && off = 0x40))) then false
  else if write && (off = 0x28 || off = 0x30) then false
  else match pageClassNow s p with
    | .pub => !write
    | .pubRead => !write
    | .mgmt => false
    | .test => false
    | .unmapped => false
    | .indexed =>
      if off = 0x40 then true
      else if off = 0x10 then !write
      else if off < 0x40 then decide (off = 0x38 ∧ (s.page p).err.ptag = a.ptag.toNat)
      else if p = 0x60 && !write && (off = 0xC8 || off = 0xD0) then true
      else if p = 0x60 && write && (off = 0xC8 || off = 0xD0) then false
      else ownsSelected s a p
    | .chan k => chanOwner s k = some a.ptag.toNat
    | .part n =>
      if n = a.ptag.toNat then !write || off = 0x18 || off = 0x20 else false

/-- What the control bus decides before a register acts. -/
inductive Gate where
  /-- the register acts -/
  | pass
  /-- nothing answers -/
  | dead
  /-- recorded in `BLK_DECODE_ERR` -/
  | decode (st : Status)
  /-- recorded in `PAGE_ERR` -/
  | refuse (st : Status)
  deriving DecidableEq, Repr

/-- The checks of R39, R42, R44 to R47 and R69 on one access, in the order of R542. -/
def gate (s : State) (a : Access) (addr be : Nat) (write : Bool) : Gate :=
  let p := addr / 4096
  let off := addr % 4096
  if !secRuns s || !domLive s 18 || liftedBars s a write then .dead
  else if pageClassNow s p = .unmapped then .decode .badArg
  else if !pageUp s p then .decode .wrongState
  else if !classAllows s a p (off - off % 8) write then .refuse .partition
  else if be ≠ 0xFF ∨ off % 8 ≠ 0 then .refuse .badArg
  else .pass

/-- R59's rule of first record. DESIGN CHOICE (log 114): `OVER` stands where `VALID` alone was cleared and a new first record fills the
fields; R59 says 'every field' and gives `OVER` no value there. -/
def recordErr (e : ErrRec) (a : Access) (write : Bool) (addr code : Nat) : ErrRec :=
  if e.valid then { e with again := true }
  else { valid := true, again := e.again, dir := write, mgmt := isMgmt a, ptag := errTag a, addr := addr, status := code }

/-- Set cause bit `i` of `INT_CAUSE` of a page. -/
def raise (s : State) (p i : Nat) : State :=
  s.setPage p { s.page p with cause := (s.page p).cause ||| bitWord i }

/-- The access ends with the port's error response (R514). -/
def refusedResp (s : State) (st : Status) : State := { s with bus.resp := { refused := true, stat := stCode st, rdata := 0 } }

/-- The access ends done, with read data (R514). -/
def answer (s : State) (d : Word) : State := { s with bus.resp := { refused := false, stat := 0, rdata := d } }

/-- Record a status code on the page of an address under R59: `PAGE_ERR` and `ACCESS_ERR`. -/
def pageErrorCode (s : State) (a : Access) (write : Bool) (addr code : Nat) : State :=
  let p := addr / 4096
  let pg := s.page p
  s.setPage p { pg with err := recordErr pg.err a write (addr % 4096) code, cause := pg.cause ||| bitWord 63 }

/-- Record a status on the page of an address under R59. -/
def pageError (s : State) (a : Access) (write : Bool) (addr : Nat) (st : Status) : State := pageErrorCode s a write addr (stCode st)

/-- Refuse an access on a mapped, powered page (R59, R60). -/
def refuse (s : State) (a : Access) (write : Bool) (addr : Nat) (st : Status) : State :=
  refusedResp (pageError s a write addr st) st

/-- Refuse an access that no page takes (R46, R47, R65). DESIGN CHOICE (log 115): `DECODE_ERR` of page 0 rises with a first record
only, as its table says ('when `VALID` is set'), and not again while `VALID` is already 1. -/
def decodeError (s : State) (a : Access) (write : Bool) (addr : Nat) (st : Status) : State :=
  let e := recordErr s.bus.decode a write addr (stCode st)
  let s1 := { s with bus.decode := e }
  refusedResp (if s.bus.decode.valid then s1 else raise s1 0 62) st

/-- A register write: the bus checks, then the state refusals, then the argument refusals (R542), then the effect. -/
def regWrite (s : State) (a : Access) (addr : Nat) (stateSt argSt : Option Status) (k : State → State) : State :=
  match gate s a addr 0xFF true with
  | .dead => s
  | .decode st => decodeError s a true addr st
  | .refuse st => refuse s a true addr st
  | .pass =>
    match stateSt with
    | some st => refuse s a true addr st
    | none =>
      match argSt with
      | some st => refuse s a true addr st
      | none => k (answer s 0)

/-- A register read: the bus checks, then a refusal of the register, then the answer and what the read does. -/
def regRead (s : State) (a : Access) (addr : Nat) (st : Option Status) (d : Word) (k : State → State) : State :=
  match gate s a addr 0xFF false with
  | .dead => s
  | .decode x => decodeError s a false addr x
  | .refuse x => refuse s a false addr x
  | .pass =>
    match st with
    | some x => refuse s a false addr x
    | none => k (answer s d)

/-- The refusal of a condition. -/
def refuseIf (c : Bool) (st : Status) : Option Status := if c then some st else none

/-- The first of two refusals. -/
def orElse (x y : Option Status) : Option Status := match x with | some st => some st | none => y

/-- R546: a write that sets a must-be-zero bit is refused. -/
def mbz (v : Word) (mask : Nat) : Option Status := refuseIf (v.toNat &&& mask ≠ 0) .badArg

/-- The low bits `hi:lo` as a mask. -/
def maskBits (hi lo : Nat) : Nat := (2 ^ (hi + 1 - lo) - 1) * 2 ^ lo

/-- A command that completes with a status other than `ST_OK` records it on its page (chapter 2, errors on access). -/
def noteCmd (s : State) (a : Access) (addr : Nat) (st : Status) : State :=
  if st = .ok then s else pageError s a true addr st

/-- The address of an offset on a page. -/
def regAt (p off : Nat) : Nat := p * 4096 + off

/-! ### The power handshake (18 R528, R538) -/

def pwrCmdAddr : Nat := regAt 0xC0 0x48

/-- A command of the page ends: `PWR_RESULT` and `CMD_DONE` (R537, R538). -/
def pwrDone (s : State) (a : Access) (d : Nat) (st : Status) : State :=
  noteCmd (raise { s with pwr.status := stCode st, pwr.domain := d, pwr.running := none } 0xC0 0) a pwrCmdAddr st

/-- Helm brings a domain into service of its own accord: the handshake completes within what asks for it (log 42), and a `PWR_CMD` whose
handshake it overtakes ends with it (R538, R540). -/
def handshake (s : State) (d : Nat) : State :=
  if domLive s d then s
  else if (s.pwr.running.map (·.2)) = some d then pwrDone (setLive s d) s.pwr.acc d .ok
  else setLive s d

/-! ### Interrupt lines (R61, R62) -/

/-- A page is pending: a bit of `INT_CAUSE` and `INT_ENABLE` is 1 and the page is mapped. -/
def pagePending (s : State) (p : Nat) : Bool :=
  pageClassNow s p ≠ .unmapped && ((s.page p).cause &&& (s.page p).enable) ≠ 0

/-- The line a page routes to: 0 `IRQ_HOST`, 1 + k for `IRQ_PART`k (R61). -/
def pageLine (s : State) (p : Nat) : Nat :=
  match pageClass p with
  | .part n => 1 + n / 8
  | .chan k => match chanOwner s k with | some n => 1 + n / 8 | none => 0
  | _ => 0

/-- The level of interrupt line `k`, coded as `INT_LINE_STATUS` (R62). -/
def irqLevel (s : State) (k : Nat) : Bool :=
  !s.bus.lineMask.testBit k && domLive s 18 &&
    (List.range 256).any (fun p => pagePending s p && pageLine s p = k)

/-- Wrap a 64-bit count up by `n`. -/
def bump (w : Word) (n : Nat) : Word := w + BitVec.ofNat 64 n

/-- Raise the counter at `off` of a pipe's page (Table 5.16). -/
def larkCount (s : State) (k off n : Nat) : State :=
  let p := s.pipe k
  s.setPipe k { p with ctr := tset 0 p.ctr off (bump (tget 0 p.ctr off) n) }

/-- Raise the counter at `off` of the `SND` page (Table 8.9). -/
def sndCount (s : State) (off n : Nat) : State :=
  { s with snd.ctr := tset 0 s.snd.ctr off (bump (tget 0 s.snd.ctr off) n) }

end Sys2Proof.Machine
end

