-- ==== Sys2Proof/Machine/Keys.lean ====
section
/-! DEFINITION. Reading Chartroom's slots and deriving keys from them (12 R354 to R365): what the pipes, Zinnia, Sounding
and Astrolabe look up. -/

namespace Sys2Proof.Machine

/-! ### Attribute words (Table 12.1) -/

def atOwner (w : Word) : Nat := fld w 63 61
def atPart (w : Word) : Nat := fld w 60 56
def atClass (w : Word) : Nat := fld w 55 52
def atEpoch (w : Word) : Nat := fld w 46 31
def atMask (w : Word) : Nat := fld w 30 13
def atBank (w : Word) : Nat := fld w 12 10
def atDests (w : Word) : Nat := fld w 9 2
def atBlock (w : Word) : Bool := bitOf w 0

/-- An attribute word of its fields. -/
def mkAttr (owner part cls usage epoch mask bank dests : Nat) (block : Bool) : Word :=
  pack [(63, 61, owner), (60, 56, part), (55, 52, cls), (51, 47, usage), (46, 31, epoch), (30, 13, mask), (12, 10, bank),
    (9, 2, dests), (0, 0, if block then 1 else 0)]

def State.slot (s : State) (i : Nat) : Slot := tget {} s.chrt.slots i
def State.setSlot (s : State) (i : Nat) (v : Slot) : State := { s with chrt.slots := tset {} s.chrt.slots i v }

/-- A class is in checked mode (R359). -/
def checkedClass (s : State) (cls : Nat) : Bool := s.chrt.modes.testBit cls

/-- `n` bytes of KMAC256 under a key with a customisation string. -/
def kmac (key : Bytes) (msg : Bytes) (n : Nat) (custom : String) : Bytes :=
  (List.range n).map (Config.kmac256 key msg n (ascii custom))

/-- The integrity tag of a checked slot (R362). -/
def slotTag (s : State) (key : Key) (attr : Word) : Word :=
  bytesWord (kmac (keyBytes s.chrt.itKey) (keyBytes key ++ wordBytes attr) 8 "ORPV-IT1")

/-- The slot's check holds: its tag in checked mode, an attribute word that SECDED can read in masked mode (R362). -/
def slotSound (s : State) (i : Nat) : Bool :=
  let x := s.slot i
  if checkedClass s (atClass x.attr) then decide (x.tag = slotTag s x.key x.attr) else decide (x.ecc ≠ .uncorrectable)

/-- The key an `ACTIVE` slot gives a consumer: none for a slot in another state, or `BAD`, or whose check fails (R356, R363). -/
def slotKey (s : State) (i : Nat) : Option Key :=
  let x := s.slot i
  if x.st = .active && !x.bad && slotSound s i then some (x.key ^^^ x.mask) else none

/-- A slot of a class can be written: a masked one takes its mask from instance 34, which must serve (R360, R383). -/
def canPut (s : State) (cls : Nat) : Bool := checkedClass s cls || drbgServes s 34

/-- Slots of these classes can be written in a row: each masked one takes a mask from instance 34 (R360, R383). -/
def canPutAll (s : State) (l : List Nat) : Bool :=
  let n := (l.filter (fun c => !checkedClass s c)).length
  n = 0 || drbgServesAll s 34 n

/-- Write a slot: two shares in masked mode, one piece and a tag in checked mode (R360, R362). Without a mask nothing is written. -/
def putSlot (s : State) (i : Nat) (st : SlotSt) (key : Key) (attr : Word) (partner : Option Nat) : State :=
  if checkedClass s (atClass attr) then
    s.setSlot i { st := st, key := key, attr := attr, tag := slotTag s key attr, partner := partner, remaskAt := s.mrd.wall }
  else if !drbgServes s 34 then s
  else
    let d := drbgDraw s 34
    let m : Key := BitVec.ofNat 256 d.1
    d.2.setSlot i { st := st, key := key ^^^ m, mask := m, attr := attr, partner := partner, remaskAt := s.mrd.wall }

/-- The check of a slot that is read: a failing one is marked `BAD` (R363), a word with one wrong bit is put right (R360). -/
def noteBad (s : State) (i : Nat) : State :=
  let x := s.slot i
  if x.st ≠ .empty && !x.bad && !slotSound s i then
    raise { s.setSlot i { x with bad := true } with chrt.badCount := bump s.chrt.badCount 1 } 0x08 0
  else if x.ecc = .single then s.setSlot i { x with ecc := .clean }
  else s

/-- Read the key of a slot: its check is made, and noted (R362, R363). -/
def useKey (s : State) (i : Nat) : Option Key × State := let s1 := noteBad s i; (slotKey s1 i, s1)

/-- The lowest slot whose contents satisfy a test. -/
def findSlot (s : State) (c : Slot → Bool) : Option Nat := (s.chrt.slots.find? (fun e => c e.2)).map (·.1)

/-- The `ACTIVE` slot of a class, partition, owner and epoch. -/
def activeSlot (s : State) (cls part owner epoch : Nat) : Option Nat :=
  findSlot s (fun x => x.st = .active && atClass x.attr = cls && atPart x.attr = part && atOwner x.attr = owner && atEpoch x.attr = epoch)

/-! ### Derivation (R364, R365) -/

/-- The KDF of R364, over a key as bytes. -/
def kdfBytes (k : Bytes) (label : String) (ctx : Bytes) : Key :=
  BitVec.ofNat 256 (Config.hmac384 k (beBytes 4 1 ++ ascii label ++ [0] ++ ctx ++ beBytes 4 0x100)).toNat

/-- The KDF of R364. -/
def kdf (k : Key) (label : String) (ctx : Bytes) : Key := kdfBytes (keyBytes k) label ctx

/-- The 48 bytes of a SHA-384 value. -/
def digestBytes (d : BitVec 384) : Bytes := leBytes 48 d.toNat

/-- The 384-bit value of 48 bytes. -/
def digestOf (l : Bytes) : BitVec 384 := BitVec.ofNat 384 (leNat (l.take 48))

/-- The result base of a group (Table 12.4). -/
def resultBase (psec : Key) (p g e : Nat) : Key := kdf psec "ORPV-RS1" (beBytes 1 p ++ beBytes 2 g ++ beBytes 2 e)

/-- A frame key from its base key (Table 12.4). -/
def frameKey (base : Key) (use part sel epoch : Nat) : Key :=
  kdf base "ORPV-FK1" (beBytes 1 use ++ beBytes 1 part ++ beBytes 2 sel ++ beBytes 2 epoch)

/-- The base slot of a request (Table 3.8, Table 12.2). -/
def baseSlot (s : State) (r : KeyReq) : Option Nat :=
  if r.use = 0 then activeSlot s 4 r.part r.sel r.epoch
  else if r.use = 4 then findSlot s (fun x => x.st = .active && atClass x.attr = 3 && atEpoch x.attr = r.epoch)
  else if r.use = 3 then activeSlot s 7 r.part 0 r.epoch
  else activeSlot s 6 r.part 0 r.epoch

/-- The key a request derives from its base key. -/
def requestKey (base : Key) (r : KeyReq) : Key :=
  if r.use = 1 then frameKey (resultBase base r.part r.sel r.epoch) 1 r.part r.sel r.epoch
  else if r.use = 2 then kdf base "ORPV-RD1" (beBytes 1 r.part ++ beBytes 2 r.epoch)
  else if r.use = 3 then base
  else frameKey base r.use r.part r.sel r.epoch

/-- The frame key of a fabric class and epoch, where a `FABRIC` key of the epoch may reach the pipe (R19, R551). -/
def fabricKey (s : State) (cls epoch : Nat) (pipe : Option Nat) : Option Key :=
  let r : KeyReq := { pipe := pipe.getD 8, use := 4, part := 0, sel := cls, epoch := epoch }
  match baseSlot s r with
  | none => none
  | some i =>
    if (match pipe with | some k => (atMask (s.slot i).attr).testBit k | none => true) then (slotKey s i).map (fun b => requestKey b r)
    else none

/-- The `PSEC` slot of a partition's epoch is read: its check is made (R242, R363). -/
def noteNoise (s : State) (p epoch : Nat) : State := match activeSlot s 6 p 0 epoch with | some i => noteBad s i | none => s

/-- The noise seed of a partition and epoch (R242, Table 12.4). -/
def noiseSeed (s : State) (p epoch : Nat) : Option Key :=
  match activeSlot s 6 p 0 epoch with
  | none => none
  | some i =>
    if (atMask (s.slot i).attr).testBit 17 then (slotKey s i).map (fun b => kdf b "ORPV-NS1" (beBytes 1 p ++ beBytes 2 epoch)) else none

end Sys2Proof.Machine
end

