-- ==== Sys2Proof/Machine/Crypto.lean ====
section
/-! DEFINITION. Public-key arithmetic: modular powers, short-Weierstrass curves, ECDH and ECDSA (13 R393, FIPS 186-5), seed
expansion (13 R397), and the hybrid signatures of 07 R252. The lattice schemes are uninterpreted (log 3). -/

namespace Sys2Proof.Machine

/-- Square and multiply over the low bits of the exponent. -/
def powLoop : Nat → Nat → Nat → Nat → Nat → Nat
  | 0, _, _, _, acc => acc
  | f + 1, b, e, m, acc => powLoop f (b * b % m) (e / 2) m (if e % 2 = 1 then acc * b % m else acc)

/-- `b` to the power `e` modulo `m`, for exponents of at most `w` bits. -/
def powMod (w b e m : Nat) : Nat := powLoop w (b % m) e m (1 % m)

/-- A short-Weierstrass curve of *b* bits with a generator of prime order (13 R394). -/
structure Curve where
  bits : Nat
  p : Nat
  a : Nat
  b : Nat
  gx : Nat
  gy : Nat
  n : Nat
  deriving DecidableEq, Repr

/-- P-256 (SP 800-186). -/
def p256 : Curve :=
  { bits := 256
    p := 0xffffffff00000001000000000000000000000000ffffffffffffffffffffffff
    a := 0xffffffff00000001000000000000000000000000fffffffffffffffffffffffc
    b := 0x5ac635d8aa3a93e7b3ebbd55769886bc651d06b0cc53b0f63bce3c3e27d2604b
    gx := 0x6b17d1f2e12c4247f8bce6e563a440f277037d812deb33a0f4a13945d898c296
    gy := 0x4fe342e2fe1a7f9b8ee7eb4a7c0f9e162bce33576b315ececbb6406837bf51f5
    n := 0xffffffff00000000ffffffffffffffffbce6faada7179e84f3b9cac2fc632551 }

/-- P-384 (SP 800-186). -/
def p384 : Curve :=
  { bits := 384
    p := 0xfffffffffffffffffffffffffffffffffffffffffffffffffffffffffffffffeffffffff0000000000000000ffffffff
    a := 0xfffffffffffffffffffffffffffffffffffffffffffffffffffffffffffffffeffffffff0000000000000000fffffffc
    b := 0xb3312fa7e23ee7e4988e056be3f82d19181d9c6efe8141120314088f5013875ac656398d8a2ed19d2a85c8edd3ec2aef
    gx := 0xaa87ca22be8b05378eb1c71ef320ad746e1d3b628ba79b9859f741e082542a385502f25dbf55296c3a545e3872760ab7
    gy := 0x3617de4a96262c6f5d9e98bf9292dc29f8f41dbd289a147ce9da3113b5f0b8c00a60b1ce1d7e819d7a431d7c90ea0e5f
    n := 0xffffffffffffffffffffffffffffffffffffffffffffffffc7634d81f4372ddf581a0db248b0a77aecec196accc52973 }

/-- P-521 (SP 800-186). -/
def p521 : Curve :=
  { bits := 521
    p := 2 ^ 521 - 1
    a := 2 ^ 521 - 4
    b := 0x0051953eb9618e1c9a1f929a21a0b68540eea2da725b99b315f3b8b489918ef109e156193951ec7e937b1652c0bd3bb1bf073573df883d2c34f1ef451fd46b503f00
    gx := 0x00c6858e06b70404e9cd9e3ecb662395b4429c648139053fb521f828af606b4d3dbaa14b5e77efe75928fe1dc127a2ffa8de3348b3c1856a429bf97e7e31c2e5bd66
    gy := 0x011839296a789a3bc0045c8a5fb42c7d1bd998f54449579b446817afbd17273e662c97ee72995ef42640c550b9013fad0761353c7086a272c24088be94769fd16650
    n := 0x01fffffffffffffffffffffffffffffffffffffffffffffffffffffffffffffffffa51868783bf2f966b7fcc0148f709a5d03bb5c9b8899c47aebb6fb71e91386409 }

/-- The inverse modulo a prime. -/
def invMod (c : Curve) (m x : Nat) : Nat := powMod (c.bits + 1) x (m - 2) m

/-- `x - y` modulo `m`. -/
def subMod (m x y : Nat) : Nat := (x % m + m - y % m) % m

/-- A point, none the point at infinity. -/
abbrev Point := Option (Nat × Nat)

/-- A point lies on a curve, with both coordinates below *p*. -/
def onCurve (c : Curve) (q : Nat × Nat) : Bool :=
  q.1 < c.p && q.2 < c.p && q.2 * q.2 % c.p = (q.1 * q.1 * q.1 + c.a * q.1 + c.b) % c.p

/-- The line through two points, or the tangent, of slope `l`. -/
def chord (c : Curve) (x1 y1 x2 l : Nat) : Nat × Nat :=
  let x := subMod c.p (l * l) (x1 + x2)
  (x, subMod c.p (l * subMod c.p x1 x) y1)

/-- Addition of points. -/
def ecAdd (c : Curve) : Point → Point → Point
  | none, q => q
  | q, none => q
  | some (x1, y1), some (x2, y2) =>
    if x1 = x2 then
      if (y1 + y2) % c.p = 0 then none
      else some (chord c x1 y1 x2 ((3 * x1 * x1 + c.a) * invMod c c.p (2 * y1) % c.p))
    else some (chord c x1 y1 x2 (subMod c.p y2 y1 * invMod c c.p (subMod c.p x2 x1) % c.p))

/-- Double and add over the low bits of a scalar. -/
def mulLoop (c : Curve) : Nat → Nat → Point → Point → Point
  | 0, _, _, acc => acc
  | f + 1, k, q, acc => mulLoop c f (k / 2) (ecAdd c q q) (if k % 2 = 1 then ecAdd c acc q else acc)

/-- A multiple of a point. -/
def ecMul (c : Curve) (k : Nat) (q : Point) : Point := mulLoop c (c.bits + 1) k q none

/-- The generator. -/
def baseG (c : Curve) : Point := some (c.gx, c.gy)

/-- The leftmost bits of a digest, of the length of the order (13 R393). -/
def truncate (c : Curve) (bits z : Nat) : Nat := if c.bits < bits then z / 2 ^ (bits - c.bits) else z

/-- ECDSA verification of a truncated digest, inputs in range (FIPS 186-5). -/
def ecdsaHolds (c : Curve) (q : Nat × Nat) (z r t : Nat) : Bool :=
  let w := invMod c c.n t
  match ecAdd c (ecMul c (z * w % c.n) (baseG c)) (ecMul c (r * w % c.n) (some q)) with
  | some (x, _) => x % c.n = r
  | none => false

/-- ECDSA signature of a truncated digest under a scalar and a nonce. -/
def ecdsaMake (c : Curve) (d k z : Nat) : Nat × Nat :=
  let r := match ecMul c k (baseG c) with | some (x, _) => x % c.n | none => 0
  (r, invMod c c.n k * (z + r * d) % c.n)

/-! ### Byte forms of P-384 -/

/-- The point of a 97-byte uncompressed string (10 Table 10.3). -/
def pointOf (l : Bytes) : Option (Nat × Nat) :=
  let q := (beAt l 1 48, beAt l 49 48)
  if l.length = 97 && l.head? = some 4 && onCurve p384 q then some q else none

/-- The 97 bytes of a P-384 point. -/
def pointBytes (q : Point) : Bytes := match q with
  | some (x, y) => 4 :: (beBytes 48 x ++ beBytes 48 y)
  | none => zeros 97

/-- Verify a P-384 signature of 96 bytes over a SHA-384 digest (07 R252). -/
def ecdsaVerify (pk : Bytes) (digest : BitVec 384) (sig : Bytes) : Bool :=
  match pointOf pk with
  | none => false
  | some q =>
    let r := beAt sig 0 48
    let t := beAt sig 48 48
    0 < r && r < p384.n && 0 < t && t < p384.n && ecdsaHolds p384 q (beNat (digestBytes digest)) r t

/-! ### Seeds (R397) -/

/-- `n` bytes of SHAKE256. -/
def shake (l : Bytes) (n : Nat) : Bytes := (List.range n).map (Config.shake256 l)

/-- The scalar of a seed on a curve of a code (R397). -/
def scalarOf (c : Curve) (code : Nat) (seed : Key) : Nat :=
  beNat (shake (ascii "ORPV-EC1" ++ beBytes 1 code ++ keyBytes seed) 96) % (c.n - 1) + 1

/-- ξ of an ML-DSA seed (R397). -/
def mldsaSeed (seed : Key) : Bytes := shake (ascii "ORPV-DS1" ++ keyBytes seed) 32

/-- *d* and *z* of an ML-KEM seed (R397). -/
def mlkemSeed (seed : Key) : Bytes × Bytes :=
  let l := shake (ascii "ORPV-KM1" ++ keyBytes seed) 64
  (l.take 32, l.drop 32)

/-- The P-384 public key of a seed, 97 bytes. -/
def ecPublic (seed : Key) : Bytes := pointBytes (ecMul p384 (scalarOf p384 2 seed) (baseG p384))

/-- The ML-DSA-87 public key of a seed. -/
def mlPublic (seed : Key) : Bytes := Config.mldsaPublic (mldsaSeed seed)

/-- The ML-KEM-1024 encapsulation key of a seed. -/
def kemPublic (seed : Key) : Bytes := Config.mlkemPublic (mlkemSeed seed).1 (mlkemSeed seed).2

/-- μ of pure ML-DSA with an empty context (13 R393, FIPS 204). -/
def muOf (pk msg : Bytes) : Bytes := shake (shake pk 64 ++ [0, 0] ++ msg) 64

/-! ### Draws (R395, R399) -/

/-- Requests a program makes of DRBG instance 0 at its start (R399): a 64-bit *r*, a unit *u*, a scalar, a field element and the randomness
of the lattice programs. DESIGN CHOICE (log 155): one request for each value, and one where R395 has a lattice program draw a value that
R399 does not name. -/
def programDraws (p : Nat) (ephem : Bool) : Nat :=
  if p = 0x03 then 1
  else if p = 0x04 || p = 0x11 then 2
  else if p = 0x10 then (if ephem then 3 else 2)
  else if p = 0x12 then 3
  else if p = 0x20 || p = 0x21 || p = 0x28 || p = 0x29 || p = 0x2A then 1
  else 0

/-- The requests of `EC_KEYGEN` and `MLDSA_KEYGEN` from a seed, and of `EC_KEYGEN` and `MLKEM_KEYGEN`. -/
def keygenDraws : Nat := programDraws 0x10 false + programDraws 0x20 false

/-- The requests of `ECDSA_SIGN`, and then `MLDSA_SIGN`. -/
def signDraws : Nat := programDraws 0x12 false + programDraws 0x21 false

/-! ### Hybrid signatures -/

/-- The ECDSA and ML-DSA keys of a 2,752-byte owner entry (Table 10.3). -/
def ecKeyOf (keys : Bytes) : Bytes := slice keys 0 97
def mlKeyOf (keys : Bytes) : Bytes := slice keys 128 2592

/-- The ECDSA half of a 4,736-byte signature entry verifies over a body (R252). -/
def ecHalf (keys entry body : Bytes) : Bool := ecdsaVerify (ecKeyOf keys) (Config.sha384 body) (slice entry 0 96)

/-- The ML-DSA half verifies (R252). -/
def mlHalf (keys entry body : Bytes) : Bool :=
  let sig := slice entry 96 4627
  Config.mldsaHintOk sig && Config.mldsaVerify (mlKeyOf keys) (muOf (mlKeyOf keys) body) sig

/-- Both signatures of an entry verify, and its 13 last bytes are zero (R252). -/
def hybridVerify (keys entry body : Bytes) : Bool :=
  ecHalf keys entry body && mlHalf keys entry body && (slice entry 4723 13).all (· = 0)

/-- *r* and *s* of a digest under a seed's P-384 key, with a drawn value for the nonce. -/
def ecSignWith (seed : Key) (digest : BitVec 384) (k : Nat) : Nat × Nat :=
  ecdsaMake p384 (scalarOf p384 2 seed) (k % (p384.n - 1) + 1) (beNat (digestBytes digest))

/-- The ML-DSA-87 signature of a message under a seed, with drawn randomness. -/
def mlSignWith (seed : Key) (msg : Bytes) (rnd : Nat) : Bytes := (Config.mldsaSign (mldsaSeed seed) (muOf (mlPublic seed) msg) rnd).take 4627

/-- Sign a body under a seed's key pairs: the 4,736-byte entry (R252), and the state its draws leave. -/
def hybridSign (s : State) (seed : Key) (body : Bytes) : Bytes × State :=
  let d := drbgDraws s 0 signDraws
  let rs := ecSignWith seed (Config.sha384 body) (d.1.getD 0 0)
  (beBytes 48 rs.1 ++ beBytes 48 rs.2 ++ mlSignWith seed body (d.1.getD 3 0) ++ zeros 13, d.2)

/-- A P-384 signature of 96 bytes over a digest under a seed. -/
def ecSign (s : State) (seed : Key) (digest : BitVec 384) : Bytes × State :=
  let d := drbgDraws s 0 (programDraws 0x12 false)
  let rs := ecSignWith seed digest (d.1.getD 0 0)
  (beBytes 48 rs.1 ++ beBytes 48 rs.2, d.2)

end Sys2Proof.Machine
end

