-- ==== Sys2Proof/Machine/Astrolabe.lean ====
section
/-! DEFINITION. Astrolabe, the big-number engine (chapter 13): slots and operand memory, the control store, the programs of
Table 13.3, and how an operation ends. -/

namespace Sys2Proof.Machine

def State.astrSlot (s : State) (i : Nat) : AstrSlot := tget {} s.astr.slots i
def State.setAstrSlot (s : State) (i : Nat) (v : AstrSlot) : State := { s with astr.slots := tset {} s.astr.slots i v }

/-! ### Operands (R394) -/

/-- An operand: first slot, count, and whether it is named. -/
structure Opnd where
  slot : Nat
  cnt : Nat
  used : Bool
  deriving DecidableEq, Repr

/-- The operands A, B, C, D and R of `ASTR_ARG0` (Table 13.11), 0 to 4. -/
def opndOf (w : Word) (k : Nat) : Opnd :=
  let hi := 63 - 11 * k
  { slot := fld w hi (hi - 7), cnt := fld w (hi - 8) (hi - 10) + 1, used := bitOf w (8 - k) }

/-- The slots of an operand. -/
def opndSlots (o : Opnd) : List Nat := if o.used then (List.range o.cnt).map (· + o.slot) else []

/-- Every slot an operation's arguments name. -/
def namedSlots (w : Word) : List Nat := ((List.range 5).map (fun k => opndSlots (opndOf w k))).flatten

/-- The running operation names a slot (R391). -/
def slotNamed (s : State) (i : Nat) : Bool := s.astr.st = .running && (namedSlots s.astr.run0).contains i

/-- The words of a slot. -/
def slotWords (s : State) (i : Nat) : List Word :=
  let d := s.astrSlot i
  (List.range d.len).map (fun j => tget 0 s.astr.mem (d.base + j))

/-- The words of an operand. -/
def opndWords (s : State) (o : Opnd) : List Word := ((opndSlots o).map (slotWords s)).flatten

/-- Write words of the operand memory from a place on. -/
def putWords (s : State) (base : Nat) (l : List Word) : State :=
  { s with astr.mem := (List.range l.length).foldl (fun m j => tset 0 m (base + j) (l.getD j 0)) s.astr.mem }

/-- Zero the words of a range. -/
def zeroWords (s : State) (base n : Nat) : State := { s with astr.mem := s.astr.mem.filter (fun e => !(base ≤ e.1 && e.1 < base + n)) }

/-- Zero a slot: its words, flags and owner (R390). -/
def zeroAstrSlot (s : State) (i : Nat) : State :=
  let d := s.astrSlot i
  (zeroWords s d.base d.len).setAstrSlot i { d with key := false, secret := false, sealed := false, owner := none }

/-- Capacity of an operand: none where a slot is missing or disabled. -/
def capacity (s : State) (o : Opnd) : Option Nat :=
  if (opndSlots o).all (fun i => i < 256 && 1 ≤ (s.astrSlot i).len) then some ((opndSlots o).foldl (fun n i => n + (s.astrSlot i).len) 0) else none

/-- The number in the first words of an operand. -/
def wordsNum (l : List Word) (n : Nat) : Nat := leNat (((l.take n).map wordBytes).flatten)

/-- The bytes of an operand. -/
def bytesOf (l : List Word) (n : Nat) : Bytes := slice ((l.map wordBytes).flatten) 0 n

/-- A number as words. -/
def wordsOfNum (n v : Nat) : List Word := (List.range n).map (fun i => BitVec.ofNat 64 (v / 2 ^ (64 * i)))

/-- Bytes as words. -/
def wordsOfBytes (b : Bytes) : List Word := (List.range (ceilDiv b.length 8)).map (fun i => bytesWord (slice b (8 * i) 8))

/-- Write a result: words beyond it are zero (R394). -/
def putResult (s : State) (o : Opnd) (l : List Word) : State :=
  ((opndSlots o).foldl (fun (acc : State × List Word) i =>
    let d := s.astrSlot i
    (putWords acc.1 d.base ((List.range d.len).map (fun j => acc.2.getD j 0)), acc.2.drop d.len)) (s, l)).1

/-! ### What a program asks (R393 to R395) -/

/-- The arguments of an operation. -/
structure Args where
  prog : Nat
  w0 : Word
  words : Nat
  curve : Nat
  owner : Nat
  ephem : Bool
  deriving DecidableEq, Repr

/-- Read `ASTR_ARG0` and `ASTR_ARG1` (Table 13.11). -/
def argsOf (prog : Nat) (w0 w1 : Word) : Args :=
  { prog := prog, w0 := w0, words := fld w1 63 56, curve := fld w1 55 52, owner := if bitOf w1 46 then 32 else fld w1 51 47, ephem := bitOf w1 45 }

def isModular (p : Nat) : Bool := 1 ≤ p && p ≤ 4
def isEc (p : Nat) : Bool := 0x10 ≤ p && p ≤ 0x13
def isProgram (p : Nat) : Bool := isModular p || isEc p || p = 0x20 || p = 0x21 || p = 0x22 || p = 0x28 || p = 0x29 || p = 0x2A
def isSigning (p : Nat) : Bool := p = 4 || p = 0x12 || p = 0x21

/-- A program is in the loaded image: its directory word is not zero (R392). -/
def progPresent (s : State) (p : Nat) : Bool := isProgram p && tget 0 s.astr.cs p ≠ 0

/-- Words of one integer: `WORDS`, the curve's, or for a generic curve a sixth of operand D, at most the 9 of 576 bits: the further words of
a longer operand are ignored (R394; log 39). -/
def argWords (s : State) (g : Args) : Nat :=
  if isModular g.prog then g.words
  else if g.curve = 1 then 4 else if g.curve = 2 then 6 else if g.curve = 3 then 9
  else min 9 (((capacity s (opndOf g.w0 3)).getD 0) / 6)

/-- Needed words of operands A, B, C, D and R; none where the program does not use one (Table 13.3; log 40 for the digest). -/
def needs (s : State) (g : Args) : List (Option Nat) :=
  let n := argWords s g
  let d : Option Nat := if g.curve = 8 then some (6 * n) else none
  let secretIn := (s.astrSlot (opndOf g.w0 0).slot).secret
  match g.prog with
  | 0x01 => [some n, some n, some n, none, some n]
  | 0x02 => [some n, none, some n, none, some n]
  | 0x03 => [some n, some n, some n, some n, some n]
  | 0x04 => [some n, some n, some n, some n, some n]
  | 0x10 => if g.ephem then [none, none, some n, d, some (2 * n)] else [some 4, none, none, d, some (2 * n)]
  | 0x11 => [some (if secretIn then n else 4), some (2 * n), none, d, some n]
  | 0x12 => [some 4, some 1, some (2 * n), d, some (2 * n)]
  | 0x13 => [some (2 * n), some 1, some (2 * n), d, none]
  | 0x20 => [some 4, none, none, none, some 324]
  | 0x21 => [some 4, some 8, some 324, none, some 579]
  | 0x22 => [some 324, some 8, some 579, none, none]
  | 0x28 => [some 4, none, none, none, some 196]
  | 0x29 => [some 196, none, some 196, none, some 4]
  | 0x2A => [some 4, some 196, none, none, some 4]
  | _ => [none, none, none, none, none]

/-- Operands that hold results: R, and C where it goes out. -/
def resultOps (g : Args) : List Nat := if g.prog = 0x29 || (g.prog = 0x10 && g.ephem) then [2, 4] else [4]

/-- The slots of the result operands, and of the others. -/
def resultSlots (g : Args) : List Nat := ((resultOps g).map (fun k => opndSlots (opndOf g.w0 k))).flatten
def inputSlots (g : Args) : List Nat := (((List.range 5).filter (fun k => !(resultOps g).contains k)).map (fun k => opndSlots (opndOf g.w0 k))).flatten

/-- Operand A must carry `KEY` (Table 13.3): a seed, or for `ECDH` a scalar with `SECRET`. -/
def needsKey (g : Args) : Bool := g.prog = 0x11 || g.prog = 0x12 || g.prog = 0x20 || g.prog = 0x21 || g.prog = 0x28 || g.prog = 0x2A || (g.prog = 0x10 && !g.ephem)


/-- The argument refusals of `RUN` (R393, R395). -/
def runBadArg (s : State) (g : Args) : Bool :=
  !progPresent s g.prog
    || (isModular g.prog && !(1 ≤ g.words && g.words ≤ 128))
    || (isEc g.prog && !(g.curve = 1 || g.curve = 2 || g.curve = 3 || (g.curve = 8 && 3 ≤ argWords s g)))
    || (g.ephem && g.prog ≠ 0x10)
    || !((List.range 5).all (fun k =>
          let o := opndOf g.w0 k
          match (needs s g).getD k none with
          | none => !o.used
          | some n => o.used && (match capacity s o with | some c => n ≤ c | none => false)))
    || (resultSlots g).any (fun i => (inputSlots g).contains i)

/-- The refusal of a `RUN`, if any (R390, R395; the order of R542). -/
def runRefusal (s : State) (g : Args) : Option Status :=
  let a := (opndSlots (opndOf g.w0 0))
  let keyed := a.all (fun i => (s.astrSlot i).key || (g.prog = 0x11 && (s.astrSlot i).secret))
  if (namedSlots g.w0).any (fun i => match (s.astrSlot i).owner with | some o => o ≠ g.owner | none => false) then some .partition
  else if s.astr.st ≠ .ready || (needsKey g && !keyed) || (programDraws g.prog g.ephem ≠ 0 && !drbgServesAll s 0 (programDraws g.prog g.ephem)) then some .wrongState
  else if runBadArg s g then some .badArg
  else none

/-! ### Curves -/

/-- Bits of a number of at most 576 bits. -/
def numBits (n : Nat) : Nat := ((List.range 577).find? (fun i => n < 2 ^ i)).getD 577

/-- The curve of an operation (R394). -/
def argCurve (s : State) (g : Args) : Curve :=
  if g.curve = 1 then p256 else if g.curve = 2 then p384 else if g.curve = 3 then p521
  else
    let n := argWords s g
    let l := opndWords s (opndOf g.w0 3)
    let v (k : Nat) : Nat := wordsNum (l.drop (k * n)) n
    { bits := numBits (v 0), p := v 0, a := v 1, b := v 2, gx := v 3, gy := v 4, n := v 5 }

/-- The curve checks of Table 13.4. -/
def curveOk (g : Args) (c : Curve) : Bool :=
  g.curve ≠ 8 ||
    (3 < c.p && c.p % 2 = 1 && c.a < c.p && c.b < c.p && (4 * c.a * c.a * c.a + 27 * c.b * c.b) % c.p ≠ 0
      && onCurve c (c.gx, c.gy) && (mulLoop c 577 c.n (baseG c) none).isNone)

/-! ### The programs -/

/-- What an operation gives: its status, the words of R and of C, the signing attempts, and the state its free values leave. -/
structure Given where
  st : Status
  r : List Word := []
  c : List Word := []
  attempts : Nat := 0
  after : State
  deriving DecidableEq, Repr

/-- A value drawn at the start of the running operation (R399). -/
def drawn (s : State) (i : Nat) : Nat := s.astr.draws.getD i 0

/-- A drawn value as a non-zero one of 64 bits (R399). -/
def nonZero64 (x : Nat) : Nat := x % (2 ^ 64 - 1) + 1

/-- A scalar under scalar blinding, over *b* + 64 ladder steps (R399). The random projective coordinates the ladder starts from leave the
point as it is. -/
def ladder (c : Curve) (k r : Nat) (q : Point) : Point := mulLoop c (c.bits + 65) (k + nonZero64 r * c.n) q none

/-- The modular programs (R399, R401, R403). -/
def runModular (s : State) (g : Args) : Given :=
  let n := g.words
  let x := wordsNum (opndWords s (opndOf g.w0 0)) n
  let y := wordsNum (opndWords s (opndOf g.w0 1)) n
  let m := wordsNum (opndWords s (opndOf g.w0 2)) n
  let nu := wordsNum (opndWords s (opndOf g.w0 3)) n
  let bad := m % 2 = 0 || m < 2 ^ (64 * (n - 1)) || x = 0 || m ≤ x || (3 ≤ g.prog && (y = 0 || nu = 0))
  if bad then { st := .inputRejected, after := s }
  else if g.prog = 1 then { st := .ok, r := wordsOfNum n (x * y % m), after := s }
  else if g.prog = 2 then { st := .ok, r := wordsOfNum n (powMod 17 x 65537 m), after := s }
  else
    let e := y + nonZero64 (drawn s 0) * nu
    let w := 64 * n + 66
    if g.prog = 3 then { st := .ok, r := wordsOfNum n (powMod w x e m), after := s }
    else
      let u := if Nat.gcd (drawn s 1 % m) m = 1 then drawn s 1 % m else 1
      let inv := ((Nat.gcdA u m) % (m : Int)).toNat
      let sig := powMod w (x * powMod 17 u 65537 m % m) e m * inv % m
      { st := if powMod 17 sig 65537 m = x then .ok else .arithMismatch, r := wordsOfNum n sig, after := s }

/-- A point as words. -/
def pointWords (n : Nat) (q : Nat × Nat) : List Word := wordsOfNum n q.1 ++ wordsOfNum n q.2

/-- The point of an operand. -/
def opndPoint (s : State) (o : Opnd) (n : Nat) : Nat × Nat := let l := opndWords s o; (wordsNum l n, wordsNum (l.drop n) n)

/-- The digest of an operand, its leftmost bits of the order's length (R393; log 40). -/
def opndDigest (s : State) (o : Opnd) (c : Curve) : Nat :=
  let l := opndWords s o
  truncate { c with bits := numBits c.n } (64 * l.length) (beNat (bytesOf l (8 * l.length)))

/-- The elliptic-curve programs (R397, R401 to R403). -/
def runEc (s : State) (g : Args) : Given :=
  let n := argWords s g
  let c := argCurve s g
  let a := opndOf g.w0 0
  let seed : Key := BitVec.ofNat 256 (wordsNum (opndWords s a) 4)
  let d := if g.prog = 0x11 && (s.astrSlot a.slot).secret then wordsNum (opndWords s a) n else scalarOf c g.curve seed
  if !curveOk g c then { st := .inputRejected, after := s }
  else if g.prog = 0x10 then
    let k := if g.ephem then drawn s 0 % (c.n - 1) + 1 else d
    match ladder c k (drawn s (if g.ephem then 1 else 0)) (baseG c) with
    | some q => { st := if onCurve c q then .ok else .arithMismatch, r := pointWords n q, c := if g.ephem then wordsOfNum n k else [], after := s }
    | none => { st := .arithMismatch, after := s }
  else if g.prog = 0x11 then
    let q := opndPoint s (opndOf g.w0 1) n
    if !onCurve c q then { st := .inputRejected, after := s }
    else match ladder c d (drawn s 0) (some q) with
      | some z => { st := if onCurve c z then .ok else .arithMismatch, r := wordsOfNum n z.1, after := s }
      | none => { st := .arithMismatch, after := s }
  else if g.prog = 0x12 then
    let q := opndPoint s (opndOf g.w0 2) n
    if !onCurve c q then { st := .inputRejected, after := s }
    else
      let z := opndDigest s (opndOf g.w0 1) c
      let rs := ecdsaMake c d (drawn s 0 % (c.n - 1) + 1) z
      { st := if ecdsaHolds c q z rs.1 rs.2 then .ok else .arithMismatch, r := pointWords n rs, after := s }
  else
    let q := opndPoint s a n
    let rs := opndPoint s (opndOf g.w0 2) n
    if !onCurve c q || rs.1 = 0 || c.n ≤ rs.1 || rs.2 = 0 || c.n ≤ rs.2 then { st := .inputRejected, after := s }
    else { st := if ecdsaHolds c q (opndDigest s (opndOf g.w0 1) c) rs.1 rs.2 then .ok else .sigFail, after := s }

/-- The lattice programs (R397, R401 to R403; log 3). -/
def runLattice (s : State) (g : Args) : Given :=
  let l (k : Nat) : List Word := opndWords s (opndOf g.w0 k)
  let seed : Key := BitVec.ofNat 256 (wordsNum (l 0) 4)
  if g.prog = 0x20 then { st := .ok, r := wordsOfBytes (slice (Config.mldsaPublic (mldsaSeed seed)) 0 2592), after := s }
  else if g.prog = 0x21 then
    let tries := freeDraw s
    let mu := bytesOf (l 1) 64
    let sig := slice (Config.mldsaSign (mldsaSeed seed) mu (drawn s 0)) 0 4627
    { st := if Config.mldsaHintOk sig && Config.mldsaVerify (bytesOf (l 2) 2592) mu sig then .ok else .arithMismatch,
      r := wordsOfBytes sig, attempts := tries.1 % 64 + 1, after := tries.2 }
  else if g.prog = 0x22 then
    let sig := bytesOf (l 2) 4627
    if !Config.mldsaHintOk sig then { st := .inputRejected, after := s }
    else { st := if Config.mldsaVerify (bytesOf (l 0) 2592) (bytesOf (l 1) 64) sig then .ok else .sigFail, after := s }
  else if g.prog = 0x28 then { st := .ok, r := wordsOfBytes (slice (kemPublic seed) 0 1568), after := s }
  else if g.prog = 0x29 then
    let ek := bytesOf (l 0) 1568
    if !Config.mlkemKeyOk ek then { st := .inputRejected, after := s }
    else
      let o := Config.mlkemEncaps ek (drawn s 0)
      { st := .ok, r := wordsOfBytes (slice o.2 0 32), c := wordsOfBytes (slice o.1 0 1568), after := s }
  else
    let dz := mlkemSeed seed
    { st := .ok, r := wordsOfBytes (slice (Config.mlkemDecaps dz.1 dz.2 (bytesOf (l 1) 1568)) 0 32), after := s }

/-- Run a program on its operands. -/
def runProgram (s : State) (g : Args) : Given :=
  if isModular g.prog then runModular s g else if isEc g.prog then runEc s g else runLattice s g

/-- A check of R403 stands over the program's result. -/
def selfChecked (p : Nat) : Bool := p = 4 || p = 0x10 || p = 0x11 || p = 0x12 || p = 0x21

/-! ### Cycles (Table 13.6) -/

def mmCycles (n : Nat) : Nat := ceilDiv (n * n) 16 + 24

/-- The cycle count of an operation (R408). -/
def cyclesOf (s : State) (g : Args) (attempts : Nat) : Nat :=
  let n := argWords s g
  let mm := mmCycles n
  let b := if isModular g.prog then 64 * g.words else (argCurve s g).bits
  let inv := ceilDiv (5 * b) 4 * mm
  let gen := if isEc g.prog && g.curve = 8 then 16 * b * mm + 6000 else 0
  let pub := 21 * mm + 2000
  let exp := (5 * (b + 64) / 4 + 19) * mm + 2000
  let ecdh := 16 * (b + 64) * mm + inv + 5000
  let ver := 20 * b * mm + 2 * inv + 3000
  match g.prog with
  | 0x01 => 4 * mm + 200
  | 0x02 => pub
  | 0x03 => exp
  | 0x04 => exp + 2 * pub + 4 * b
  | 0x10 => ecdh + gen
  | 0x11 => ecdh + gen
  | 0x12 => ecdh + inv + 12 * mm + ver + gen
  | 0x13 => ver + gen
  | 0x20 => 210000
  | 0x21 => 360000 + 120000 * attempts
  | 0x22 => 150000
  | 0x28 => 60000
  | 0x29 => 70000
  | 0x2A => 150000
  | _ => 0

/-! ### The end of an operation (R404, R405) -/

def astrCmdAddr : Nat := regAt 0x0C 0x60

/-- Zero a list of slots. -/
def zeroAstrSlots (s : State) (l : List Nat) : State := l.foldl zeroAstrSlot s

/-- Every named slot takes the operation's owner (R390). -/
def takeOwner (s : State) (g : Args) : State :=
  (namedSlots g.w0).foldl (fun st i => st.setAstrSlot i { st.astrSlot i with owner := some g.owner }) s

/-- Flag the slots of an operand. -/
def flagSlots (s : State) (o : Opnd) (f : AstrSlot → AstrSlot) : State :=
  (opndSlots o).foldl (fun st i => st.setAstrSlot i (f (st.astrSlot i))) s

/-- `SECRET` marks on the results (Table 13.3). -/
def markSecret (s : State) (g : Args) : State :=
  let m (st : State) (k : Nat) : State := flagSlots st (opndOf g.w0 k) (fun x => { x with secret := true })
  if g.prog = 0x11 || g.prog = 0x29 || g.prog = 0x2A then m s 4 else if g.prog = 0x10 && g.ephem then m s 2 else s

/-- `SEALED` of the result of a signing program: set as the signature is written, cleared as its verification passes (R389, R403). -/
def markSealed (s : State) (g : Args) (on : Bool) : State :=
  if isSigning g.prog then flagSlots s (opndOf g.w0 4) (fun x => { x with sealed := on }) else s

/-- A slot that is named for both results holds words the spec does not give: free (log 156). -/
def bothResults (s : State) (g : Args) : State :=
  let twice := (opndSlots (opndOf g.w0 4)).filter (fun i => (resultOps g).contains 2 && (opndSlots (opndOf g.w0 2)).contains i)
  twice.foldl (fun st i =>
    let d := st.astrSlot i
    (List.range d.len).foldl (fun x j =>
      let f := freeDraw x
      { f.2 with astr.mem := tset 0 f.2.astr.mem (d.base + j) (BitVec.ofNat 64 f.1) }) st) s

/-- The results are written, each `SECRET` or `SEALED` where Table 13.3 marks it. -/
def writeResults (s : State) (g : Args) (v : Given) : State :=
  let s1 := if (opndOf g.w0 4).used then putResult s (opndOf g.w0 4) v.r else s
  let s2 := bothResults (if (resultOps g).contains 2 then putResult s1 (opndOf g.w0 2) v.c else s1) g
  markSealed (markSecret s2 g) g true

/-- The slots an ending leaves, by its status (Table 13.5, R398). A signature is written `SEALED` and then verified (R403): both happen
within the end of the operation (log 157). -/
def endSlots (s : State) (g : Args) (v : Given) : State :=
  let keys := (namedSlots g.w0).filter (fun i => (s.astrSlot i).key)
  let s1 := takeOwner s g
  let s2 := if v.st = .ok then markSealed (writeResults s1 g v) g false
    else if v.st = .eccUncorrectable || v.st = .aborted then zeroAstrSlots s1 (namedSlots g.w0)
    else zeroAstrSlots (if v.st = .arithMismatch then writeResults s1 g v else s1) (resultSlots g)
  zeroAstrSlots s2 keys

/-- An operation ends with what it gives (R404, R409). -/
def astrEnd (s : State) (v : Given) : State :=
  let g := argsOf s.astr.prog s.astr.run0 s.astr.run1
  let cyc := BitVec.ofNat 64 (cyclesOf s g v.attempts)
  let s1 := endSlots v.after g v
  let fault := v.st = .arithMismatch || v.st = .eccUncorrectable
  let s2 := { zeroWords s1 4096 4096 with
    astr.st := .ready, astr.status := stCode v.st, astr.resProg := g.prog, astr.attempts := v.attempts, astr.cycles := cyc,
    astr.draws := [], astr.ops := bump s1.astr.ops 1,
    astr.rejects := if v.st = .inputRejected then bump s1.astr.rejects 1 else s1.astr.rejects,
    astr.faults := if fault then bump s1.astr.faults 1 else s1.astr.faults }
  let s3 := raise s2 0x0C 0
  noteCmd (if v.st = .arithMismatch then raise s3 0x0C 1 else s3) s.astr.acc astrCmdAddr v.st

/-- Chartroom takes the `SECRET` slots named, of the owner of the operation, into the hash and random unit: each is zeroed, with its flags,
as its last beat leaves (R407). -/
def handBack (s : State) (owner : Nat) (l : List (BitVec 8)) : State :=
  l.foldl (fun st i =>
    let d := st.astrSlot i.toNat
    if d.secret && d.owner = some owner then zeroAstrSlot st i.toNat else st) s

/-- `ASTR_OP_END`: the running operation ends (R403, R404), and the secrets of its owner that Chartroom asks for leave (R407). -/
def astrOpEnd (s : State) (how : AstrEnd) : State :=
  if s.astr.st ≠ .running then s
  else
    let g := argsOf s.astr.prog s.astr.run0 s.astr.run1
    let v := runProgram s g
    match how with
    | .ecc => astrEnd s { st := .eccUncorrectable, after := v.after }
    | .arith => astrEnd s (if selfChecked g.prog && v.st = .ok then { v with st := .arithMismatch } else v)
    | .sound taken => handBack (astrEnd s v) g.owner taken

/-- The running operation is aborted (R405); how far it had come is open, so its cycle count is free (log 41). -/
def astrAbortNow (s : State) : State :=
  let d := freeDraw s
  let s1 := astrEnd s { st := .aborted, after := d.2 }
  { s1 with astr.cycles := BitVec.ofNat 64 d.1 }

/-! ### Commands -/

/-- A command is refused: `ASTR_RESULT` holds the refusal too, with the program the write names (Table 13.11). -/
def astrRefused (s : State) (a : Access) (v : Word) (st : Status) : State :=
  refuse { s with astr.status := stCode st, astr.resProg := fld v 59 52, astr.attempts := 0 } a true astrCmdAddr st

/-- A write of `ASTR_CMD`: the bus checks, then the command's own refusal, then the command (R542). -/
def astrCmd (s : State) (a : Access) (v : Word) (bad : State → Option Status) (k : State → State) : State :=
  regWrite s a astrCmdAddr none none (fun x => match bad x with
    | some st => astrRefused x a v st
    | none => k x)

/-- The engine starts a program: its random values are drawn first (R399). -/
def astrStart (s : State) (a : Access) (prog : Nat) : State :=
  let g := argsOf prog s.astr.arg0 s.astr.arg1
  let d := drbgDraws s 0 (programDraws g.prog g.ephem)
  { d.2 with astr.st := .running, astr.prog := prog, astr.run0 := s.astr.arg0, astr.run1 := s.astr.arg1, astr.acc := a, astr.draws := d.1 }

/-- What refuses a `RUN`: R390 and R395, with the must-be-zero bits among its argument refusals (R542). -/
def runBars (s : State) (v : Word) : Option Status :=
  let r := runRefusal s (argsOf (fld v 59 52) s.astr.arg0 s.astr.arg1)
  if r = some .partition ∨ r = some .wrongState then r else orElse (mbz v (maskBits 51 0)) r

/-- `RUN` (R395). -/
def astrRun (s : State) (a : Access) (v : Word) : State := astrCmd s a v (fun x => runBars x v) (fun x => astrStart x a (fld v 59 52))

/-- An `OP` that Table 13.11 does not define. -/
def astrBadOp (s : State) (a : Access) (v : Word) : State := astrCmd s a v (fun _ => some .badArg) id

/-- A write of `ASTR_CS_DATA` (R392, R409). -/
def astrCsData (s : State) (a : Access) (v : Word) : State :=
  regWrite s a (regAt 0x0C 0x50) (refuseIf (s.astr.st ≠ .loading) .wrongState) none (fun s1 =>
    { s1 with astr.cs := tset 0 s1.astr.cs s1.astr.csAddr v, astr.csAddr := (s1.astr.csAddr + 1) % 4096 })

/-- The 32,768 bytes of the engine's control store, in order (R392). -/
def astrCsBytes (cs : Table Word) : Bytes := ((List.range 4096).map (fun i => wordBytes (tget 0 cs i))).flatten

/-- A commit of the control store that the engine takes: its CRC decides (R392). -/
def astrCsTake (a : Access) (v : Word) (s : State) : State :=
  if crc32c (astrCsBytes s.astr.cs) = fld v 31 0 then
    { s with astr.st := .ready, astr.csVersion := fld (tget 0 s.astr.cs 0) 15 0 }
  else noteCmd (raise s 0x0C 2) a (regAt 0x0C 0x58) .badFormat

/-- A write of `ASTR_CS_COMMIT` (R392). -/
def astrCsCommit (s : State) (a : Access) (v : Word) : State :=
  regWrite s a (regAt 0x0C 0x58) (refuseIf (s.astr.st ≠ .loading) .wrongState) (mbz v (maskBits 63 32)) (astrCsTake a v)

/-- Two ranges of words overlap. -/
def rangesMeet (b1 n1 b2 n2 : Nat) : Bool := b1 < b2 + n2 && b2 < b1 + n1

/-- A write of `ASTR_SLOT_DESC` (R388). -/
def astrSlotDesc (s : State) (a : Access) (v : Word) : State :=
  let i := s.astr.slotSel
  let d := s.astrSlot i
  let base := fld v 63 52
  let len := fld v 51 44
  let bad := 128 < len || 4096 < base + len ||
    (1 ≤ len && (List.range 256).any (fun j => j ≠ i && 1 ≤ (s.astrSlot j).len && rangesMeet base len (s.astrSlot j).base (s.astrSlot j).len))
  regWrite s a (regAt 0x0D 0x48) (refuseIf (d.key || d.secret || d.sealed || slotNamed s i) .wrongState) (refuseIf bad .badArg) (fun s1 =>
    (zeroWords (zeroWords s1 d.base d.len) base len).setAstrSlot i { base := base, len := len })

/-- The word address that follows (Table 13.12). -/
def astrNextWord (s : State) : State :=
  let n := (s.astrSlot s.astr.slotSel).len
  { s with astr.dataAddr := if n ≤ s.astr.dataAddr + 1 then 0 else s.astr.dataAddr + 1 }

/-- A read or write of `ASTR_DATA` (R389, R391). -/
def astrData (s : State) (a : Access) (write : Bool) (v : Word) : State :=
  let i := s.astr.slotSel
  let d := s.astrSlot i
  let addr := regAt 0x0D 0x58
  let st := orElse (refuseIf (d.key || d.secret || d.sealed || slotNamed s i) .wrongState) (refuseIf (d.len ≤ s.astr.dataAddr) .bounds)
  let k := d.base + s.astr.dataAddr
  if write then regWrite s a addr st none (fun s1 => astrNextWord { s1 with astr.mem := tset 0 s1.astr.mem k v })
  else regRead s a addr st (tget 0 s.astr.mem k) astrNextWord

/-- A write of `ASTR_ZERO` (R390, R391). -/
def astrZero (s : State) (a : Access) (v : Word) : State :=
  let i := s.astr.slotSel
  regWrite s a (regAt 0x0D 0x60) (refuseIf (slotNamed s i) .wrongState) (mbz v (maskBits 63 1)) (fun s1 => if bitOf v 0 then zeroAstrSlot s1 i else s1)

/-- A key push to engine 16 (R396): refused with `ST_WRONG_STATE`, or into the target slot. -/
def astrPush (s : State) (key : Key) (owner : Nat) : Except Status State :=
  let i := s.astr.keySlot
  let d := s.astrSlot i
  if !domLive s 3 || !s.astr.keyEn || d.len < 4 || d.key || d.secret || d.sealed || slotNamed s i then .error .wrongState
  else .ok ((putWords s d.base (wordsOfBytes (keyBytes key))).setAstrSlot i { d with key := true, owner := some owner })

/-! ### Loading the engine, and Helm's own use of it (R392; 16 R470, 18 R538) -/

/-- A control store from its bytes, as words by number. -/
def storeOf (b : Bytes) (n : Nat) : Table Word := (List.range n).foldl (fun t i => tset 0 t i (bytesWord (slice b (8 * i) 8))) []

/-- The copies in SRAM still hash as the booted manifest says: what a second load of a control store needs (16 R470). -/
def copyHolds (s : State) (i : Nat) (b : Bytes) : Bool := Config.sha384 b = s.helm.digests.getD (2 + i) 0

/-- Load and commit Astrolabe's microcode (R392): its version is bits 15:0 of word 0. -/
def loadAstr (s : State) (b : Bytes) : State :=
  if !arithRuns s then s
  else { s with astr.cs := storeOf b 4096, astr.csAddr := 0, astr.st := .ready, astr.csVersion := leAt b 0 2 }

/-- Helm loads the microcode of an engine in `LOADING`: the boot microcode before the loader has read the other, then the copy (16 R470). -/
def reloadAstr (s : State) : State :=
  if s.astr.st ≠ .loading || !secRuns s || !arithRuns s then s
  else if s.helm.stage = .firmware && !copyHolds s 1 s.helm.ucCopy then { s with helm.copyFault := true }
  else loadAstr s (if s.helm.stage = .recovery || s.helm.ucCopy = [] then Config.bootMicrocode else s.helm.ucCopy)

/-- Helm powers `PD03` by itself before an operation needs it (18 R538). -/
def engineUp (s : State) : State := if domLive s 3 then s else reloadAstr { handshake s 3 with astr := {} }

/-- Helm runs programs of the engine that make `n` requests of DRBG instance 0 (R399). -/
def engineRuns (s : State) (n : Nat) : State := (drbgDraws (engineUp s) 0 n).2

/-- The status of an operation that fails (R403 to R405). -/
def faultStatus : OpFault → Status
  | .arith => .arithMismatch
  | .ecc => .eccUncorrectable
  | .aborted => .aborted

/-- The wipe of a partition zeroes the slots its operations named, after aborting its running one (Table 10.4 step 5, R405). -/
def astrWipe (s : State) (p : Nat) : State :=
  let s1 := if s.astr.st = .running ∧ (argsOf s.astr.prog s.astr.run0 s.astr.run1).owner = p then astrAbortNow s else s
  zeroAstrSlots s1 ((List.range 256).filter (fun i => (s1.astrSlot i).owner = some p))

/-! ### The meanings -/

/-- `ASTR_CS_DATA_WRITE` (R392). -/
def execAstrCsDataWrite (a : Access) (v : Word) (s : State) : Host.Outcome State Fault Refusal := .next (astrCsData s a v)

/-- `ASTR_CS_COMMIT` (R392). -/
def execAstrCsCommit (a : Access) (v : Word) (s : State) : Host.Outcome State Fault Refusal := .next (astrCsCommit s a v)

/-- `ASTR_SLOT_DESC_WRITE` (R388). -/
def execAstrSlotDescWrite (a : Access) (v : Word) (s : State) : Host.Outcome State Fault Refusal := .next (astrSlotDesc s a v)

/-- `ASTR_DATA_ACCESS` (R389). -/
def execAstrDataAccess (a : Access) (write : Bool) (v : Word) (s : State) : Host.Outcome State Fault Refusal := .next (astrData s a write v)

/-- `ASTR_ZERO` (R390). -/
def execAstrZero (a : Access) (v : Word) (s : State) : Host.Outcome State Fault Refusal := .next (astrZero s a v)

/-- `ASTR_RUN` (R395). -/
def execAstrRun (a : Access) (v : Word) (s : State) : Host.Outcome State Fault Refusal := .next (astrRun s a v)



end Sys2Proof.Machine
end

