-- ==== Sys2Proof/Machine/Windows.lean ====
section
/-! DEFINITION. Accumulator memory: the granule map, windows, lanes and tile records, and what the window commands do
to them (chapter 5, R163 to R175; chapter 10, R316 and R322). -/

namespace Sys2Proof.Machine

/-- Granules a window of `n` tiles takes: lanes, then tile records (R167). -/
def granulesFor (n : Nat) : Nat := ceilDiv n 2 + ceilDiv n 512

/-- Physical granule of map entry `i` (R164). -/
def granuleAt (s : State) (i : Nat) : Nat := tget 0 s.phlx.gmap i - 1

/-- Where the lanes of tile `t` of a window lie: 2 × granule + half (R164). -/
def laneKey (s : State) (w : Win) (t : Nat) : Nat := 2 * granuleAt s (w.base + t / 2) + t % 2

/-- Where the record of tile `t` lies (R168). -/
def recKey (s : State) (w : Win) (t : Nat) : Nat := 512 * granuleAt s (w.base + ceilDiv w.tiles 2 + t / 512) + t % 512

/-- 256 zero lanes. -/
def zeroLanes : List Int := List.replicate 256 0

/-- The stored lanes of tile `t` of window `wi`. -/
def rawLanes (s : State) (wi t : Nat) : List Int := tget zeroLanes s.phlx.lanes (laneKey s (s.win wi) t)

/-- The record of tile `t` of window `wi` (Table 5.7). -/
def tileRec (s : State) (wi t : Nat) : TileRec := tget {} s.phlx.recs (recKey s (s.win wi) t)

/-- The lanes as a pipe reads them: a `FRESH` tile reads zero (R169). -/
def readLanes (s : State) (wi t : Nat) : List Int := if (tileRec s wi t).fresh then zeroLanes else rawLanes s wi t

/-- Write the lanes of a tile. -/
def setLanes (s : State) (wi t : Nat) (l : List Int) : State :=
  { s with phlx.lanes := tset zeroLanes s.phlx.lanes (laneKey s (s.win wi) t) l }

/-- Write the record of a tile. -/
def setTileRec (s : State) (wi t : Nat) (r : TileRec) : State :=
  { s with phlx.recs := tset {} s.phlx.recs (recKey s (s.win wi) t) r }

/-- Apply a change to the records of every tile of a window. -/
def mapRecs (s : State) (wi : Nat) (f : TileRec → TileRec) : State :=
  (List.range (s.win wi).tiles).foldl (fun st t => setTileRec st wi t (f (tileRec st wi t))) s

/-- Granules held by a window. -/
def winGranules (w : Win) : Nat := if w.kind = .free then 0 else granulesFor w.tiles

/-- Windows and granules held by a partition (Table 5.32). -/
def partWindows (s : State) (p : Nat) : Nat :=
  (s.phlx.wins.filter (fun e => e.2.kind ≠ .free && e.2.part = p)).length
def partGranules (s : State) (p : Nat) : Nat :=
  s.phlx.wins.foldl (fun acc e => acc + (if e.2.part = p then winGranules e.2 else 0)) 0

/-- Free granules of the pool (Table 5.25). -/
def poolFree (s : State) : Nat := 16384 - s.phlx.gmap.length

/-- The lowest `n` granules the map does not hold. -/
def freeGranules (used : List Nat) : Nat → Nat → Nat → List Nat
  | 0, _, _ => []
  | fuel + 1, n, c =>
    if n = 0 then [] else if used.contains c then freeGranules used fuel n (c + 1) else c :: freeGranules used fuel (n - 1) (c + 1)

/-- The lowest run of `n` unused map entries, scanning the used keys from `cur`. -/
def freeRun (n : Nat) : List Nat → Nat → Option Nat
  | [], cur => if cur + n ≤ 16384 then some cur else none
  | k :: r, cur => if cur + n ≤ k then some cur else freeRun n r (k + 1)

/-- The allocated windows in order of `MAP_BASE`. -/
def winsByBase (s : State) : List (Nat × Win) :=
  (s.phlx.wins.filter (fun e => e.2.kind ≠ .free)).foldl
    (fun acc e => acc.takeWhile (fun x => x.2.base < e.2.base) ++ e :: acc.dropWhile (fun x => x.2.base < e.2.base)) []

/-- Compact the granule map: windows move to lower map indices, no granule moves (R169). -/
def compactMap (s : State) : State :=
  let r := (winsByBase s).foldl (fun (acc : Nat × Table Nat × State) e =>
    let n := granulesFor e.2.tiles
    let m := (List.range n).foldl (fun m i => tset 0 m (acc.1 + i) (tget 0 s.phlx.gmap (e.2.base + i))) acc.2.1
    (acc.1 + n, m, acc.2.2.setWin e.1 { e.2 with base := acc.1 })) (0, [], s)
  { r.2.2 with phlx.gmap := r.2.1 }

/-- The lowest free window index; for a pair, the lowest even one whose neighbour is free too (R169). -/
def freeWindow (s : State) (pair : Bool) : Option Nat :=
  if pair then ((List.range 4096).find? (fun k => (s.win (2 * k)).kind = .free && (s.win (2 * k + 1)).kind = .free)).map (2 * ·)
  else (List.range 8192).find? (fun k => (s.win k).kind = .free)

/-- Give window index `wi` its granules and map run; the run is free. DESIGN CHOICE (log 123): the lowest free granules are taken, as
`freeRun` takes the lowest run and `freeWindow` the lowest free index; R169 names none. -/
def placeWindow (s : State) (wi base : Nat) (w : Win) : State :=
  let n := granulesFor w.tiles
  let gs := freeGranules (s.phlx.gmap.map (fun e => e.2 - 1)) (n + s.phlx.gmap.length) n 0
  let m := (List.range n).foldl (fun m i => tset 0 m (base + i) (gs.getD i 0 + 1)) s.phlx.gmap
  ({ s with phlx.gmap := m }).setWin wi { w with base := base }

/-- Take a run of map entries, compacting first where no run is long enough (R169). -/
def takeRun (s : State) (n : Nat) : Nat × State :=
  match freeRun n (s.phlx.gmap.map (·.1)) 0 with
  | some b => (b, s)
  | none => let s' := compactMap s; ((freeRun n (s'.phlx.gmap.map (·.1)) 0).getD 0, s')

/-- Set `WINDOW` and `WIN_VALID` of both copies of a group's descriptor (R322). -/
def nameWindow (s : State) (g wi : Nat) (valid : Bool) : State :=
  let f (d : Desc) : Desc := { d with w7 := (d.w7 &&& BitVec.ofNat 64 (2 ^ 64 - 1 - maskBits 48 35)) ||| pack [(48, 36, wi), (35, 35, valid.toNat)] }
  let s1 := s.setDesc false g (f (s.desc false g))
  s1.setDesc true g (f (s1.desc true g))

/-- `WIN_VALID` and `WINDOW` of a descriptor (Table 6.2). -/
def descWindow (d : Desc) : Option Nat := if bitOf d.w7 35 then some (fld d.w7 48 36) else none

/-- Name a window in one copy of a group's descriptor (Table 6.2). -/
def nameWindowIn (s : State) (shadow : Bool) (g wi : Nat) : State :=
  let d := s.desc shadow g
  s.setDesc shadow g { d with w7 := (d.w7 &&& BitVec.ofNat 64 (2 ^ 64 - 1 - maskBits 48 35)) ||| pack [(48, 36, wi), (35, 35, 1)] }

/-- `ALLOC` names the new window in each copy whose `WIN_VALID` is 0 (R322). DESIGN CHOICE (log 135): where the copies differ, the copy that
names a valid window keeps it; R322 speaks of one `WIN_VALID` for the group. -/
def nameWhereNone (s : State) (g wi : Nat) : State :=
  [false, true].foldl (fun st c => if descWindow (st.desc c g) = none then nameWindowIn st c g wi else st) s

/-- `ALLOC` for a partition and group of `n` tiles, a pair where asked (R169, R170, R316, R322); the slices are powered while a
window stands (01 Table 1.6, 18 R538; log 42). DESIGN CHOICE (log 124): where several failures of R170 hold at once, `DETAIL` names the
quota before the pool and the pool before the index. -/
def allocWindow (s : State) (p g n : Nat) (pair : Bool) : WinResult × State :=
  let k := if pair then 2 else 1
  let need := k * granulesFor n
  let q := s.part p
  if partGranules s p + need > q.qGran ∨ partWindows s p + k > q.qWins then
    ({ status := stCode .quota, win := 0, detail := 0 }, raise s (0x80 + p) 4)
  else if need > poolFree s then ({ status := stCode .quota, win := 0, detail := 1 }, s)
  else
    match freeWindow s pair with
    | none => ({ status := stCode .quota, win := 0, detail := 2 }, s)
    | some wi =>
      let w : Win := { kind := .working, part := p, group := g, tiles := n }
      let r1 := takeRun s (granulesFor n)
      let s1 := placeWindow r1.2 wi r1.1 { w with partner := if pair then some (wi + 1) else none }
      let s2 := if pair then
          let r2 := takeRun s1 (granulesFor n)
          placeWindow r2.2 (wi + 1) r2.1 { w with kind := .shadow, partner := some wi }
        else s1
      ({ status := 0, win := wi, detail := 0 }, [13, 14, 15, 16].foldl handshake (nameWhereNone s2 g wi))

/-- Zero every line and record of a window's granules and return them (R169); `WIN_VALID` of every descriptor that names
it clears in both copies (R322). DESIGN CHOICE (log 125): the other window of a working and shadow pair stays, without a partner. -/
def freeWindowNow (s : State) (wi : Nat) : State :=
  let w := s.win wi
  if w.kind = .free then s
  else
    let n := granulesFor w.tiles
    let gs := (List.range n).map (fun i => granuleAt s (w.base + i))
    let s1 := { s with
      phlx.lanes := s.phlx.lanes.filter (fun e => !gs.contains (e.1 / 2)),
      phlx.recs := s.phlx.recs.filter (fun e => !gs.contains (e.1 / 512)),
      phlx.gmap := s.phlx.gmap.filter (fun e => !(w.base ≤ e.1 && e.1 < w.base + n)) }
    let s2 := s1.setWin wi {}
    let s3 := match w.partner with
      | some o => s2.setWin o { s2.win o with partner := none }
      | none => s2
    let clr (d : Desc) : Desc :=
      if descWindow d = some wi then { d with w7 := d.w7 &&& BitVec.ofNat 64 (2 ^ 64 - 1 - 2 ^ 35) } else d
    { s3 with grp.descA := tmap {} (fun _ d => clr d) s3.grp.descA, grp.descS := tmap {} (fun _ d => clr d) s3.grp.descS }

/-- A window command ends: its result, and `CMD_DONE` (R183, R184). -/
def winDone (s : State) (r : WinResult) : State := raise { s with phlx.result := r } 0x51 0

/-- A window goes as Helm's own `FREE`, which ends as every window command does (R183, R184). -/
def freeWindowCmd (s : State) (wi : Nat) : State := winDone (freeWindowNow s wi) { status := 0, win := wi, detail := 0 }

/-- `OPEN`: bind a working window to a ticket and reset its records and frontier (R169). -/
def openWindow (s : State) (wi ticket : Nat) (efix : Option Nat) : State :=
  let s1 := s.setWin wi { s.win wi with st := .opened, frontier := 0, ticket := ticket }
  mapRecs s1 wi (fun _ => { scale := efix.getD 0x81, fresh := true, flags := 0, hop := 0 })

/-- An abort returns the working window to `IDLE` and marks every record `FRESH` (R172). -/
def idleWindow (s : State) (wi : Nat) : State :=
  mapRecs (s.setWin wi { s.win wi with st := .idle }) wi (fun r => { r with fresh := true })

/-- The swap of R174: the working window becomes the shadow and the former shadow the working window in `IDLE`; a window
without a shadow only ends in `DONE` (log 15). -/
def swapWindow (s : State) (wi : Nat) : State :=
  let w := s.win wi
  match w.partner with
  | none => s.setWin wi { w with st := .done }
  | some o =>
    let s1 := s.setWin wi { w with kind := .shadow, shadowValid := true, st := .done }
    let s2 := s1.setWin o { s1.win o with kind := .working, shadowValid := false, st := .idle }
    nameWindow s2 w.group o true

/-- Add a tile's values into a window by operation, with its flags and hop (R131, R132, R162, R169, R236). -/
def addTile (s : State) (wi op live t flags hop : Nat) (vs : List Int) : State :=
  let r := tileRec s wi t
  let o := readLanes s wi t
  let sums := (List.range 256).map (fun e =>
    if live ≤ e then (o.getD e 0, false)
    else if r.fresh then (vs.getD e 0, false)
    else combineLane op (o.getD e 0) (vs.getD e 0))
  let sat := sums.any (·.2)
  let s1 := setLanes s wi t (sums.map (·.1))
  setTileRec s1 wi t { r with fresh := false, flags := (r.flags ||| flags) ||| (if sat then 8 else 0), hop := max r.hop hop }

end Sys2Proof.Machine
end

