-- ==== Sys2Proof/Machine/Collective.lean ====
section
/-! DEFINITION. What every event of a collective shares: key epochs (R154), the copy in force (R219), source slices
(R187), the reorder list (R193 to R198), sending of fabric-class frames (R91 to R93, R551), releasing of frames from
ingress buffers (R98) and taking an abort (R203). -/

namespace Sys2Proof.Machine

/-! ### Epochs and descriptors in force -/

/-- The valid `KEY_EPOCH` entry of a target whose change has not fired, as its step and epoch (R154). -/
def pendingChange (s : State) (i : Nat) : Option (Nat × Nat) :=
  (s.mrd.sched.find? (fun e => e.2.valid && e.2.typ = 1 && !e.2.phases.testBit 1
    && (if e.2.fabric then i = 32 else i = e.2.part))).map (fun e => (e.2.step, e.2.arg))

/-- epoch(*p*, *s*) of a partition, or of the fabric (index 32), at a step (R154). -/
def epochAt (s : State) (i step : Nat) : Nat :=
  let h := (s.clockOf i).hist
  let past := ((h.find? (fun c => c.1 ≤ step)).map (·.2)).getD 0
  match pendingChange s i with
  | some (st, e) => if st ≤ step then e else past
  | none => past

/-- The step of the valid `GROUP_SWAP` entry that has not swapped yet (R216). -/
def pendingSwap (s : State) : Option Nat :=
  (s.mrd.sched.find? (fun e => e.2.valid && e.2.typ = 2 && !e.2.phases.testBit 1)).map (·.2.step)

/-- The copy in force at a step: false the active copy, true the other one (R216, R219). -/
def copyAt (s : State) (step : Nat) : Option Bool :=
  if ((pendingSwap s).map (fun x => decide (x ≤ step))).getD false then some true
  else match s.grp.since with
    | none => some false
    | some f => if f ≤ step then some false else if s.grp.oldHeld then some true else none

/-- A member list entry of a copy. -/
def mbrEntry (s : State) (shadow : Bool) (i : Nat) : Nat := tget 0 (if shadow then s.grp.mbrS else s.grp.mbrA) i

/-- One source entry (Table 6.3). -/
structure Src where
  rank : Nat
  isLocal : Bool
  gap : Bool
  deriving DecidableEq, Repr

/-- A source entry from its 32 bits. -/
def srcOf (e : Nat) : Src := { rank := e / 2 ^ 17 % 2 ^ 15, isLocal := e.testBit 16, gap := e.testBit 15 }

/-- The source slice of a descriptor in a copy (R187). -/
def sourcesOf (s : State) (shadow : Bool) (d : Desc) : List Src :=
  (List.range (fld d.w6 42 36)).map (fun i => srcOf (mbrEntry s shadow (fld d.w6 60 43 + i)))

/-- Descriptor fields (Tables 6.1, 6.2 and 7.1). -/
def dPart (d : Desc) : Nat := fld d.w0 62 58
def dOp (d : Desc) : Nat := fld d.w0 57 54
def dInFmt (d : Desc) : Nat := fld d.w0 53 51
def dOutFmt (d : Desc) : Nat := fld d.w0 50 48
def dFixed (d : Desc) : Bool := bitOf d.w0 47
def dStoch (d : Desc) : Bool := bitOf d.w0 46
def dElastic (d : Desc) : Bool := bitOf d.w0 45
def dRetain (d : Desc) : Bool := bitOf d.w0 44
def dEfix (d : Desc) : Nat := fld d.w0 43 36
def dElems (d : Desc) : Nat := fld d.w0 35 13
def dTiles (d : Desc) : Nat := tilesOf (dElems d)
def dEpoch (d : Desc) : Nat := fld d.w1 63 48
def dRelease (d : Desc) : Nat := fld d.w1 47 33
def dQuorum (d : Desc) : Nat := fld d.w1 32 18
def dMbrBase (d : Desc) : Nat := fld d.w1 17 0
def dMembers (d : Desc) : Nat := fld d.w2 63 49
def dDeadline (d : Desc) : Nat := fld d.w2 48 29
def dCut (d : Desc) : Nat := fld d.w2 28 9
def dKIn (d : Desc) : Nat := fld d.w3 63 56
def dKOut (d : Desc) : Nat := fld d.w3 55 48
def dClip (d : Desc) : Bool := bitOf d.w3 47
def dSpan (d : Desc) : Nat := fld d.w3 46 40
def dBound (d : Desc) : Nat := fld d.w3 31 0
def dNoise (d : Desc) : Bool := bitOf d.w4 63
def dSigma (d : Desc) : Nat := fld d.w4 16 0
def dCharge (d : Desc) : Nat := fld d.w5 63 32
def dRole (d : Desc) : Nat := fld d.w6 63 61
def dOutPorts (d : Desc) : Nat := fld d.w6 35 24
def dDistPorts (d : Desc) : Nat := fld d.w6 23 12
def dAbortPorts (d : Desc) : Nat := fld d.w6 7 0
def dDistSrc (d : Desc) : Nat := fld d.w7 63 49

/-- The descriptor of a group in force at a step, with its copy; `VALID` and of the partition (check 10.1). -/
def descAt (s : State) (p g step : Nat) : Option (Desc × Bool) :=
  match copyAt s step with
  | none => none
  | some c =>
    let d := s.desc c g
    if bitOf d.w0 63 && dPart d = p then some (d, c) else none

/-- The block is the release point of a descriptor (R227). -/
def atRelease (s : State) (d : Desc) : Bool := s.grp.rankValid && dRelease d = s.grp.rank

/-- A rank is in the member slice of a descriptor. -/
def isMember (s : State) (shadow : Bool) (d : Desc) (r : Nat) : Bool :=
  (List.range (dMembers d)).any (fun i => mbrEntry s shadow (dMbrBase d + i) / 2 ^ 17 % 2 ^ 15 = r)

/-! ### The reorder list -/

/-- Key order (ticket, group) (chapter 6, ticket order). -/
def keyLt (t1 g1 t2 g2 : Nat) : Bool := t1 < t2 || (t1 = t2 && g1 < g2)

/-- The entry of a ticket and group; an entry only a `PREV` has named serves any group. -/
def findEntry (s : State) (p g t : Nat) : Option Entry :=
  (s.entries p).find? (fun e => e.ticket = t && (e.group = g || e.group = 4096))

/-- Insert an entry in key order. -/
def insertEntry (x : Entry) : List Entry → List Entry
  | [] => [x]
  | e :: r => if keyLt x.ticket x.group e.ticket e.group then x :: e :: r else e :: insertEntry x r

/-- Take the entry of a ticket and group out of a list. -/
def dropEntry (l : List Entry) (g t : Nat) : List Entry := l.filter (fun e => !(e.ticket = t && (e.group = g || e.group = 4096)))

/-- An entry that only a `PREV` has named takes the group of the command or frame that now names its ticket. -/
def claimEntry (g : Nat) (e : Entry) : Entry := if e.group = 4096 then { e with group := g } else e

/-- Put an entry into its partition's list in place of the one it replaces. -/
def putEntry (s : State) (p : Nat) (e : Entry) : State :=
  s.setEntries p (insertEntry e (dropEntry (s.entries p) e.group e.ticket))

/-- Take an entry out of its partition's list. -/
def delEntry (s : State) (p g t : Nat) : State := s.setEntries p (dropEntry (s.entries p) g t)

/-- Entries of a partition's list (chapter 6, at most 64); one that has left it and still relays is not counted (R198, R202). -/
def listCount (s : State) (p : Nat) : Nat := ((s.entries p).filter (fun e => !e.left)).length

/-- Change the flow of an entry, where it is listed. -/
def modFlow (s : State) (p g t : Nat) (f : Flow → Flow) : State :=
  match findEntry s p g t with
  | none => s
  | some e => putEntry s p { e with flow := f e.flow }

/-- An entry is live: neither `DONE` nor `ABORTED`. -/
def isLive (e : Entry) : Bool := e.st = .known || e.st = .waiting || e.st = .active

/-- A collective is admitted: launched and not finished (R191). -/
def isAdmitted (e : Entry) : Bool := (e.launched && isLive e) || (e.st = .done && !e.fin)

/-- Some collective is admitted on the block. -/
def anyAdmitted (s : State) : Bool := s.grp.lists.any (fun l => l.2.any isAdmitted)

/-- Some admitted collective of a group. -/
def groupAdmitted (s : State) (p g : Nat) : Bool := (s.entries p).any (fun e => e.group = g && isAdmitted e)

/-- The descriptor and copy of an entry in force at its step. -/
def entryDesc (s : State) (p : Nat) (e : Entry) : Option (Desc × Bool) :=
  match e.step with
  | none => none
  | some x => descAt s p e.group x

/-- A ticket is recorded as finished: at or below a group's last finished ticket of the partition, exactly its (R198). -/
def ticketFinished (s : State) (p t : Nat) : Bool :=
  s.grp.recs.any (fun r => r.2.outcome ≠ 0 && r.2.lastTicket = t && dPart (s.desc false r.1) = p)

/-- Follow `PREV` from a ticket: none when the chain is closed, else the missing ticket (R194). -/
def chainGap (s : State) (p : Nat) : Nat → Entry → Option Nat
  | 0, e => some e.ticket
  | n + 1, e =>
    if e.st = .done || e.st = .aborted then none
    else if !e.launched then some e.ticket
    else if e.first then none
    else match (s.entries p).find? (fun x => x.ticket = e.prev) with
      | none => if ticketFinished s p e.prev then none else some e.prev
      | some x => chainGap s p n x

/-- Two entries of one partition overlap (R193). -/
def overlaps (s : State) (p : Nat) (a b : Entry) : Bool :=
  if a.group = b.group then true
  else match entryDesc s p a, entryDesc s p b with
    | some (da, ca), some (db, cb) =>
      (sourcesOf s ca da).any (fun x => (sourcesOf s cb db).any (fun y => x.rank = y.rank))
    | _, _ => false

/-- The lowest-keyed live entry below an entry that overlaps it (R194). -/
def blocker (s : State) (p : Nat) (e : Entry) : Option Entry :=
  (s.entries p).find? (fun o => keyLt o.ticket o.group e.ticket e.group && isLive o && overlaps s p o e)

/-- The working window a live collective has open. -/
def openWin (s : State) (p g t : Nat) : Option Nat :=
  (s.phlx.wins.find? (fun w => w.2.kind = .working && w.2.part = p && w.2.group = g && w.2.ticket = t
    && (w.2.st = .opened || w.2.st = .releasing))).map (·.1)

/-! ### Ports, credits and buffers -/

/-- A pipe is suspended, or under its confirmation test (R271). -/
def suspended (s : State) (k : Nat) : Bool := (s.sndPipe k).cls = .suspended || (s.sndPipe k).cls = .testing

/-- An egress pipe is in state `BOUND` and takes new streams, as a suspended one does not (R159, 08 R271). -/
def boundPipe (s : State) (k : Nat) : Bool := decide ((s.pipe k).st = .bound) && !suspended s k

/-- The egress pipe that serves a port, coded as `BIND`. -/
def egressOf (s : State) (port : Nat) : Option Nat :=
  ((List.range 8).map (· + 8)).find? (fun k => boundPipe s k && (s.pipe k).bind.testBit port)

/-- The destination ports of a mask that some egress pipe binds (R549). -/
def boundPorts (s : State) (mask : Nat) : Nat :=
  (bitsOf 12 mask).foldl (fun acc b => if (egressOf s b).isSome then setBit acc b else acc) 0

/-- The egress pipe of a stream: bound to its lowest-numbered bound destination port, else the lowest `BOUND` one (R159, R549). -/
def outPipe (s : State) (mask : Nat) : Option Nat :=
  match (bitsOf 12 mask).find? (fun b => (egressOf s b).isSome) with
  | some b => egressOf s b
  | none => ((List.range 8).map (· + 8)).find? (boundPipe s)

/-- The ingress pipe that serves a port, draining ports included; a suspended pipe takes no new frame (R142, R144, 08 R271). -/
def ingressOf (s : State) (port : Nat) : Option Nat :=
  (List.range 8).find? (fun k => ((s.pipe k).bind ||| (s.pipe k).drain).testBit port
    && ((s.pipe k).st = .bound || (s.pipe k).st = .draining) && !suspended s k)

/-- Add credits to a count that stops at 65,535 (R519). -/
def addCredits (c : PortCr) (vc : Bool) (n : Nat) : PortCr :=
  if vc then { c with vc1 := satAdd 65535 c.vc1 n } else { c with vc0 := satAdd 65535 c.vc0 n }

/-- Returns of credits on an ingress port, at most 255 in each (R519); where Rhumb is the sender they go to it (R338). -/
def creditReturn : Nat → State → Nat → Bool → Nat → State
  | 0, s, _, _, _ => s
  | f + 1, s, port, vc, n =>
    if n = 0 then s
    else if 8 ≤ port ∧ s.rhmb.lspSrc.testBit (port - 8) then
      { s with rhmb.srcCr := tset {} s.rhmb.srcCr (port - 8) (addCredits (tget {} s.rhmb.srcCr (port - 8)) vc n) }
    else creditReturn f (s.emit (.credit port vc (min n 255))) port vc (n - min n 255)

/-- Give the sender of an ingress port `n` credits: it may send as many beats more (R96, R519). -/
def giveCredits (s : State) (port : Nat) (vc : Bool) (n : Nat) : State :=
  creditReturn 6 { s with lark.inCr := tset {} s.lark.inCr port (addCredits (tget {} s.lark.inCr port) vc n) } port vc n

/-- Credits the sender of an ingress port holds on a channel: the beats that find buffer space (R96, R518). -/
def roomAt (s : State) (port : Nat) (vc : Bool) : Nat :=
  let c := tget {} s.lark.inCr port
  if vc then c.vc1 else c.vc0

/-- Beats arrive on an ingress port: their credits are used (R96). -/
def useCredits (s : State) (port : Nat) (vc : Bool) (n : Nat) : State :=
  let c := tget {} s.lark.inCr port
  { s with lark.inCr := tset {} s.lark.inCr port (if vc then { c with vc1 := c.vc1 - n } else { c with vc0 := c.vc0 - n }) }

/-- Return every credit of a frame (R98). -/
def returnCredits (s : State) (a : Arrival) : State :=
  giveCredits s a.port.toNat a.vc (creditsOf a.bytes.length)

/-- Release the cache entries a frame holds; an entry under flush is zeroed when its last frame leaves (R152, R153). -/
def unholdKeys (p : Pipe) (ks : List Nat) : Pipe :=
  ks.foldl (fun q k =>
    let e := tget {} q.kc k
    let e' := { e with holders := e.holders - 1 }
    { q with kc := tset {} q.kc k (if e'.flush && e'.holders = 0 then {} else e') }) p

/-- A frame leaves an ingress buffer: its credits return and its keys are released (R98). -/
def leaveBuffer (s : State) (pipe id : Nat) : State :=
  let p := s.pipe pipe
  match p.buf.find? (fun f => f.id = id) with
  | none => s
  | some f =>
    let p1 := unholdKeys { p with buf := p.buf.filter (fun x => x.id ≠ id) } f.keys
    if f.again then s.setPipe pipe p1 else returnCredits (s.setPipe pipe p1) f.arr

/-! ### Parking units (R224) -/

/-- Units a frame takes. -/
def unitsOf (payLen : Nat) : Nat := ceilDiv (80 + payLen) 2048

/-- Units of parked frames, and of the replay reserve. -/
def unitsUsed (s : State) : Nat := s.park.frames.foldl (fun acc f => acc + f.units) 0
def reserveUsed (s : State) : Nat := s.park.reserve.foldl (fun acc f => acc + f.units) 0

/-- Free units, reserve included (Table 6.26). -/
def unitsFree (s : State) : Nat := 3840 - unitsUsed s - reserveUsed s

/-- Units and frames a partition holds. -/
def partUnits (s : State) (p : Nat) : Nat := s.park.frames.foldl (fun acc f => acc + (if f.part = p then f.units else 0)) 0
def partFrames (s : State) (p : Nat) : Nat := (s.park.frames.filter (fun f => f.part = p)).length

/-! ### Fabric-class frames -/

/-- The next counter of a fabric class at the present step (R91). -/
def fabCount (s : State) (cls : Nat) : Nat := if s.lark.fabStep = s.mrd.step then tget 0 s.lark.fabSeq cls else 0

/-- Hold a finished output frame at stage 6 of an egress pipe (Table 5.5). -/
def queueOut (s : State) (k : Nat) (f : OutFrame) : State := s.setPipe k { s.pipe k with outs := (s.pipe k).outs ++ [f] }

/-- The entry a lookup hits (R150). -/
def kcFind (p : Pipe) (use part sel epoch : Nat) : Option Nat :=
  (p.kc.find? (fun e => e.2.valid && !e.2.flush && e.2.use = use && e.2.part = part && e.2.sel = sel && e.2.epoch = epoch)).map (·.1)

/-- Mark a cache entry as used now (R152). -/
def kcTouch (s : State) (k i : Nat) : State :=
  let p := s.pipe k
  { s.setPipe k { p with kc := tset {} p.kc i { tget {} p.kc i with used := s.lark.nextUse + 1 } } with lark.nextUse := s.lark.nextUse + 1 }

/-- The fabric slot of the epoch in force is read where a frame is to be sent: a check that fails marks it `BAD` (R363, R551). -/
def noteFabric (s : State) : State :=
  match findSlot s (fun x => x.st = .active && atClass x.attr = 3 && atEpoch x.attr = epochAt s 32 s.mrd.step) with
  | some i => noteBad s i
  | none => s

/-- A fabric-class frame of a step may be encrypted: a boundary has been seen, the rank is valid, the class counter is not spent,
and a fabric key of that step's epoch exists (R91 to R93, R223, R551). -/
def fabricReadyAt (s : State) (cls ports step : Nat) : Bool :=
  s.mrd.seen && s.grp.rankValid && (decide (step ≠ s.mrd.step) || decide (fabCount s cls < 0xFFFFFF))
    && (fabricKey s cls (epochAt s 32 step) (outPipe s ports)).isSome

/-- A fabric-class frame of the present step may be encrypted (R91 to R93, R223, R551). -/
def fabricReady (s : State) (cls ports : Nat) : Bool := fabricReadyAt s cls ports s.mrd.step

/-- The step a waiting fabric-class frame belongs to: a `STEP` frame's own `NEW_STEP`, which its header carries (09 R288), and for any other
class the present one (R91). -/
def waitStep (s : State) (w : FabWait) : Nat := if w.cls = 5 then leAt w.payload 0 8 / 2 ^ 16 else s.mrd.step

/-- Encrypt one fabric-class frame and give it to its egress pipe (R91, R160). A `STEP` frame of a step that has passed is the only one its
class has at that step (09 R290), so its counter is 0. -/
def fabricSeal (s : State) (key : Key) (k : Nat) (w : FabWait) : State :=
  let st := waitStep s w
  let now := decide (st = s.mrd.step)
  let n := if now then fabCount s w.cls else 0
  let h : Hdr :=
    { version := 1, cls := w.cls, part := w.part, group := w.group, gEpoch := s.grp.epA, hop := w.hop, rank := s.grp.rank,
      ticket := low 32 (st / 2 ^ 13), kEpoch := epochAt s 32 st, owner := 0, fmt := 0, op := 0, flags := 0,
      step := st, tiles := 0, first := 0, seq := n, digest := 0, payLen := w.payload.length, clean := true }
  let f0 := if s.lark.fabStep = s.mrd.step then s.lark.fabSeq else []
  let s1 := if now then { s with lark.fabSeq := tset 0 f0 w.cls (n + 1), lark.fabStep := s.mrd.step } else s
  queueOut s1 k
    { part := w.part, group := w.group, ticket := h.ticket, cls := w.cls, ports := boundPorts s1 w.ports, bytes := sealFrame key h w.payload,
      waits := 0, first := 0, count := 0, last := false, release := false, heldNo := w.heldNo, relayOf := w.relayOf }

/-- Count an `ABORT` frame that is not sent (R93, R551). -/
def abortUnsent (s : State) : State := { s with park.abortsUnsent := bump s.park.abortsUnsent 1 }

/-- What becomes of a waiting fabric-class frame that cannot be encrypted any more (R91, R551). -/
def fabricLost (s : State) (w : FabWait) : State :=
  if w.cls = 4 then abortUnsent s
  else if w.cls = 6 || w.cls = 8 then { s with park.unanswered := bump s.park.unanswered 1 }
  else s

/-- The key request of a fabric-class frame on an egress pipe (R84, R366). -/
def fabricReq (s : State) (k : Nat) (w : FabWait) : KeyReq :=
  { pipe := k, use := 4, part := 0, sel := w.cls, epoch := epochAt s 32 (waitStep s w) }

/-- The fabric-class frames that wait start in order: with no egress pipe `BOUND` they wait unstarted (R549), and the first whose key its
pipe lacks asks Chartroom for it and waits (R151, R366). -/
def startFabric : Nat → State → State
  | 0, s => s
  | n + 1, s => match s.lark.unsent with
    | [] => s
    | w :: rest => match outPipe s w.ports with
      | none => s
      | some k =>
        let s0 := { s with lark.unsent := rest }
        if !fabricReadyAt s w.cls w.ports (waitStep s w) then startFabric n (fabricLost s0 w)
        else
          let r := fabricReq s k w
          match kcFind (s.pipe k) r.use r.part r.sel r.epoch with
          | some i =>
            let s1 := kcTouch (if w.asked then s0 else larkCount s0 k 0x100 1) k i
            startFabric n (fabricSeal s1 (tget {} (s.pipe k).kc i).key k w)
          | none =>
            if s.chrt.queue.contains r then s
            else larkCount { s with lark.unsent := { w with asked := true } :: rest, chrt.queue := s.chrt.queue ++ [r] } k 0x108 1

/-- Start every fabric-class frame that waits and may start (R549). -/
def sendWaiting (s : State) : State := startFabric s.lark.unsent.length s

/-- Hand one fabric-class frame over to be encrypted and sent. -/
def fabricGive (s : State) (w : FabWait) : State := sendWaiting { s with lark.unsent := s.lark.unsent ++ [w] }

/-- Send one fabric-class frame that neither comes from the hold queue nor relays a step. -/
def fabricSend (s : State) (cls ports part group hop : Nat) (payload : Bytes) : State :=
  fabricGive s { cls := cls, ports := ports, part := part, group := group, hop := hop, payload := payload, heldNo := none, relayOf := none }

/-- The `ABORT` payload (Table 3.7). -/
def abortPayload (st : Status) (origin ticket detail : Nat) (dl dr : Word) : Bytes :=
  wordBytes (pack [(63, 48, stCode st), (47, 33, origin)]) ++ wordBytes (pack [(63, 32, ticket), (31, 0, detail)])
    ++ wordBytes dl ++ wordBytes dr

/-- Send an `ABORT` frame, hold it, or count it unsent (R93, R203 step 5, R551). -/
def sendAbort (s : State) (ports part group hop : Nat) (payload : Bytes) : State :=
  if ports = 0 ∨ 255 < hop then s
  else if !s.mrd.seen then
    if s.park.holdQ.length < 64 then { s with park.holdQ := s.park.holdQ ++ [(ports, part, group, hop, payload)] } else abortUnsent s
  else
    let s1 := noteFabric s
    if fabricReady s1 4 ports then fabricSend s1 4 ports part group hop payload else abortUnsent s1

/-- Send a frame of the hold queue, the `i`-th of it, at the boundary that releases it (R93, R551). -/
def sendHeldAbort (s : State) (i ports part group hop : Nat) (payload : Bytes) : State :=
  let s1 := noteFabric s
  if fabricReady s1 4 ports then
    fabricGive s1 { cls := 4, ports := ports, part := part, group := group, hop := hop, payload := payload, heldNo := some i, relayOf := none }
  else abortUnsent s1

/-- Empty the abort hold queue, each frame counted unsent (R93). -/
def dropHoldQ (s : State) : State :=
  { s with park.abortsUnsent := bump s.park.abortsUnsent s.park.holdQ.length, park.holdQ := [] }

/-! ### Taking an abort (R203) -/

/-- What an abort carries: status, origin rank, detail, and the two digests of a mismatch. -/
structure AbortInfo where
  st : Status
  /-- the first aborting block's rank; none for this block -/
  origin : Option Nat := none
  detail : Nat := 0
  dl : Word := 0
  dr : Word := 0
  /-- a received frame's status word and payload, relayed with its `HOP` one higher (R204) -/
  relay : Option (Nat × Bytes × Nat) := none
  deriving DecidableEq, Repr

/-- Latch `GRP_ABORT0` to `2` under the rule of first record (R200, R203). -/
def latchAbort (s : State) (g : Nat) (code origin detail : Nat) (dl dr : Word) : State :=
  let r := s.grpRec g
  if r.abValid then s
  else s.setGrpRec g { r with abValid := true, abOrigin := origin, abStatus := code, abDetail := detail, abLocal := dl, abReceived := dr }

/-- Record `GRP_LAST` (R198, Table 6.17). -/
def recordLast (s : State) (g t ep outcome : Nat) : State :=
  s.setGrpRec g { s.grpRec g with lastTicket := t, lastEpoch := ep, outcome := outcome }

/-- The block has aborted a collective: its later frames are told by it (03 R106). -/
def noteAborted (s : State) (p g t ep : Nat) : State :=
  let r := s.grpRec g
  if r.aborted.contains (p, t, ep) then s else s.setGrpRec g { r with aborted := r.aborted ++ [(p, t, ep)] }

/-- The key epoch of an entry: its launch's, or the one at its step (R154). -/
def entryEpoch (s : State) (p : Nat) (e : Entry) : Nat := if e.launched then e.kEpoch else (e.step.map (epochAt s p)).getD 0

/-- Drop the parked frames of a ticket, each counted once at its drop (R180, R203 step 2). -/
def dropParked (s : State) (p g t : Nat) : State :=
  let mine (f : Parked) : Bool := f.part = p && f.group = g && f.ticket = t
  let s1 := (s.park.frames.filter mine).foldl (fun st f => larkCount st f.pipe 0xF8 1) s
  { s1 with park.frames := s1.park.frames.filter (fun f => !mine f),
            park.reserve := s1.park.reserve.filter (fun f => !(f.part = p && f.group = g && f.ticket = t)) }

/-- Discard every output frame of a ticket that has not started, its waiting key request and its unfinished relays (R203
step 4): the ingress frames they relay leave their buffers. -/
def discardOuts (s : State) (p g t : Nat) : State :=
  let mine (f : OutFrame) : Bool := isCollective f.cls && f.part = p && f.group = g && f.ticket = t
  let all := (s.lark.pipes.map (fun e => e.2.outs.filter mine)).flatten
  let s1 := { s with lark.pipes := tmap {} (fun _ q => { q with
    outs := q.outs.filter (fun f => !mine f),
    waitKey := if q.waitKey = some (p, g, t) then none else q.waitKey }) s.lark.pipes }
  let rel := (all.filterMap (·.relays)) ++
    (match findEntry s p g t with | some e => e.flow.relay.map (fun r => (r.1, r.2.1)) | none => [])
  rel.foldl (fun st r => leaveBuffer st r.1 r.2) s1

/-- The refund of a charge when an abort comes before the first beat and the swap (R249). -/
def refund (s : State) (p : Nat) (e : Entry) : State :=
  if e.charge = 0 ∨ e.flow.beatLeft ∨ e.flow.swapped then s
  else
    let b := s.budget p
    let s1 := s.setBudget p { b with spent := b.spent - e.charge }
    { s1 with zin.refunds := bump s1.zin.refunds 1 }

/-- Abort a live entry, or stop the unsent frames of a collective past release (R202, R203). DESIGN CHOICE (log 165): an entry that only a
`PREV` has made names no group, so its abort latches no `GRP_ABORT0` and sends no `ABORT` frame; R203 speaks of the collective's group. -/
def abortEntry (s : State) (p : Nat) (e : Entry) (i : AbortInfo) : State :=
  if e.st = .done then
    if e.fin then s
    else
      let s1 := discardOuts s p e.group e.ticket
      let s2 := if e.left then delEntry s1 p e.group e.ticket
        else putEntry s1 p { e with fin := true, flow := { e.flow with relay := [] } }
      recordLast s2 e.group e.ticket e.kEpoch 5
  else if e.st = .aborted then s
  else
    let origin := i.origin.getD s.grp.rank
    let code := match i.relay with | some (c, _) => c | none => stCode i.st
    let s1 := if e.group < 4096 then noteAborted (latchAbort s e.group code origin i.detail i.dl i.dr) p e.group e.ticket (entryEpoch s p e) else s
    let s2 := if e.launched then recordLast s1 e.group e.ticket e.kEpoch 4 else s1
    let s3 := { s2 with park.aborts := bump s2.park.aborts 1 }
    let s4 := discardOuts (dropParked s3 p e.group e.ticket) p e.group e.ticket
    let s5 := match (if e.st = .active then openWin s4 p e.group e.ticket else none) with
      | some w => idleWindow s4 w
      | none => s4
    let s6 := refund s5 p e
    let mine (c : Check) : Bool := c.part = p && c.group = e.group && c.ticket = e.ticket
    let s6' := { s6 with snd.checks := s6.snd.checks.filter (fun c => !mine c) }
    let s7 := (s6.snd.checks.filter mine).foldl (fun x c => leaveBuffer x c.pipe c.frame) s6'
    let s8 := putEntry s7 p { e with st := .aborted, charge := 0, fin := true, flow := {} }
    let ports := match entryDesc s p e with | some (d, _) => dAbortPorts d | none => dAbortPorts (s.desc false e.group)
    let s9 := match i.relay with
      | some (_, pay, hop) => sendAbort s8 ports p e.group hop pay
      | none => sendAbort s8 ports p e.group 0 (abortPayload i.st origin e.ticket i.detail i.dl i.dr)
    raise (raise s9 0x60 1) (0x80 + p) 0

/-- Abort every entry of a list of (partition, entry) in order, each as it stands when its turn comes. -/
def abortEach (i : AbortInfo) (l : List (Nat × Entry)) (s : State) : State :=
  l.foldl (fun st x => match findEntry st x.1 x.2.group x.2.ticket with | some e => abortEntry st x.1 e i | none => st) s

/-- Every admitted collective of the block, partitions ascending, keys ascending. -/
def admittedAll (s : State) : List (Nat × Entry) :=
  (s.grp.lists.map (fun l => (l.2.filter isAdmitted).map (fun e => (l.1, e)))).flatten

/-- Abort every admitted collective that satisfies a condition. -/
def abortWhere (c : Nat → Entry → Bool) (i : AbortInfo) (s : State) : State :=
  abortEach i ((admittedAll s).filter (fun x => c x.1 x.2)) s

/-- A damaged frame aborts by the partition, group and ticket its header names (R104); a `KNOWN` entry that a frame made, not a `PREV`,
records the drop (R197). -/
def damagedAbort (s : State) (h : Hdr) (i : AbortInfo) : State :=
  if h.cls = 4 then abortWhere (fun p e => p = h.part && e.group = h.group) i s
  else match findEntry s h.part h.group h.ticket with
    | none => s
    | some e =>
      if isAdmitted e then abortEntry s h.part e i
      else if e.st = .known && !e.byPrev then putEntry s h.part { e with dropped := some (e.dropped.getD i.st) }
      else s

/-! ### `STATION_LIVE` (R208) -/

/-- Every condition of R208 holds. -/
def liveCond (s : State) : Bool :=
  s.blk.ready && !s.life.scrapping && !s.blk.recovery && !s.logb.lifted && s.life.st ≠ 4 && s.grp.liveEn && s.grp.rankValid && arithRuns s && secRuns s
    && (List.range 8).any (fun k => (s.pipe k).st = .bound) && (List.range 8).any (fun k => (s.pipe (k + 8)).st = .bound)

/-- A port makes its one grant where R143 lets it: bound, and for a fabric port after the first rise of `STATION_LIVE`. DESIGN CHOICE
(log 118): a fabric port that was bound and unbound again before that rise grants at its next binding and not at the rise, for R143 names
the rise and Table 18.8 only the ports that are bound then. -/
def grantPort (s : State) (port : Nat) : State :=
  let c := tget {} s.lark.inCr port
  if c.granted || !c.everBound || (port < 8 && !s.pins.liveSeen) || (ingressOf s port).isNone then s
  else
    let s1 := { s with lark.inCr := tset {} s.lark.inCr port { c with granted := true } }
    giveCredits (giveCredits s1 port false 1032) port true 36

/-! ### Sending -/

/-- Credits held for a channel of an egress port. -/
def creditsAt (s : State) (port : Nat) (vc : Bool) : Nat :=
  let c := tget {} s.lark.outCr port
  if vc then c.vc1 else c.vc0

/-- A port may carry a frame: a fabric port only while `STATION_LIVE` is high (R208, Table 18.8). -/
def portOpen (s : State) (port : Nat) : Bool := 8 ≤ port || s.pins.stationLive

/-- A fabric-class frame keeps the order of R93: the `ABORT` frames that a boundary released from the hold queue leave first, in order. -/
def fabricTurn (s : State) (f : OutFrame) : Bool :=
  isCollective f.cls || s.lark.pipes.all (fun q => q.2.outs.all (fun o =>
    match o.heldNo, f.heldNo with
    | none, _ => true
    | some _, none => false
    | some m, some n => decide (n ≤ m)))

/-- A held frame may start: its checks have passed, and every destination port is open and holds credits for every beat (R160). -/
def canSend (s : State) (f : OutFrame) : Bool :=
  arithRuns s && f.waits = 0 && !f.failed && fabricTurn s f
    && (bitsOf 12 f.ports).all (fun b => portOpen s b && creditsOf f.bytes.length ≤ creditsAt s b (classVc f.cls))

/-- The sideband the block drives with a frame's first beat: `LAST`, `PARTITION` and `CLASS` of its header, its channel and its length
(R517, Table 18.4). -/
def sidebandOf (vc : Bool) (b : Bytes) : Sideband :=
  let h := hdrOf b
  { last := flagLast h, part := h.part, cls := h.cls, vc := vc, wireLen := b.length }

/-- The 32 bits of *P*`_SB` (Table 18.4). -/
def Sideband.bits (x : Sideband) : Word := pack [(25, 25, x.last.toNat), (24, 20, x.part), (19, 16, x.cls), (15, 15, x.vc.toNat), (14, 0, x.wireLen)]

/-- One beat of a stream port: *P*`_SOP`, *P*`_EOP`, *P*`_EOPB` and its 128 bytes (R517, Table 18.3). -/
structure Beat where
  sop : Bool
  eop : Bool
  eopb : Nat
  data : Bytes
  deriving DecidableEq, Repr

/-- The beats of a frame: flags on the first and the last, bytes beyond the length zero (R517). -/
def beatsOf (b : Bytes) : List Beat :=
  (List.range (creditsOf b.length)).map (fun i =>
    let eop := i + 1 = creditsOf b.length
    { sop := i = 0, eop := eop, eopb := if eop then b.length % 128 else 0,
      data := (List.range 128).map (fun j => b.getD (128 * i + j) 0) })

/-- The beats leave on one port: the credits are spent; a frame for a port on which Rhumb receives stands there for it (R339). -/
def sendOn (s : State) (port : Nat) (vc : Bool) (b : Bytes) : State :=
  let c := tget {} s.lark.outCr port
  let n := creditsOf b.length
  let c' := if vc then { c with vc1 := c.vc1 - n } else { c with vc0 := c.vc0 - n }
  let s1 := { s with lark.outCr := tset {} s.lark.outCr port c' }
  if 8 ≤ port ∧ s.rhmb.lspSink.testBit (port - 8) then
    { s1 with rhmb.sink := tset [] s1.rhmb.sink (port - 8) (tget [] s1.rhmb.sink (port - 8) ++ [b]) }
  else s1.emit (.frame port (sidebandOf vc b) b)

/-- Send a held frame's bytes on every port and count it; a frame with no port is discarded (R160, R549, Table 5.16). -/
def sendBytes (s : State) (k : Nat) (f : OutFrame) : State :=
  let s1 := (bitsOf 12 f.ports).foldl (fun st b => sendOn st b (classVc f.cls) f.bytes) s
  if f.ports = 0 then s1
  else larkCount (larkCount (larkCount s1 k 0xC0 1) k 0xC8 f.bytes.length) k 0xD0 (popCount 12 f.ports - 1)

/-- The first held channel-1 frame that may start, with its pipe. -/
def nextFabric (s : State) : Option (Nat × OutFrame) :=
  ((List.range 8).map (· + 8)).findSome? (fun k => ((s.pipe k).outs.find? (fun f => classVc f.cls && canSend s f)).map (fun f => (k, f)))

/-- Up to `n` held channel-1 frames go out. -/
def flushSome : Nat → State → State
  | 0, s => s
  | n + 1, s =>
    match nextFabric s with
    | none => s
    | some (k, f) => flushSome n (sendBytes (s.setPipe k { s.pipe k with outs := (s.pipe k).outs.erase f }) k f)

/-- Every held channel-1 frame that may start goes out, as before a planned fall of `STATION_LIVE` (Table 18.8). -/
def flushFabric (s : State) : State := flushSome (s.lark.pipes.foldl (fun n q => n + q.2.outs.length) 0) s

/-- A planned fall of `STATION_LIVE`: every admitted collective aborts with `ST_ABORTED`, its `ABORT` frames leave, and only
then the signal falls (R208, Table 18.8). -/
def plannedFall (s : State) (detail : Nat) : State :=
  { flushFabric (abortWhere (fun _ _ => true) { st := .aborted, detail := detail } s) with pins.stationLive := false }

/-- Drive `STATION_LIVE` as R208 asks; at a rise each bound fabric port that has not granted grants (Table 18.8). -/
def updateLive (s : State) : State :=
  if liveCond s then
    if s.pins.stationLive then s
    else (List.range 8).foldl grantPort { s with pins.stationLive := true, pins.liveSeen := true }
  else if s.pins.stationLive then plannedFall s 0 else s

end Sys2Proof.Machine
end

