-- ==== Sys2Proof/Machine/Checks.lean ====
section
/-! DEFINITION. Sounding's checks of one tile (chapter 8, R259 to R262): the sums, the conditions of Table 8.1, the excess of a
saturated lane, and how a failing check is latched (R266). -/

namespace Sys2Proof.Machine

/-! ### Sums and conditions (R259 to R261) -/

/-- What a failing check found (R266, Tables 8.12 and 8.13): point, failed rows and columns, difference, and whether R260 failed too. -/
structure CheckFail where
  point : Nat
  rowMask : Nat
  colMask : Nat
  delta : Int
  internal : Bool
  deriving DecidableEq, Repr

/-- An operand tile that Sounding taps and sums. -/
abbrev Operand := Tap × List Int

/-- One comparison of Table 8.1: the operands whose sums are found and those whose sums are expected, the found sums scaled by 2^`scale`, what
Sounding itself takes off the expected ones (the excess of R262 and a replay's deposit), and the operands that it taps besides; the sums are
equal, or differ by at most the band, or by less than it where the band is strict; or they are not compared at all. -/
structure Compare where
  point : Nat
  found : List Operand
  expected : List Operand
  others : List Operand := []
  off : List (List Int) := []
  scale : Nat := 0
  band : Option (Nat × Bool) := none
  applied : Bool := true
  deriving DecidableEq, Repr

/-- The error of Sounding's own sum `i` of an operand. -/
def sumError (errs : List SumErr) (t : Tap) (i : Nat) : Int :=
  (errs.filter (fun e => e.tap = t && e.idx.toNat = i)).foldl (fun acc e => acc + e.err.toInt) 0

/-- Sum `i` of an operand as Sounding forms it; `sum` forms one exact sum of a tile (R259). -/
def tapSum (sum : List Int → Nat → Int) (errs : List SumErr) (i : Nat) (o : Operand) : Int := sum o.2 i + sumError errs o.1 i

/-- Found minus expected in row or column `i`. -/
def Compare.diff (c : Compare) (sum : List Int → Nat → Int) (errs : List SumErr) (i : Nat) : Int :=
  2 ^ c.scale * (c.found.map (tapSum sum errs i)).sum - ((c.expected.map (tapSum sum errs i)).sum - (c.off.map (fun l => sum l i)).sum)

/-- Found minus expected in each of 16 rows or columns. -/
def Compare.diffs (c : Compare) (sum : List Int → Nat → Int) (errs : List SumErr) : List Int := (List.range 16).map (c.diff sum errs)

/-- A difference breaks the condition. -/
def Compare.breaks (c : Compare) (d : Int) : Bool :=
  c.applied && (match c.band with
  | none => d ≠ 0
  | some (b, strict) => if strict then (b : Int) ≤ |d| else (b : Int) < |d|)

/-- `DELTA` of a broken condition: the difference, or for a band what lies beyond it (Table 8.13). DEDUCED (log 98): that excess is a
magnitude, on whichever side of the band. -/
def Compare.excess (c : Compare) (d : Int) : Int :=
  match c.band with
  | none => d
  | some (b, _) => |d| - b

/-- The rows or columns that fail, as a mask. -/
def Compare.mask (c : Compare) (ds : List Int) : Nat :=
  (List.range 16).foldl (fun m i => if c.breaks (ds.getD i 0) then setBit m i else m) 0

/-- The totals of the 16 row sums and the 16 column sums of an operand differ. -/
def totalsDiffer (rows cols : List SumErr) (o : Operand) : Bool :=
  decide (((List.range 16).map (fun i => tapSum rowSum rows i o)).sum ≠ ((List.range 16).map (fun i => tapSum colSum cols i o)).sum)

/-- Sounding's check of its own work fails on an operand it tapped (R260). -/
def Compare.internal (c : Compare) (rows cols : List SumErr) : Bool := (c.found ++ c.expected ++ c.others).any (totalsDiffer rows cols)

/-- Judge one comparison, with the errors of Sounding's own sums (R259 to R261). -/
def Compare.judge (c : Compare) (rows cols : List SumErr) : Option CheckFail :=
  let rd := c.diffs rowSum rows
  let cd := c.diffs colSum cols
  let rm := c.mask rd
  let cm := c.mask cd
  let internal := c.internal rows cols
  if rm = 0 ∧ cm = 0 ∧ !internal then none
  else
    let first := match rd.find? c.breaks with | some d => c.excess d | none => ((cd.find? c.breaks).map c.excess).getD 0
    some { point := c.point, rowMask := rm, colMask := cm, delta := first, internal := internal }

/-- The failing checks of a tile in the order of their codes. -/
def judgeAll (cs : List Compare) (rows cols : List SumErr) : List CheckFail := cs.filterMap (fun c => c.judge rows cols)

/-- A record check fails: it has no sums. -/
def recordFails (point : Nat) : CheckFail := { point := point, rowMask := 0, colMask := 0, delta := 0, internal := false }

/-- The elements of a tile with some of them replaced by what the pipe produced. -/
def override (vs : List Int) (l : List (BitVec 8 × BitVec 32)) : List Int :=
  if l.isEmpty then vs
  else (List.range 256).map (fun e => match l.find? (fun r => r.1.toNat = e) with | some r => r.2.toInt | none => vs.getD e 0)

/-! ### The input checks of one tile (points 0x1 to 0x4 and 0x7) -/

/-- Points 0x1: the shift of a hop-0 tile by `d` bits, from `x` to `y`. -/
def shiftCompare (d : Nat) (stoch : Bool) (x y : List Int) : Compare :=
  if d = 0 then { point := 1, found := [(.y, y)], expected := [(.x, x)] }
  else if 32 ≤ d then { point := 1, found := [(.y, y)], expected := [], others := [(.x, x)] }
  else { point := 1, found := [(.y, y)], expected := [(.x, x)], scale := d, band := some (if stoch then (2 ^ (d + 4), true) else (2 ^ (d + 3), false)) }

/-- The lanes a job adds into: as read, less the deposit that a replay takes off (R267). -/
def TileJob.base (j : TileJob) : List Int := if j.dep.isEmpty then j.o else j.o.zipWith (· - ·) j.dep

/-- The exact lanes of a job with the addend `a`, and which of them saturate (R131, R132, R169, R236). -/
def TileJob.lanes (j : TileJob) (a : List Int) : List (Int × Bool) :=
  if j.write || j.fresh then a.map (fun x => (x, false)) else j.base.zipWith (combineLane j.op) a

/-- The exact sums of the inputs of a job's lanes. -/
def TileJob.sums (j : TileJob) (a : List Int) : List Int := if j.fresh then a else j.base.zipWith (· + ·) a

/-- The bound in the direction of a sum (R132). -/
def boundOf (e : Int) : Int := if e < 0 then -laneMax else laneMax

/-- What a pipe made of a job, by the fault it had. -/
structure TileWork where
  /-- addend at the adder input -/
  a : List Int
  /-- lanes as written -/
  w : List Int
  /-- failing checks, in the order of their codes -/
  fails : List CheckFail
  deriving DecidableEq, Repr

/-- The excess of a lane (R262): zero, or where the pipe reports the lane saturated the exact sum of its inputs less the bound. -/
def laneExcess (reported : Bool) (exact : Int) : Int := if reported then exact - boundOf exact else 0

/-- Which lanes a pipe reports saturated: those that are, but for the lanes whose report a fault inverts. -/
def reports (sat : List Bool) (inv : List (BitVec 8)) : List Bool :=
  if inv.isEmpty then sat else sat.zipIdx.map (fun x => x.1 != inv.any (fun r => r.toNat = x.2))

/-- Lanes *o* as read: a `FRESH` tile reads zero (R169). -/
def TileJob.read (j : TileJob) : List Int := if j.fresh then [] else j.o

/-- The comparison of an add (points 0x2 and 0x3): `o` as read, the addend `a`, the lanes `w`. -/
def addCompare (j : TileJob) (f : TileFault) (a w : List Int) : Compare :=
  if 2 ≤ j.op then { point := 3, found := [(.w, w)], expected := [(.m, (j.lanes a).map (·.1))], others := [(.o, j.read), (.a, a)] }
  else
    let excess := (reports ((j.lanes a).map (·.2)) f.report).zipWith laneExcess (j.sums a)
    { point := 2, found := [(.w, w)], expected := [(.o, j.read), (.a, a)], off := [excess, if j.fresh then [] else j.dep] }

/-- A job as a faulty pipe runs it, and what Sounding finds (R259 to R262, Table 8.1). -/
def TileJob.run (j : TileJob) (f : TileFault) : TileWork :=
  let y := override j.y f.shifted
  let a := override j.a f.addend
  let w := override ((j.lanes a).map (·.1)) f.lanes
  let cs : List Compare :=
    if j.write then [{ point := 7, found := [(.w, w)], expected := [(.out, a)] }]
    else (match j.shift with | some (d, st) => [shiftCompare d st j.x y] | none => []) ++ [addCompare j f a w]
  let recBad := if j.write then f.flags ≠ 0 || f.exp ≠ 0 else f.flags &&& 0xD ≠ 0 || f.hop ≠ 0
  { a := a, w := w, fails := judgeAll cs f.rows f.cols ++ (if recBad then [recordFails (if j.write then 7 else 4)] else []) }

/-- A pipe without a fault. -/
def noFault : TileFault :=
  { shifted := [], addend := [], lanes := [], elems := [], report := [], flags := 0, hop := 0, exp := 0, rows := [], cols := [] }

/-- A lane of a tile stands at the bound (R269). -/
def atBound (l : List Int) : Bool := l.any (fun v => v = laneMax || v = -laneMax)

/-! ### The output checks of one tile (points 0x5 to 0x7) -/

/-- The lanes of an output tile, without the noise of a release. -/
def OutCheck.lanes (c : OutCheck) : List Int := if c.noise.isEmpty then c.exact else c.exact.zipWith (· - ·) c.noise

/-- The comparison of an output tile: a running sum is packed as it is, a release is shifted, and the band is not applied to a tile that
R136 clamped (Table 8.1). -/
def OutCheck.compare (c : OutCheck) (f : TileFault) (q : List Int) : Compare :=
  if c.point = 5 then { point := 5, found := [(.out, q)], expected := [(.lanes, c.exact)] }
  else
    let sat := reports (c.exact.map (fun x => decide (x > laneMax) || decide (x < -laneMax))) f.report
    { point := 6, found := [(.out, q)], expected := [(.lanes, c.lanes), (.noise, c.noise)], off := [sat.zipWith laneExcess c.exact],
      scale := c.shift, band := if c.shift = 0 then none else some (2 ^ (c.shift + 3), false), applied := !c.clamped }

/-- The failing output checks of a tile (points 0x5 and 0x6). -/
def OutCheck.fails (c : OutCheck) (f : TileFault) : List CheckFail := judgeAll [c.compare f (override c.elems f.elems)] f.rows f.cols

/-- The failing checks of the write of one released tile (point 0x7): the lanes written, and `EXP` and flags of its record. -/
def writeFails (elems : List Int) (f : TileFault) : List CheckFail :=
  judgeAll [{ point := 7, found := [(.w, override elems f.lanes)], expected := [(.out, elems)] }] f.rows f.cols
    ++ (if f.flags ≠ 0 ∨ f.exp ≠ 0 then [recordFails 7] else [])

/-! ### Recording a failure (R266, Tables 8.12 and 8.13) -/

/-- Direction and number of a pipe. -/
def dirOf (k : Nat) : Nat := if k < 8 then 0 else 1
def numOf (k : Nat) : Nat := if k < 8 then k else k - 8

/-- Latch a failing check under the rule of first record (R266). -/
def latchFail (s : State) (k part group ticket tile : Nat) (f : CheckFail) : State :=
  let s1 := raise (sndCount s 0x60 1) 0x56 0
  if bitOf s.snd.last0 63 then { s1 with snd.last0 := s1.snd.last0 ||| bitWord 62 }
  else
    { s1 with
      snd.last0 := (s1.snd.last0 &&& bitWord 62) ||| pack [(63, 63, 1), (61, 61, dirOf k), (60, 58, numOf k), (57, 54, f.point),
        (53, 49, part), (48, 37, group), (36, 22, tile), (0, 0, f.internal.toNat)],
      snd.last1 := pack [(63, 48, f.rowMask), (47, 32, f.colMask), (31, 0, ticket)],
      snd.last2 := pack [(47, 0, uNat 48 f.delta)] }

/-- Latch every failing check of a tile in turn. -/
def latchFails (s : State) (k part group ticket tile : Nat) (fs : List CheckFail) : State :=
  fs.foldl (fun st f => latchFail st k part group ticket tile f) s

/-- The latched record without its outcome fields. -/
def outcomeOff (w : Word) : Word := w &&& BitVec.ofNat 64 (2 ^ 64 - 1 - maskBits 21 16)

/-- Write the replay pipe and the outcome of the latched failure, where it is the one judged (Table 8.12). -/
def latchOutcome (s : State) (k part group ticket tile q outcome : Nat) : State :=
  let w := s.snd.last0
  if bitOf w 63 && fld w 61 61 = dirOf k && fld w 60 58 = numOf k && fld w 53 49 = part && fld w 48 37 = group && fld w 36 22 = tile
      && fld s.snd.last1 31 0 = ticket && fld w 18 16 = 0 then
    { s with snd.last0 := outcomeOff w ||| pack [(21, 19, numOf q), (18, 16, outcome)] }
  else s

end Sys2Proof.Machine
end

