-- ==== Sys2Proof/Machine/Groups.lean ====
section
/-! DEFINITION. The group commands of chapter 6: descriptor and member writes, commit, launch, abort, group-table epochs,
the station register, deadlines and absences. -/

namespace Sys2Proof.Machine

/-- The register that starts every group command. -/
def grpCmdAddr : Nat := regAt 0x60 0x88

/-- The shadow copy takes edits: no swap is scheduled, no old copy held, no refill running (R216, R217). -/
def editable (s : State) : Bool := !s.grp.frozen && !s.grp.oldHeld && !s.grp.refill

/-- Word 1 of a descriptor with `EPOCH` as the copy holds it (Table 6.1). -/
def withEpoch (s : State) (shadow : Bool) (d : Desc) : Desc :=
  { d with w1 := (d.w1 &&& BitVec.ofNat 64 (2 ^ 48 - 1)) ||| pack [(63, 48, if shadow then s.grp.epS else s.grp.epA)] }

/-- Descriptors that belong to a partition in the shadow copy (R547). -/
def partDescs (s : State) (p : Nat) : Nat := (s.grp.descS.filter (fun e => descOwner e.2 = some p)).length

/-- End a group command: `GRP_RESULT` of the access's bank, `CMD_DONE`, and the record of a failure (R222, Table 6.16). -/
def grpDone (s : State) (a : Access) (st : Status) (stepFailed : Nat) : State :=
  let s1 := { s with grp.result := tset 0 s.grp.result (bankOf a) (pack [(63, 48, stCode st), (47, 40, stepFailed)]) }
  noteCmd (raise s1 0x60 0) a grpCmdAddr st

/-- A command of the same tag is held at the step (R222, R292). -/
def grpBusy (s : State) (a : Access) : Bool :=
  s.mrd.heldCmds.any (fun c => match c with
    | .launch b _ => bankOf b = bankOf a
    | .resyncSend b _ => bankOf b = bankOf a
    | .resyncRecv b _ => bankOf b = bankOf a
    | _ => false)

/-- The bus checks, `BUSY` and must-be-zero bits of a write of `GRP_CMD`, then the command. -/
def grpCmd (s : State) (a : Access) (v : Word) (k : State → State) : State :=
  regWrite s a grpCmdAddr (refuseIf (grpBusy s a) .wrongState) (mbz v (maskBits 59 0)) k

/-- As `grpCmd`, refused to management accesses with `ST_PARTITION` (R302). -/
def grpTagCmd (s : State) (a : Access) (v : Word) (k : State → State) : State :=
  if isMgmt a then regWrite s a grpCmdAddr (some .partition) none k else grpCmd s a v k

/-! ### Edits -/

/-- Word `n` of a descriptor. -/
def descWord (d : Desc) (n : Nat) : Word :=
  match n with
  | 0 => d.w0 | 1 => d.w1 | 2 => d.w2 | 3 => d.w3 | 4 => d.w4 | 5 => d.w5 | 6 => d.w6 | _ => d.w7

/-- Keep the bits of a mask from `old` and take the others from `new`. -/
def keepBits (mask : Nat) (old new : Word) : Word :=
  (old &&& BitVec.ofNat 64 mask) ||| (new &&& BitVec.ofNat 64 (2 ^ 64 - 1 - mask))

/-- A descriptor with word `n` written: hardware fields keep their values, `VALID` clears (R190, Tables 6.1 and 6.2). -/
def writeDescWord (d : Desc) (n : Nat) (v : Word) : Desc :=
  let d1 := { d with w0 := d.w0 &&& BitVec.ofNat 64 (2 ^ 63 - 1) }
  match n with
  | 0 => { d1 with w0 := v &&& BitVec.ofNat 64 (2 ^ 63 - 1) }
  | 1 => { d1 with w1 := v &&& BitVec.ofNat 64 (2 ^ 48 - 1) }
  | 2 => { d1 with w2 := v }
  | 3 => { d1 with w3 := v }
  | 4 => { d1 with w4 := v }
  | 5 => { d1 with w5 := v }
  | 6 => { d1 with w6 := v }
  | _ => { d1 with w7 := keepBits (maskBits 48 35) d.w7 v }

/-- A write of `GRP_DESC`n (R189, R190, R216, R217). -/
def grpDescWrite (s : State) (a : Access) (n : Nat) (v : Word) : State :=
  let addr := regAt 0x60 (0x48 + 8 * n)
  let gs := selected s a 0x60
  let d := s.desc true gs.1
  let newOwner := if bitOf v 12 then some (fld v 62 58) else none
  if n = 0 ∧ !isMgmt a then regWrite s a addr (some .partition) none (fun x => x)
  else
    let tooMany := n = 0 && newOwner ≠ descOwner d &&
      (match newOwner with | some p => decide (partDescs s p + 1 > (s.part p).qDescs) | none => false)
    regWrite s a addr (refuseIf (!gs.2 || !editable s) .wrongState) none (fun s1 =>
      if tooMany then
        let s2 := raise s1 (0x80 + newOwner.getD 0) 4
        refuse s2 a true addr .quota
      else s1.setDesc true gs.1 (writeDescWord d n v))

/-- Clear `VALID` of every shadow descriptor whose member or source slice holds an entry (R190; log 20). -/
def invalidateHolding (s : State) (i : Nat) : State :=
  let clr (d : Desc) : Desc :=
    if (dMbrBase d ≤ i ∧ i < dMbrBase d + dMembers d) ∨ (fld d.w6 60 43 ≤ i ∧ i < fld d.w6 60 43 + fld d.w6 42 36)
    then { d with w0 := d.w0 &&& BitVec.ofNat 64 (2 ^ 63 - 1) } else d
  { s with grp.descS := tmap {} (fun _ d => clr d) s.grp.descS }

/-- The member-list entries an access reaches: a tagged one those of the partition that owns the selected group (chapter 6,
`MBR` registers). -/
def mbrInRange (s : State) (a : Access) (i : Nat) : Bool :=
  isMgmt a || ((s.part a.ptag.toNat).mbrBase ≤ i && i < (s.part a.ptag.toNat).mbrBase + (s.part a.ptag.toNat).mbrLen)

/-- Move `MBR_ADDR` of the access's bank on by one, wrapping (Table 6.22). -/
def mbrAdvance (s : State) (a : Access) : State :=
  let i := tget 0 s.grp.mbrAddr (bankOf a)
  { s with grp.mbrAddr := tset 0 s.grp.mbrAddr (bankOf a) ((i + 1) % 2 ^ 18) }

/-- A write of `MBR_DATA` (R189, Table 6.22). -/
def mbrWrite (s : State) (a : Access) (v : Word) : State :=
  let i := tget 0 s.grp.mbrAddr (bankOf a)
  let gs := selected s a 0x61
  regWrite s a (regAt 0x61 0x50) (refuseIf (!gs.2 || !editable s) .wrongState) (refuseIf (!mbrInRange s a i) .bounds)
    (fun s1 => mbrAdvance (invalidateHolding { s1 with grp.mbrS := tset 0 s1.grp.mbrS i (fld v 31 0) } i) a)

/-- A read of `MBR_DATA`: the entry of the copy the index selects (Table 6.22). -/
def mbrRead (s : State) (a : Access) : State :=
  let i := tget 0 s.grp.mbrAddr (bankOf a)
  regRead s a (regAt 0x61 0x50) (refuseIf (!mbrInRange s a i) .bounds) (reg (mbrEntry s (selected s a 0x61).2 i))
    (fun s1 => mbrAdvance s1 a)

/-! ### Commit (Tables 6.4 and 7.2) -/

/-- Commit check 1. -/
def commitRanges (s : State) (d : Desc) : Bool :=
  fld d.w0 11 0 = 0 && fld d.w2 8 0 = 0 && fld d.w6 11 8 = 0 && fld d.w7 33 0 = 0 && bitOf d.w0 12
    && dOp d ≤ 3 && dInFmt d ≤ 3 && dOutFmt d ≤ 3 && (if dFixed d then expValid (dEfix d) else dEfix d = 0)
    && 1 ≤ dElems d && dElems d ≤ 8355840 && 1 ≤ dMembers d && dMembers d ≤ 24576
    && 1 ≤ dQuorum d && dQuorum d ≤ dMembers d && 500 ≤ dDeadline d && dDeadline d ≤ 1000000
    && 1 ≤ dCut d && dCut d < dDeadline d && dRole d ≤ 3 && fld d.w6 42 36 ≤ 64
    && (s.blk.profile ≠ 2 || (dOutPorts d / 256 = 0 && dDistPorts d / 256 = 0))

/-- Commit check 2: both slices inside the partition's member-list range. -/
def commitSlices (s : State) (d : Desc) : Bool :=
  let q := s.part (dPart d)
  let inside (b n : Nat) : Bool := n = 0 || (q.mbrBase ≤ b && b + n ≤ q.mbrBase + q.mbrLen)
  inside (dMbrBase d) (dMembers d) && inside (fld d.w6 60 43) (fld d.w6 42 36)

/-- Ranks of the member slice. -/
def memberRanks (s : State) (shadow : Bool) (d : Desc) : List Nat :=
  (List.range (dMembers d)).map (fun i => mbrEntry s shadow (dMbrBase d + i) / 2 ^ 17 % 2 ^ 15)

/-- Commit check 3. -/
def commitMembers (s : State) (d : Desc) : Bool :=
  let rs := memberRanks s true d
  decide (rs.Pairwise (· < ·)) && rs.all (· < 24576) && (rs.contains (dRelease d) || 24576 ≤ dRelease d)

/-- Commit check 4. -/
def commitSources (s : State) (d : Desc) : Bool :=
  let ss := sourcesOf s true d
  let rs := memberRanks s true d
  ss.all (fun x => !x.isLocal || (rs.contains x.rank && !x.gap))
    && (ss.filter (·.isLocal)).length ≤ (if s.blk.profile = 1 then 1 else 0)
    && (match ss with | [] => true | x :: _ => !x.gap)

/-- Rows 5.7 and 5.8 of Table 7.2 against the floors in force (R226, R227). -/
def floorsHold (s : State) (d : Desc) : Bool :=
  let b := s.budget (dPart d)
  (!dNoise d || (decide (b.minCharge ≤ dCharge d) &&
      decide (b.noiseMult2 * dBound d * dBound d * ceilDiv (dTiles d) (dSpan d) ≤ dSigma d * dSigma d * 256)))
    && (!b.privRequired || ((dOp d = 0 || dOp d = 1) && dNoise d))

/-- Commit check 5 (Table 7.2). -/
def commitPrivacy (s : State) (d : Desc) : Bool :=
  fld d.w3 39 32 = 0 && fld d.w4 62 17 = 0 && fld d.w5 31 0 = 0
    && (dOp d ≠ 0 || (dKIn d = 0 && dKOut d = 0))
    && (dOp d ≠ 1 || (1 ≤ dKIn d && dInFmt d ≤ 2))
    && (dOp d ≤ 1 || (d.w3 = 0 && d.w4 = 0 && d.w5 = 0 && !dElastic d))
    && (!dClip d || (dFixed d && dInFmt d ≤ 2 && 1 ≤ dSpan d && dSpan d ≤ tilesFit (dInFmt d) 0 && 1 ≤ dBound d))
    && (if dNoise d then dClip d && 1 ≤ dSigma d && dSigma d ≤ 65536 && 1 ≤ dCharge d else d.w4 = 0 && d.w5 = 0)
    && floorsHold s d

/-- The first commit check that fails, with its status (R190). -/
def commitFailure (s : State) (d : Desc) : Option (Nat × Status) :=
  if !commitRanges s d then some (1, .badArg)
  else if !commitSlices s d then some (2, .bounds)
  else if !commitMembers s d then some (3, .badFormat)
  else if !commitSources s d then some (4, .badFormat)
  else if !commitPrivacy s d then some (5, .badArg)
  else none

/-- The list digest of a member slice: SHA3-256, each entry 4 bytes least significant first (R190). -/
def listDigest (s : State) (shadow : Bool) (d : Desc) : BitVec 256 :=
  Config.sha3_256 ((List.range (dMembers d)).map (fun i => leBytes 4 (mbrEntry s shadow (dMbrBase d + i)))).flatten

/-- The shadow descriptor of the selected group is the access's own, or the access is a management one (R17, R547). -/
def ownsShadow (s : State) (a : Access) : Bool :=
  isMgmt a || descOwner (s.desc true (selected s a 0x60).1) = some a.ptag.toNat

/-- `COMMIT` (R190). -/
def grpCommitOp (s : State) (a : Access) : State :=
  let g := (selected s a 0x60).1
  let d := s.desc true g
  let off := { d with w0 := d.w0 &&& BitVec.ofNat 64 (2 ^ 63 - 1) }
  match commitFailure s d with
  | some (n, st) => grpDone (s.setDesc true g off) a st n
  | none => grpDone (s.setDesc true g { d with w0 := d.w0 ||| bitWord 63, ld := listDigest s true d }) a .ok 0

/-- `CLEAR`: `VALID` and `WIN_VALID` of the shadow descriptor clear (Table 6.14). -/
def grpClearOp (s : State) (a : Access) : State :=
  let g := (selected s a 0x60).1
  let d := s.desc true g
  grpDone (s.setDesc true g { d with w0 := d.w0 &&& BitVec.ofNat 64 (2 ^ 63 - 1), w7 := d.w7 &&& BitVec.ofNat 64 (2 ^ 64 - 1 - 2 ^ 35) }) a .ok 0

/-- A command that edits the shadow descriptor of the selected group: the descriptor's owner alone, and while edits are
taken (R17, R216, R217, R547). -/
def grpEditCmd (s : State) (a : Access) (v : Word) (k : State → State) : State :=
  if !ownsShadow s a then regWrite s a grpCmdAddr (some .partition) none k
  else regWrite s a grpCmdAddr (refuseIf (grpBusy s a || !editable s) .wrongState) (mbz v (maskBits 59 0)) k

/-- A write of `COMMIT`. -/
def grpCommitCmd (s : State) (a : Access) (v : Word) : State := grpEditCmd s a v (fun x => grpCommitOp x a)

/-- A write of `CLEAR`. -/
def grpClearCmd (s : State) (a : Access) (v : Word) : State := grpEditCmd s a v (fun x => grpClearOp x a)

/-! ### Launch -/

/-- The descriptor digest (R192). -/
def descDigest (s : State) (p : Nat) (shadow : Bool) (d : Desc) : Nat :=
  let e := withEpoch s shadow d
  let msg := ascii "ORPV-DD1" ++ wordBytes e.w0 ++ wordBytes e.w1 ++ wordBytes e.w2 ++ wordBytes e.w3 ++ wordBytes e.w4
    ++ wordBytes e.w5 ++ leBytes 32 d.ld.toNat ++ leBytes 48 (s.part p).policy.toNat
  leNat ((List.range 8).map (Config.shake256 msg))

/-- The arguments of a launch: group, ticket, `PREV`, `FIRST`, step, key epoch and role. -/
structure LaunchArgs where
  p : Nat
  g : Nat
  ticket : Nat
  prev : Nat
  first : Bool
  step : Nat
  ke : Nat
  role : EntryRole
  deriving DecidableEq, Repr

/-- The arguments as the access's bank and index hold them (Table 6.15). -/
def launchArgs (s : State) (a : Access) (role : Nat → EntryRole) : LaunchArgs :=
  let a0 := tget 0 s.grp.arg0 (bankOf a)
  let a1 := tget 0 s.grp.arg1 (bankOf a)
  { p := a.ptag.toNat, g := (selected s a 0x60).1, ticket := fld a0 63 32, prev := fld a0 31 0, first := bitOf a1 63,
    step := fld a1 47 0, ke := epochAt s a.ptag.toNat (fld a1 47 0), role := role (fld a1 62 48) }

/-- Launch step 1. -/
def launchStep1 (s : State) (l : LaunchArgs) : Option Status :=
  if !s.grp.rankValid || !s.mrd.seen then some .wrongState
  else if !l.first && !(l.prev < l.ticket) then some .badArg
  else if l.ticket < tget 0 (s.grpRec l.g).launched l.ke then some .badArg
  else if l.step + 2 ^ 20 < s.mrd.step then some .badArg
  else none

/-- A context command runs on a window of the group (R278). -/
def ctxOnGroup (s : State) (p g : Nat) : Bool :=
  match s.snd.ctx with
  | some c => (s.win c.win).part = p && (s.win c.win).group = g
  | none => false

/-- The shadow window of a group's working window is valid (R221). -/
def shadowReady (s : State) (d : Desc) : Bool :=
  match descWindow d with
  | some w => match (s.win w).partner with | some o => (s.win o).shadowValid | none => false
  | none => false

/-- Launch step 2: the descriptor and its copy, where the launch may go on. -/
def launchStep2 (s : State) (l : LaunchArgs) : Option (Desc × Bool) :=
  match descAt s l.p l.g l.step with
  | none => none
  | some (d, c) =>
    if dRole d = 0 || (s.part l.p).hold || ctxOnGroup s l.p l.g || (l.role = .resyncSend && !shadowReady s d) then none
    else some (d, c)

/-- The outcome of launch step 3: fail with a status (and whether the entry leaves), or go on with the entry taken over. -/
inductive Step3 where
  | fail (st : Status) (leaves : Bool)
  | go (e : Option Entry) (leaves : Bool)
  deriving DecidableEq, Repr

/-- Launch step 3 on the entry of the ticket and group. -/
def launchStep3 (s : State) (l : LaunchArgs) : Step3 :=
  let fresh (leaves : Bool) (n : Nat) : Step3 :=
    if !l.first && (match (s.part l.p).overflow with | some m => l.ticket ≤ m | none => false) then .fail .orderTimeout leaves
    else if 64 ≤ n then .fail .quota false
    else .go none leaves
  match findEntry s l.p l.g l.ticket with
  | none => fresh false (listCount s l.p)
  | some e =>
    if (e.st = .done || e.st = .aborted) && e.launched && e.kEpoch ≠ l.ke then fresh true (listCount s l.p - 1)
    else if (e.st = .waiting || e.st = .active) then .fail .wrongState false
    else if e.st = .known then .go (some e) false
    else .fail .aborted true

/-- Launch step 6: floors again, then the charge at the release point (R227, R248). -/
def launchStep6 (s : State) (l : LaunchArgs) (d : Desc) : Except Status (Nat × State) :=
  if l.role ≠ .normal then .ok (0, s)
  else if !floorsHold s d then .error .badArg
  else if dNoise d && atRelease s d then
    let b := s.budget l.p
    if b.spent + dCharge d ≤ b.total then .ok (dCharge d, s.setBudget l.p { b with spent := b.spent + dCharge d })
    else .error .budgetExhausted
  else .ok (0, s)

/-- An entry leaves when a launch is admitted: the `DONE` or `ABORTED` one it names as `PREV`, or every such launched one for
`FIRST` (R198). -/
def leavesAt (l : LaunchArgs) (e : Entry) : Bool :=
  (e.st = .done || e.st = .aborted) && e.launched && (l.first || e.ticket = l.prev)

/-- The list after the entries that leave: one past release that has not finished goes on relaying, out of the list's count (R198, R202). -/
def clearFinished (l : LaunchArgs) (es : List Entry) : List Entry :=
  (es.filter (fun e => !leavesAt l e || !e.fin)).map (fun e => { e with left := e.left || leavesAt l e })

/-- The last launched tickets of a group after a launch: the key epoch's own, and those of its neighbours (R90). -/
def noteLaunch (t ke : Nat) (l : Table Nat) : Table Nat :=
  tset 0 (l.filter (fun x => (x.1 + 1) % 2 ^ 16 = ke || x.1 = (ke + 1) % 2 ^ 16)) ke (t + 1)

/-- The entry a `PREV` makes (R201). -/
def entryForPrev (s : State) (t : Nat) : Entry :=
  { ticket := t, group := 4096, st := .known, byPrev := true, madeAt := s.mrd.wall, passed := [(s.mrd.step, s.mrd.wall)] }

/-- Admission, launch step 7: the entry, the last launched ticket, the `PREV` entry and the overflow mark. DESIGN CHOICE (log 171): where the
list is full with the launch's own entry, the ticket `PREV` names makes no entry; R195 names no outcome. -/
def launchAdmit (s : State) (l : LaunchArgs) (d : Desc) (c : Bool) (old : Option Entry) (charge : Nat) : State :=
  let base : Entry := old.getD { ticket := l.ticket, group := l.g, st := .known, madeAt := s.mrd.wall, passed := [(s.mrd.step, s.mrd.wall)] }
  let e : Entry :=
    { base with
      group := l.g, st := .waiting, launched := true, prev := l.prev, first := l.first, step := some l.step,
      digest := descDigest s l.p c d, gEpoch := if c then s.grp.epS else s.grp.epA, kEpoch := l.ke,
      stepAt := (base.passed.find? (fun x => l.step ≤ x.1)).map (·.2), passed := [],
      role := l.role, charge := charge }
  let es1 := clearFinished l (dropEntry (s.entries l.p) l.g l.ticket)
  let es2 := insertEntry e es1
  let needPrev := !l.first && !(es2.any (fun x => x.ticket = l.prev)) && !ticketFinished s l.p l.prev
    && !((s.entries l.p).any (fun x => x.ticket = l.prev)) && (es2.filter (fun x => !x.left)).length < 64
  let es3 := if needPrev then insertEntry (entryForPrev s l.prev) es2 else es2
  let r := s.grpRec l.g
  let s1 := (s.setEntries l.p es3).setGrpRec l.g { r with launched := noteLaunch l.ticket l.ke r.launched }
  if l.first then s1.setPart l.p { s1.part l.p with overflow := none } else s1

/-- The first parked frame of a ticket whose digest or group epoch differs from the entry's (launch step 7, R200). -/
def parkedMismatch (s : State) (p : Nat) (e : Entry) : Option Hdr :=
  ((s.park.frames.filter (fun f => f.part = p && f.group = e.group && f.ticket = e.ticket)).map (fun f => hdrOf f.arr.bytes)).find?
    (fun h => h.digest ≠ e.digest || h.gEpoch ≠ e.gEpoch)

/-- Latch the received group epoch of a mismatch, with its cause, unless a first record stands (R200, R222). -/
def latchMismatch (s : State) (g : Nat) (h : Hdr) : State :=
  let r := s.grpRec g
  if r.abValid then s else raise (s.setGrpRec g { r with misEpoch := h.gEpoch }) 0x60 3

/-- What the abort of a mismatch carries (R200, Table 6.8). -/
def mismatchInfo (e : Entry) (h : Hdr) : AbortInfo :=
  { st := .descMismatch, detail := h.rank, dl := reg e.digest, dr := reg h.digest }

/-- Step 4 of a launch: a window where the descriptor names none (R191, R170). -/
def launchWindow (s : State) (l : LaunchArgs) (d : Desc) : Bool × State :=
  if descWindow d = none then
    let r := allocWindow s l.p l.g (dTiles d) (dRetain d)
    (r.1.status = 0, winDone r.2 r.1)
  else (true, s)

/-- A launch that fails after step 4 leaves no window (R191): its `ALLOC` has ended, though, and its result stands (R184). -/
def undoWindow (s w : State) (d : Desc) : State := if descWindow d = none then winDone s w.phlx.result else s

/-- Step 7 of a launch: a frame that arrived before it may disagree with the entry (R191). -/
def launchJudge (s : State) (a : Access) (l : LaunchArgs) : State :=
  match findEntry s l.p l.g l.ticket with
  | none => grpDone s a .ok 0
  | some e =>
    match parkedMismatch s l.p e with
    | some h => grpDone (abortEntry (latchMismatch s l.g h) l.p e (mismatchInfo e h)) a .descMismatch 7
    | none => grpDone s a .ok 0

/-- A `KNOWN` entry that recorded a drop is aborted with that status at its launch, and leaves (R197, launch step 3). -/
def launchDropped (s : State) (a : Access) (l : LaunchArgs) (e : Entry) (st : Status) : State :=
  grpDone (delEntry (abortEntry s l.p e { st := st }) l.p l.g l.ticket) a .aborted 3

/-- Steps 4 to 7 of a launch, on the state without the entry it replaces. -/
def launchRest (s s3 : State) (a : Access) (l : LaunchArgs) (d : Desc) (c : Bool) (old : Option Entry) : State :=
  let w := launchWindow s3 l d
  if !w.1 then grpDone { w.2 with grp.lists := s.grp.lists } a .quota 4
  else match launchStep6 w.2 l d with
    | .error st =>
      let s1 := undoWindow s w.2 d
      grpDone (if st = .budgetExhausted then raise (raise s1 0x55 1) (0x80 + l.p) 1 else s1) a st 6
    | .ok r => launchJudge (launchAdmit r.2 l d c old r.1) a l

/-- `LAUNCH`, `RESYNC_SEND` and `RESYNC_RECV`: steps 1 to 7 (R191, R221); a failed step undoes the earlier ones. -/
def launchOp (s : State) (a : Access) (role : Nat → EntryRole) : State :=
  let l := launchArgs s a role
  match launchStep1 s l with
  | some st => grpDone s a st 1
  | none =>
    match launchStep2 s l with
    | none => grpDone s a .wrongState 2
    | some dc =>
      match launchStep3 s l with
      | .fail st leaves => grpDone (if leaves then delEntry s l.p l.g l.ticket else s) a st 3
      | .go old leaves =>
        match old, old.bind (·.dropped) with
        | some e, some st => launchDropped s a l e st
        | _, _ => launchRest s (if leaves then delEntry s l.p l.g l.ticket else s) a l dc.1 dc.2 old

/-- A launch is held while a boundary runs (R292). -/
def launchOrHold (s : State) (a : Access) (held : HeldCmd) (role : Nat → EntryRole) : State :=
  if s.mrd.running.isSome then { s with mrd.heldCmds := s.mrd.heldCmds ++ [held] } else launchOp s a role

/-! ### Abort by the host, group-table epochs, the station register -/

/-- `ABORT` of the ticket in `GRP_ARG0.TICKET` (Table 6.14). -/
def grpAbortOp (s : State) (a : Access) : State :=
  let p := a.ptag.toNat
  let g := (selected s a 0x60).1
  let t := fld (tget 0 s.grp.arg0 (bankOf a)) 63 32
  let info : AbortInfo := { st := .aborted, detail := p }
  match findEntry s p g t with
  | none =>
    if ((s.part p).overflow.map (fun m => decide (t ≤ m))).getD false then grpDone s a .orderTimeout 0
    else if 64 ≤ listCount s p then grpDone s a .quota 0
    else
      let e : Entry := { ticket := t, group := g, st := .known, madeAt := s.mrd.wall }
      grpDone (abortEntry (putEntry s p e) p e info) a .ok 0
  | some e =>
    if e.st = .done then grpDone s a .wrongState 0
    else if e.st = .aborted then grpDone (if e.launched then s else delEntry s p g t) a .ok 0
    else grpDone (abortEntry s p (claimEntry g e) info) a .ok 0

/-- A `GROUP_SWAP` entry is valid in the schedule table. -/
def swapValid (s : State) : Bool := s.mrd.sched.any (fun e => e.2.valid && e.2.typ = 2)

/-- `SET_EPOCH`: the state cases (R220). -/
def setEpochBusy (s : State) : Bool := anyAdmitted s || swapValid s || s.grp.oldHeld || s.grp.refill

/-- `SET_EPOCH` takes effect (R220). -/
def setEpochNow (s : State) (e : Nat) : State := { s with grp.epA := e, grp.epS := (e + 1) % 2 ^ 16, grp.since := none }

/-- A command its home rule refuses before it starts: the access is refused and `GRP_RESULT` holds the status (R220, R542). -/
def grpRefused (s : State) (a : Access) (st : Status) : State :=
  refuse { s with grp.result := tset 0 s.grp.result (bankOf a) (pack [(63, 48, stCode st)]) } a true grpCmdAddr st

/-- `SET_EPOCH`: access, then state, then argument, then effect (R220, R542). -/
def setEpochCmd (s : State) (a : Access) (v : Word) : State :=
  let w := tget 0 s.grp.arg0 32
  regWrite s a grpCmdAddr (orElse (refuseIf (!isMgmt a) .partition) (refuseIf (grpBusy s a) .wrongState)) none (fun x =>
    match orElse (refuseIf (setEpochBusy x) .wrongState) (orElse (mbz v (maskBits 59 0)) (refuseIf (fld w 63 16 ≠ 0) .badArg)) with
    | some st => grpRefused x a st
    | none => grpDone (setEpochNow x (fld w 15 0)) a .ok 0)

/-- The rank of a write of `GRP_STATION` lies outside its profile's range (R223). -/
def badRank (s : State) (v : Word) : Bool :=
  bitOf v 39 && (if s.blk.profile = 1 then 24576 ≤ fld v 38 24 else fld v 38 24 < 24576)

/-- A write of `GRP_STATION` (R208, R223). -/
def stationWrite (s : State) (a : Access) (v : Word) : State :=
  let changes := bitOf v 39 ≠ s.grp.rankValid || fld v 38 24 ≠ s.grp.rank
  regWrite s a (regAt 0x60 0xD0) (refuseIf (changes && (s.grp.liveEn || anyAdmitted s)) .wrongState)
    (refuseIf (changes && badRank s v) .badArg) (fun s1 =>
      let s2 := if s1.grp.liveEn && !bitOf v 8 then plannedFall s1 (errTag a) else s1
      updateLive { s2 with grp.rankValid := bitOf v 39, grp.rank := fld v 38 24, grp.mgmtPorts := fld v 23 16, grp.liveEn := bitOf v 8 })

/-! ### Deadlines and absences (R201, R205, R209 to R211) -/

/-- An entry that only a `PREV` has made so far: it has neither step nor deadline of its own (R201). -/
def awaitsLaunch (e : Entry) : Bool := e.byPrev && !e.launched

/-- The deadline base of an entry: the later of the event that made it and the block's entry into its step (R201). -/
def baseOf (e : Entry) : Option Nat := if awaitsLaunch e then none else e.stepAt.map (max e.madeAt)

/-- The `DEADLINE_US` of an entry: of its group's descriptor in force at its step, or, once that copy has been retired, as it was (R201; log 184). -/
def limitOf (s : State) (p : Nat) (e : Entry) : Option Nat :=
  match entryDesc s p e with
  | some (d, _) => some (dDeadline d)
  | none => e.limit

/-- An entry's own deadline. -/
def ownDeadline (s : State) (p : Nat) (e : Entry) : Option Nat :=
  match baseOf e, limitOf s p e with
  | some b, some us => some (b + us)
  | _, _ => none

/-- The smaller of two optional times. -/
def minOpt (x y : Option Nat) : Option Nat :=
  match x, y with
  | some a, some b => some (min a b)
  | some a, none => some a
  | none, y => y

/-- The deadline of an entry; an entry only a `PREV` made takes the earliest of the launched entries that name it (R201). -/
def deadlineOf (s : State) (p : Nat) (e : Entry) : Option Nat :=
  if awaitsLaunch e then
    ((s.entries p).filter (fun x => x.launched && x.prev = e.ticket)).foldl (fun acc x => minOpt acc (ownDeadline s p x)) none
  else ownDeadline s p e

/-- The `GAP` entries that stand behind a non-`GAP` rank of a source slice, nearest first (R187). -/
def gapsBehind (ss : List Src) (r : Nat) : List Nat :=
  match ss.dropWhile (fun x => !(x.rank = r && !x.gap)) with
  | [] => []
  | _ :: rest => (rest.takeWhile (·.gap)).map (·.rank)

/-- The sources an entry waits for: its non-`GAP` sources, each silent one replaced by the nearest `GAP` rank behind it that
is not silent (R187, R209). -/
def liveSources (ss : List Src) (silent : List Nat) : List Nat :=
  ((ss.filter (fun x => !x.gap)).map (fun x =>
    if silent.contains x.rank then (gapsBehind ss x.rank).find? (fun g => !silent.contains g) else some x.rank)).filterMap id

/-- A block expects the stream of `DIST_SRC`: it is no release point, and the entry no resynchronisation sender (R187, Table 5.8). DESIGN CHOICE
(log 172): not at the release point, where Table 6.2 has `DIST_SRC` ignored, though R187 makes no such exception. -/
def expectsResult (s : State) (d : Desc) (e : Entry) : Bool := !atRelease s d && decide (e.role ≠ .resyncSend)

/-- The rank a receiver takes its `RESULT` stream from: `DIST_SRC`, or the peer a resynchronisation names (R187, R221). -/
def resultSource (d : Desc) (e : Entry) : Nat := match e.role with | .resyncRecv r => r | _ => dDistSrc d

/-- The lowest mark and lowest rank among the expected sources whose mark is below *N* − 1 (R205 case 3): the sources the
entry waits for, and the source of the `RESULT` stream at a receiver (R187). -/
def slowSource (s : State) (d : Desc) (c : Bool) (e : Entry) : Option Nat :=
  let n := dTiles d
  let ms := (liveSources (sourcesOf s c d) e.flow.silent).map (fun r => (tget 0 e.flow.marks r, r))
    ++ (if expectsResult s d e then [(e.flow.written, resultSource d e)] else [])
  ((ms.filter (fun m => m.1 < n)).foldl (fun (acc : Option (Nat × Nat)) m =>
    match acc with
    | none => some m
    | some b => if m.1 < b.1 ∨ (m.1 = b.1 ∧ m.2 < b.2) then some m else acc) none).map (·.2)

/-- The lowest-numbered port on which a held frame of a ticket lacks credit (R205 case 4). -/
def waitingPort (s : State) (p g t : Nat) : Option Nat :=
  let held := (s.lark.pipes.map (fun e => e.2.outs.filter (fun f => f.part = p && f.group = g && f.ticket = t))).flatten
  (List.range 12).find? (fun b =>
    held.any (fun f => f.ports.testBit b && creditsAt s b (classVc f.cls) < creditsOf f.bytes.length))

/-- What the deadline abort of an entry carries (R201, R205, Table 6.8). The port of case 4 is a free value, drawn at `n`, when
no held frame lacks credit: the spec names no port there. -/
def deadlineInfo (n : Nat) (s : State) (p : Nat) (e : Entry) : AbortInfo :=
  match (if e.st = .known then some e.ticket else if e.st = .waiting then chainGap s p 65 e else none) with
  | some miss => { st := .orderTimeout, detail := miss }
  | none =>
    if e.st ≠ .active then
      match blocker s p e with
      | some o => { st := .deadline, detail := 2 * 2 ^ 30 + low 16 o.ticket }
      | none => { st := .deadline, detail := 2 * 2 ^ 30 }
    else match entryDesc s p e with
      | none => { st := .deadline, detail := 0 }
      | some (d, c) =>
        match slowSource s d c e with
        | some r => { st := .deadline, detail := low 15 r }
        | none => { st := .deadline, detail := 2 ^ 30 + (waitingPort s p e.group e.ticket).getD (low 4 (Config.freeNat n)) }

/-- A live entry whose deadline has passed (R201). -/
def pastDeadline (s : State) (p : Nat) (e : Entry) : Bool :=
  isLive e && (match deadlineOf s p e with | some t => decide (t ≤ s.mrd.wall) | none => false)

/-- Abort one entry at its deadline, judged in the state `s0` before any abort of the same cycle (R201). -/
def expireEntry (s0 s : State) (p : Nat) (x : Entry) : State :=
  match findEntry s0 p x.group x.ticket, findEntry s p x.group x.ticket with
  | some e0, some e =>
    if pastDeadline s0 p e0 then abortEntry { s with free := s.free + 1 } p e (deadlineInfo s.free s0 p e0) else s
  | _, _ => s

/-- Abort every live entry whose deadline has passed, partitions ascending, keys ascending (R201). -/
def expireDeadlines (s : State) : State :=
  s.grp.lists.foldl (fun st l => l.2.foldl (fun st2 x => expireEntry s st2 l.1 x) st) s

/-- Insert a number into a rising list without repeats. -/
def insertNat (n : Nat) : List Nat → List Nat
  | [] => [n]
  | m :: r => if n < m then n :: m :: r else if n = m then m :: r else m :: insertNat n r

/-- Ranks stand absent for a ticket: the union grows, and R211 judges it. -/
def markAbsent (s : State) (p : Nat) (e : Entry) (silent ranks : List Nat) : State :=
  if silent = [] ∧ ranks = [] then s
  else
    let fl := { e.flow with absent := ranks.foldl (fun acc r => insertNat r acc) e.flow.absent,
                            silent := silent.foldl (fun acc r => insertNat r acc) e.flow.silent }
    let e1 := { e with flow := fl }
    let s1 := putEntry s p e1
    match entryDesc s p e with
    | none => s1
    | some (d, _) =>
      let n := fl.absent.length
      if !dElastic d || dMembers d - dQuorum d < n || 4096 < n then
        abortEntry s1 p e1 { st := .memberAbsent, detail := n * 2 ^ 15 + (fl.absent.head?.getD 0) }
      else s1

/-- The absence cut of one entry (R209): every expected source still silent stands absent with the
`GAP` ranks behind it, or a station rank aborts the collective. -/
def cutEntry (s : State) (p : Nat) (e : Entry) : State :=
  match entryDesc s p e with
  | none => s
  | some (d, c) =>
    let ss := sourcesOf s c d
    let quiet := ((ss.filter (fun x => !x.gap)).map (·.rank)).filter (fun r =>
      !e.flow.silent.contains r && !e.flow.heard.contains r && !((gapsBehind ss r).any (fun g => e.flow.heard.contains g)))
    match quiet.find? (fun r => 24576 ≤ r) with
    | some r => abortEntry s p e { st := .memberAbsent, detail := e.flow.absent.length * 2 ^ 15 + r }
    | none =>
      let gone := (quiet.map (fun r => r :: gapsBehind ss r)).flatten
      markAbsent s p e gone gone

/-- Apply the absence cut to every live entry whose cut has passed (R209). DESIGN CHOICE (log 173): to those of a resynchronisation too, for which R209 makes no exception. -/
def cutAbsent (s : State) : State :=
  s.grp.lists.foldl (fun st l => l.2.foldl (fun st2 x =>
    match findEntry st2 l.1 x.group x.ticket with
    | none => st2
    | some e =>
      match (if isLive e then baseOf e else none), entryDesc st2 l.1 e with
      | some b, some (d, _) => if b + dCut d ≤ st2.mrd.wall then cutEntry st2 l.1 e else st2
      | _, _ => st2) st) s

/-- Wall time passes (R297): `us` microseconds, modulo 2^64. -/
def passTime (s : State) (us : Nat) : State := { s with mrd.wall := (s.mrd.wall + us) % 2 ^ 64 }

/-- What follows from time that has passed, for a part on the security loop's clock (R25). -/
def afterTime (s : State) (us : Nat) (act : State → State) : State := whenSec (passTime s us) act

/-! ### Straggler tracking (R213, R214) -/

/-- Lateness bucket (Table 6.9). -/
def lateBucket (us : Nat) : Nat :=
  if us < 16 then 0 else if us < 64 then 1 else if us < 256 then 2 else if us < 1024 then 3
  else if us < 4096 then 4 else if us < 16384 then 5 else if us < 65536 then 6 else 7

/-- Slots in use. -/
def slotsUsed (s : State) : List Nat := s.grp.recs.filterMap (·.2.slot)

/-- A write of `STRG_TRACK` (R214, Table 6.24). -/
def trackWrite (s : State) (a : Access) (v : Word) : State :=
  let addr := regAt 0x62 0x58
  let g := (selected s a 0x62).1
  let r := s.grpRec g
  regWrite s a addr none none (fun s1 =>
    if bitOf v 63 then
      if r.slot.isSome then s1
      else match (List.range 256).find? (fun k => !(slotsUsed s1).contains k) with
        | some k => s1.setGrpRec g { r with slot := some k, hist := [] }
        | none => refuse s1 a true addr .quota
    else s1.setGrpRec g { r with slot := none, hist := [] })

/-- A write of `STRG_CLEAR` (R214). -/
def strgClearWrite (s : State) (a : Access) (v : Word) : State :=
  let g := (selected s a 0x62).1
  regWrite s a (regAt 0x62 0x78) none (mbz v (maskBits 63 1)) (fun s1 =>
    if bitOf v 0 then s1.setGrpRec g { s1.grpRec g with hist := [] } else s1)

/-- Record the straggler figures of a finished ticket (R213, R214). DESIGN CHOICE (log 122): a ticket for which no last-flag `DATA` frame was
accepted has no last-arrival source, and the figures of the ticket before it stand. -/
def recordStraggler (s : State) (e : Entry) : State :=
  let r := s.grpRec e.group
  let r1 := match e.flow.late with
    | some (rk, lc, us) => { r with strgRank := rk, strgLocal := lc, strgLate := min us 0xFFFFF, strgTicket := e.ticket }
    | none => r
  let r2 := if r1.slot.isSome then
      { r1 with hist := e.flow.lates.foldl (fun h x =>
          let k := 8 * x.1 + lateBucket (x.2 - 1)
          tset 0 h k (satInc 0xFFFF (tget 0 h k))) r1.hist }
    else r1
  s.setGrpRec e.group r2

/-! ### The meanings -/

/-- `GRP_DESC_WRITE` (R189). -/
def execGrpDescWrite (a : Access) (word : BitVec 3) (v : Word) (s : State) : Host.Outcome State Fault Refusal :=
  .next (grpDescWrite s a word.toNat v)

/-- `MBR_DATA_ACCESS` (R189). -/
def execMbrDataAccess (a : Access) (write : Bool) (v : Word) (s : State) : Host.Outcome State Fault Refusal :=
  .next (if write then mbrWrite s a v else mbrRead s a)

/-- `GRP_COMMIT` (R190). -/
def execGrpCommit (a : Access) (v : Word) (s : State) : Host.Outcome State Fault Refusal :=
  .next (grpCommitCmd s a v)

/-- `GRP_CLEAR` (R190). -/
def execGrpClear (a : Access) (v : Word) (s : State) : Host.Outcome State Fault Refusal :=
  .next (grpClearCmd s a v)

/-- `LAUNCH` (R191). -/
def execLaunch (a : Access) (v : Word) (s : State) : Host.Outcome State Fault Refusal :=
  .next (grpTagCmd s a v (fun x => launchOrHold x a (.launch a v) (fun _ => .normal)))

/-- `GRP_ABORT` (R203). -/
def execGrpAbort (a : Access) (v : Word) (s : State) : Host.Outcome State Fault Refusal :=
  .next (grpTagCmd s a v (fun x => grpAbortOp x a))

/-- `RESYNC_SEND` (R221). -/
def execResyncSend (a : Access) (v : Word) (s : State) : Host.Outcome State Fault Refusal :=
  .next (grpTagCmd s a v (fun x => launchOrHold x a (.resyncSend a v) (fun _ => .resyncSend)))

/-- `RESYNC_RECV` (R221). -/
def execResyncRecv (a : Access) (v : Word) (s : State) : Host.Outcome State Fault Refusal :=
  .next (grpTagCmd s a v (fun x => launchOrHold x a (.resyncRecv a v) (fun r => .resyncRecv r)))

/-- `SET_EPOCH` (R220). -/
def execSetEpoch (a : Access) (v : Word) (s : State) : Host.Outcome State Fault Refusal :=
  .next (setEpochCmd s a v)

/-- `GRP_STATION_WRITE` (R223). -/
def execGrpStationWrite (a : Access) (v : Word) (s : State) : Host.Outcome State Fault Refusal :=
  .next (stationWrite s a v)

/-- `STRG_TRACK_WRITE` (R214). -/
def execStrgTrackWrite (a : Access) (v : Word) (s : State) : Host.Outcome State Fault Refusal :=
  .next (trackWrite s a v)

/-- `STRG_CLEAR` (R214). -/
def execStrgClear (a : Access) (v : Word) (s : State) : Host.Outcome State Fault Refusal :=
  .next (strgClearWrite s a v)

end Sys2Proof.Machine
end

