-- ==== Sys2Proof/Machine/Ingress.lean ====
section
/-! DEFINITION. The ingress pipe (chapters 3 to 7): checks 1 to 11 in the order of Table 3.10, the hot key cache, parking,
the requantisation and addition of tiles, the scale handshake and the receipt of `RESULT` streams. -/

namespace Sys2Proof.Machine

/-! ### Checks 1 to 6 and 9 -/

/-- Check 1 (R70, R518). -/
def check1 (f : Arrival) (h : Hdr) : Bool :=
  f.whole && f.bytes.length = f.wireLen.toNat && f.bytes.length = 80 + h.payLen && h.payLen ≤ 16384

/-- Check 2 (R72). -/
def check2 (h : Hdr) : Bool :=
  h.version = 1 && h.clean && 1 ≤ h.cls && h.cls ≤ 8 && h.fmt ≤ 3 && h.op ≤ 3
    && (isCollective h.cls || (h.fmt = 0 && h.op = 0))

/-- Whether a frame of a group is sparse, by the group's operation; nothing where both are allowed (R230, Table 7.4). -/
def sparseRule (d : Desc) (h : Hdr) : Option Bool :=
  let topk := dOp d = 1
  if h.cls = 3 then some (topk && 1 ≤ dKOut d)
  else if h.hop = 0 then (if dOp d ≤ 1 then none else some false)
  else some topk

/-- The flags agree with R75 and, where a descriptor of the partition is in force, with Table 7.4 (R230). -/
def flagsAgree (h : Hdr) (d : Option Desc) : Bool :=
  let coll := isCollective h.cls
  let dr := h.cls = 1 || h.cls = 3
  (dr || (!flagSatAny h && !flagSparse h)) && (coll || (!flagLast h && !flagElastic h))
    && (!flagAbsent h || h.cls = 3 || (h.cls = 1 && 1 ≤ h.hop))
    && (!dr || (match d.bind (fun x => sparseRule x h) with | some r => flagSparse h = r | none => true))

/-- The payload length agrees with Table 3.5 as far as the header decides it (R80; log 16). -/
def lengthAgrees (h : Hdr) : Bool :=
  match h.cls with
  | 2 => 1 ≤ h.tiles && h.tiles ≤ 16384 && h.payLen = h.tiles
  | 4 => h.tiles = 0 && h.payLen = 32
  | 5 => h.tiles = 0 && h.payLen = 16
  | 6 => h.tiles = 0 && 16 ≤ h.payLen && h.payLen ≤ 1024 && h.payLen % 16 = 0
  | 7 => h.tiles = 0 && h.payLen = 4112
  | 8 => h.tiles = 0 && h.payLen = 16
  | _ =>
    let ab := if flagAbsent h then 16 else 0
    1 ≤ h.tiles &&
      (if flagSparse h then ab + 16 * h.tiles ≤ h.payLen && h.payLen % 8 = 0
       else if flagAbsent h then
        h.tiles * denseSize h.fmt + ab ≤ h.payLen && h.payLen ≤ h.tiles * denseSize h.fmt + absenceSize 4096
          && (h.payLen - h.tiles * denseSize h.fmt) % 8 = 0
       else h.payLen = h.tiles * denseSize h.fmt)

/-- Check 5 (R76 to R79, R91). -/
def check5 (h : Hdr) : Bool :=
  if isCollective h.cls then
    (h.hop ≠ 0 || h.rank < 24576) && (h.cls ≠ 3 || 1 ≤ h.hop)
      && ((h.cls ≠ 3 && h.hop = 0) || h.owner = 0)
      && (h.cls ≠ 1 || h.hop = 0 || h.fmt = 3)
  else h.owner = 0 && (h.cls = 4 || h.part = 0)

/-- The first of checks 1 to 6 that fails; check 6 drops without an abort (Table 3.10). -/
def headerFailure (s : State) (f : Arrival) (h : Hdr) : Option (Status × Bool) :=
  let d := (descAt s h.part h.group h.step).map (·.1)
  if !check1 f h then some (.badFormat, true)
  else if !check2 h then some (.badFormat, true)
  else if f.vc ≠ classVc h.cls then some (.badFormat, true)
  else if !lengthAgrees h || !flagsAgree h d then some (.badFormat, true)
  else if !check5 h then some (.badFormat, true)
  else if (isCollective h.cls || h.cls = 4) && ((s.part h.part).st ≠ .owned || (s.part h.part).owners = 0) then
    some (.partition, false)
  else none

/-- A `SCALE` frame reads as distribution (R121). DESIGN CHOICE (log 119): a block of `ROLE` 0b011, which has no reduce stream of its own to
end, reads every frame as distribution once the ticket has an entry, and as reduce before; R121 gives such a block no moment. -/
def scaleIsDist (s : State) (h : Hdr) : Bool :=
  match findEntry s h.part h.group h.ticket, descAt s h.part h.group h.step with
  | some e, some (d, _) =>
    if dRole d = 3 then true else if atRelease s d then dTiles d ≤ e.flow.agreed else dTiles d ≤ e.flow.scaleNext
  | _, _ => false

/-- The class index of a stream record: `DATA`, `SCALE` reduce, `SCALE` distribution, `RESULT` (R147). -/
def classBit (s : State) (h : Hdr) : Nat :=
  if h.cls = 1 then 0 else if h.cls = 2 then (if scaleIsDist s h then 2 else 1) else if h.cls = 3 then 3 else 4

/-- The sender stream of a frame (R102; R288 for fabric classes). DEDUCED (log 166): a fabric class stands in place of the stream bits of R88,
which belong to collective frames, for R91 counts the `SEQ` of each class alone. -/
def streamKey (h : Hdr) : StreamKey :=
  { rank := h.rank, part := h.part, group := h.group, ticket := if isCollective h.cls then h.ticket else h.step, use := keyUse h,
    bits := if isCollective h.cls then streamBits h else h.cls }

/-- The record of a stream. -/
def streamRec (s : State) (k : StreamKey) : Option StreamRec := s.lark.streams.find? (fun r => decide (r.key = k))

/-- Check 9. -/
def check9 (s : State) (h : Hdr) : Bool :=
  match streamRec s (streamKey h) with
  | none => true
  | some r => r.seq < h.seq && !(isCollective h.cls && r.last.testBit (classBit s h))

/-- Record an accepted frame of a stream (R102, R147): a frame that returns from parking memory never moves the last accepted `SEQ` back. -/
def recordStream (s : State) (h : Hdr) : State :=
  let k := streamKey h
  let b := classBit s h
  let old := (streamRec s k).getD { key := k, seq := 0, last := 0, next := [] }
  let new := { old with seq := max old.seq h.seq, last := if isCollective h.cls && flagLast h then setBit old.last b else old.last }
  { s with lark.streams := s.lark.streams.filter (fun r => !decide (r.key = k)) ++ [new] }

/-- The next tile a stream may send in a class, and its update (R113). -/
def streamNext (s : State) (h : Hdr) (b : Nat) : Nat := ((streamRec s (streamKey h)).map (fun r => tget 0 r.next b)).getD 0
def setStreamNext (s : State) (h : Hdr) (b n : Nat) : State :=
  { s with lark.streams := s.lark.streams.map (fun r => if r.key = streamKey h then { r with next := tset 0 r.next b n } else r) }

/-! ### Drops (R103, R104, R106, R107) -/

/-- The offset of the drop counter of a status (Table 5.16). -/
def dropOffset (st : Status) : Option Nat :=
  match st with
  | .badFormat => some 0xD0 | .partition => some 0xD8 | .tagFail => some 0xE0 | .destDenied => some 0xE8
  | .quota => some 0xF0 | _ => none

/-- Record a frame in `PAGE_ERR` of its pipe's page and latch its header words (R107, R149). -/
def recordFrame (s : State) (k : Nat) (f : Arrival) (st : Status) : State :=
  let pg := s.page (0x40 + k)
  let e := pg.err
  let e' : ErrRec := if e.valid then { e with again := true }
    else { valid := true, again := e.again, dir := false, mgmt := false, ptag := (hdrOf f.bytes).part, addr := 0xFFF, status := stCode st }
  let s1 := s.setPage (0x40 + k) { pg with err := e', cause := pg.cause ||| bitWord 63 }
  if e.valid then s1
  else s1.setPipe k { s1.pipe k with hdr := (List.range 4).map (hdrWord f.bytes) }

/-- A frame is dropped under R106 or at check 10.3: credits back, counted late, nothing else. -/
def dropLate (s : State) (k id : Nat) : State := larkCount (leaveBuffer s k id) k 0xF8 1

/-- The collective of a ticket and key epoch is aborted in the block: its entry says so, or, once the entry has left the list, what the block
keeps of its aborts (R106). -/
def abortedHere (s : State) (p g t ep : Nat) : Bool :=
  match findEntry s p g t with
  | some e => e.st = .aborted
  | none => (s.grpRec g).aborted.contains (p, t, ep)

/-- The header names a collective that is aborted in the block (R106). -/
def namesAborted (s : State) (h : Hdr) : Bool := isCollective h.cls && abortedHere s h.part h.group h.ticket (epochAt s h.part h.step)

/-- A damaged frame at checks 1 to 9 or 11: dropped, counted, recorded where R107 says, and its collective aborted (R104). -/
def damaged (s : State) (k : Nat) (f : HeldFrame) (i : AbortInfo) (record : Bool) : State :=
  let h := hdrOf f.arr.bytes
  if namesAborted s h then dropLate s k f.id
  else
    let s1 := leaveBuffer s k f.id
    let s2 := match dropOffset i.st with | some o => larkCount s1 k o 1 | none => s1
    let s3 := if record then recordFrame s2 k f.arr i.st else s2
    damagedAbort s3 h i

/-- A frame that check 6 drops: counted and recorded, no abort. -/
def droppedOnly (s : State) (k : Nat) (f : HeldFrame) (st : Status) : State :=
  let s1 := leaveBuffer s k f.id
  let s2 := match dropOffset st with | some o => larkCount s1 k o 1 | none => s1
  recordFrame s2 k f.arr st

/-! ### The hot key cache -/

/-- The entry a push takes: a free one, else the least recently used that is not held (R152). -/
def kcVictim (p : Pipe) : Option Nat :=
  match (List.range 64).find? (fun i => !(tget {} p.kc i).valid) with
  | some i => some i
  | none => ((p.kc.filter (fun e => e.2.holders = 0)).foldl (fun (acc : Option (Nat × KcEntry)) e =>
      match acc with
      | none => some e
      | some b => if e.2.used < b.2.used then some e else acc) none).map (·.1)

/-- Put a pushed key into a pipe's cache; the entry it takes is zeroed first (R20, R152). -/
def kcPush (s : State) (k : Nat) (r : KeyReq) (key : Key) : State × Option Nat :=
  let p := s.pipe k
  match kcVictim p with
  | none => (s, none)
  | some i =>
    let e : KcEntry := { valid := true, use := r.use, part := r.part, sel := r.sel, epoch := r.epoch, key := key, used := s.lark.nextUse + 1 }
    ({ s.setPipe k { p with kc := tset {} p.kc i e } with lark.nextUse := s.lark.nextUse + 1 }, some i)

/-- Change a frame of a pipe's buffer. -/
def modHeld (s : State) (k id : Nat) (g : HeldFrame → HeldFrame) : State :=
  let p := s.pipe k
  s.setPipe k { p with buf := p.buf.map (fun f => if f.id = id then g f else f) }

/-- Hold cache entry `i` for a frame until it leaves the pipe (R152). -/
def kcHold (s : State) (k id i : Nat) : State :=
  let p := s.pipe k
  let e := tget {} p.kc i
  let s1 := s.setPipe k { p with kc := tset {} p.kc i { e with holders := e.holders + 1, used := s.lark.nextUse + 1 } }
  modHeld { s1 with lark.nextUse := s.lark.nextUse + 1 } k id (fun f => { f with keys := f.keys ++ [i] })

/-- The cache entry a frame already holds for a request; one under flush stays good for it (R153). -/
def heldKey (p : Pipe) (id : Nat) (r : KeyReq) : Option Nat :=
  (p.buf.find? (fun f => f.id = id)).bind (fun f => f.keys.find? (fun i =>
    let e : KcEntry := tget {} p.kc i
    e.valid && e.use = r.use && e.part = r.part && e.sel = r.sel && e.epoch = r.epoch))

/-- The key a frame holds for a request. -/
def heldKeyOf (s : State) (k id : Nat) (r : KeyReq) : Option Key :=
  (heldKey (s.pipe k) id r).map (fun i => (tget {} (s.pipe k).kc i).key)

/-- Ask Chartroom for a key; the frame waits (R151). -/
def kcMiss (s : State) (k id : Nat) (r : KeyReq) : State :=
  larkCount (modHeld { s with chrt.queue := s.chrt.queue ++ [r] } k id (fun f => { f with st := .waitKey })) k 0x108 1

/-- Look up the keys a frame needs, in order: one found is held and counted as a hit, the first that is missing is asked for and
counted as a miss; the state, and whether the frame holds them all (R150 to R152, Table 5.2 stage 2). -/
def lookupKeys (s : State) (k id : Nat) : List KeyReq → State × Bool
  | [] => (s, true)
  | r :: rest =>
    if (heldKey (s.pipe k) id r).isSome then lookupKeys s k id rest
    else match kcFind (s.pipe k) r.use r.part r.sel r.epoch with
      | some i => lookupKeys (larkCount (kcHold s k id i) k 0x100 1) k id rest
      | none => (kcMiss s k id r, false)

/-- The epoch pair of R155 contains an epoch. -/
def inPair (c : KeyClock) (e : Nat) : Bool := e = c.low || (c.pair && e = c.high)

/-- The newest epoch of the pair. -/
def pairTop (c : KeyClock) : Nat := if c.pair then max c.low c.high else c.low

/-- Check 7's decision (R157). -/
inductive KeyCheck where
  | ok | fail (st : Status) | park
  deriving DecidableEq, Repr

/-- R157 on the epoch of a frame. -/
def epochCheck (s : State) (h : Hdr) : KeyCheck :=
  let i := if isCollective h.cls then h.part else 32
  let want := if isCollective h.cls then
      (match findEntry s h.part h.group h.ticket with
        | some e => if e.launched then e.kEpoch else epochAt s i h.step
        | none => epochAt s i h.step)
    else epochAt s i h.step
  let c := s.clockOf i
  if h.kEpoch ≠ want then .fail .badFormat
  else if inPair c h.kEpoch then .ok
  else if pairTop c < h.kEpoch then .park
  else .fail .tagFail

/-- The group of a hop-0 `DATA` frame rounds stochastically, so the frame needs the rounding key (R127, R128). -/
def needsRounding (s : State) (h : Hdr) : Bool :=
  h.cls = 1 && h.hop = 0 && (match descAt s h.part h.group h.step with | some (d, _) => dStoch d | none => false)

/-- The key requests a frame makes, in order. -/
def keyNeeds (s : State) (k : Nat) (h : Hdr) : List KeyReq :=
  let p := if isCollective h.cls then h.part else 0
  { pipe := k, use := keyUse h, part := p, sel := keySel h, epoch := h.kEpoch }
    :: (if needsRounding s h then [{ pipe := k, use := 2, part := h.part, sel := 0, epoch := h.kEpoch }] else [])

/-- The keys a frame of a pipe's buffer needs: one already opened needs its rounding key alone. -/
def frameNeeds (s : State) (k : Nat) (f : HeldFrame) : List KeyReq :=
  let l := keyNeeds s k (hdrOf f.arr.bytes)
  if f.plain.isSome then l.drop 1 else l

/-! ### Parking (R99, R224) -/

/-- A frame of a partition and length fits its quota and the pool beside the replay reserve. -/
def canPark (s : State) (p units : Nat) : Bool :=
  partUnits s p + units ≤ (s.part p).qPark && unitsUsed s + units ≤ 3840 - 256

/-- Count a frame taken by a pipe (Table 5.16). -/
def countTaken (s : State) (k : Nat) (f : HeldFrame) : State :=
  if f.again then s else larkCount (larkCount s k 0xC0 1) k 0xC8 f.arr.bytes.length

/-- `LOW` when the free units fall below 64 from the state `old` to the state `s` (chapter 6, `PARK` registers). -/
def parkLow (old s : State) : State := if unitsFree s < 64 && 64 ≤ unitsFree old then raise s 0x57 0 else s

/-- Park a frame, or drop it with `ST_QUOTA` and abort its collective (R99); the partition's quota raises its cause (10 R316). A refusal at
check 7 is recorded in `PAGE_ERR` (R107). DESIGN CHOICE (log 120): a fabric-class frame that waits for a newer fabric epoch counts against
partition 0, the value of its header's `PARTITION`; R157 names the quota rule and no partition. -/
def parkFrame (s : State) (k : Nat) (f : HeldFrame) (why : ParkWhy) (plain : Option Bytes) (rec : Bool) : State :=
  let h := hdrOf f.arr.bytes
  let u := unitsOf h.payLen
  if canPark s h.part u then
    let s1 := if rec then recordStream s h else s
    let s2 := leaveBuffer s1 k f.id
    parkLow s (countTaken { s2 with park.frames := s2.park.frames ++
      [{ part := h.part, group := h.group, ticket := h.ticket, pipe := k, why := why, units := u, arr := f.arr, plain := plain, seen := f.seen }] } k f)
  else
    let quotaHit := (s.part h.part).qPark < partUnits s h.part + u
    damaged (if quotaHit then raise s (0x80 + h.part) 4 else s) k f { st := .quota } (decide (why = .epoch))

/-! ### Check 10 (Table 6.7) -/

/-- Where a frame comes from on the group's route (check 10.2). -/
inductive RouteKind where
  /-- hop 0 from a source -/
  | hop0
  /-- reduce frame from an expected source -/
  | reduce
  /-- reduce frame from a `GAP` rank, with the ranks it leaves absent (R209) -/
  | gap (missing : List Nat)
  /-- distribution frame -/
  | dist
  | none
  deriving DecidableEq, Repr

/-- The entries before a `GAP` rank back to the non-`GAP` entry it extends (R187). -/
def gapChain (r : Nat) : List Src → List Nat → Option (List Nat)
  | [], _ => none
  | x :: rest, acc =>
    if x.gap then (if x.rank = r then some acc else gapChain r rest (acc ++ [x.rank])) else gapChain r rest [x.rank]

/-- Check 10.2: the sender and class fit the route. -/
def routeKind (s : State) (h : Hdr) (d : Desc) (c : Bool) : RouteKind :=
  let e := findEntry s h.part h.group h.ticket
  let dist := h.cls = 3 || (h.cls = 2 && scaleIsDist s h)
  let ss := sourcesOf s c d
  if dist then
    match e.map (fun (x : Entry) => x.role) with
    | some (.resyncRecv r) => if h.rank = r then .dist else .none
    | _ => if h.rank = dDistSrc d && !atRelease s d then .dist else .none
  else if h.hop = 0 then
    if ss.any (fun x => x.rank = h.rank && !x.gap && (x.isLocal || isMember s c d h.rank)) then .hop0 else .none
  else if ss.any (fun x => x.rank = h.rank && !x.gap && !x.isLocal) then .reduce
  else match gapChain h.rank ss [] with
    | some miss =>
      let heard := (e.map (fun x => x.flow.heard)).getD []
      if miss.any heard.contains then .none else .gap miss
    | none => .none

/-- What check 10 decides. -/
inductive Admit where
  | damaged (i : AbortInfo)
  | late
  | absent
  | order
  | park
  | active
  deriving DecidableEq, Repr

/-- The ticket is at or below its group's last finished ticket in the same key epoch (check 10.3). -/
def ticketPast (s : State) (h : Hdr) : Bool :=
  let r := s.grpRec h.group
  r.outcome ≠ 0 && r.lastEpoch = epochAt s h.part h.step && h.ticket ≤ r.lastTicket

/-- The entry check 10.4 makes for a frame (R201). -/
def entryForFrame (s : State) (h : Hdr) : Entry :=
  { ticket := h.ticket, group := h.group, st := .known, step := some h.step, madeAt := s.mrd.wall,
    stepAt := if h.step ≤ s.mrd.step then some s.mrd.wall else none, passed := [(s.mrd.step, s.mrd.wall)] }

/-- The second half of check 10: the entry stands, and the frame is judged against it and heard. -/
def hearFrame (s : State) (h : Hdr) (rk : RouteKind) (d : Desc) (e1 : Entry) : Admit × State :=
  let s1 := putEntry s h.part e1
  if e1.launched && (h.digest ≠ e1.digest || h.gEpoch ≠ e1.gEpoch) then
    (.damaged (mismatchInfo e1 h), { latchMismatch s1 h.group h with park.dropMismatch := bump s1.park.dropMismatch 1 })
  else if flagElastic h ≠ dElastic d then (.damaged { st := .badFormat }, s1)
  else
    let fl := { e1.flow with heard := insertNat h.rank e1.flow.heard }
    let e2 := { e1 with flow := fl }
    let s2 := putEntry s1 h.part e2
    let s3 := match rk with
      | .gap miss => if miss.all e2.flow.silent.contains then s2
          else raise (markAbsent s2 h.part e2 miss miss) 0x60 4
      | _ => s2
    match findEntry s3 h.part h.group h.ticket with
    | none => (.late, s3)
    | some e3 => (if e3.st = .active then .active else if e3.st = .aborted then .late else .park, s3)

/-- Check 10 on a frame that has passed checks 1 to 9, with the state after the entry it makes. -/
def check10 (s : State) (h : Hdr) : Admit × State :=
  match descAt s h.part h.group h.step with
  | none => (.damaged { st := .badFormat }, s)
  | some (d, c) =>
    let rk := routeKind s h d c
    if rk = .none then (.damaged { st := .badFormat }, s)
    else
      let e0 := findEntry s h.part h.group h.ticket
      if (e0.map (fun e => e.flow.silent.contains h.rank)).getD false then (.absent, s)
      else if ticketPast s h || (e0.map (fun e => e.st = .done || e.st = .aborted)).getD false then (.late, s)
      else
        let q := s.part h.part
        if e0 = none ∧ (64 ≤ listCount s h.part ∨ (q.overflow.map (fun m => decide (h.ticket ≤ m))).getD false) then
          let m := match q.overflow with | some m => max m h.ticket | none => h.ticket
          (.order, s.setPart h.part { q with overflow := some m })
        else
          let e1 := match e0 with
            | none => entryForFrame s h
            | some e => if e.step = none then { e with group := h.group, step := some h.step } else e
          hearFrame s h rk d e1

/-! ### Completion (R178) -/

/-- The tiles below every mark of the sources an entry waits for, and below every tile whose input check is open (R178): what a running sum
or a release may read (R179). -/
def summedTo (n : Nat) (ranks : List Nat) (fl : Flow) : Nat :=
  let top := ranks.foldl (fun acc r => min acc (tget 0 fl.marks r)) n
  ((fl.unchecked ++ fl.failed).foldl (fun acc t => min acc t) top)

/-- The completion frontier of an entry (R178): at a receiver the tiles of the `RESULT` stream count too, which is an expected stream of it
(R187). A running sum does not wait for that stream (`summedTo`), which begins only after the sum has left (log 121). -/
def frontierOf (s : State) (d : Desc) (c : Bool) (e : Entry) : Nat :=
  let n := summedTo (dTiles d) (liveSources (sourcesOf s c d) e.flow.silent) e.flow
  if expectsResult s d e then min n e.flow.written else n

/-- Exponent of a tile whose combined byte is `b` at the release point: −126 for the zero marker (chapter 4, step 3). -/
def agreedByte (b : Nat) : Nat := if b = 0x80 then 0x82 else b

/-- Fix agreed exponents at the release point as far as every live source has delivered (R120, R121). -/
def settleScale (s : State) (p : Nat) (e : Entry) (d : Desc) (c : Bool) (wi : Nat) : State :=
  if dFixed d || !atRelease s d || e.role ≠ .normal then s
  else
    let upto := (liveSources (sourcesOf s c d) e.flow.silent).foldl (fun acc r => min acc (tget 0 e.flow.scaleMarks r)) (dTiles d)
    let s1 := (List.range (upto - e.flow.agreed)).foldl (fun st i =>
      let t := e.flow.agreed + i
      setTileRec st wi t { tileRec st wi t with scale := agreedByte (tget 0x80 e.flow.scaleMax t) }) s
    putEntry s1 p { e with flow := { e.flow with agreed := max e.flow.agreed upto } }

/-- Bring the frontier and the agreed exponents of an active entry up to date. -/
def progress (s : State) (p g t : Nat) : State :=
  match findEntry s p g t, openWin s p g t with
  | some e, some wi =>
    match entryDesc s p e with
    | none => s
    | some (d, c) =>
      let s1 := settleScale s p e d c wi
      match findEntry s1 p g t with
      | none => s1
      | some e1 =>
        s1.setWin wi { s1.win wi with frontier := frontierOf s1 d c e1 }
  | _, _ => s

/-- The swap of a finished stream: the entry becomes `DONE` (R174, R202), the straggler figures are kept (R213). -/
def doSwap (s : State) (p : Nat) (e : Entry) (wi : Nat) : State :=
  let s1 := swapWindow s wi
  let s2 := putEntry s1 p { e with st := .done, flow := { e.flow with swapped := true } }
  recordStraggler (recordLast s2 e.group e.ticket e.kEpoch 3) e

/-- Nothing of a ticket is left to send. -/
def nothingToSend (s : State) (p g t : Nat) : Bool :=
  !(s.lark.pipes.any (fun k => k.2.outs.any (fun f => isCollective f.cls && f.part = p && f.group = g && f.ticket = t)))
    && ((findEntry s p g t).map (fun (e : Entry) => e.flow.relay.isEmpty)).getD true

/-- A `DONE` entry with nothing left to send is finished (R202). -/
def finishIfSent (s : State) (p g t : Nat) : State :=
  match findEntry s p g t with
  | some e => if e.st = .done && !e.fin && nothingToSend s p g t then
      (if e.left then delEntry s p g t else putEntry s p { e with fin := true }) else s
  | none => s

/-- A receiver swaps when the last tile of the stream has been written and checked (R174, R265). -/
def swapIfWritten (s : State) (p g t : Nat) : State :=
  match findEntry s p g t, openWin s p g t with
  | some e, some wi =>
    match entryDesc s p e with
    | none => s
    | some (d, _) =>
      if e.st = .active && dTiles d ≤ e.flow.written && e.flow.unchecked = [] && e.flow.failed = [] then
        finishIfSent (doSwap s p e wi) p g t
      else s
  | _, _ => s

/-! ### Check 11 and the add -/

/-- Agreed exponent byte of a tile of an open window; 0x81 while it is not agreed. -/
def agreedOf (s : State) (wi t : Nat) : Nat := (tileRec s wi t).scale

/-- A sparse tile breaks R228 or R229: its form, a padding element it names, or the count of entries of a `RESULT` tile. -/
def sparseFails (h : Hdr) (d : Desc) (t : Tile) : Bool :=
  flagSparse h && (t.badSparse || !t.entries.all (fun x => x.1 < liveElems (dElems d) t.idx)
    || (h.cls = 3 && t.entries.length ≠ min (dKOut d) (liveElems (dElems d) t.idx)))

/-- Elements of a tile with its padding as zero (R115). -/
def padZero (live : Nat) (vs : List Int) : List Int := (List.range 256).map (fun e => if live ≤ e then 0 else vs.getD e 0)

/-- The tile flags agree with Table 4.8 (R133): `NOISE` on the tiles of a `RESULT` frame whose group adds noise and on no other (07 R245), `CLIP`
where a tile may have combined a clipped one. A resynchronisation carries the flags of an earlier collective (06 R221), whose descriptor may
have been another. -/
def tileFlagsAgree (h : Hdr) (d : Desc) (resync : Bool) (t : Tile) : Bool :=
  (t.flags.testBit 0 = flagSparse h)
    && (resync || t.flags.testBit 1 = (decide (h.cls = 3) && dNoise d))
    && (resync || !t.flags.testBit 2 || (dClip d && (h.cls = 3 || 1 ≤ h.hop)))

/-- A stream that carries every tile in one run: its frames leave no tile out, and the one that ends at tile *N* − 1 bears the last flag
(R114, 07 R236). DESIGN CHOICE (log 164): a last flag before tile *N* − 1, or a frame that ends there without one, is damaged like any frame
that breaks R114; no rule names the check. -/
def strictEnds (n : Nat) (h : Hdr) (ts : List Tile) : Bool := flagLast h = decide (h.first + ts.length = n)

/-- The header and position conditions on the tiles of a frame whose stream stands at tile `next` (Table 4.10, R113 to R116, R133, R236,
R237). -/
def tilesValid (next : Nat) (h : Hdr) (d : Desc) (resync : Bool) (ts : List Tile) : Bool :=
  let n := dTiles d
  let strict := h.hop ≥ 1 || h.cls = 3 || dOp d ≥ 2
  ts.all (fun t => t.clean && t.idx < n && expValid t.exp && !t.badSparse && tileFlagsAgree h d resync t)
    && (match ts with | [] => false | t :: r => t.delta = 0 && r.all (fun x => if strict then x.delta = 1 else 1 ≤ x.delta))
    && (if strict then h.first = next && strictEnds n h ts else next ≤ h.first)
    && flagSatAny h = ts.any (fun t => t.flags.testBit 3)
    && (h.cls ≠ 1 || h.hop ≠ 0 || !dClip d || h.first % dSpan d = 0)

/-- The exponent conditions of Table 4.10 against the agreed exponents (R116, R118). -/
def expsValid (s : State) (h : Hdr) (d : Desc) (wi : Nat) (ts : List Tile) : Bool :=
  if h.cls = 3 then h.fmt = dOutFmt d
  else if h.hop = 0 then h.fmt = dInFmt d && ts.all (fun t => sInt 8 t.exp ≤ sInt 8 (agreedOf s wi t.idx))
  else ts.all (fun t => t.exp = agreedOf s wi t.idx)

/-- The shift of a hop-0 tile to the agreed exponent (R124). -/
def hop0Shift (ea : Nat) (t : Tile) : Nat := (sInt 8 ea - sInt 8 t.exp).toNat

/-- Stage 2 of Table 4.4 on one hop-0 tile: elements at the agreed exponent (R124 to R127). -/
def stage2 (d : Desc) (h : Hdr) (key : Key) (ea : Nat) (t : Tile) : List Int :=
  let live := liveElems (dElems d) t.idx
  let shift := hop0Shift ea t
  (List.range 256).map (fun e =>
    if live ≤ e then 0
    else requantIn (dStoch d) (t.vals.getD e 0) shift (if dStoch d && 1 ≤ shift && shift ≤ 31
      then roundWord key h.step h.group h.rank t.idx h.ticket e else 0))

/-- Stage 3: a sum clamps each element, and whether any was clamped (R130). -/
def stage3 (d : Desc) (ys : List Int) : List Int × Bool :=
  if dOp d = 0 then
    let l := clampBound (dMembers d)
    (ys.map (clampTo l), ys.any (fun y => clampTo l y ≠ y))
  else (ys, false)

/-- The sum of squares of a clip segment over the tiles a frame carries (R238). -/
def segmentQ (d : Desc) (g : Nat) (ys : List (Nat × List Int)) : Nat :=
  (ys.filter (fun x => x.1 / dSpan d = g)).foldl (fun acc x => x.2.foldl (fun a y => a + (y * y).toNat) acc) 0

/-- Stage 4 of Table 4.4 on one tile: clip by a factor, then select (R233, R240). -/
def stage4 (d : Desc) (t : Tile) (f16 : Nat) (ys : List Int) : List Int :=
  let zs := if dClip d && f16 < 0x8000 then ys.map (clipElem f16) else ys
  if dOp d = 1 then
    let cand := if t.entries = [] && !t.flags.testBit 0
      then (List.range (liveElems (dElems d) t.idx)).map (fun e => (e, zs.getD e 0))
      else t.entries.map (fun x => (x.1, zs.getD x.1 0))
    let kept := (selectTop (dKIn d) cand).map (·.1)
    (List.range 256).map (fun e => if kept.contains e then zs.getD e 0 else 0)
  else zs

/-- The candidates a selection of a hop-0 tile ranks, for the counters of R257. -/
def tileTie (d : Desc) (t : Tile) (zs : List Int) : Bool :=
  tieCut (dKIn d) (if t.flags.testBit 0 then t.entries.map (fun x => (x.1, zs.getD x.1 0))
    else (List.range (liveElems (dElems d) t.idx)).map (fun e => (e, zs.getD e 0)))

/-- One tile as the adder takes it: the tile, its flags, the elements after stage 2 and after stage 4, and whether its segment was clipped. -/
structure Fed where
  tile : Tile
  flags : Nat
  y : List Int
  a : List Int
  f16 : Nat := 0x8000
  z : List Int := []
  deriving DecidableEq, Repr

/-- The tiles of a hop-0 `DATA` frame through stages 2 to 4 (Table 4.4). -/
def feedHop0 (s : State) (h : Hdr) (d : Desc) (wi : Nat) (key : Key) (ts : List Tile) : List Fed :=
  let st := ts.map (fun t => let y := stage2 d h key (agreedOf s wi t.idx) t; (t, y, stage3 d y))
  let ys := st.map (fun x => (x.1.idx, x.2.2.1))
  let fac (t : Nat) : Nat := if dClip d then clipFactor (segmentQ d (t / dSpan d) ys) (dBound d) else 0x8000
  st.map (fun x =>
    let f := fac x.1.idx
    let z := x.2.2.1
    { tile := x.1, flags := x.1.flags ||| (if x.2.2.2 then 8 else 0) ||| (if f < 0x8000 then 4 else 0), y := x.2.1,
      a := stage4 d x.1 f z, f16 := f, z := if f < 0x8000 then z.map (clipElem f) else z })

/-- The tiles of a running sum or of a `RESULT` frame: no shift, padding as zero (R115, R129, R234). -/
def feedAsIs (d : Desc) (ts : List Tile) : List Fed :=
  ts.map (fun t => { tile := t, flags := t.flags, y := [], a := padZero (liveElems (dElems d) t.idx) t.vals })

/-- The tiles of a frame as its adder or its writer takes them. -/
def feed (s : State) (h : Hdr) (d : Desc) (wi : Nat) (key : Key) (ts : List Tile) : List Fed :=
  if h.cls = 1 ∧ h.hop = 0 then feedHop0 s h d wi key ts else feedAsIs d ts

/-- What Sounding's taps take of one tile of a frame, in the state before its add (R261). -/
def jobOf (s : State) (h : Hdr) (d : Desc) (wi : Nat) (x : Fed) : TileJob :=
  let t := x.tile
  { write := h.cls = 3, op := dOp d, fresh := (tileRec s wi t.idx).fresh,
    shift := if h.cls = 1 ∧ h.hop = 0 then some (hop0Shift (agreedOf s wi t.idx) t, dStoch d) else none,
    x := if h.cls = 1 ∧ h.hop = 0 then padZero (liveElems (dElems d) t.idx) t.vals else [], y := x.y,
    o := readLanes s wi t.idx, a := x.a }

/-- Count the work of Aster and Zinnia on the tiles of a hop-0 frame (R257, R258). -/
def countHop0 (s : State) (d : Desc) (xs : List Fed) : State :=
  let segs := xs.foldl (fun acc x => insertNat (x.tile.idx / dSpan d) acc) []
  let cut := (xs.filter (fun x => x.f16 < 0x8000)).foldl (fun acc x => insertNat (x.tile.idx / dSpan d) acc) []
  let s1 := if dClip d then { s with zin.segments := bump s.zin.segments segs.length, zin.clipped := bump s.zin.clipped cut.length } else s
  let ties := (xs.filter (fun x => tileTie d x.tile x.z)).length
  if dOp d = 1 then { s1 with aster.selTiles := bump s1.aster.selTiles xs.length, aster.tieCuts := bump s1.aster.tieCuts ties }
  else if 2 ≤ dOp d then { s1 with aster.maxminTiles := bump s1.aster.maxminTiles xs.length }
  else s1

/-- Count the work of Aster on the tiles of a running sum (R257). DESIGN CHOICE (log 167): `ASTER_SCATTER`, the sparse entries added, counts
those of running-sum tiles; the entries of a sparse hop-0 tile go through the selection, which has its own count. -/
def countHopN (s : State) (d : Desc) (xs : List Fed) : State :=
  if dOp d = 1 then { s with aster.scatter := bump s.aster.scatter (xs.foldl (fun n x => n + x.tile.entries.length) 0) }
  else if 2 ≤ dOp d then { s with aster.maxminTiles := bump s.aster.maxminTiles xs.length }
  else s

/-- Add the tiles of a `DATA` frame (Table 4.4 stage 5, R129, R234). -/
def addFed (s : State) (h : Hdr) (d : Desc) (wi : Nat) (xs : List Fed) : State :=
  let s1 := xs.foldl (fun acc x => addTile acc wi (dOp d) (liveElems (dElems d) x.tile.idx) x.tile.idx x.flags h.hop x.a) s
  if h.hop = 0 then countHop0 s1 d xs else countHopN s1 d xs

/-- Write the tiles of a received `RESULT` frame into the working window (R115, R173). -/
def writeResult (s : State) (wi : Nat) (h : Hdr) (xs : List Fed) : State :=
  let s1 := xs.foldl (fun acc x =>
    setTileRec (setLanes acc wi x.tile.idx x.a) wi x.tile.idx { scale := x.tile.exp, fresh := false, flags := x.tile.flags, hop := h.hop }) s
  s1.setWin wi { s1.win wi with st := .releasing }

/-- Take the tiles of an accepted frame into Sounding's checks and the entry's flow (R178, R210, R264); a frame was accepted at its
`seen`, before its return where it was parked (R194, R213). -/
def noteTiles (old s : State) (k : Nat) (f : HeldFrame) (wi : Nat) (h : Hdr) (d : Desc) (c : Bool) (xs : List Fed) : State :=
  let idxs := xs.map (·.tile.idx)
  let upto := (idxs.foldl max 0) + 1
  let full := if flagLast h then dTiles d else upto
  let new : List Check := xs.map (fun x =>
    { pipe := k, part := h.part, group := h.group, ticket := h.ticket, tile := x.tile.idx, frame := f.id, arr := f.arr,
      job := jobOf old h d wi x })
  let s1 := { s with snd.checks := s.snd.checks ++ new }
  let s2 := setStreamNext s1 h (if h.cls = 3 then 3 else 0) upto
  match findEntry s2 h.part h.group h.ticket with
  | none => s2
  | some e =>
    let us := f.seen - (baseOf e).getD f.seen
    let src := ((sourcesOf s2 c d).zipIdx.find? (fun x => x.1.rank = h.rank)).map (fun x => (x.2, x.1.isLocal))
    let newest := flagLast h && h.cls = 1 && e.flow.lateSeen ≤ f.seen
    let fl := { e.flow with
      marks := if h.cls = 3 then e.flow.marks else tset 0 e.flow.marks h.rank (max (tget 0 e.flow.marks h.rank) full),
      unchecked := e.flow.unchecked ++ idxs,
      written := if h.cls = 3 then max e.flow.written full else e.flow.written,
      late := if newest then some (h.rank, (src.map (·.2)).getD false, us) else e.flow.late,
      lateSeen := if newest then f.seen else e.flow.lateSeen,
      lates := if flagLast h && h.cls = 1 then (match src with | some x => tset 0 e.flow.lates x.1 (us + 1) | none => e.flow.lates)
        else e.flow.lates }
    putEntry s2 h.part { e with flow := fl }

/-- The ports a receiver passes a `RESULT` stream on: a resynchronisation goes to its local ports alone (R221). -/
def relayPorts (d : Desc) (e : Entry) : Nat :=
  match e.role with
  | .resyncRecv _ => dDistPorts d / 256 * 256
  | _ => dDistPorts d

/-- A frame of the buffer needs its keys no more: the entries it held are released (R152, R153). -/
def releaseKeys (s : State) (k id : Nat) : State :=
  match (s.pipe k).buf.find? (fun f => f.id = id) with
  | none => s
  | some f => modHeld (s.setPipe k (unholdKeys (s.pipe k) f.keys)) k id (fun x => { x with keys := [] })

/-- The entry of a frame is the receiving end of a resynchronisation (06 R221). -/
def resyncFrame (s : State) (h : Hdr) : Bool :=
  match (findEntry s h.part h.group h.ticket).map (fun (e : Entry) => e.role) with | some (.resyncRecv _) => true | _ => false

/-- A tile of the frame lies where the scale strip lacks the agreed exponent (R123). DESIGN CHOICE (log 168): a tile of index *N* or above, for
which the strip has no byte, keeps no frame parked; the frame is then damaged at check 11 (R116). -/
def lacksScale (s : State) (h : Hdr) (d : Desc) (wi : Nat) (ts : List Tile) : Bool :=
  h.cls = 1 && !dFixed d && ts.any (fun t => t.idx < dTiles d && agreedOf s wi t.idx = 0x81)

/-- Add or write the tiles of a frame that has passed check 11, and take them into Sounding's checks (R178, R264); the frame needs its keys
no more. -/
def putTiles (s : State) (k : Nat) (f : HeldFrame) (h : Hdr) (d : Desc) (c : Bool) (wi : Nat) (ts : List Tile) : State :=
  let rk := heldKeyOf s k f.id { pipe := k, use := 2, part := h.part, sel := 0, epoch := h.kEpoch }
  let xs := feed s h d wi (rk.getD 0) ts
  let s1 := if h.cls = 3 then writeResult s wi h xs else addFed s h d wi xs
  releaseKeys (noteTiles s (recordStream s1 h) k f wi h d c xs) k f.id

/-- Check 11 and the add of a `DATA` or `RESULT` frame of an active entry (R80, R138, R139, R550); a frame that lacks an agreed exponent
is parked before it is checked against Table 4.10 (R123). -/
def takeTiles (s : State) (k : Nat) (f : HeldFrame) (h : Hdr) (plain : Bytes) (d : Desc) (c : Bool) (wi : Nat) (first : Bool) : State :=
  let bad := damaged s k f { st := .badFormat } false
  match (if flagAbsent h then (if first then readAbsence plain else none) else some ([], plain)) with
  | none => bad
  | some (ab, body) =>
    let rd := readTiles h.fmt (flagSparse h) h.tiles true h.first body
    let ts := rd.1
    if !flagSparse h && body.length ≠ h.tiles * denseSize h.fmt then bad
    else if lacksScale s h d wi ts then parkFrame s k f .scale (some plain) true
    else if ts.any (sparseFails h d) then
      damaged (raise { s with aster.sparseErr := bump s.aster.sparseErr (ts.filter (sparseFails h d)).length } 0x54 0) k f { st := .badFormat } false
    else if rd.2 ≠ [] || !tilesValid (streamNext s h (if h.cls = 3 then 3 else 0)) h d (resyncFrame s h) ts || !expsValid s h d wi ts then bad
    else
      let s2 := putTiles s k f h d c wi ts
      let relays := h.cls = 3 && ((findEntry s h.part h.group h.ticket).map (fun (e : Entry) => decide (relayPorts d e ≠ 0))).getD false
      let s3 := countTaken (modHeld s2 k f.id (fun x => { x with st := .checking ts.length relays })) k f
      let s4 := if relays then modFlow s3 h.part h.group h.ticket (fun fl =>
          { fl with relay := fl.relay ++ [(k, f.id, (List.range 8).map (hdrWord f.arr.bytes), plain)] }) else s3
      let s5 := match findEntry s4 h.part h.group h.ticket with
        | some e => markAbsent s4 h.part e [] ab
        | none => s4
      progress s5 h.part h.group h.ticket

/-- The bytes of a `SCALE` frame are valid for the direction (Table 4.3). -/
def scaleBytesValid (dist : Bool) (plain : Bytes) : Bool := plain.all (fun b => b ≠ 0x81 && (!dist || b ≠ 0x80))

/-- Check 11 and the combination of a `SCALE` frame of an active entry (R118 to R122). -/
def takeScale (s : State) (k : Nat) (f : HeldFrame) (h : Hdr) (plain : Bytes) (d : Desc) (wi : Nat) (e : Entry) : State :=
  let dist := scaleIsDist s h
  let n := dTiles d
  let want := if dist then e.flow.agreed else tget 0 e.flow.scaleMarks h.rank
  let upto := h.first + h.tiles
  if dFixed d || !scaleBytesValid dist plain || h.first ≠ want || n < upto || flagLast h ≠ decide (upto = n)
      || h.fmt ≠ dInFmt d || h.op ≠ dOp d then damaged s k f { st := .badFormat } false
  else
    let s0 := recordStream s h
    let s1 := if dist then
        let s2 := (List.range h.tiles).foldl (fun st i =>
          setTileRec st wi (h.first + i) { tileRec st wi (h.first + i) with scale := (plain.getD i 0).toNat }) s0
        putEntry s2 h.part { e with flow := { e.flow with agreed := upto, distRuns := e.flow.distRuns ++ [(h.first, h.tiles, h.hop)] } }
      else
        let sm := (List.range h.tiles).foldl (fun m i =>
          let t := h.first + i
          let b := (plain.getD i 0).toNat
          tset 0x80 m t (if sInt 8 (tget 0x80 m t) < sInt 8 b then b else tget 0x80 m t)) e.flow.scaleMax
        let fl := { e.flow with scaleMax := sm, scaleRuns := e.flow.scaleRuns ++ [(h.first, h.tiles, h.hop)], scaleMarks := tset 0 e.flow.scaleMarks h.rank upto }
        putEntry s0 h.part { e with flow := fl }
    progress (countTaken (leaveBuffer s1 k f.id) k f) h.part h.group h.ticket

/-- Check 11 onward of a collective-class frame whose entry is active; an absence block may stand in the first frame of its stream and
class (R81, 06 R212). -/
def takeActive (s : State) (k : Nat) (f : HeldFrame) (h : Hdr) (plain : Bytes) : State :=
  match findEntry s h.part h.group h.ticket, descAt s h.part h.group h.step, openWin s h.part h.group h.ticket with
  | some e, some (d, c), some wi =>
    if h.cls = 2 then takeScale s k f h plain d wi e
    else takeTiles s k f h plain d c wi (decide (streamNext s h (if h.cls = 3 then 3 else 0) = 0))
  | _, _, _ => dropLate s k f.id

/-! ### Replay of a failed tile (R267) -/

/-- Take an entry out of the replay reserve. -/
def dropReserve (s : State) (no : Nat) : State := { s with park.reserve := s.park.reserve.filter (fun r => r.no ≠ no) }

/-- A frame that runs again for its failed tiles is damaged: it leaves the reserve, and its collective ends (R104, R267); only a status of checks
1 to 8 is recorded in `PAGE_ERR` (R107). -/
def replayDamaged (s : State) (k : Nat) (f : HeldFrame) (r : Reserve) (st : Status) (record : Bool) : State :=
  damaged (dropReserve s r.no) k f { st := st } record

/-- Take one failed tile again: its first deposit comes off, the addend goes in, or the received elements are written anew, and the write
waits for its check (R267 steps 3 and 4). -/
def replayWrite (k : Nat) (f : HeldFrame) (h : Hdr) (d : Desc) (wi : Nat) (r : Reserve) (s : State) (x : Fed × FailTile) : State :=
  let t := x.2.tile
  let job := { jobOf s h d wi x.1 with dep := if h.cls = 3 then [] else x.2.dep }
  let ls := job.lanes job.a
  let rec0 := tileRec s wi t
  let rec1 := if h.cls = 3 then { rec0 with scale := x.1.tile.exp, fresh := false, flags := x.1.tile.flags, hop := h.hop }
    else { rec0 with fresh := false, flags := rec0.flags ||| (if ls.any (fun y => y.2) then 8 else 0) }
  let s1 := setTileRec (setLanes s wi t (ls.map (·.1))) wi t rec1
  let ck : Check := { pipe := k, part := r.part, group := r.group, ticket := r.ticket, tile := t, frame := f.id, arr := f.arr, job := job, replay := some r.no }
  { s1 with snd.checks := s1.snd.checks ++ [ck] }

/-- The failed tiles of a frame among those it carries. -/
def failedOf (r : Reserve) (xs : List Fed) : List (Fed × FailTile) :=
  r.tiles.filterMap (fun t => (xs.find? (fun x => x.tile.idx = t.tile)).map (fun x => (x, t)))

/-- Check 11 of a frame that runs again, then its failed tiles alone, in one slot (R267); the frame of a collective that has ended meanwhile
leaves. -/
def replayTiles (s : State) (k : Nat) (f : HeldFrame) (h : Hdr) (r : Reserve) (plain : Bytes) : State :=
  match findEntry s h.part h.group h.ticket, descAt s h.part h.group h.step, openWin s h.part h.group h.ticket with
  | some _, some (d, _), some wi =>
    let body := if flagAbsent h then ((readAbsence plain).map (·.2)).getD [] else plain
    let rd := readTiles h.fmt (flagSparse h) h.tiles true h.first body
    let ts := rd.1
    if rd.2 ≠ [] || ts.any (sparseFails h d) || !tilesValid h.first h d (resyncFrame s h) ts || !expsValid s h d wi ts then
      replayDamaged s k f r .badFormat false
    else
      let rk := heldKeyOf s k f.id { pipe := k, use := 2, part := h.part, sel := 0, epoch := h.kEpoch }
      let xs := failedOf r (feed s h d wi (rk.getD 0) ts)
      if xs.length = r.tiles.length then
        modHeld (releaseKeys (xs.foldl (replayWrite k f h d wi r) s) k f.id) k f.id (fun y => { y with st := .checking xs.length false })
      else replayDamaged s k f r .badFormat false
  | _, _, _ => leaveBuffer (dropReserve s r.no) k f.id

/-- Checks 1 to 8 of a frame that runs again for its failed tiles; it skips checks 9 and 10 (R267 step 2). -/
def replayFrame (s : State) (k : Nat) (f : HeldFrame) (no : Nat) : State :=
  let h := hdrOf f.arr.bytes
  match s.park.reserve.find? (fun r => r.no = no) with
  | none => leaveBuffer s k f.id
  | some r =>
    match headerFailure s f.arr h with
    | some (st, _) => replayDamaged s k f r st true
    | none => match epochCheck s h with
      | .fail st => replayDamaged s k f r st true
      | .park => replayDamaged s k f r .tagFail true
      | .ok =>
        let l := lookupKeys s k f.id (frameNeeds s k f)
        if !l.2 then l.1
        else match openFrame (((frameNeeds s k f).head?.bind (heldKeyOf l.1 k f.id)).getD 0) f.arr.bytes with
          | none => replayDamaged l.1 k f r .tagFail true
          | some plain => replayTiles l.1 k f h r plain

/-! ### The pipe -/

/-- What a fabric-class handler gets: ingress pipe, header, plaintext and the frame. -/
structure FabIn where
  pipe : Nat
  hdr : Hdr
  plain : Bytes
  arr : Arrival
  deriving DecidableEq, Repr

/-- Checks 10 and 11 of a collective-class frame (R199). -/
def admitFrame (s : State) (k : Nat) (f : HeldFrame) (h : Hdr) (plain : Bytes) : State :=
  let r := check10 s h
  match r.1 with
  | .damaged i => damaged r.2 k f i false
  | .late => dropLate r.2 k f.id
  | .absent => let s1 := leaveBuffer r.2 k f.id; { s1 with park.dropAbsent := bump s1.park.dropAbsent 1 }
  | .order => let s1 := leaveBuffer r.2 k f.id; { s1 with park.dropOrder := bump s1.park.dropOrder 1 }
  | .park => parkFrame r.2 k f .ticket (some plain) true
  | .active => takeActive r.2 k f h plain

/-- The step a `STEP` payload names, where the payload is well formed (09 R288). -/
def stepOf (h : Hdr) (plain : Bytes) : Option Nat :=
  let w0 := leAt plain 0 8
  let w1 := leAt plain 8 8
  if w0 / 2 ^ 16 = h.step ∧ !(w0.testBit 15) ∧ w1 % 2 ^ 32 = 0 then some (w0 / 2 ^ 16) else none

/-- A frame whose tag has verified: check 9, then its class; a fabric-class frame changes its stream record only where its handler keeps it
(R102, R103). -/
def openedFrame (fab : State → FabIn → State) (s : State) (k : Nat) (f : HeldFrame) (h : Hdr) (plain : Bytes) : State :=
  if !check9 s h then damaged s k f { st := .badFormat } true
  else if isCollective h.cls then admitFrame s k f h plain
  else
    fab (countTaken (leaveBuffer s k f.id) k f) { pipe := k, hdr := h, plain := plain, arr := f.arr }

/-- Checks 7 onward of one frame of a pipe's buffer (Table 3.10). -/
def keyedFrame (fab : State → FabIn → State) (s : State) (k : Nat) (f : HeldFrame) (h : Hdr) : State :=
  match epochCheck s h with
  | .fail st => damaged s k f { st := st } true
  | .park => parkFrame s k f .epoch none false
  | .ok =>
    let l := lookupKeys s k f.id (frameNeeds s k f)
    if !l.2 then l.1
    else
      let key := (frameNeeds s k f).head?.bind (heldKeyOf l.1 k f.id)
      match openFrame (key.getD 0) f.arr.bytes with
      | none => damaged l.1 k f { st := .tagFail } true
      | some plain => openedFrame fab l.1 k f h plain

/-- Check 11 onward of a frame that returned from parking memory: its epoch against the launch's (launch step 3), and the rounding
key it may lack (04 R128), then its tiles. -/
def resumeFrame (s : State) (k : Nat) (f : HeldFrame) (h : Hdr) (plain : Bytes) : State :=
  if h.kEpoch ≠ ((findEntry s h.part h.group h.ticket).map (fun (e : Entry) => e.kEpoch)).getD h.kEpoch then
    damaged s k f { st := .badFormat } true
  else
    let l := lookupKeys s k f.id (frameNeeds s k f)
    if l.2 then takeActive l.1 k f h plain else l.1

/-- The checks of one frame from the start (R101). -/
def runFrame (fab : State → FabIn → State) (s : State) (k : Nat) (f : HeldFrame) : State :=
  let h := hdrOf f.arr.bytes
  match f.replay, f.plain with
  | some no, _ => replayFrame s k f no
  | none, some plain => resumeFrame s k f h plain
  | none, none =>
    match headerFailure s f.arr h with
    | some (st, true) => damaged s k f { st := st } true
    | some (st, false) => droppedOnly s k f st
    | none => keyedFrame fab s k f h

/-- The first frame of a pipe's buffer that may run: queued, with no earlier frame of its port waiting (R151). -/
def nextRunnable (p : Pipe) : Option HeldFrame :=
  (p.buf.foldl (fun (acc : List Nat × Option HeldFrame) f =>
    match acc.2 with
    | some x => (acc.1, some x)
    | none =>
      if f.st = .queued then (if acc.1.contains f.arr.port.toNat then acc else (acc.1, some f))
      else if f.st = .waitKey then (f.arr.port.toNat :: acc.1, none) else acc) ([], none)).2

/-- Key requests of a pipe that Chartroom has not answered. -/
def missesOf (s : State) (k : Nat) : Nat := (s.chrt.queue.filter (fun r => r.pipe = k)).length

/-- Run every frame of a pipe that may run. A pipe with four misses outstanding starts none (12 R366). DESIGN CHOICE (log 136): that holds
for a frame whose keys the cache has, too. -/
def pumpPipe (fab : State → FabIn → State) : Nat → State → Nat → State
  | 0, s, _ => s
  | n + 1, s, k =>
    if 4 ≤ missesOf s k then s
    else match nextRunnable (s.pipe k) with
    | none => s
    | some f => pumpPipe fab n (runFrame fab s k f) k

/-- The beats of a frame that find buffer space: those whose credits the port has given out (R96, R518). -/
def beatsIn (s : State) (f : Arrival) : Nat := min (creditsOf f.bytes.length) (roomAt s f.port.toNat f.vc)

/-- The sender holds credits for every beat of a frame (R96). -/
def covered (s : State) (f : Arrival) : Bool := creditsOf f.bytes.length ≤ roomAt s f.port.toNat f.vc

/-- A frame no pipe takes: dropped, with the credits of the beats that had any returned (R144, R525, R518). -/
def dropAtPort (s : State) (f : Arrival) : State :=
  giveCredits (useCredits s f.port.toNat f.vc (beatsIn s f)) f.port.toNat f.vc (beatsIn s f)

/-- A frame that no pipe takes and whose sender held no credit for all of it fails check 1: the collective its header names ends, and no pipe
counts it (R104, R144, R518). -/
def overrunAtPort (s : State) (f : Arrival) : State :=
  let h := hdrOf f.bytes
  let s1 := dropAtPort s f
  if covered s f || namesAborted s h then s1 else damagedAbort s1 h { st := .badFormat }

/-- A frame as its pipe's buffer takes it: beats without credit are dropped, and what is left fails check 1; of a frame none of whose beats was
taken no credit comes back (R518). -/
def takenFrame (s : State) (f : Arrival) : HeldFrame :=
  let n := beatsIn s f
  let arr := if covered s f then f else if n = 0 then { f with whole := false } else { f with whole := false, bytes := f.bytes.take (128 * n) }
  { id := s.lark.nextId, arr := arr, st := .queued, again := !covered s f && n = 0, seen := s.mrd.wall }

/-- A frame enters the buffer of the pipe that serves its port, or is dropped at the port (R144, R518, R525). -/
def enterPort (fab : State → FabIn → State) (s : State) (f : Arrival) : State :=
  let port := f.port.toNat
  if port < 8 && !s.pins.stationLive then dropAtPort s f
  else match ingressOf s port with
    | none => overrunAtPort s f
    | some k =>
      let s0 := useCredits s port f.vc (beatsIn s f)
      let p := s0.pipe k
      let s1 := { s0.setPipe k { p with buf := p.buf ++ [takenFrame s f] } with lark.nextId := s.lark.nextId + 1 }
      pumpPipe fab ((s1.pipe k).buf.length) s1 k

/-- A parked frame returns through the pipe that parked it, or the lowest `BOUND` one, or stays parked (R194). -/
def returnPipe (s : State) (k : Nat) : Option Nat :=
  if (s.pipe k).st = .bound || (s.pipe k).st = .draining then some k
  else (List.range 8).find? (fun j => (s.pipe j).st = .bound)

/-- A returned frame runs again from check 11 (its tag has been checked), or from check 7 for one parked by its epoch, when its pipe's limit on
misses and the frames of its port before it let it (R151, 12 R366); its credits went back when it was parked. -/
def reinject (fab : State → FabIn → State) (s : State) (x : Parked) : State :=
  match returnPipe s x.pipe with
  | none => { s with park.frames := s.park.frames ++ [x] }
  | some k =>
    let id := s.lark.nextId
    let p := s.pipe k
    let f : HeldFrame := { id := id, arr := x.arr, st := .queued, again := true, plain := x.plain, seen := x.seen }
    pumpPipe fab (p.buf.length + 1) { s.setPipe k { p with buf := p.buf ++ [f] } with lark.nextId := id + 1 } k

/-- The weighted cyclic service among partitions (10 R321), up to `n` visits: from the turn and the allowances, the partition served next,
if one is, and both as they then stand. -/
def serveTurn (ready : Nat → Bool) (w : Nat → Nat) : Nat → Nat × Table Int → Option Nat × Nat × Table Int
  | 0, x => (none, x)
  | f + 1, (turn, al) =>
    let weighted := (List.range 32).any (fun p => ready p && w p ≠ 0)
    if ready turn && ((w turn ≠ 0 && 0 < tget 0 al turn) || (w turn = 0 && !weighted)) then (some turn, turn, al)
    else
      let n := (turn + 1) % 32
      let a := tget 0 al n
      serveTurn ready w f (n, tset 0 al n (if ready n then a + (w n * 16 : Nat) else min a ((w n * 16 : Nat) : Int)))

/-- A partition with no ready work keeps an allowance of at most `WEIGHT` × 16 on a pipe (10 R321). -/
def capIdle (s : State) (k : Nat) (ready : Nat → Bool) : State :=
  let q := s.pipe k
  let al := (List.range 32).foldl (fun t p =>
    let cap : Int := ((s.part p).weight * 16 : Nat)
    if ready p || tget 0 t p ≤ cap then t else tset 0 t p cap) q.allow
  s.setPipe k { q with allow := al }

/-- The partition that pipe `k` serves next among those with ready work, if any, and the state with its turn and allowances (10 R321). -/
def servePipe (s : State) (k : Nat) (ready : Nat → Bool) : Option Nat × State :=
  let s0 := capIdle s k ready
  if (List.range 32).any ready then
    let q := s0.pipe k
    let r := serveTurn ready (fun p => (s.part p).weight) 4096 (q.turn, q.allow)
    (r.1, s0.setPipe k { q with turn := r.2.1, allow := r.2.2 })
  else (none, s0)

/-- Take the beats of a frame from a partition's allowance on a pipe (10 R321). -/
def spendAllow (s : State) (k p beats : Nat) : State :=
  let q := s.pipe k
  s.setPipe k { q with allow := tset 0 q.allow p (tget 0 q.allow p - (beats : Int)) }

/-- Return parked frames through pipe `k`, partition by partition as their allowances let them, each partition's in order of acceptance
(R194, 10 R321). -/
def returnVia (fab : State → FabIn → State) (k : Nat) : Nat → List Parked → State → State
  | 0, l, s => l.foldl (reinject fab) (capIdle s k (fun _ => false))
  | n + 1, l, s =>
    match servePipe s k (fun p => l.any (fun x => x.part = p)) with
    | (none, s1) => l.foldl (reinject fab) s1
    | (some p, s1) =>
      match l.find? (fun x => x.part = p) with
      | none => s1
      | some x => returnVia fab k n (l.erase x) (reinject fab (spendAllow s1 k p (creditsOf x.arr.bytes.length)) x)

/-- Return every parked frame that satisfies a condition, each through its pipe; with no pipe `BOUND` it stays parked (R194). -/
def returnParked (fab : State → FabIn → State) (c : Parked → Bool) (s : State) : State :=
  let l := s.park.frames.filter (fun x => c x && (returnPipe s x.pipe).isSome)
  let s1 := { s with park.frames := s.park.frames.filter (fun x => !(c x && (returnPipe s x.pipe).isSome)) }
  (List.range 8).foldl (fun st k =>
    let mine := l.filter (fun x => returnPipe s x.pipe = some k)
    returnVia fab k mine.length mine st) s1

/-- Return the frames of a ticket whose exponents are all agreed (R123). -/
def returnScaled (fab : State → FabIn → State) (s : State) (p g t : Nat) : State :=
  match openWin s p g t with
  | none => s
  | some wi => returnParked fab (fun x => x.why = .scale && x.part = p && x.group = g && x.ticket = t &&
      (match x.plain, descAt s x.part x.group (hdrOf x.arr.bytes).step with
        | some plain, some (d, _) =>
          let h := hdrOf x.arr.bytes
          let body := if flagAbsent h then (readAbsence plain).map (·.2) else some plain
          (match body with
            | some b => !lacksScale s h d wi (readTiles h.fmt (flagSparse h) h.tiles true h.first b).1
            | none => true)
        | _, _ => true)) s

/-- A frame on a port in use: the pipes take it while they run, and what it releases returns (R123); while the block is in reset or the
arithmetic loop has no lock, `STATION_LIVE` has fallen and the frame is dropped with its credits returned (R25, R525). -/
def takeFrame (fab : State → FabIn → State) (s : State) (f : Arrival) : State :=
  if arithRuns s then
    let h := hdrOf f.bytes
    returnScaled fab (enterPort fab s f) h.part h.group h.ticket
  else dropAtPort s f

/-- A frame arrives: the block takes it unless the port is out of use (R521) or its domain is off (R512). -/
def ingressFrame (fab : State → FabIn → State) (s : State) (f : Arrival) : State :=
  if !domLive s 18 || 12 ≤ f.port.toNat then s
  else if 8 ≤ f.port.toNat && (s.blk.profile = 2 || s.rhmb.lspSrc.testBit (f.port.toNat - 8)) then s
  else takeFrame fab s f

end Sys2Proof.Machine
end

