-- ==== Sys2Proof/Machine/Larkspur.lean ====
section
/-! DEFINITION. The pipes as software sees them (chapter 5): control stores, bindings and drains, key cache flushes; and
what Helm does when a pipe leaves service (R145, R271, R272, R276). -/

namespace Sys2Proof.Machine

/-- The page of pipe `k`. -/
def larkPage (k : Nat) : Nat := 0x40 + k

/-- Move a pipe to a state; a change sets `STATE_CHANGE` (R182), and with an egress pipe `BOUND` the fabric-class frames that waited for
one start (R549). -/
def setPipeSt (s : State) (k : Nat) (st : PipeSt) : State :=
  if (s.pipe k).st = st then s
  else
    let s1 := raise (s.setPipe k { s.pipe k with st := st }) (larkPage k) 0
    if st = .bound ∧ 8 ≤ k then sendWaiting s1 else s1

/-! ### Control store (R141) -/

/-- A write of `LARK_CS_DATA` (Table 5.20). -/
def csDataWrite (s : State) (a : Access) (k : Nat) (v : Word) : State :=
  regWrite s a (regAt (larkPage k) 0x58) (refuseIf ((s.pipe k).st ≠ .loading) .wrongState) none (fun s1 =>
    let p := s1.pipe k
    s1.setPipe k { p with cs := tset 0 p.cs p.csAddr v, csAddr := (p.csAddr + 1) % 2048 })

/-- The bytes of a control store, words 0 to 2,047 in address order (R141). -/
def csBytes (t : Table Word) : Bytes := ((List.range 2048).map (fun i => wordBytes (tget 0 t i))).flatten

/-- A commit of a pipe's control store that the pipe takes: its CRC decides (R141). -/
def csTake (a : Access) (k : Nat) (v : Word) (s : State) : State :=
  if crc32c (csBytes (s.pipe k).cs) = fld v 31 0 then setPipeSt (s.setPipe k { s.pipe k with csValid := true }) k .idle
  else noteCmd s a (regAt (larkPage k) 0x60) .badFormat

/-- A write of `LARK_CS_COMMIT` (R141). -/
def csCommit (s : State) (a : Access) (k : Nat) (v : Word) : State :=
  regWrite s a (regAt (larkPage k) 0x60) (refuseIf ((s.pipe k).st ≠ .loading) .wrongState) (mbz v (maskBits 63 32)) (csTake a k v)

/-! ### Binding (R142 to R146) -/

/-- Pipes of the same direction as pipe `k`. -/
def sameDir (k : Nat) : List Nat := if k < 8 then List.range 8 else (List.range 8).map (· + 8)

/-- A pipe serves as a binding target: it has a committed store and has not left service (R142). -/
def bindable (p : Pipe) : Bool := p.st = .idle || p.st = .bound || p.st = .draining

/-- Frames of a `RESULT` stream are still to be relayed: the ports are there, and the stream has not ended or its last frames wait (R550). -/
def relaysLeft (s : State) (d : Desc) (e : Entry) : Bool :=
  !atRelease s d && decide (relayPorts d e ≠ 0) && (!e.flow.swapped || !e.flow.relay.isEmpty)

/-- An entry's output stream has frames still to be built (R119, R159, R179, R221). -/
def framesLeft (s : State) (p : Nat) (e : Entry) : Bool :=
  match entryDesc s p e with
  | none => true
  | some (d, _) =>
    let n := dTiles d
    match e.role with
    | .resyncSend => decide (e.flow.dataNext < n)
    | .resyncRecv _ => relaysLeft s d e
    | .normal =>
      (decide (dRole d ≠ 3) && (decide (e.flow.dataNext < n) || (!dFixed d && !atRelease s d && decide (e.flow.scaleNext < n))))
        || (!dFixed d && decide (dDistPorts d ≠ 0) && decide (e.flow.distNext < n)) || relaysLeft s d e

/-- The output stream of an entry on an egress pipe is unfinished: frames are to be built, or stand unsent (R146, R159). -/
def streamOpen (s : State) (k p : Nat) (e : Entry) : Bool :=
  isAdmitted e && decide (e.flow.pipe = some k) && (framesLeft s p e
    || (s.pipe k).outs.any (fun f => isCollective f.cls && f.part = p && f.group = e.group && f.ticket = e.ticket))

/-- Unfinished output streams assigned to an egress pipe (R146). -/
def streamsOn (s : State) (k : Nat) : Nat :=
  s.grp.lists.foldl (fun n l => n + (l.2.filter (streamOpen s k l.1)).length) 0

/-- Frames of a port stand in an ingress pipe's buffer. -/
def portHeld (p : Pipe) (port : Nat) : Bool := p.buf.any (fun f => f.arr.port.toNat = port)

/-- Ports a pipe serves, draining ones included. -/
def portsOf (p : Pipe) : Nat := p.bind ||| p.drain

/-- The state a pipe's ports give it. -/
def boundState (p : Pipe) : PipeSt := if p.drain ≠ 0 then .draining else if p.bind ≠ 0 then .bound else .idle

/-- Give an ingress pipe the ports of a mask: removed ports drain while their frames stand in the buffer, new ports make
their one grant (R142 to R144). -/
def setInBind (s : State) (k m : Nat) : State :=
  let p := s.pipe k
  let gone := (bitsOf 12 p.bind).filter (fun b => !m.testBit b)
  let dr := (gone.filter (portHeld p)).foldl setBit p.drain
  let p1 := { p with bind := m, drain := dr }
  let s1 := setPipeSt (s.setPipe k p1) k (boundState p1)
  (bitsOf 12 m).foldl (fun st b =>
    let c := tget {} st.lark.inCr b
    grantPort { st with lark.inCr := tset {} st.lark.inCr b { c with everBound := true } } b) s1

/-- Give an egress pipe the ports of a mask. -/
def setOutBind (s : State) (k m : Nat) : State :=
  let p1 := { s.pipe k with bind := m }
  setPipeSt (s.setPipe k p1) k (boundState p1)

/-- Bind a pipe of either direction. -/
def setBind (s : State) (k m : Nat) : State := if k < 8 then setInBind s k m else setOutBind s k m

/-- The state refusals of a write of `BIND` (R142 case 1, R146). A suspended pipe takes a port, but no frame or stream on it until it is back in
service (R271; log 131). -/
def bindStateRefused (s : State) (k m : Nat) : Bool :=
  !bindable (s.pipe k) || (bitsOf 12 m).any (fun b => (sameDir k).any (fun j => (s.pipe j).drain.testBit b))
    || (8 ≤ k && (bitsOf 12 (s.pipe k).bind).any (fun b => !m.testBit b) && 0 < streamsOn s k)

/-- The argument refusals of a write of `BIND` (R142 case 2). -/
def bindArgRefused (s : State) (k m : Nat) : Bool :=
  2 < popCount 12 m || (bitsOf 12 m).any (fun b => (sameDir k).any (fun j => j ≠ k && (s.pipe j).bind.testBit b))
    || (s.blk.profile = 2 && m / 256 ≠ 0)

/-- A write of `LARK_IN_CTRL` or `LARK_OUT_CTRL` (R142). -/
def bindWrite (s : State) (a : Access) (k : Nat) (v : Word) : State :=
  let m := fld v 11 0
  regWrite s a (regAt (larkPage k) 0x40) (refuseIf (bindStateRefused s k m) .wrongState) (refuseIf (bindArgRefused s k m) .badArg)
    (fun s1 => updateLive (setBind s1 k m))

/-- Take a port off the pipe that serves it in the meantime: an ingress pipe drains it (R144), an egress pipe keeps it until its streams are
finished (R146). -/
def giveUpPort (s : State) (k b : Nat) : State :=
  match (sameDir k).find? (fun j => j ≠ k && (s.pipe j).bind.testBit b) with
  | none => s
  | some j => if 8 ≤ j ∧ 0 < streamsOn s j then s else setBind s j (clrBit (s.pipe j).bind b)

/-- Bind back to a recovered pipe the ports it had, each as soon as the pipe that served it meanwhile has let it go (R271, R144, R146). -/
def bindBack (s : State) (k : Nat) : State :=
  (bitsOf 12 (tget 0 s.snd.moved k)).foldl (fun st b =>
    let st0 := giveUpPort st k b
    if (sameDir k).any (fun j => (portsOf (st0.pipe j)).testBit b) || 2 ≤ popCount 12 (st0.pipe k).bind then st0
    else
      let st1 := { st0 with snd.moved := tset 0 st0.snd.moved k (clrBit (tget 0 st0.snd.moved k) b) }
      setBind st1 k (setBit (st1.pipe k).bind b)) s

/-- Every recovered pipe takes back the ports that are free for it by now (R271). -/
def bindBackAll (s : State) : State :=
  (List.range 16).foldl (fun st j => if tget 0 st.snd.moved j ≠ 0 ∧ ((st.sndPipe j).cls = .healthy ∨ (st.sndPipe j).cls = .suspect) then bindBack st j else st) s

/-- A drain ends once the last frame of its port has left the buffer (R144); a pipe that waits for the port takes it back. -/
def drainEnd (s : State) (k port : Nat) : State :=
  let p := s.pipe k
  if p.drain.testBit port && !portHeld p port then
    let p1 := { p with drain := clrBit p.drain port }
    let s1 := if p.st = .draining then setPipeSt (s.setPipe k p1) k (boundState p1) else s.setPipe k p1
    updateLive (bindBackAll s1)
  else s

/-! ### Key cache flush (R153) -/

/-- Zero the matching entries of one cache, the held ones when their last frame leaves (R153). -/
def flushCache (c : KcEntry → Bool) (p : Pipe) : Pipe :=
  { p with kc := tmap {} (fun _ e => if e.valid && c e then (if e.holders = 0 then {} else { e with flush := true }) else e) p.kc }

/-- A write of `LARK_KC_FLUSH` (Table 5.22). -/
def kcFlushWrite (s : State) (a : Access) (k : Nat) (v : Word) : State :=
  regWrite s a (regAt (larkPage k) 0x78) none (mbz v (maskBits 63 10 + maskBits 7 6)) (fun s1 =>
    s1.setPipe k (flushCache (fun e => bitOf v 9 || (bitOf v 8 && e.use = 4)
      || (bitOf v 5 && e.use ≠ 4 && e.part = fld v 4 0)) (s1.pipe k)))

/-- `PAGE_STATUS.BUSY` of a pipe's page: an entry under flush is left (R153). -/
def kcBusy (p : Pipe) : Bool := p.kc.any (fun e => e.2.flush)

/-- Zero the matching entries of one cache at once: a frame that holds one holds it no more (R155, R158). -/
def zeroCache (c : KcEntry → Bool) (p : Pipe) : Pipe :=
  let hit (e : KcEntry) : Bool := e.valid && c e
  { p with kc := tmap {} (fun _ e => if hit e then {} else e) p.kc,
           buf := p.buf.map (fun f => { f with keys := f.keys.filter (fun i => !hit (tget {} p.kc i)) }) }

/-- Zero the matching entries of every pipe's cache at once (R155). -/
def zeroAllCaches (s : State) (c : KcEntry → Bool) : State :=
  { s with lark.pipes := tmap {} (fun _ p => zeroCache c p) s.lark.pipes }

/-- Flush matching entries of every pipe. -/
def flushAllCaches (s : State) (c : KcEntry → Bool) : State :=
  { s with lark.pipes := tmap {} (fun _ p => flushCache c p) s.lark.pipes }

/-! ### Leaving service (R145, R271, R276) -/

/-- A pipe may take a port over: live, in service, with room for it (R142, R276). -/
def takesPort (s : State) (j : Nat) : Bool :=
  bindable (s.pipe j) && popCount 12 (s.pipe j).bind < 2
    && ((s.sndPipe j).cls = .healthy || (s.sndPipe j).cls = .suspect)

/-- The live pipe of a direction that serves the fewest ports, lowest number on a tie (R276 step 4). -/
def fewestPorts (s : State) (k : Nat) : Option Nat :=
  ((sameDir k).filter (fun j => j ≠ k && takesPort s j)).foldl (fun (acc : Option Nat) j =>
    match acc with
    | none => some j
    | some b => if popCount 12 (portsOf (s.pipe j)) < popCount 12 (portsOf (s.pipe b)) then some j else acc) none

/-- Helm binds each port of a pipe to another, fabric ports before local ones, lowest first (R276 step 4). -/
def movePorts (s : State) (k ports : Nat) : State :=
  (bitsOf 12 ports).foldl (fun st b =>
    if (sameDir k).any (fun j => j ≠ k && (portsOf (st.pipe j)).testBit b) then st
    else match fewestPorts st k with
      | some j => setBind st j (setBit (st.pipe j).bind b)
      | none => st) s

/-- Take every port off a pipe at once (R145). -/
def dropPorts (s : State) (k : Nat) : State := s.setPipe k { s.pipe k with bind := 0, drain := 0 }

/-- A self-test round runs: some of its pipes still have units to run; a confirmation is no round (R271, R275). -/
def roundRuns (s : State) : Bool := s.snd.round.any (fun u => !u.confirm)

/-- A round with no pipe left is done (R283). -/
def roundOver (old s : State) : State := if roundRuns old && !roundRuns s then raise s 0x56 6 else s

/-- A pipe that is no longer live leaves the round, or its confirmation (R275). -/
def leaveRound (s : State) (k : Nat) : State := roundOver s { s with snd.round := s.snd.round.filter (fun u => u.pipe ≠ k) }

/-- Put a pipe in a class (Table 8.11). -/
def setClass (s : State) (k : Nat) (c : PipeClass) : State := s.setSndPipe k { s.sndPipe k with cls := c }

/-- A collective has a frame in a pipe, or a stream assigned to it (R276 step 3). -/
def usesPipe (s : State) (k p : Nat) (e : Entry) : Bool :=
  streamOpen s k p e
    || (s.pipe k).buf.any (fun f => let h := hdrOf f.arr.bytes; isCollective h.cls && h.part = p && h.group = e.group && h.ticket = e.ticket)
    || (s.pipe k).outs.any (fun f => isCollective f.cls && f.part = p && f.group = e.group && f.ticket = e.ticket)
    || s.snd.checks.any (fun c => c.pipe = k && c.part = p && c.group = e.group && c.ticket = e.ticket)

/-- Direction and number of a pipe in an abort's detail (Table 8.3). -/
def pipeDetail (k : Nat) : Nat := if k < 8 then k else 8 + (k - 8)

/-- Every collective that can be aborted or stopped: live, or admitted and past release; partitions ascending, keys ascending. -/
def openAll (s : State) : List (Nat × Entry) :=
  (s.grp.lists.map (fun l => (l.2.filter (fun e => isLive e || isAdmitted e)).map (fun e => (l.1, e)))).flatten

/-- Retirement (R276): the collectives end before the pipe's held frames are thrown away, so that each ingress frame one of them relays
leaves its buffer. -/
def retirePipe (s : State) (k : Nat) : State :=
  if (s.pipe k).st = .retired then s
  else
    let ports := portsOf (s.pipe k) ||| tget 0 s.snd.moved k
    let s1 := setClass (setPipeSt s k .retired) k .retired
    let s2 := leaveRound { s1 with snd.moved := tdel s1.snd.moved k } k
    let hit := (openAll s2).filter (fun x => usesPipe s2 k x.1 x.2)
    let s3 := (s2.pipe k).buf.foldl (fun st f => leaveBuffer st k f.id) s2
    let s4 := abortEach { st := .pipeRetired, detail := pipeDetail k } hit (dropPorts s3 k)
    let s5 := s4.setPipe k { s4.pipe k with outs := [], waitKey := none }
    let s6 := movePorts s5 k ports
    updateLive (raise (raise s6 0x56 2) (larkPage k) 3)

/-! ### The meanings -/

/-- `CS_DATA_WRITE` (R141). -/
def execCsDataWrite (a : Access) (pipe : BitVec 4) (v : Word) (s : State) : Host.Outcome State Fault Refusal :=
  .next (csDataWrite s a pipe.toNat v)

/-- `CS_COMMIT` (R141). -/
def execCsCommit (a : Access) (pipe : BitVec 4) (v : Word) (s : State) : Host.Outcome State Fault Refusal :=
  .next (csCommit s a pipe.toNat v)

/-- `BIND_WRITE` (R142). -/
def execBindWrite (a : Access) (pipe : BitVec 4) (v : Word) (s : State) : Host.Outcome State Fault Refusal :=
  .next (bindWrite s a pipe.toNat v)

/-- `DRAIN_END` (R144). -/
def execDrainEnd (pipe : BitVec 3) (port : BitVec 4) (s : State) : Host.Outcome State Fault Refusal :=
  .next (whenArith s (fun x => drainEnd x pipe.toNat port.toNat))

/-- `KC_FLUSH` (R153). -/
def execKcFlush (a : Access) (pipe : BitVec 4) (v : Word) (s : State) : Host.Outcome State Fault Refusal :=
  .next (kcFlushWrite s a pipe.toNat v)

end Sys2Proof.Machine
end

