-- ==== Sys2Proof/Machine/Context.lean ====
section
/-! DEFINITION. Context images of Phlox windows (chapter 8, R278 to R282): their layout, what a save presents, and what a
restore takes. -/

namespace Sys2Proof.Machine

/-- Tiles of chunk `c` of a window of `n` tiles (R279). -/
def chunkTiles (n c : Nat) : Nat := min 16 (n - 16 * c)

/-- Bytes of a chunk of `k` tiles with its tag (R279). -/
def chunkLen (k : Nat) : Nat := 64 + 1024 * k + 16

/-- First byte of chunk `c`. -/
def chunkPos (c : Nat) : Nat := 64 + c * chunkLen 16

/-- Chunks of a window of `n` tiles. -/
def chunksOf (n : Nat) : Nat := ceilDiv n 16

/-- Length of the image of a window of `n` tiles (R279). -/
def imageLen (n : Nat) : Nat := 64 + ((List.range (chunksOf n)).map (fun c => chunkLen (chunkTiles n c))).foldl (· + ·) 0

/-- The header of an image (Table 8.7). -/
def imageHeader (w : Win) (epoch : Nat) (salt : BitVec 128) : Bytes :=
  ascii "ORPV-CX1" ++ leBytes 1 w.part ++ leBytes 1 (if w.kind = .working then 1 else 2) ++ leBytes 2 w.group ++ leBytes 2 w.tiles
    ++ leBytes 1 w.shadowValid.toNat ++ zeros 1 ++ leBytes 4 w.ticket ++ leBytes 2 epoch ++ zeros 10 ++ leBytes 16 salt.toNat ++ zeros 16

/-- The 4 bytes of a tile record (Table 5.7). -/
def recBytes (r : TileRec) : Bytes := leBytes 1 r.scale ++ leBytes 1 (128 * r.fresh.toNat + r.flags) ++ leBytes 1 r.hop ++ zeros 1

/-- A tile record from its 4 bytes. -/
def recOf (b : Bytes) : TileRec :=
  { scale := leAt b 0 1, fresh := (leAt b 1 1).testBit 7, flags := leAt b 1 1 % 16, hop := leAt b 2 1 }

/-- The save key (Table 12.4). -/
def saveKey (k : Key) (salt : BitVec 128) (part group : Nat) : Key :=
  kdf k "ORPV-SV1" (leBytes 16 salt.toNat ++ beBytes 1 part ++ beBytes 2 group)

/-- The lanes of tile `t` as the pipe of a context command hands them on. -/
def ctxLanes (x : CtxCmd) (t : Nat) (ls : List Int) : List Int :=
  match x.fault with
  | some (u, f) => if u = t then override ls f.lanes else ls
  | none => ls

/-- The failing checks of tile `t` under a context command (point 0x8). -/
def ctxFails (x : CtxCmd) (t : Nat) (ls : List Int) : List CheckFail :=
  match x.fault with
  | some (u, f) => if u = t then judgeAll [{ point := 8, found := [(.out, override ls f.lanes)], expected := [(.lanes, ls)] }] f.rows f.cols else []
  | none => []

/-- The plaintext of chunk `c` of the window of a save (R279). -/
def chunkPlain (s : State) (x : CtxCmd) (c : Nat) : Bytes :=
  let k := chunkTiles (s.win x.win).tiles c
  let ts := (List.range k).map (16 * c + ·)
  padTo 64 ((ts.map (fun t => recBytes (tileRec s x.win t))).flatten)
    ++ (ts.map (fun t => ((ctxLanes x t (readLanes s x.win t)).map (fun v => leBytes 4 (uNat 32 v))).flatten)).flatten

/-- Chartroom derives the save key of an image and pushes it to the pipe of the command, where the context key of that epoch may go there (R19,
R278, R280, R363): the key, or why there is none. DEDUCED (log 145): the pipe's cache holds it under use 0b011, with the group as selector. -/
def saveKeyPush (s : State) (pipe part group epoch : Nat) (salt : BitVec 128) : State × Except Status Key :=
  match activeSlot s 7 part 0 epoch with
  | none => (s, .error .tagFail)
  | some i =>
    let s1 := noteBad s i
    match slotKey s1 i with
    | none => (s1, .error .tagFail)
    | some ck =>
      if !(atMask (s1.slot i).attr).testBit pipe then (s1, .error .destDenied)
      else
        let key := saveKey ck salt part group
        let s2 := (kcPush s1 pipe { pipe := pipe, use := 3, part := part, sel := group, epoch := epoch } key).1
        ({ s2 with chrt.derives := bump s2.chrt.derives 1, chrt.pushes := bump s2.chrt.pushes 1 }, .ok key)

/-- Chunk `c` as it stands in the image: ciphertext and tag (R280). -/
def chunkSealed (s : State) (x : CtxCmd) (hdr : Bytes) (c : Nat) : Bytes :=
  let iv : BitVec 96 := BitVec.ofNat 96 c
  let ct := xorStream x.key iv (chunkPlain s x c)
  ct ++ beBytes 16 (Config.gcmTag x.key iv hdr ct).toNat

/-- The image a save presents, under the one save key it derived when it started (R1, R279, R280). -/
def imageBytes (s : State) (x : CtxCmd) : Bytes :=
  let w := s.win x.win
  let hdr := imageHeader w x.epoch x.salt
  hdr ++ ((List.range (chunksOf w.tiles)).map (chunkSealed s x hdr)).flatten

def ctxCmdAddr : Nat := regAt 0x56 0xC8

/-- End the running context command with a status code (Table 8.16, R59, R283). -/
def ctxEndCode (s : State) (x : CtxCmd) (code : Nat) : State :=
  let s1 := raise { s with snd.ctx := none, snd.ctxResult := pack [(63, 48, code), (47, 36, x.chunks)] } 0x56 5
  if code = 0 then s1 else pageErrorCode s1 x.acc true ctxCmdAddr code

/-- End the running context command. -/
def ctxEnd (s : State) (x : CtxCmd) (st : Status) : State := ctxEndCode s x (stCode st)

/-- Chunks whose last byte lies below position `p` of an image of `n` tiles. -/
def chunksBelow (n p : Nat) : Nat :=
  ((List.range (chunksOf n)).filter (fun c => chunkPos c + chunkLen (chunkTiles n c) ≤ p)).length

/-- Latch the failing checks of a tile under a context command (R261, R266). -/
def ctxLatch (s : State) (x : CtxCmd) (t : Nat) (fs : List CheckFail) : State :=
  let w := s.win x.win
  latchFails s x.pipe w.part w.group w.ticket t fs

/-- The failing check of the chunks from `lo` up to `hi` of a save: the tile and what it found. -/
def saveFails (s : State) (x : CtxCmd) (lo hi : Nat) : Option (Nat × List CheckFail) :=
  match x.fault with
  | none => none
  | some (t, _) =>
    let fs := ctxFails x t (readLanes s x.win t)
    if 16 * lo ≤ t ∧ t < 16 * hi ∧ t < (s.win x.win).tiles ∧ !fs.isEmpty then some (t, fs) else none

/-- A save's image has been read up to byte `p`: its command ends with the last byte (R342), or with a failing check (point 0x8). -/
def savePassed (s : State) (x : CtxCmd) (p : Nat) : State :=
  let n := (s.win x.win).tiles
  let y := { x with passed := max x.passed p, chunks := chunksBelow n (max x.passed p) }
  match saveFails s x x.chunks y.chunks with
  | some (t, fs) => ctxEnd (ctxLatch s x t fs) { y with chunks := t / 16 } .arithMismatch
  | none => if imageLen n ≤ y.passed then ctxEnd s y .ok else { s with snd.ctx := some y }

/-- The header of a restore fits the window (R281). -/
def headerFits (w : Win) (h : Bytes) : Bool :=
  h.take 8 = ascii "ORPV-CX1" && leAt h 8 1 = w.part && leAt h 9 1 = (if w.kind = .working then 1 else 2) && leAt h 12 2 = w.tiles
    && w.st = .idle && leAt h 14 1 ≤ 1 && leAt h 15 1 = 0 && leAt h 10 2 < 4096 && (slice h 22 10).all (· = 0) && (slice h 48 16).all (· = 0)

/-- A failed restore leaves no partial window (R281). -/
def restoreWipe (s : State) (wi : Nat) : State :=
  let w := s.win wi
  let s1 := (List.range w.tiles).foldl (fun st t => setLanes st wi t zeroLanes) s
  (mapRecs s1 wi (fun _ => { scale := 0x81, fresh := true, flags := 0, hop := 0 })).setWin wi { w with shadowValid := false }

/-- A restore fails once its header has passed (R281). -/
def restoreFail (s : State) (x : CtxCmd) (st : Status) : State := ctxEnd (if x.headed then restoreWipe s x.win else s) x st

/-- The lanes of the `i`-th tile of a chunk's plaintext (R279). -/
def plainLanes (plain : Bytes) (i : Nat) : List Int :=
  (List.range 256).map (fun e => sInt 32 (leAt plain (64 + 1024 * i + 4 * e) 4))

/-- Write the plaintext of chunk `c` into the window (R281). -/
def chunkWrite (s : State) (x : CtxCmd) (plain : Bytes) : State :=
  (List.range (chunkTiles (s.win x.win).tiles x.chunks)).foldl (fun st i =>
    let t := 16 * x.chunks + i
    setTileRec (setLanes st x.win t (ctxLanes x t (plainLanes plain i))) x.win t (recOf (slice plain (4 * i) 4))) s

/-- The failing check of a chunk of a restore, before any of its lanes is written (R281). -/
def chunkFails (s : State) (x : CtxCmd) (plain : Bytes) : Option (Nat × List CheckFail) :=
  (List.range (chunkTiles (s.win x.win).tiles x.chunks)).findSome? (fun i =>
    let t := 16 * x.chunks + i
    let fs := ctxFails x t (plainLanes plain i)
    if fs.isEmpty then none else some (t, fs))

/-- Take the complete pieces of a restore's buffer: the header, then chunk after chunk (R281). -/
def restoreTake : Nat → State → State
  | 0, s => s
  | f + 1, s =>
    match s.snd.ctx with
    | none => s
    | some x =>
      let w := s.win x.win
      if !x.headed then
        if x.buf.length < 64 then s
        else
          let h := x.buf.take 64
          if !headerFits w h then ctxEnd s x .badArg
          else
            let s0 := if w.kind = .shadow then s.setWin x.win { w with shadowValid := leAt h 14 1 = 1 } else s
            let salt := BitVec.ofNat 128 (leAt h 32 16)
            let y := { x with headed := true, epoch := leAt h 20 2, salt := salt, hdr := h, buf := x.buf.drop 64 }
            match saveKeyPush s0 x.pipe w.part (leAt h 10 2) (leAt h 20 2) salt with
            | (s1, .error st) => restoreFail s1 y st
            | (s1, .ok key) => restoreTake f { s1 with snd.ctx := some { y with key := key } }
      else
        let k := chunkTiles w.tiles x.chunks
        if x.buf.length < chunkLen k then s
        else
            let iv : BitVec 96 := BitVec.ofNat 96 x.chunks
            let ct := x.buf.take (chunkLen k - 16)
            if slice x.buf (chunkLen k - 16) 16 ≠ beBytes 16 (Config.gcmTag x.key iv x.hdr ct).toNat then restoreFail s x .tagFail
            else
              let plain := xorStream x.key iv ct
              match chunkFails s x plain with
              | some (t, fs) => restoreFail (ctxLatch s x t fs) x .arithMismatch
              | none =>
              let s1 := chunkWrite s x plain
              let y := { x with chunks := x.chunks + 1, buf := x.buf.drop (chunkLen k) }
              if chunksOf w.tiles ≤ y.chunks then ctxEnd s1 y .ok else restoreTake f { s1 with snd.ctx := some y }

/-- Image bytes reach a restore, in the order of their passing. -/
def restoreFeed (s : State) (x : CtxCmd) (b : Bytes) : State :=
  restoreTake (b.length + 2) { s with snd.ctx := some { x with passed := x.passed + b.length, buf := x.buf ++ b } }

/-- Feed a restore what has been written ahead, as far as it joins the bytes that have passed. -/
def restoreAhead : Nat → State → State
  | 0, s => s
  | n + 1, s => match s.snd.ctx with
    | none => s
    | some x => match x.ahead.find? (fun a => decide (a.1 ≤ x.passed)) with
      | none => s
      | some a =>
        let y := { x with ahead := x.ahead.erase a }
        restoreAhead n (restoreFeed { s with snd.ctx := some y } y (a.2.drop (x.passed - a.1)))

/-- Image bytes reach a restore at their offset in the image (11 Table 11.5). DESIGN CHOICE (log 144): bytes ahead of those that have passed
are kept until what lies before them has come, and bytes that have passed are not taken again. -/
def restoreAt (s : State) (x : CtxCmd) (off : Nat) (b : Bytes) : State :=
  let y := { x with ahead := x.ahead ++ [(off, b)] }
  restoreAhead (y.ahead.length + 1) { s with snd.ctx := some y }

/-- The statuses with which R281 lets a restore fail. -/
def shortStatuses : List Status := [.tagFail, .arithMismatch, .bounds, .busError, .eccUncorrectable]

/-- The channel of a context command goes `IDLE` or `HALTED` before the image has passed (R281, R282, R342): the status the
channel ended with; where the channel ended well, one of the failures of R281, which of them is free (log 37). -/
def ctxCut (s : State) (ch : Nat) (st : Status) : State :=
  match s.snd.ctx with
  | none => s
  | some x =>
    if x.ch ≠ ch then s
    else
      let s1 := if !x.save && x.headed then restoreWipe s x.win else s
      if st = .ok then
        let d := freeDraw s1
        ctxEnd d.2 x (shortStatuses.getD (d.1 % 5) .tagFail)
      else ctxEndCode s1 x (stCode st)

end Sys2Proof.Machine
end

