-- ==== Sys2Proof/Machine/Ecc.lean ====
section
/-! DEFINITION. Memory errors of Phlox (chapter 5, R176 and R177): corrections are counted, and an uncorrectable codeword
ends what read it. -/

namespace Sys2Proof.Machine

/-- Count corrected codewords (R176, R183). -/
def eccCorrected (s : State) (n : Nat) : State :=
  if n = 0 then s else raise { s with phlx.eccCorr := bump s.phlx.eccCorr n } 0x50 0

/-- Latch an uncorrectable codeword (R177, R183, Table 5.26); in a shadow window it clears `SHADOW_VALID`. -/
def eccLatch (s : State) (h : EccHit) : State :=
  let a := if bitOf s.phlx.eccAddr 63 then s.phlx.eccAddr ||| bitWord 62
    else pack [(63, 63, 1), (62, 62, (bitOf s.phlx.eccAddr 62).toNat), (61, 49, h.win.toNat), (48, 31, h.line.toNat), (30, 27, h.codeword.toNat)]
  let s1 := raise { s with phlx.eccUncorr := bump s.phlx.eccUncorr 1, phlx.eccAddr := a } 0x50 1
  let w := s1.win h.win.toNat
  if w.kind = .shadow then s1.setWin h.win.toNat { w with shadowValid := false } else s1

/-- A live collective of a group ends with `ST_ECC_UNCORRECTABLE` (R177). -/
def eccAbort (s : State) (p g t : Nat) : State :=
  match findEntry s p g t with
  | some e => abortEntry s p e { st := .eccUncorrectable }
  | none => s

/-- What the add of a frame's tiles met: codewords were read only where tiles were added, which new Sounding checks show. -/
def eccAdded (s s1 : State) (e : EccIn) : State :=
  let new := s1.snd.checks.filter (fun c => !s.snd.checks.contains c)
  if new.isEmpty then s1
  else
    let s2 := eccCorrected s1 e.corrected
    match e.bad with
    | none => s2
    | some h =>
      match new.find? (fun c => openWin s2 c.part c.group c.ticket = some h.win.toNat) with
      | some c => eccAbort (eccLatch s2 h) c.part c.group c.ticket
      | none => s2

/-- What an egress pipe's reads for a frame met: an uncorrectable codeword of a window of its group ends its collective (R176, R177). -/
def eccRead (s : State) (f : OutFrame) (e : EccIn) : State :=
  let s1 := eccCorrected s e.corrected
  match e.bad with
  | none => s1
  | some h =>
    let w := s1.win h.win.toNat
    if w.kind ≠ .free && w.part = f.part && w.group = f.group then eccAbort (eccLatch s1 h) f.part f.group f.ticket else s1

/-- What the reads of a built frame met: they took place where the pipe now holds one frame more, which names its collective. -/
def eccBuilt (s s1 : State) (k : Nat) (e : EccIn) : State :=
  if (s1.pipe k).outs.length ≤ (s.pipe k).outs.length then s1
  else match (s1.pipe k).outs.getLast? with
    | none => s1
    | some f => eccRead s1 f e

/-- What the reads of a replay in egress met (R268): it recomputes the pipe's failed frame, and reads Phlox unless that frame relays. -/
def eccReplayed (s s1 : State) (k : Nat) (e : EccIn) : State :=
  match (s.pipe k).outs.find? (fun f => f.failed) with
  | none => s1
  | some f => if arithRuns s && isCollective f.cls && f.relays.isNone then eccRead s1 f e else s1

/-- What a context command that has started met: an uncorrectable codeword of its window ends it; a restore then leaves no partial window (R177, R281). -/
def eccContext (s s1 : State) (e : EccIn) : State :=
  match (if s.snd.ctx.isSome then none else s1.snd.ctx) with
  | none => s1
  | some x =>
    let s2 := eccCorrected s1 e.corrected
    match e.bad with
    | none => s2
    | some h =>
      if h.win.toNat = x.win then
        let s3 := eccLatch s2 h
        ctxEnd (if x.save then s3 else restoreWipe s3 x.win) x .eccUncorrectable
      else s2

end Sys2Proof.Machine
end

