-- ==== Sys2Proof/Machine/Sounding.lean ====
section
/-! DEFINITION. Sounding (chapter 8): the outcome of each tile check, replay and its reserve, classification, self-tests
and control store parity errors. What a pipe did wrong with a tile is an operand of the command that ends its check; Sounding's sums and
conditions decide from it (log 8). -/

namespace Sys2Proof.Machine

/-! ### Classification (R270, R271) -/

/-- Helm takes a suspended pipe out of service and tests it at once (R271). -/
def suspendPipe (s : State) (k : Nat) : State :=
  let ports := portsOf (s.pipe k)
  let s1 := setClass s k .suspended
  let s2 := { s1 with snd.moved := tset 0 s1.snd.moved k (ports ||| tget 0 s1.snd.moved k),
                      snd.round := { pipe := k, left := 64, confirm := true } :: s1.snd.round.filter (fun u => u.pipe ≠ k) }
  let s3 := dropPorts s2 k
  let s4 := if (s3.pipe k).st = .bound || (s3.pipe k).st = .draining then setPipeSt s3 k .idle else s3
  updateLive (movePorts s4 k ports)

/-- A replay has passed: an unattributed outcome, or a transient that moves the pipe and may retire it (Table 8.2). -/
def replayPassed (s : State) (k : Nat) (internal : Bool) : State :=
  if internal then raise (sndCount s 0x70 1) 0x56 4
  else
    let p := s.sndPipe k
    let p1 := { p with strikes := satInc 0xFF p.strikes, life := satInc 0xFFFF p.life }
    let s1 := raise (sndCount (s.setSndPipe k p1) 0x68 1) 0x56 1
    if s.snd.limit ≤ p1.life then retirePipe s1 k
    else if p.cls = .healthy then setClass s1 k .suspect
    else if p.cls = .suspect then suspendPipe s1 k
    else s1

/-- A pipe becomes `SUSPECT` unless it is further out of service. -/
def suspectPipe (s : State) (k : Nat) : State := if (s.sndPipe k).cls = .healthy then setClass s k .suspect else s

/-- Table 8.3: the detail of an `ST_ARITH_MISMATCH` abort. -/
def mismatchDetail (k tile reason : Nat) : Nat := tile * 2 ^ 16 + reason * 16 + pipeDetail k

/-- The collective of a tile no replay can correct is aborted (R269). -/
def abortTile (s : State) (k part group ticket tile reason : Nat) : State :=
  match findEntry s part group ticket with
  | some e => abortEntry s part e { st := .arithMismatch, detail := mismatchDetail k tile reason }
  | none => s

/-- The pipe that replays: the lowest-numbered other `BOUND` pipe of the direction, else the failing pipe itself (R267). -/
def replayPipe (s : State) (k : Nat) : Nat := ((sameDir k).find? (fun j => j ≠ k && (s.pipe j).st = .bound)).getD k

/-- An unattributed outcome that aborts (Table 8.2, last replay row and "could not be kept"). -/
def unattributed (s : State) (k part group ticket tile q reason : Nat) (both : Bool) : State :=
  let s1 := raise (sndCount s 0x70 1) 0x56 4
  let s2 := suspectPipe (if both then suspectPipe s1 q else s1) k
  abortTile (latchOutcome s2 k part group ticket tile q 3) k part group ticket tile reason

/-! ### Input checks -/

/-- A frame of an ingress buffer leaves once none of its checks is open and no relay of it waits (R264, R550). -/
def leaveIfDone (s : State) (k id : Nat) : State :=
  match (s.pipe k).buf.find? (fun f => f.id = id) with
  | some f => if f.st = .checking 0 false then leaveBuffer s k id else s
  | none => s

/-- One of a tile's input checks is over: its frame leaves the buffer with its last one (R264). -/
def checkOver (s : State) (c : Check) : State :=
  leaveIfDone (modHeld s c.pipe c.frame (fun x => match x.st with | .checking n r => { x with st := .checking (n - 1) r } | _ => x)) c.pipe c.frame

/-- The relayed frame of an ingress frame has passed its output checks (R550). -/
def relayOver (s : State) (k id : Nat) : State :=
  leaveIfDone (modHeld s k id (fun x => match x.st with | .checking n _ => { x with st := .checking n false } | _ => x)) k id

/-- Take one waiting check of a tile out of an entry's flow. -/
def dropUnchecked (s : State) (c : Check) : State :=
  modFlow s c.part c.group c.ticket (fun fl => { fl with unchecked := fl.unchecked.erase c.tile })

/-- The reserve entry of a check's frame: of its replay, or of the frame where an earlier failed tile has moved it (R267). -/
def reserveOf (s : State) (c : Check) : Option Reserve :=
  s.park.reserve.find? (fun r => match c.replay with | some no => decide (r.no = no) | none => r.pipe = c.pipe && r.src = c.frame)

/-- Change a reserve entry. -/
def modReserve (s : State) (no : Nat) (g : Reserve → Reserve) : State :=
  { s with park.reserve := s.park.reserve.map (fun r => if r.no = no then g r else r) }

/-- A tile of a frame in the reserve has passed: the frame leaves the reserve with its last one (R267 step 5). -/
def tileKept (s : State) (r : Reserve) (tile : Nat) : State :=
  if (r.tiles.filter (fun t => t.tile ≠ tile)).isEmpty then dropReserve s r.no
  else modReserve s r.no (fun x => { x with tiles := x.tiles.filter (fun t => t.tile ≠ tile) })

/-- A lane after a pipe wrote `w'` where the exact add gives `w`: the difference stands in it, whatever was added since. DESIGN CHOICE
(log 132): in a maximum or minimum, which has no difference, `w'` takes part as an addend. -/
def faultLane (j : TileJob) (cur w w' : Int) : Int :=
  if w = w' then cur
  else if j.write ∨ cur = w then w'
  else if 2 ≤ j.op then (combineLane j.op cur w').1
  else (addLane cur (w' - w)).1

/-- Write what a faulty pipe left in the lanes of a tile (R267). -/
def faultWrite (s : State) (c : Check) (w' : List Int) : State :=
  let w := (c.job.lanes c.job.a).map (·.1)
  if w = w' then s
  else match openWin s c.part c.group c.ticket with
    | none => s
    | some wi => setLanes s wi c.tile (((readLanes s wi c.tile).zip (w.zip w')).map (fun x => faultLane c.job x.1 x.2.1 x.2.2))

/-- A failed tile as the reserve keeps it, with the deposit of its pipe (R267 step 3). -/
def failTile (c : Check) (internal : Bool) (w' : List Int) : FailTile :=
  { tile := c.tile, internal := internal, dep := if c.job.write then [] else w'.zipWith (· - ·) c.job.base }

/-- A tile joins a frame that stands in the reserve; one whose replay was cut short waits for another, from the pipe that cut it (R267, R272). -/
def joinReserve (s : State) (r : Reserve) (c : Check) (t : FailTile) : State :=
  modReserve s r.no (fun x => { x with tiles := x.tiles.filter (fun y => y.tile ≠ t.tile) ++ [t], pipe := c.pipe, src := c.frame, taken := false })

/-- The frame of a failed tile moves to the replay reserve with its first failed tile, and keeps its units until its last has passed; or the
reserve has no room, and the collective ends (R224, R267, R269). DESIGN CHOICE (log 134): the lanes read and written stand with the open check
itself, so no 33rd tile pushes one out of the undo buffer of 32: the pipe is taken to wait for a check to end. DESIGN CHOICE (log 169): a
received `RESULT` frame moves at once, whether or not its relay has passed its checks (R267 step 1); R550 would keep it in the buffer till then. -/
def keepForReplay (s : State) (c : Check) (internal : Bool) (w' : List Int) : State :=
  let u := unitsOf (hdrOf c.arr.bytes).payLen
  let t := failTile c internal w'
  let fail (x : State) : State :=
    if c.replay.isSome then x else modFlow x c.part c.group c.ticket (fun fl => { fl with failed := fl.failed ++ [c.tile] })
  match reserveOf s c with
  | some r => leaveBuffer (fail (joinReserve s r c t)) c.pipe c.frame
  | none =>
    if 256 < reserveUsed s + u then unattributed (checkOver s c) c.pipe c.part c.group c.ticket c.tile c.pipe 4 false
    else
      let r : Reserve := { units := u, pipe := c.pipe, part := c.part, group := c.group, ticket := c.ticket, no := s.lark.nextId, src := c.frame,
                           arr := c.arr, seen := s.mrd.wall, tiles := [t] }
      let s1 := { s with park.reserve := s.park.reserve ++ [r], lark.nextId := s.lark.nextId + 1 }
      parkLow s (leaveBuffer (fail s1) c.pipe c.frame)

/-- An input tile has passed its check (R178, R264). -/
def inputPassed (s : State) (c : Check) : State :=
  swapIfWritten (progress (checkOver s c) c.part c.group c.ticket) c.part c.group c.ticket

/-- An input tile has failed its check: a record check or a lane at the bound ends the collective, any other failure is replayed (R266,
R267, R269). -/
def inputFailed (s : State) (c : Check) (x : TileWork) : State :=
  let s1 := latchFails s c.pipe c.part c.group c.ticket c.tile x.fails
  if x.fails.any (fun f => f.point = 4) then unattributed (checkOver s1 c) c.pipe c.part c.group c.ticket c.tile c.pipe 2 false
  else if atBound x.w then unattributed (checkOver s1 c) c.pipe c.part c.group c.ticket c.tile c.pipe 3 false
  else progress (keepForReplay s1 c (x.fails.any (·.internal)) x.w) c.part c.group c.ticket

/-- The check of a replayed tile ends (R267 steps 4 and 5, R269, Table 8.2): it passes, or the collective ends. -/
def replayChecked (s : State) (c : Check) (r : Reserve) (x : TileWork) : State :=
  let internal := r.tiles.any (fun t => t.tile = c.tile && t.internal)
  let s1 := tileKept s r c.tile
  if atBound c.job.o then unattributed (checkOver s1 c) r.pipe r.part r.group r.ticket c.tile c.pipe 3 (!x.fails.isEmpty)
  else if !x.fails.isEmpty then unattributed (checkOver s1 c) r.pipe r.part r.group r.ticket c.tile c.pipe 1 true
  else
    let s2 := modFlow s1 r.part r.group r.ticket (fun fl => { fl with failed := fl.failed.erase c.tile })
    let s3 := latchOutcome s2 r.pipe r.part r.group r.ticket c.tile c.pipe (if internal then 2 else 1)
    replayPassed (inputPassed s3 c) r.pipe internal

/-- The oldest input check of an ingress pipe finishes (R264, R266). -/
def inputCheckDone (s : State) (k : Nat) (fault : Option TileFault) : State :=
  match s.snd.checks.find? (fun c => c.pipe = k) with
  | none => s
  | some c =>
    let s1 := sndCount { s with snd.checks := s.snd.checks.erase c } 0x50 1
    let x : TileWork := match fault with
      | none => { a := c.job.a, w := (c.job.lanes c.job.a).map (·.1), fails := [] }
      | some f => c.job.run f
    let s2 := faultWrite s1 c x.w
    match c.replay.bind (fun no => s.park.reserve.find? (fun r => r.no = no)) with
    | some r => replayChecked (latchFails s2 c.pipe c.part c.group c.ticket c.tile x.fails) c r x
    | none =>
      let s3 := if c.replay.isSome then s2 else dropUnchecked s2 c
      if x.fails.isEmpty then inputPassed s3 c else inputFailed s3 c x

/-- A frame of the reserve waits for its replay: no pipe has taken it, and no input check of its other tiles is open, so that one slot takes all
its failed tiles again (R267; DEDUCED, log 178). -/
def replayReady (s : State) (r : Reserve) : Bool :=
  !r.taken && !(s.snd.checks.any (fun c => c.pipe = r.pipe && c.frame = r.src))

/-- The oldest frame of an ingress pipe that waits in the reserve runs again, ahead of every frame that the replaying pipe has not started
(R267). -/
def ingressReplay (s : State) (k : Nat) : State :=
  match s.park.reserve.find? (fun r => r.pipe = k && replayReady s r) with
  | none => s
  | some r =>
    let q := replayPipe s k
    let id := s.lark.nextId
    let f : HeldFrame := { id := id, arr := r.arr, st := .queued, again := true, seen := r.seen, replay := some r.no }
    let s1 := { s.setPipe q { s.pipe q with buf := f :: (s.pipe q).buf } with
      lark.nextId := id + 1, park.reserve := s.park.reserve.map (fun x => if x.no = r.no then { x with taken := true } else x) }
    replayFrame s1 q f r.no

/-! ### Output checks -/

/-- Change the first frame an egress pipe holds that satisfies a condition. -/
def modOut (s : State) (k : Nat) (f : OutFrame) (g : OutFrame) : State :=
  let p := s.pipe k
  s.setPipe k { p with outs := p.outs.map (fun x => if decide (x = f) then g else x) }

/-- Write the output tiles of a checked release frame into the working window (R173, R265). -/
def releaseWrites (s : State) (f : OutFrame) : State :=
  match openWin s f.part f.group f.ticket with
  | none => s
  | some wi =>
    let s1 := f.writes.foldl (fun st w =>
      setTileRec (setLanes st wi w.1 w.2.2.2) wi w.1 { tileRec st wi w.1 with scale := w.2.1, fresh := false, flags := w.2.2.1 }) s
    s1.setWin wi { s1.win wi with st := .releasing }

/-- The release point swaps once its last output tile has passed check 0x7: every tile is built, and no frame of the release waits for a
check or a replay (R202, R207, R265). -/
def swapIfReleased (s : State) (p g t : Nat) : State :=
  match findEntry s p g t, openWin s p g t with
  | some e, some wi =>
    match entryDesc s p e with
    | none => s
    | some (d, _) =>
      let open_ := s.lark.pipes.any (fun k => k.2.outs.any (fun f => isCollective f.cls && f.release && f.part = p && f.group = g && f.ticket = t
        && (decide (0 < f.waits) || f.failed)))
      if e.st = .active && dTiles d ≤ e.flow.dataNext && !open_ then doSwap s p e wi else s
  | _, _ => s

/-- A held frame has passed its checks: a relayed frame lets the received one leave the ingress buffer; a release writes its tiles, whose
writes are checked in turn, and then may swap (R202, R265, R550). -/
def frameChecked (s : State) (k : Nat) (f : OutFrame) : State :=
  let s1 := match f.relays with | some (j, id) => relayOver s j id | none => s
  if !f.release then s1
  else if f.stored then swapIfReleased s1 f.part f.group f.ticket
  else modOut (releaseWrites s1 f) k f { f with stored := true, waits := f.count }

/-- A recomputed frame has passed its checks (R268, Table 8.2). -/
def redoPassed (s : State) (k : Nat) (f : OutFrame) : State :=
  match f.redone with
  | none => s
  | some q => replayPassed (latchOutcome s k f.part f.group f.ticket f.bad q (if f.internal then 2 else 1)) k f.internal

/-- One output tile of a held frame passes. -/
def outTilePassed (s : State) (k : Nat) (f : OutFrame) : State :=
  if 1 < f.waits then modOut s k f { f with waits := f.waits - 1 }
  else
    let g := { f with waits := 0, redone := none, internal := false }
    redoPassed (frameChecked (modOut s k f g) k g) k f

/-- The tile of a held frame whose check is next. -/
def outTile (f : OutFrame) : Nat := f.first + (f.count - f.waits)

/-- The failing checks of the output tile whose check is next: its elements, or once it has been written its lanes (R261). -/
def outFails (f : OutFrame) (x : TileFault) : List CheckFail :=
  match f.taps[f.count - f.waits]? with
  | none => []
  | some c => if f.stored then writeFails c.elems x else c.fails x

/-- What a faulty pipe left in the lanes of a released tile (point 0x7). -/
def faultStore (s : State) (f : OutFrame) (x : TileFault) : State :=
  match (if f.stored then f.taps[f.count - f.waits]? else none), openWin s f.part f.group f.ticket with
  | some c, some wi => if x.lanes.isEmpty then s else setLanes s wi (outTile f) (override c.elems x.lanes)
  | _, _ => s

/-- The output check of the oldest waiting tile of an egress pipe finishes (R266, R268): a tile that fails again after the frame was
recomputed ends its collective. -/
def outputCheckDone (s : State) (k : Nat) (fault : Option TileFault) : State :=
  match (s.pipe k).outs.find? (fun f => 0 < f.waits && !f.failed) with
  | none => s
  | some f =>
    let s1 := sndCount s 0x58 1
    match fault with
    | none => outTilePassed s1 k f
    | some x =>
      let fs := outFails f x
      let s2 := faultStore s1 f x
      if fs.isEmpty then outTilePassed s2 k f
      else
        let s3 := latchFails s2 k f.part f.group f.ticket (outTile f) fs
        match f.redone with
        | some q => unattributed s3 k f.part f.group f.ticket f.bad q 1 true
        | none => modOut s3 k f { f with failed := true, internal := fs.any (·.internal), bad := outTile f }

/-- The lanes of an output tile that was read or written stand at the bound (R269): those of the window, where a release has written *w*; or the
shadow's, of which a resynchronisation's tap holds what it read (06 R221). -/
def outAtBound (s : State) (f : OutFrame) : Bool :=
  if !f.relays.isNone || !isCollective f.cls then false
  else if f.cls = 3 ∧ !f.release then ((f.taps[f.bad - f.first]?).map (fun c => atBound c.exact)).getD false
  else match openWin s f.part f.group f.ticket with
  | some wi => atBound (readLanes s wi f.bad)
  | none => false

/-- The failed frame of an egress pipe is recomputed by the replaying pipe, from the same lanes, noise and header, and its tiles are checked
again; tiles already written are written anew (R268, R269). -/
def egressReplay (s : State) (k : Nat) : State :=
  match (s.pipe k).outs.find? (fun f => f.failed) with
  | none => s
  | some f =>
    let q := replayPipe s k
    if outAtBound s f then unattributed s k f.part f.group f.ticket f.bad q 3 false
    else modOut (if f.stored then releaseWrites s f else s) k f { f with failed := false, waits := f.count, redone := some q }

/-- `SOUNDING_CHECK_DONE`: a check of a pipe finishes. -/
def soundingCheckDone (s : State) (k : Nat) (fault : Option TileFault) : State :=
  if k < 8 then inputCheckDone s k fault else outputCheckDone s k fault

/-! ### Self-tests (R273 to R275) -/

/-- A pipe takes part in self-tests: in service and neither suspended nor retired. -/
def liveForTest (s : State) (k : Nat) : Bool :=
  bindable (s.pipe k) && ((s.sndPipe k).cls = .healthy || (s.sndPipe k).cls = .suspect)

/-- The order of a round: `SUSPECT` pipes first, then the other live ones from ingress 0 to egress 7 (R275). -/
def roundOrder (s : State) (mask : Nat) : List Nat :=
  let l := (List.range 16).filter (fun k => mask.testBit k && liveForTest s k)
  l.filter (fun k => (s.sndPipe k).cls = .suspect) ++ l.filter (fun k => (s.sndPipe k).cls ≠ .suspect)


/-- Start a round over a mask of pipes, after what an earlier round left; a round with nothing to test is done (R275). -/
def startRound (s : State) (mask : Nat) : State :=
  let l := (roundOrder s mask).filter (fun k => !(s.snd.round.any (fun u => u.pipe = k)))
  let s1 := { s with snd.round := s.snd.round ++ l.map (fun k => { pipe := k, left := s.snd.stTiles, confirm := false }) }
  if roundRuns s1 then s1 else raise s1 0x56 6

/-- A self-test event of the schedule (R275); nothing while `ST_EN` is 0, `PD17` is off, or DRBG instance 1
cannot serve (12 R383). A round that still runs is carried over. -/
def selfTestEvent (s : State) : State :=
  if s.snd.stEn && domLive s 17 && drbgServes s 1 then startRound (if roundRuns s then sndCount s 0x88 1 else s) 0xFFFF else s

/-- A write of `SND_ST_CMD` (Table 8.15). -/
def sndStCmd (s : State) (a : Access) (v : Word) : State :=
  regWrite s a (regAt 0x56 0xC0) (refuseIf (roundRuns s || !drbgServes s 1) .wrongState) (mbz v (maskBits 63 16))
    (fun s1 => startRound s1 (fld v 15 0))

/-- The next live pipe of a direction after `k`, cyclically, other than `x` (R275). -/
def nextLive (s : State) (k x : Nat) : Option Nat :=
  let l := sameDir k
  ((l.filter (fun j => k < j)) ++ (l.filter (fun j => j < k))).find? (fun j => j ≠ x && liveForTest s j)

/-- A pipe's buffer holds no frame. -/
def pipeEmpty (p : Pipe) : Bool := p.buf = [] && p.outs = []

/-- A pipe fails a test: counted, and retired (Table 8.2, R274). -/
def failTest (s : State) (k : Nat) : State :=
  let p := s.sndPipe k
  retirePipe (raise (sndCount (s.setSndPipe k { p with unitsFailed := satInc 0xFFFF p.unitsFailed }) 0x80 1) 0x56 3) k

/-- A pipe has passed all its units: `HEALTHY`, its strikes forgotten, its ports back (R270 to R272). -/
def passTest (s : State) (k : Nat) : State :=
  let s1 := s.setSndPipe k { s.sndPipe k with cls := .healthy, strikes := 0 }
  let s2 := if (s1.pipe k).st = .fault then setPipeSt s1 k .idle else s1
  updateLive (bindBack s2 k)

/-- The difference a pipe has at byte `i` of a unit's output. -/
def unitDiff (l : List (BitVec 12 × Byte)) (i : BitVec 12) : Byte := (l.filter (fun x => x.1 = i)).foldl (fun acc x => acc ^^^ x.2) 0

/-- Two pipes give the same output bits of a unit (R273). -/
def sameUnit (l m : List (BitVec 12 × Byte)) : Bool := ((l ++ m).map (·.1)).all (fun i => unitDiff l i = unitDiff m i)

/-- The random operands of one unit (R273). How the words of the generator become them is not stated: each is cut from a free number of the draw
(log 133). -/
structure UnitIn where
  fmt : Nat
  /-- exponent difference *d*, 0 to 33, of an ingress unit; shift *s* of an egress unit -/
  shift : Nat
  stoch : Bool
  words : List Nat
  bound : Int
  factor : Nat
  /-- `K_IN`, or the count of a release's selection; 0 selects nothing -/
  keep : Nat
  lanes : List Int
  noise : List Int
  key : Key
  nonce : BitVec 96
  deriving DecidableEq, Repr

/-- The operands a draw gives. -/
def unitIn (draw : Nat) : UnitIn :=
  let r (i : Nat) : Nat := Config.testWord draw i
  { fmt := r 0 % 4, shift := r 1 % 34, stoch := (r 2).testBit 0, bound := clampBound (r 3 % 24576 + 1), factor := r 4 % (0x8000 + 1), keep := r 5 % 256,
    key := BitVec.ofNat 256 (r 6), nonce := BitVec.ofNat 96 (r 7),
    words := (List.range 256).map (fun e => r (16 + e) % 2 ^ 32),
    lanes := (List.range 256).map (fun e => sInt 32 (low 32 (r (272 + e)))),
    noise := (List.range 256).map (fun e => sInt 32 (low 32 (r (528 + e)))) }

/-- The elements of a selection, zero elsewhere; no selection keeps them all. -/
def unitSelect (keep : Nat) (vs : List Int) : List Int :=
  if keep = 0 then vs
  else
    let kept := (selectTop keep ((List.range 256).map (fun e => (e, vs.getD e 0)))).map (·.1)
    (List.range 256).map (fun e => if kept.contains e then vs.getD e 0 else 0)

/-- An ingress unit: stages 2 to 4 of Table 4.4 on random elements of a random format (R273). -/
def ingressUnit (u : UnitIn) : Bytes :=
  let xs := u.lanes.map (fun v => sInt (fmtBits u.fmt) (low (fmtBits u.fmt) (uNat 32 v)))
  let ys := (xs.zip u.words).map (fun x => requantIn u.stoch x.1 u.shift (if u.stoch && 1 ≤ u.shift && u.shift ≤ 31 then x.2 else 0))
  let zs := (ys.map (clampTo u.bound)).map (fun y => if u.factor < 0x8000 then clipElem u.factor y else y)
  ((unitSelect u.keep zs).map (fun v => leBytes 4 (uNat 32 v))).flatten

/-- An egress unit: random lanes and noise, selected, shifted, packed, and encrypted under a test key and a random nonce (R273). -/
def egressUnit (u : UnitIn) : Bytes :=
  let vs := (u.lanes.zip u.noise).map (fun x => clampTo laneMax (x.1 + x.2))
  let q (v : Int) : Int := clampTo (fmtMax u.fmt) (rhe v u.shift)
  let plain := if u.keep = 0 then denseTile u.fmt 0 0 0 (vs.map q)
    else sparseTile u.fmt 0 0 0 0 ((selectTop u.keep ((List.range 256).map (fun e => (e, vs.getD e 0)))).map (fun x => (x.1, q x.2)))
  let ct := xorStream u.key u.nonce plain
  ct ++ beBytes 16 (Config.gcmTag u.key u.nonce [] ct).toNat

/-- The output bytes a pipe writes into the scratch memory for a unit: the exact ones, and what its faults change (R273). -/
def unitBytes (draw k : Nat) (l : List (BitVec 12 × Byte)) : Bytes :=
  let out := if k < 8 then ingressUnit (unitIn draw) else egressUnit (unitIn draw)
  (List.range 4096).map (fun i => out.getD i 0 ^^^ unitDiff l (BitVec.ofNat 12 i))

/-- The pipe a unit shows to be failing (R274): none where the outputs agree, where all differ, or where no third pipe serves. -/
def unitFailing (k q : Nat) (t : Option Nat) (x : UnitFault) : Option Nat :=
  if sameUnit x.tested x.reference || t.isNone then none
  else if sameUnit x.third x.reference then some k
  else if sameUnit x.third x.tested then some q
  else none

/-- The outcome of a unit (R274): a failing pipe is retired; a disagreement that names none is unattributed. DESIGN CHOICE (log 133): so is
one with no third live pipe. -/
def unitOutcome (s : State) (k q : Nat) (t : Option Nat) (x : UnitFault) : State :=
  if sameUnit x.tested x.reference then s
  else match unitFailing k q t x with
    | some f => failTest s f
    | none => raise (sndCount s 0x70 1) 0x56 4

/-- One unit of the pipe of `u` against the pipe `q` has run: counted, its outputs in the scratch memory, its outcome judged. -/
def unitRun (s : State) (u : UnderTest) (q : Nat) (t : Option Nat) (x : UnitFault) : State :=
  let p := s.sndPipe u.pipe
  let d := drbgDraw s 1
  let s1 := sndCount (d.2.setSndPipe u.pipe { p with units := satInc 0xFFFF p.units, cls := if u.confirm then .testing else p.cls }) 0x78 1
  let outs := [unitBytes d.1 u.pipe x.tested, unitBytes d.1 q x.reference] ++ (t.map (fun k => unitBytes d.1 k x.third)).toList
  let left := { u with left := u.left - 1 }
  let s2 := { s1 with snd.scratch := outs, snd.round := s1.snd.round.map (fun y => if decide (y = u) then left else y) }
  let s3 := unitOutcome s2 u.pipe q t x
  let s4 := if left.left = 0 ∧ s3.snd.round.contains left then
      passTest { s3 with snd.round := s3.snd.round.filter (fun y => y.pipe ≠ u.pipe) } u.pipe
    else s3
  roundOver s s4

/-- A pipe of the round may take its next unit: its buffer is empty; one in a round is still live, and a suspended one has finished the streams
that stand on it (R271, R275). A pipe in `FAULT` finishes none (R272). -/
def takesUnit (s : State) (u : UnderTest) : Bool :=
  pipeEmpty (s.pipe u.pipe)
    && (if u.confirm then decide ((s.pipe u.pipe).st = .fault) || (bindable (s.pipe u.pipe) && decide (streamsOn s u.pipe = 0))
        else liveForTest s u.pipe)

/-- One self-test unit: the first pipe of the round that may take it, against the next live pipe, and against a third where they
disagree; each takes the unit only while its buffer is empty, and the operands need DRBG instance 1
(R273 to R275, 12 R383). -/
def selfTestUnit (s : State) (x : UnitFault) : State :=
  match s.snd.round.find? (takesUnit s) with
  | none => s
  | some u =>
    match nextLive s u.pipe u.pipe with
    | none => s
    | some q =>
      let t := if sameUnit x.tested x.reference then none else nextLive s q u.pipe
      if pipeEmpty (s.pipe q) && (t.map (fun k => pipeEmpty (s.pipe k))).getD true && drbgServes s 1 then unitRun s u q t x else s

/-! ### Control store parity errors (R272) -/

/-- Frames of a faulted ingress pipe that it has not added run on the replay pipe, in their order (R272). -/
def moveUnstarted (fab : State → FabIn → State) (s : State) (k : Nat) : State :=
  let q := replayPipe s k
  if q = k then s
  else
    let p := s.pipe k
    let waiting (f : HeldFrame) : Bool := match f.st with | .queued => true | .waitKey => true | _ => false
    let l := (p.buf.filter waiting).map (fun f => { f with st := .queued, keys := [] })
    let p1 := (p.buf.filter waiting).foldl (fun x f => unholdKeys x f.keys) p
    let s1 := s.setPipe k { p1 with buf := p.buf.filter (fun f => !waiting f) }
    let s2 := s1.setPipe q { s1.pipe q with buf := (s1.pipe q).buf ++ l }
    pumpPipe fab ((s2.pipe q).buf.length) s2 q

/-- Helm writes and commits the control store again (R141, R272): bits that do not take make the commit fail, and the pipe is retired. -/
def reloadStore (s : State) (k : Nat) (stuck : List (BitVec 11 × Word)) : State :=
  let cs := (s.pipe k).cs
  let new := stuck.foldl (fun t x => tset 0 t x.1.toNat x.2) cs
  if new = cs then s
  else if crc32c (csBytes new) = crc32c (csBytes cs) then s.setPipe k { s.pipe k with cs := new }
  else retirePipe s k

/-- `CS_PARITY_ERROR`: the pipe faults and is suspended; what it has not finished is replayed as failed tiles; Helm reloads
the store (R272). -/
def csParityError (fab : State → FabIn → State) (s : State) (k : Nat) (stuck : List (BitVec 11 × Word)) : State :=
  let st := (s.pipe k).st
  if st = .offline ∨ st = .loading ∨ st = .retired ∨ st = .fault then s
  else
    let s1 := raise (setPipeSt s k .fault) (larkPage k) 2
    let s2 := (s1.snd.checks.filter (fun c => c.pipe = k)).foldl (fun st c =>
      let st1 := { st with snd.checks := st.snd.checks.erase c }
      keepForReplay (if c.replay.isSome then st1 else dropUnchecked st1 c) c false ((c.job.lanes c.job.a).map (·.1))) s1
    let s3 := s2.setPipe k { s2.pipe k with outs := (s2.pipe k).outs.map (fun f => if 0 < f.waits then { f with failed := true, bad := outTile f } else f) }
    let s4 := suspendPipe s3 k
    reloadStore (if k < 8 then moveUnstarted fab s4 k else s4) k stuck

/-! ### The meanings -/

/-- `SOUNDING_CHECK_DONE` (R266). -/
def execSoundingCheckDone (pipe : BitVec 4) (fault : Option TileFault) (s : State) : Host.Outcome State Fault Refusal :=
  .next (whenArith s (fun x => soundingCheckDone x pipe.toNat fault))

/-- `SND_ST_CMD` (R275). -/
def execSndStCmd (a : Access) (v : Word) (s : State) : Host.Outcome State Fault Refusal :=
  .next (sndStCmd s a v)

/-- `SELF_TEST_UNIT` (R273). -/
def execSelfTestUnit (fault : UnitFault) (s : State) : Host.Outcome State Fault Refusal :=
  .next (whenArith s (fun x => selfTestUnit x fault))

end Sys2Proof.Machine
end

