-- ==== Sys2Proof/Machine/Egress.lean ====
section
/-! DEFINITION. The egress pipe (chapters 4, 5 and 7): which frame a stream sends next, release with noise, selection and
requantisation, the frame's encryption, and its sending against credits. -/

namespace Sys2Proof.Machine

/-! ### Tiles of a frame -/

/-- One output tile: its bytes, hop byte, `SAT` flag, and what a release writes back: exponent, flags, lanes. -/
structure OutTile where
  idx : Nat
  bytes : Bytes
  hop : Nat
  exp : Nat
  flags : Nat
  lanes : List Int
  /-- R136 clamped it -/
  clamped : Bool := false
  /-- R232's position rule decided its last entry -/
  tie : Bool := false
  /-- what Sounding taps of it (08 R261) -/
  tap : OutCheck
  deriving DecidableEq, Repr

/-- `DELTA` of a tile of a contiguous run (R113). -/
def deltaOf (first t : Nat) : Nat := if t = first then 0 else 1

/-- The check of a tile that is packed as it stands (point 0x5). -/
def packedTap (vs : List Int) : OutCheck := { point := 5, exact := vs, elems := vs }

/-- A running-sum tile: the lanes in the wide form, sparse for top-k (R129, R230, R234). -/
def sumTile (s : State) (wi : Nat) (d : Desc) (first t : Nat) : OutTile :=
  let r := tileRec s wi t
  let live := liveElems (dElems d) t
  let vs := (readLanes s wi t).take live
  let fl := r.flags &&& 12
  let exp := if dFixed d then dEfix d else r.scale
  if dOp d = 1 then
    let es := ((List.range live).map (fun e => (e, vs.getD e 0))).filter (fun x => x.2 ≠ 0)
    { idx := t, bytes := sparseTile 3 exp fl (deltaOf first t) t es, hop := r.hop, exp := exp, flags := fl + 1, lanes := vs,
      tap := packedTap (padZero live vs) }
  else
    { idx := t, bytes := denseTile 3 exp fl (deltaOf first t) (vs ++ List.replicate (256 - live) 0), hop := r.hop, exp := exp, flags := fl, lanes := vs,
      tap := packedTap (padZero live vs) }

/-- The noise of a tile's non-padding lanes, zero where the group adds none (R242 to R246). -/
def noiseTile (d : Desc) (kr : Option Key) (t live : Nat) : List Int :=
  match kr with
  | some k => (List.range live).map (fun e => noiseOf k (dSigma d) t e)
  | none => List.replicate live 0

/-- Lanes with noise, as exact sums cut to ±(2^31 − 1), and whether one was cut (R245). -/
def addNoise (vs zs : List Int) : List Int × Bool :=
  let l := vs.zipWith (fun v z => if v + z > laneMax then (laneMax, true) else if v + z < -laneMax then (-laneMax, true) else (v + z, false)) zs
  (l.map (·.1), l.any (·.2))

/-- Put chosen values at their positions among 256 zeros. -/
def scatter (es : List (Nat × Int)) : List Int := (List.range 256).map (fun e => ((es.find? (fun x => x.1 = e)).map (·.2)).getD 0)

/-- A released tile (R134 to R137, R235, R245). -/
def releaseTile (s : State) (wi : Nat) (d : Desc) (kr : Option Key) (first t : Nat) : OutTile :=
  let r := tileRec s wi t
  let live := liveElems (dElems d) t
  let zs := noiseTile d kr t live
  let vs := (readLanes s wi t).take live
  let nz := addNoise vs zs
  let ea := sInt 8 (if dFixed d then dEfix d else r.scale)
  let base := (r.flags &&& 12) ||| (if dNoise d then 2 else 0)
  if dOp d = 1 ∧ 1 ≤ dKOut d then
    let cand := (List.range live).map (fun e => (e, nz.1.getD e 0))
    let sel := selectTop (min (dKOut d) live) cand
    let q := requantOut (dOutFmt d) ea (sel.map (·.2))
    let fl := base ||| (if nz.2 || q.2.2 then 8 else 0)
    let es := (sel.map (·.1)).zip q.2.1
    { idx := t, bytes := sparseTile (dOutFmt d) q.1 fl (deltaOf first t) t es, hop := r.hop, exp := q.1, flags := fl + 1,
      lanes := scatter es, clamped := q.2.2, tie := tieCut (min (dKOut d) live) cand,
      tap := { point := 6, exact := scatter (sel.map (fun x => (x.1, vs.getD x.1 0 + zs.getD x.1 0))),
               noise := scatter (sel.map (fun x => (x.1, zs.getD x.1 0))), elems := scatter es,
               shift := (sInt 8 q.1 - ea).toNat, clamped := q.2.2 } }
  else
    let q := requantOut (dOutFmt d) ea nz.1
    let fl := base ||| (if nz.2 || q.2.2 then 8 else 0)
    let ls := q.2.1 ++ List.replicate (256 - live) 0
    { idx := t, bytes := denseTile (dOutFmt d) q.1 fl (deltaOf first t) ls, hop := r.hop, exp := q.1, flags := fl, lanes := ls, clamped := q.2.2,
      tap := { point := 6, exact := padZero live (vs.zipWith (· + ·) zs), noise := padZero live zs, elems := ls, shift := (sInt 8 q.1 - ea).toNat,
               clamped := q.2.2 } }

/-- A tile of a resynchronisation stream, from the shadow window, padding as zero (R115, R221). -/
def resyncTile (s : State) (o : Nat) (d : Desc) (first t : Nat) : OutTile :=
  let r := tileRec s o t
  let live := liveElems (dElems d) t
  let vs := padZero live (rawLanes s o t)
  if dOp d = 1 ∧ 1 ≤ dKOut d then
    let es := selectTop (min (dKOut d) live) ((List.range live).map (fun e => (e, vs.getD e 0)))
    { idx := t, bytes := sparseTile (dOutFmt d) r.scale (r.flags &&& 14) (deltaOf first t) t es, hop := r.hop, exp := r.scale,
      flags := (r.flags &&& 14) + 1, lanes := vs, tap := packedTap (scatter es) }
  else
    { idx := t, bytes := denseTile (dOutFmt d) r.scale (r.flags &&& 14) (deltaOf first t) vs, hop := r.hop, exp := r.scale,
      flags := r.flags &&& 14, lanes := vs, tap := packedTap vs }

/-! ### What a stream sends next -/

/-- The next frame of an entry's stream. -/
inductive NextOut where
  /-- `SCALE` frame: distribution, first tile, count -/
  | scale (dist : Bool) (first n : Nat)
  /-- tiles of a dense stream, or the bounds of a sparse one, from the running sum, a release or a resynchronisation: 0, 1, 2 -/
  | tiles (kind first n : Nat)
  /-- the received `RESULT` frame at the head of the relay list -/
  | relay
  | none
  deriving DecidableEq, Repr

/-- Number of tiles of the next dense frame (R161). -/
def denseCount (f ab first n : Nat) : Nat := min (n - first) (tilesFit f (if first = 0 then ab else 0))

/-- Number of tiles of the next sparse frame among those complete, 0 while it cannot be closed (R231). -/
def sparseCount (size : Nat → Nat) (ab first upto n : Nat) : Nat :=
  let r := (List.range (upto - first)).foldl (fun (acc : Nat × Nat × Bool) i =>
    if acc.2.2 then acc
    else if acc.2.1 + size (first + i) ≤ 16384 then (acc.1 + 1, acc.2.1 + size (first + i), false)
    else (acc.1, acc.2.1, true)) (0, if first = 0 then ab else 0, false)
  if r.2.2 || first + r.1 = n then r.1 else 0

/-- Bytes of the absence block an entry's first tile frame carries (R212). -/
def absBytes (e : Entry) : Nat := absenceSize e.flow.absent.length

/-- The next `SCALE` frame of a pass: full frames, and the one that ends at *N* (R119, R161). -/
def scaleReady (next upto n : Nat) : Option Nat :=
  if next < n ∧ (next + 16384 ≤ upto ∨ upto = n) ∧ next < upto then some (min 16384 (n - next)) else none

/-- The reduce maxima known at a block: every live source has delivered them (R120). -/
def scaleUpto (s : State) (d : Desc) (c : Bool) (e : Entry) : Nat :=
  (liveSources (sourcesOf s c d) e.flow.silent).foldl (fun acc r => min acc (tget 0 e.flow.scaleMarks r)) (dTiles d)

/-- The tiles a running sum or a release may take: those complete at every source, and in handshake mode those whose exponent is agreed
(R116, R179). DESIGN CHOICE (log 128): a tile that its streams complete by their last flag before its exponent is agreed waits for it; R116
gives such a tile no other exponent. -/
def readyUpto (s : State) (d : Desc) (c : Bool) (e : Entry) : Nat :=
  let n := summedTo (dTiles d) (liveSources (sourcesOf s c d) e.flow.silent) e.flow
  if dFixed d then n else min n e.flow.agreed

/-- The next frame of an entry (R119 to R121, R161, R173, R179, R212, R221, R231). -/
def nextOut (s : State) (p : Nat) (e : Entry) : NextOut :=
  match entryDesc s p e with
  | none => .none
  | some (d, c) =>
    if !e.flow.relay.isEmpty && (e.st = .active || (e.st = .done && !e.fin)) then .relay
    else match (if e.st = .active then openWin s p e.group e.ticket else none) with
      | none => .none
      | some wi =>
        let n := dTiles d
        let rel := atRelease s d
        match e.role with
        | .resyncRecv _ => .none
        | .resyncSend =>
          match (s.win wi).partner with
          | none => .none
          | some o =>
            if n ≤ e.flow.dataNext then .none
            else if dOp d = 1 ∧ 1 ≤ dKOut d then
              .tiles 2 e.flow.dataNext (sparseCount (fun t => (resyncTile s o d t t).bytes.length) 0 e.flow.dataNext n n)
            else .tiles 2 e.flow.dataNext (denseCount (dOutFmt d) 0 e.flow.dataNext n)
        | .normal =>
          let red := if dFixed d || rel || dRole d = 3 then none else scaleReady e.flow.scaleNext (scaleUpto s d c e) n
          let dis := if dFixed d || dDistPorts d = 0 then none else scaleReady e.flow.distNext e.flow.agreed n
          match red, dis with
          | some k, _ => .scale false e.flow.scaleNext k
          | none, some k => .scale true e.flow.distNext k
          | none, none =>
            let fr := readyUpto s d c e
            if dRole d = 3 || n ≤ e.flow.dataNext || fr ≤ e.flow.dataNext then .none
            else if rel then
              if dOp d = 1 ∧ 1 ≤ dKOut d then
                let k := sparseCount (fun t => sparseLen (dOutFmt d) (min (dKOut d) (liveElems (dElems d) t))) (absBytes e) e.flow.dataNext fr n
                if k = 0 then .none else .tiles 1 e.flow.dataNext k
              else
                let k := denseCount (dOutFmt d) (absBytes e) e.flow.dataNext n
                if e.flow.dataNext + k ≤ fr then .tiles 1 e.flow.dataNext k else .none
            else if dOp d = 1 then
              let k := sparseCount (fun t => (sumTile s wi d t t).bytes.length) (absBytes e) e.flow.dataNext fr n
              if k = 0 then .none else .tiles 0 e.flow.dataNext k
            else
              let k := denseCount 3 (absBytes e) e.flow.dataNext n
              if e.flow.dataNext + k ≤ fr then .tiles 0 e.flow.dataNext k else .none

/-- Destination ports of the next frame (Table 6.2, R221). -/
def outPortsOf (d : Desc) (e : Entry) (x : NextOut) : Nat :=
  match x with
  | .scale dist _ _ => if dist then dDistPorts d else dOutPorts d
  | .tiles k _ _ => if k = 0 then dOutPorts d else dDistPorts d
  | .relay => relayPorts d e
  | .none => 0

/-! ### Service among partitions (R321) -/

/-- An entry's next frame belongs on egress pipe `k`: its stream stands there, or would start there (R159). -/
def readyOn (s : State) (k p : Nat) (e : Entry) : Bool :=
  let x := nextOut s p e
  if x = .none then false
  else match e.flow.pipe with
    | some j => j = k
    | none => match entryDesc s p e with
      | some (d, _) => outPipe s (outPortsOf d e x) = some k
      | none => false

/-! ### Building -/

/-- The header of a collective frame this block encrypts for an entry. -/
def ownHdr (s : State) (k p : Nat) (e : Entry) (d : Desc) (cls fmt flags tiles first hop len : Nat) : Hdr :=
  { version := 1, cls := cls, part := p, group := e.group, gEpoch := e.gEpoch, hop := hop, rank := s.grp.rank, ticket := e.ticket,
    kEpoch := e.kEpoch, owner := 0, fmt := fmt, op := dOp d, flags := flags, step := e.step.getD 0, tiles := tiles, first := first,
    seq := (k - 8) * 2 ^ 21 + e.flow.counter, digest := e.digest, payLen := len, clean := true }

/-- What a built frame is made of. -/
structure Built where
  cls : Nat
  hdr : Hdr
  plain : Bytes
  ports : Nat
  first : Nat
  count : Nat
  checks : Nat
  last : Bool
  release : Bool
  writes : List (Nat × Nat × Nat × List Int)
  relays : Option (Nat × Nat)
  flow : Flow
  taps : List OutCheck
  clamped : Nat
  ties : Nat
  selected : Nat
  noised : Nat
  deriving DecidableEq, Repr

/-- The release key of an entry, where its group adds noise; outer none where no seed can be derived (R242). -/
def entryNoise (s : State) (p : Nat) (e : Entry) (d : Desc) : Option (Option Key) :=
  if dNoise d then (noiseSeed s p e.kEpoch).map (fun seed => some (releaseKey seed e.ticket e.group p (e.step.getD 0))) else some none

/-- The largest `HOP` among the `SCALE` frames that tiles `first` to `first` + `n` − 1 were combined from (R77, R162). -/
def hopOver (runs : List (Nat × Nat × Nat)) (first n : Nat) : Nat :=
  runs.foldl (fun m r => if r.1 < first + n ∧ first < r.1 + r.2.1 then max m r.2.2 else m) 0

/-- Build a `SCALE` frame (R119, R122, R162). -/
def buildScale (s : State) (k p : Nat) (e : Entry) (d : Desc) (wi : Nat) (dist : Bool) (first n : Nat) : Built :=
  let bs : Bytes := (List.range n).map (fun i => BitVec.ofNat 8
    (if dist then (tileRec s wi (first + i)).scale else tget 0x80 e.flow.scaleMax (first + i)))
  let last := first + n = dTiles d
  let hop := hopOver (if dist && !atRelease s d then e.flow.distRuns else e.flow.scaleRuns) first n + 1
  { cls := 2, hdr := ownHdr s k p e d 2 (dInFmt d) (mkFlags false last (dElastic d) false false) n first hop n, plain := bs,
    ports := if dist then dDistPorts d else dOutPorts d, first := first, count := n, checks := 0, last := false, release := false,
    writes := [], relays := none,
    flow := if dist then { e.flow with distNext := first + n } else { e.flow with scaleNext := first + n },
    taps := [], clamped := 0, ties := 0, selected := 0, noised := 0 }

/-- Build a frame of tiles (R161, R162, R212, R231): a running sum, a release or a resynchronisation. -/
def buildTiles (s : State) (k p : Nat) (e : Entry) (d : Desc) (wi kind first n : Nat) (kr : Option Key) : Built :=
  let o := ((s.win wi).partner).getD wi
  let ts := (List.range n).map (fun i =>
    if kind = 0 then sumTile s wi d first (first + i) else if kind = 1 then releaseTile s wi d kr first (first + i)
    else resyncTile s o d first (first + i))
  let ab := if first = 0 ∧ kind ≠ 2 then absenceBlock e.flow.absent else []
  let plain := ab ++ (ts.map (·.bytes)).flatten
  let last := first + n = dTiles d
  let sparse := ts.any (fun t => t.flags.testBit 0)
  let cls := if kind = 0 then 1 else 3
  let hop := (ts.foldl (fun m t => max m t.hop) 0) + 1
  { cls := cls,
    hdr := ownHdr s k p e d cls (if kind = 0 then 3 else dOutFmt d)
      (mkFlags (ts.any (fun t => t.flags.testBit 3)) last (dElastic d) (!ab.isEmpty) sparse) n first hop plain.length,
    plain := plain, ports := if kind = 0 then dOutPorts d else dDistPorts d, first := first, count := n, checks := n, last := last,
    release := kind = 1, writes := if kind = 1 then ts.map (fun t => (t.idx, t.exp, t.flags, t.lanes)) else [], relays := none,
    flow := { e.flow with dataNext := first + n }, taps := ts.map (·.tap),
    clamped := (ts.filter (·.clamped)).length, ties := (ts.filter (·.tie)).length,
    selected := if kind = 1 ∧ dOp d = 1 ∧ 1 ≤ dKOut d then n else 0, noised := if kind = 1 ∧ dNoise d then n else 0 }

/-- Build the relayed frame of a received `RESULT` frame: its payload byte for byte under a new header (R550). -/
def buildRelay (s : State) (k p : Nat) (e : Entry) (d : Desc) : Option Built :=
  match e.flow.relay with
  | [] => none
  | r :: rest =>
    let h := hdrOf ((r.2.2.1.map wordBytes).flatten)
    let body := if flagAbsent h then ((readAbsence r.2.2.2).map (·.2)).getD [] else r.2.2.2
    let ts := (readTiles h.fmt (flagSparse h) h.tiles true h.first body).1
    some { cls := 3, hdr := { h with rank := s.grp.rank, hop := h.hop + 1, seq := (k - 8) * 2 ^ 21 + e.flow.counter, part := p },
           plain := r.2.2.2, ports := relayPorts d e, first := h.first, count := h.tiles, checks := h.tiles, last := flagLast h,
           release := false, writes := [], relays := some (r.1, r.2.1), flow := { e.flow with relay := rest },
           taps := ts.map (fun t => packedTap (padZero 256 t.vals)),
           clamped := 0, ties := 0, selected := 0, noised := 0 }

/-- Encrypt a built frame, hold it for its checks and count the work (R95, R159, R257, R258). DESIGN CHOICE (log 170): its destination ports are
those that are bound as it is built; R549 gives no moment, and a port that is unbound or bound elsewhere before the frame leaves still carries it. -/
def holdBuilt (s : State) (k p : Nat) (e : Entry) (key : Key) (b : Built) : State :=
  let fl := { b.flow with pipe := some k, counter := b.flow.counter + 1 }
  let s1 := putEntry s p { e with flow := fl }
  let bytes := sealFrame key b.hdr b.plain
  let q := s1.pipe k
  let s2 := s1.setPipe k { q with
    outs := q.outs ++ [{ part := p, group := e.group, ticket := e.ticket, cls := b.cls, ports := boundPorts s1 b.ports, bytes := bytes,
                         waits := b.checks, first := b.first, count := b.count, last := b.last, release := b.release,
                         writes := b.writes, relays := b.relays, taps := b.taps }],
    filled := if q.filled = some (p, e.group, e.ticket) then none else q.filled }
  let s3 := { sndCount (spendAllow s2 k p (creditsOf bytes.length)) 0x90 (if b.release then b.clamped else 0) with
    aster.relTiles := bump s2.aster.relTiles b.selected, aster.tieCuts := bump s2.aster.tieCuts b.ties,
    zin.noised := bump s2.zin.noised b.noised }
  if q.filled = some (p, e.group, e.ticket) then s3 else larkCount s3 k 0x100 1

/-- An egress pipe holds a result key (Table 5.3). -/
def outKey (s : State) (k p : Nat) (e : Entry) : Option Key :=
  (kcFind (s.pipe k) 1 p e.group e.kEpoch).map (fun i => (tget {} (s.pipe k).kc i).key)

/-- Mark the result key of an entry as used now (R152). -/
def touchKey (s : State) (k p : Nat) (e : Entry) : State :=
  match kcFind (s.pipe k) 1 p e.group e.kEpoch with
  | none => s
  | some i => kcTouch s k i

/-- Build the next frame of an entry on a pipe (Table 5.5). -/
def buildFor (s : State) (k p : Nat) (e : Entry) : State :=
  match entryDesc s p e with
  | none => s
  | some (d, _) =>
    if 0x1FFFFF < e.flow.counter then abortEntry s p e { st := .bounds }
    else match outKey s k p e with
      | none =>
        let r : KeyReq := { pipe := k, use := 1, part := p, sel := e.group, epoch := e.kEpoch }
        let s1 := s.setPipe k { s.pipe k with waitKey := some (p, e.group, e.ticket) }
        larkCount { s1 with chrt.queue := s1.chrt.queue ++ [r] } k 0x108 1
      | some key =>
        let x := nextOut s p e
        let s := match x with | .tiles 1 _ _ => if dNoise d then noteNoise s p e.kEpoch else s | _ => s
        let wi := (openWin s p e.group e.ticket).getD 0
        let b : Except Status (Option Built) := match x with
          | .scale dist first n => .ok (some (buildScale s k p e d wi dist first n))
          | .tiles kind first n =>
            if kind = 1 then match entryNoise s p e d with
              | none => .error .tagFail
              | some kr => .ok (some (buildTiles s k p e d wi 1 first n kr))
            else .ok (some (buildTiles s k p e d wi kind first n none))
          | .relay => .ok (buildRelay s k p e d)
          | .none => .ok none
        match b with
        | .error st => abortEntry s p e { st := st }
        | .ok none => s
        | .ok (some f) =>
          if 255 < f.hdr.hop then abortEntry s p e { st := .badFormat }
          else holdBuilt (touchKey s k p e) k p e key f

/-- Frames of the tile classes an egress pipe holds: at most two (Table 5.5, the frame buffer). -/
def heldFrames (p : Pipe) : Nat := (p.outs.filter (fun f => !classVc f.cls)).length

/-- A pipe builds frames: a `BOUND` one of any stream, and one in service of the streams that stand on it, which it finishes whatever ports it
has left (R146, R271). -/
def buildsFor (s : State) (k : Nat) (e : Entry) : Bool :=
  boundPipe s k || (bindable (s.pipe k) && decide (e.flow.pipe = some k))

/-- The first entry of a partition whose next frame a pipe may build. -/
def buildable (s : State) (k p : Nat) : Option Entry := (s.entries p).find? (fun e => buildsFor s k e && readyOn s k p e)

/-- `EGRESS_FRAME_BUILD`: the pipe builds and holds its next frame; a partition that is left without ready work keeps no more than its cap
(R159 to R162, R321). -/
def egressBuild (s : State) (k : Nat) : State :=
  if !arithRuns s || !s.grp.rankValid || (s.pipe k).waitKey.isSome || 2 ≤ heldFrames (s.pipe k) then s
  else
    match servePipe s k (fun p => (buildable s k p).isSome) with
    | (none, s1) => s1
    | (some p, s1) => match buildable s k p with
      | none => s1
      | some e => let s2 := buildFor s1 k p e; capIdle s2 k (fun q => (buildable s2 k q).isSome)

/-! ### Sending -/

/-- A resynchronisation sender has sent its last frame: the ticket is released here without a swap (R221). -/
def resyncSent (s : State) (p : Nat) (e : Entry) : State :=
  let s1 := match openWin s p e.group e.ticket with | some w => idleWindow s w | none => s
  recordLast (putEntry s1 p { e with st := .done, fin := true }) e.group e.ticket e.kEpoch 3

/-- What a sent frame settles for its collective: a beat of a `RESULT` stream has left, and its last frame finishes it (R202, R249). -/
def afterSend (s : State) (f : OutFrame) : State :=
  if !isCollective f.cls then s
  else match findEntry s f.part f.group f.ticket with
    | none => s
    | some e =>
      let e1 := { e with flow := { e.flow with beatLeft := e.flow.beatLeft || (f.cls = 3 && f.release && decide (f.ports ≠ 0)) } }
      let s1 := putEntry s f.part e1
      if e1.role = .resyncSend && f.last then resyncSent s1 f.part e1
      else finishIfSent s1 f.part f.group f.ticket

/-- `FRAME_SEND`: the next held frame, channel 1 before the head of channel 0, leaves once it may, and one that waits for credit
alone is counted (R97, R100, R160). DESIGN CHOICE (log 117): a channel-1 frame that waits for channel-1 credit holds back neither a later
channel-1 frame nor the frames of channel 0; R97 orders only frames that could start. -/
def frameSend (s : State) (k : Nat) : State :=
  if !arithRuns s then s else
  let p := s.pipe k
  let pick := match (p.outs.filter (fun f => classVc f.cls)).find? (canSend s) with
    | some f => some f
    | none => p.outs.find? (fun f => !classVc f.cls)
  match pick with
  | none => s
  | some f =>
    if canSend s f then bindBackAll (afterSend (sendBytes (s.setPipe k { p with outs := p.outs.erase f }) k f) f)
    else if f.waits = 0 ∧ !f.failed then larkCount s k 0xD8 1 else s

/-- `CREDIT_GRANT_RECEIVE`: a return of the host die is added to the port's count (R519); a local port in Profile S, and one
on which Rhumb receives, ignores it (R521). -/
def creditGrant (s : State) (port : Nat) (vc : Bool) (n : Nat) : State :=
  if dead s || 12 ≤ port || (8 ≤ port && (s.blk.profile = 2 || s.rhmb.lspSink.testBit (port - 8))) then s
  else { s with lark.outCr := tset {} s.lark.outCr port (addCredits (tget {} s.lark.outCr port) vc n) }

/-! ### The meanings -/

/-- `EGRESS_FRAME_BUILD` (R161). -/
def execEgressFrameBuild (pipe : BitVec 3) (e : EccIn) (s : State) : Host.Outcome State Fault Refusal :=
  .next (eccBuilt s (egressBuild s (pipe.toNat + 8)) (pipe.toNat + 8) e)

/-- `FRAME_SEND` (R160). -/
def execFrameSend (pipe : BitVec 3) (s : State) : Host.Outcome State Fault Refusal :=
  .next (frameSend s (pipe.toNat + 8))

/-- `CREDIT_GRANT_RECEIVE` (R519). -/
def execCreditGrantReceive (port : BitVec 4) (vc : Bool) (n : BitVec 8) (s : State) : Host.Outcome State Fault Refusal :=
  .next (creditGrant s port.toNat vc n.toNat)

end Sys2Proof.Machine
end

