-- ==== Sys2Proof/Machine/Fuses.lean ====
section
/-! DEFINITION. Reading Logbook (chapter 14) and the lifecycle event words (chapter 15): the word code, the region map,
the values decided from three reads, digests, locks, counters and the lifecycle state. -/

namespace Sys2Proof.Machine

/-! ### The word code (R411) -/

/-- The positions of the 64 data bits: 3 upward without the powers of two. -/
def dataPos : List Nat := (List.range 72).filter (fun n => 3 ≤ n && !(n = 4 || n = 8 || n = 16 || n = 32 || n = 64))

/-- Parity of a list of bits. -/
def xorAll (l : List Bool) : Bool := l.foldl xor false

/-- Check bits 0 to 6 of a data word. -/
def hamming (d : Nat) : Nat :=
  (List.range 7).foldl (fun acc j =>
    if xorAll ((List.range 64).map (fun i => d.testBit i && (dataPos.getD i 0).testBit j)) then acc + 2 ^ j else acc) 0

/-- The 72-bit codeword of a data word (R411). -/
def codeword (d : Nat) : Nat :=
  let c := hamming d
  d + c * 2 ^ 64 + (if xorAll ((List.range 71).map (fun i => (d + c * 2 ^ 64).testBit i)) then 2 ^ 71 else 0)

/-- How a word decodes (R411). -/
inductive Decoded where
  | clean (d : Nat)
  | corrected (d : Nat)
  | uncorrectable
  deriving DecidableEq, Repr

/-- Decode 72 bits (R411). -/
def decodeWord (w : Nat) : Decoded :=
  let d := w % 2 ^ 64
  let syn := hamming d ^^^ (w / 2 ^ 64 % 128)
  let odd := xorAll ((List.range 72).map (fun i => w.testBit i))
  if syn = 0 && !odd then .clean d
  else if odd && (syn = 0 || (3 ≤ syn && syn ≤ 71)) then
    .corrected (match dataPos.findIdx? (· = syn) with | some i => d ^^^ 2 ^ i | none => d)
  else .uncorrectable

/-! ### The region map (R414, R415) -/

/-- First physical word of a region (Table 14.1). -/
def regBase (r : Nat) : Nat :=
  [0x000, 0x010, 0x030, 0x040, 0x0B0, 0x0B8, 0x0C8, 0x0F0, 0x130, 0x140, 0x190, 0x1A0, 0x1A8, 0x278, 0x338, 0x3F8].getD r 0

/-- Logical words of a region (Table 14.1). -/
def regLen (r : Nat) : Nat := [8, 16, 8, 56, 4, 8, 20, 64, 8, 80, 16, 8, 208, 192, 192, 4].getD r 0

/-- A region is critical (R414). -/
def critical (r : Nat) : Bool := r ≤ 6 || r = 8

/-- A region stores every logical word twice (R414). -/
def twoCopies (r : Nat) : Bool := critical r || r = 15

/-- The physical words of a logical word, copy A first (R414). -/
def copiesOf (r i : Nat) : List Nat :=
  if twoCopies r then [regBase r + 2 * i, regBase r + 2 * i + 1] else [regBase r + i]

/-- The kinds of word (R412), coded as `LOGB_VIEW_INFO.KIND`. -/
inductive WordKind where
  | data | digest | event | tally
  deriving DecidableEq, Repr

/-- The kind of a logical word (Table 14.1). -/
def kindOf (r i : Nat) : WordKind :=
  if (r = 5 && i < 4) || (r = 15 && i = 0) then .event
  else if (r = 4 && i < 2) || (r = 6 && i < 16) then .tally
  else if r < 15 && i + 1 = regLen r then .digest
  else .data

/-! ### Values (R425 to R427) -/

/-- The three reads agree in all 72 bits (R425). -/
def steady (w : PhysWord) : Bool := w.loose = w.nominal && w.nominal = w.strict

/-- The value of a good copy: steady and clean (R425). -/
def goodValue (w : PhysWord) : Option Nat :=
  if steady w then match decodeWord w.nominal with | .clean d => some d | _ => none else none

/-- A copy that holds no bit beside one that is programmed whole is the copy a cut left unprogrammed: the word then reads as the new
value, marginal (R434), and an event word is torn (15 R442). DEDUCED against the plain words of R425, under which the two would be good
and differ (log 87). -/
def blankBeside (w x : PhysWord) : Bool := w.loose = 0 && x.loose ≠ 0 && (goodValue x).isSome

/-- What a reading decides about a logical word. -/
structure WordRead where
  value : Option Nat
  aGood : Bool
  bGood : Bool
  marginal : Bool
  corrected : Bool
  blank : Bool
  deriving DecidableEq, Repr

/-- Decide a logical word from a reading of the array (R425 to R427). -/
def readWord (t : Table PhysWord) (r i : Nat) : WordRead :=
  let ws := (copiesOf r i).map (tget {} t)
  let blank := ws.all (fun w => w.loose = 0)
  if kindOf r i = .tally then
    let v := (ws.foldl (fun acc w => acc ||| w.loose) 0) % 2 ^ 64
    let same := match ws with
      | w :: rest => w.loose % 2 ^ 64 = v && w.nominal % 2 ^ 64 = v && w.strict % 2 ^ 64 = v
          && rest.all (fun x => x.loose % 2 ^ 64 = v && x.nominal % 2 ^ 64 = v && x.strict % 2 ^ 64 = v)
      | [] => true
    { value := some v, aGood := true, bGood := ws.length = 2, marginal := !same, corrected := false, blank := blank }
  else match ws with
    | [a, b] =>
      let ga := if blankBeside a b then none else goodValue a
      let gb := if blankBeside b a then none else goodValue b
      let used := if ga.isSome then a.nominal else b.nominal
      let val := match ga, gb with
        | some x, some y => if x = y then some x else none
        | some x, none => some x
        | none, y => y
      { value := val, aGood := ga.isSome, bGood := gb.isSome, corrected := false, blank := blank
        marginal := val.isSome && !(ws.all (fun w => w.loose = used && w.nominal = used && w.strict = used)) }
    | [a] =>
      let d := decodeWord a.nominal
      { value := (match d with | .clean x => some x | .corrected x => some x | .uncorrectable => none)
        aGood := decide (d ≠ .uncorrectable), bGood := false, marginal := !steady a
        corrected := (match d with | .corrected _ => true | _ => false), blank := blank }
    | _ => { value := none, aGood := false, bGood := false, marginal := false, corrected := false, blank := blank }

/-- The three reads of a physical word at a spread coded as `REF_SPREAD` (R417, R424). -/
def senseAt (sp : Nat) (w : PhysWord) : PhysWord :=
  match sp with
  | 0 => { loose := w.loose, nominal := w.nominal, strict := w.strict }
  | n + 1 => { loose := w.loose ||| (w.wide.getD n (0, 0)).1, nominal := w.nominal, strict := maskOff 72 w.strict (w.wide.getD n (0, 0)).2 }

/-- The whole array read at a spread. -/
def senseAll (sp : Nat) (t : Table PhysWord) : Table PhysWord := tmap {} (fun _ w => senseAt sp w) t

/-- A physical word as it reads now. -/
def physNow (s : State) (p : Nat) : PhysWord := senseAt s.logb.spread (tget {} s.logb.array p)

/-- A lock is blown: any of its three elements reads 1 (R419). -/
def wLocked (s : State) (r : Nat) : Bool := tget 0 s.logb.wFuse r ≠ 0
def rLocked (s : State) (r : Nat) : Bool := tget 0 s.logb.rFuse r ≠ 0

/-- The digest of a region over a reading (R418). -/
def regionDigest (t : Table PhysWord) (r : Nat) : Nat :=
  let ws := (List.range (regLen r - 1)).map (fun i =>
    leBytes 8 (if kindOf r i = .data then ((readWord t r i).value.getD 0) else 0))
  leNat ((List.range 8).map (Config.shake256 (ascii "ORPV-LB1" ++ leBytes 1 r ++ ws.flatten)))

/-- The digest word equals R418. -/
def digestOk (t : Table PhysWord) (r : Nat) : Bool :=
  r < 15 && (readWord t r (regLen r - 1)).value = some (regionDigest t r)

/-- A region has an uncorrectable word. -/
def badWord (t : Table PhysWord) (r : Nat) : Option Nat :=
  (List.range (regLen r)).find? (fun i => (readWord t r i).value.isNone)

/-- A finding of Table 14.3 against a region: an uncorrectable word, or a wrong digest behind a blown write-lock (R428). -/
def regionFails (s : State) (t : Table PhysWord) (r : Nat) : Bool :=
  (badWord t r).isSome || (r < 15 && wLocked s r && !digestOk t r)

/-- A non-critical region is unusable (R428). -/
def unusable (s : State) (t : Table PhysWord) (r : Nat) : Bool := !critical r && regionFails s t r

/-- A region holds a marginal word or tally bit. -/
def marginalRegion (t : Table PhysWord) (r : Nat) : Bool := (List.range (regLen r)).any (fun i => (readWord t r i).marginal)

/-- Words a reading corrects (R427). -/
def correctedCount (t : Table PhysWord) : Nat :=
  ((List.range 16).map (fun r => ((List.range (regLen r)).filter (fun i => (readWord t r i).corrected)).length)).foldl (· + ·) 0

/-- The value in use of a logical word: zero in an unusable region (R430). -/
def fuse (s : State) (r i : Nat) : Nat :=
  if unusable s s.logb.sensed r then 0 else (readWord s.logb.sensed r i).value.getD 0

/-- `n` logical words in use, each as 8 bytes, least significant first. -/
def fuseBytes (s : State) (r i n : Nat) : Bytes := ((List.range n).map (fun j => leBytes 8 (fuse s r (i + j)))).flatten

/-- Counter `c`: the index of its highest set bit plus one (R426). -/
def counter (s : State) (c : Nat) : Nat :=
  (List.range 256).foldl (fun m i => if (fuse s 6 (4 * c + i / 64)).testBit (i % 64) then i + 1 else m) 0

/-- Bits 7:0 of `REVOKE` logical word `w`. -/
def revoked (s : State) (w : Nat) : Nat := fuse s 4 w % 256

/-- The hash of maker key pair `k`, or of integrator entry `k` (R415). -/
def makerHash (s : State) (k : Nat) : BitVec 384 := BitVec.ofNat 384 (leNat (fuseBytes s 3 (6 * k) 6))
def integratorHash (s : State) (k : Nat) : BitVec 384 := BitVec.ofNat 384 (leNat (fuseBytes s 7 (6 * k) 6))

/-- The block identifier: the serial (17 R496). -/
def blockId (s : State) : Bytes := fuseBytes s 0 3 2

/-- The serial is programmed. -/
def hasSerial (s : State) : Bool := (blockId s).any (· ≠ 0)

/-- A `BLOCK` field that must name this block (R496). -/
def isBlock (s : State) (f : Bytes) : Bool := hasSerial s && f = blockId s

/-- A `BLOCK` field whose zero matches every block (R496). -/
def matchesBlock (s : State) (f : Bytes) : Bool := f.all (· = 0) || isBlock s f

/-- The destination entry of a key delivery destination (12 R377): `EN` reads 0 while region 9 is unusable (R430). -/
def destEntry (s : State) (d : Nat) : Word := BitVec.ofNat 64 (fuse s 9 d)

/-! ### Event words (15 R441 to R443) -/

/-- The code of an event word: 0 to 2 the words of region 5, 3 `TO_SCRAPPED`, 4 `SCRAP_INTENT` (Table 15.2). -/
def eventCode (w : Nat) : Nat := [0xA5C300015A3C0001, 0xA5C300025A3C0002, 0xA5C300035A3C0003, 0xA5C300045A3C0004, 0xA5C300FF5A3C00FF].getD w 0

/-- Region and logical word of an event word. -/
def eventAt (w : Nat) : Nat × Nat := if w = 4 then (15, 0) else (5, w)

/-- The conditions of an event word (R442). -/
inductive EventCond where
  | blank | complete | torn | bad
  deriving DecidableEq, Repr

/-- The condition of an event word (R442). -/
def eventCond (t : Table PhysWord) (w : Nat) : EventCond :=
  let r := readWord t (eventAt w).1 (eventAt w).2
  if r.blank then .blank
  else if r.aGood && r.bGood then
    (if r.value = some (eventCode w) then .complete else if r.value = some 0 then .blank else .bad)
  else if r.aGood || r.bGood then .torn
  else .bad

/-- What the gate decides (R443). -/
structure LifeDecision where
  st : Nat
  torn : Bool
  tornTarget : Nat
  scrapping : Bool
  hold : Bool
  deriving DecidableEq, Repr

/-- The words that are read in `SCRAPPED` and in a scrap wipe that resumes: those of regions 8, 5 and 15 (14 R424). -/
def scrapKept (p : Nat) : Bool := (0x130 ≤ p && p ≤ 0x13F) || (0xB8 ≤ p && p ≤ 0xC7) || 0x3F8 ≤ p

/-- The gate's decision from a reading (R443). -/
def lifeDecide (t : Table PhysWord) : LifeDecision :=
  let c := eventCond t
  let bad := c 0 = .bad || c 1 = .bad || c 2 = .bad || c 3 = .bad || c 4 = .bad
  let n := if c 0 ≠ .complete then 0 else if c 1 ≠ .complete then 1 else if c 2 ≠ .complete then 2 else 3
  let gap := (List.range 3).any (fun i => n < i && c i = .complete)
  if c 4 = .complete || c 4 = .torn then { st := if c 3 = .complete then 5 else n + 1, torn := false, tornTarget := 0, scrapping := true, hold := false }
  else if c 3 = .complete then { st := 5, torn := false, tornTarget := 0, scrapping := false, hold := bad }
  else
    let torn := n < 3 && c n = .torn
    { st := n + 1, torn := torn, tornTarget := if torn then n + 2 else 0, scrapping := false, hold := bad || gap }

/-- The reading of a start with its spread: region 8 is read first, at ±20 %, and everything at the spread it selects (14 R417). Where the
event words show scrapping or `SCRAPPED`, ±20 % serves throughout and only the first steps run (14 R424, R444; log 159). -/
def startReading (t : Table PhysWord) : Nat × Table PhysWord :=
  let d := lifeDecide (senseAll 0 t)
  let sp := (readWord (senseAll 0 t) 8 0).value.getD 0 / 2 ^ 44 % 4
  if d.scrapping || d.st = 5 then (0, (senseAll 0 t).filter (fun e => scrapKept e.1)) else (sp, senseAll sp t)

end Sys2Proof.Machine
end

