-- ==== Sys2Proof/Machine/HostMem.lean ====
section
/-! DEFINITION. The windows that bound every memory master port access (10 R312, R313; 11 R324), and what a read that Helm
makes through them gives. -/

namespace Sys2Proof.Machine

/-- A window covers a byte range and grants its direction; one that is closing takes no new access (R312, R313, R315). -/
def windowCovers (w : Region) (addr len : Nat) (write : Bool) : Bool :=
  w.en && !w.closing && (if write then w.wr else w.rd) && w.base ≤ addr && addr + len ≤ w.limit

/-- A window grants an access of operation `n` of channel `k`: one that is closing still does for the operations checked before (R315). -/
def windowGrants (k n : Nat) (w : Region) (addr len : Nat) (write : Bool) : Bool :=
  windowCovers (if w.users.contains (k, n) then { w with closing := false } else w) addr len write

/-- A byte range lies wholly inside one enabled region window of a partition (R313). -/
def inRegions (s : State) (p addr len : Nat) (write : Bool) : Bool :=
  (List.range 8).any (fun w => windowCovers (tget {} (s.part p).regions w) addr len write)

/-- A byte range lies wholly inside one enabled management window of Rhumb (11 R324). -/
def inMgmtWindows (s : State) (addr len : Nat) (write : Bool) : Bool :=
  (List.range 4).any (fun w => windowCovers (tget {} s.rhmb.mgmt w) addr len write)

/-- A read that Helm makes: `ST_BOUNDS` outside the windows, `ST_BUS_ERROR` where it does not complete, else `len` bytes. -/
def helmRead (inside : Bool) (mem : Option Bytes) (len : Nat) : Except Status Bytes :=
  if !inside then .error .bounds else match mem with
    | none => .error .busError
    | some b => .ok (slice b 0 len)

/-- The policy record of a partition, re-read for its owner keys, its digest compared with the held one (10 R307). -/
def policyRecord (s : State) (p : Nat) (mem : Option Bytes) : Except Status Bytes :=
  let x := s.part p
  let len := 256 + 2752 * popCount 8 x.owners
  match helmRead (inRegions s p x.policyAddr len false) mem len with
  | .error st => .error st
  | .ok b => if Config.sha384 b = x.policy then .ok b else .error .sigFail

/-- The 2,752-byte entry of owner `i` in a policy record (Table 10.3). -/
def ownerKeys (rec : Bytes) (i : Nat) : Bytes := slice rec (256 + 2752 * i) 2752

end Sys2Proof.Machine
end

