-- ==== Sys2Proof/Machine/Chartroom.lean ====
section
/-! DEFINITION. Chartroom (chapter 12): zeroing slots and what derives from them, the commands of `CHRT_CMD`, re-masking,
context epochs, and the key delivery port. -/

namespace Sys2Proof.Machine

/-! ### Zeroing -/

/-- A hot key cache entry derives from a slot of this attribute word (Table 12.2). -/
def derivesFrom (attr : Word) (e : KcEntry) : Bool :=
  let c := atClass attr
  if c = 3 then e.use = 4 && e.epoch = atEpoch attr
  else if c = 4 then e.use = 0 && e.part = atPart attr && e.sel = atOwner attr && e.epoch = atEpoch attr
  else if c = 6 then (e.use = 1 || e.use = 2) && e.part = atPart attr && e.epoch = atEpoch attr
  else if c = 7 then e.use = 3 && e.part = atPart attr && e.epoch = atEpoch attr
  else false

/-- Zero the frame-key cache entries of a slot and flush the hot cache entries derived from it (R366, R374, R375). -/
def flushDerived (s : State) (i : Nat) : State :=
  let attr := (s.slot i).attr
  let active := (s.slot i).st = .active
  let s1 := { s with chrt.cache := s.chrt.cache.filter (fun f => f.slot ≠ i) }
  if active then flushAllCaches s1 (derivesFrom attr) else s1

/-- A slot becomes `EMPTY`, with everything derived from it gone (R381). -/
def zeroSlot (s : State) (i : Nat) : State := (flushDerived s i).setSlot i {}

/-- Zero every slot that satisfies a test, ascending. -/
def zeroSlots (s : State) (c : Nat → Slot → Bool) : State :=
  (s.chrt.slots.filter (fun e => c e.1 e.2)).foldl (fun st e => zeroSlot st e.1) s

/-- The slots of a partition: its reserve, and its pool slots (Table 10.4 step 4). -/
def slotOfPart (p i : Nat) (x : Slot) : Bool :=
  (32 + 4 * p ≤ i && i ≤ 35 + 4 * p) || (160 ≤ i && !atBlock x.attr && atPart x.attr = p)

/-- All 512 slots, the frame-key cache and every hot key cache (Table 12.10). -/
def zeroAllSlots (s : State) : State := flushAllCaches { s with chrt.slots := [], chrt.cache := [] } (fun _ => true)

/-- Where every key must be gone at once (`TAMPER_N`, scrapping; R381, 15 R449) the hot key caches are zeroed, an entry that a frame holds
with them; no frame or stream that needed it goes on. -/
def zeroKeyCaches (s : State) : State :=
  { s with chrt.cache := [], lark.pipes := tmap {} (fun _ (q : Pipe) => { q with kc := [] }) s.lark.pipes }

/-- Pool slots a partition holds (R354, R316). -/
def slotsHeld (s : State) (p : Nat) : Nat :=
  (s.chrt.slots.filter (fun e => 160 ≤ e.1 && e.2.st ≠ .empty && !atBlock e.2.attr && atPart e.2.attr = p)).length

/-- Free pool slots (`CHRT_POOL`). -/
def poolSlotsFree (s : State) : Nat := 352 - (s.chrt.slots.filter (fun e => 160 ≤ e.1 && e.2.st ≠ .empty)).length

/-- The lowest `EMPTY` slot from `lo` to `hi`. -/
def lowestFree (s : State) (lo hi : Nat) : Option Nat :=
  ((List.range (hi + 1 - lo)).map (· + lo)).find? (fun i => (s.slot i).st = .empty)

/-! ### Lifecycle and classes (R357, R358) -/

/-- Engines the class allows, as an `INT_MASK` (Table 12.2). -/
def classEngines (c : Nat) : Nat :=
  if c ≤ 2 then 2 ^ 16 else if c = 3 then 2 ^ 16 - 1 else if c = 4 then 255 else if c = 6 then 2 ^ 16 - 1 + 2 ^ 17
  else if c = 7 then 255 * 256 else if c = 10 then 2 ^ 17 else 0

/-- The lifecycle state admits the class (Table 12.3). -/
def classAdmitted (s : State) (c : Nat) (block : Bool) : Bool :=
  if s.life.st = 1 || s.life.st = 2 || s.life.st = 3 then true
  else if s.life.st = 4 then c = 0 || (c = 2 && block) || c = 10
  else false

/-! ### Ends of commands -/

def chrtCmdAddr : Nat := regAt 0x0A 0x40

/-- A command ends: `CHRT_CMD_RESULT`, `CMD_DONE`, and the record of a failure (Table 12.13). -/
def chrtDone (s : State) (a : Access) (st : Status) (stage slot : Nat) : State :=
  noteCmd (raise { s with chrt.status := stCode st, chrt.stage := stage, chrt.resSlot := slot } 0x0A 0) a chrtCmdAddr st

/-- Fields of `CHRT_CMD_ARG`. -/
def argSlot (s : State) : Nat := fld s.chrt.cmdArg 63 55
def argAny (s : State) : Bool := bitOf s.chrt.cmdArg 54
def argDest (s : State) : Nat := fld s.chrt.cmdArg 53 48

/-- A command refused before it starts: the access is refused and `CHRT_CMD_RESULT` holds the status (Table 12.7, R542). -/
def chrtRefused (s : State) (a : Access) (st : Status) (slot : Nat) : State :=
  refuse { s with chrt.status := stCode st, chrt.stage := 0, chrt.resSlot := slot } a true chrtCmdAddr st

/-- The bus checks and `BUSY` of a write of `CHRT_CMD`, the state the command does not allow, the must-be-zero bits, then the
command (R385, R542, Table 12.7). -/
def chrtCmd (s : State) (a : Access) (v : Word) (bad : State → Bool) (k : State → State) : State :=
  regWrite s a chrtCmdAddr (refuseIf s.chrt.deleting.isSome .wrongState) none (fun x =>
    match orElse (refuseIf (bad x) .wrongState) (mbz v (maskBits 59 0)) with
    | some st => chrtRefused x a st (argSlot x)
    | none => k x)

/-- The slot that holds a target's shadow: the target itself, or its partner. -/
def shadowOf (s : State) (t : Nat) : Option Nat :=
  let x := s.slot t
  if x.st = .shadow || x.st = .confirmed then (if x.partner.isNone then some t else none)
  else match x.partner with
    | some q => if (s.slot q).st = .shadow || (s.slot q).st = .confirmed then some q else none
    | none => none

/-! ### Import (R370 to R372) -/

/-- The fields of an import package body (Table 12.5). -/
structure Package where
  part : Nat
  owner : Nat
  cls : Nat
  usage : Nat
  epoch : Nat
  seq : Nat
  mask : Nat
  bank : Nat
  dests : Nat
  deriving DecidableEq, Repr

def packageOf (b : Bytes) : Package :=
  let d := leAt b 40 8
  { part := leAt b 24 1 % 32, owner := leAt b 25 1, cls := leAt b 26 1, usage := leAt b 27 1 % 32, epoch := leAt b 28 2, seq := leAt b 32 8,
    mask := d % 2 ^ 18, bank := d / 2 ^ 18 % 8, dests := d / 2 ^ 21 % 256 }

/-- The attribute word an import gives: owner index for `CONTRIB` and `SHARE`, `BLOCK` for `FABRIC` (Table 12.1). -/
def packageAttr (g : Package) : Word :=
  mkAttr (if g.cls = 4 ∨ g.cls = 5 then g.owner else 0) g.part g.cls g.usage g.epoch g.mask g.bank g.dests (g.cls = 3)

/-- Stage 2: magic, zero fields, `BLOCK` (Table 12.6). -/
def packageForm (s : State) (b : Bytes) : Bool :=
  b.take 8 = ascii "ORPV-KI1" && isBlock s (slice b 8 16) && leAt b 24 1 < 32 && leAt b 27 1 < 32 && leAt b 30 2 = 0
    && leAt b 40 8 / 2 ^ 29 = 0 && leAt b 48 16 = 0 && leAt b 161 31 = 0

/-- First and last slot of the area an import of a class targets (R371). -/
def areaOf (cls : Nat) : Nat × Nat := if cls = 3 then (12, 31) else (160, 511)

/-- The `USAGE` is one the class allows (R357): Table 12.2 names none, so which bits those are is free; none at all is always within (log 146). -/
def usageAllowed (c u : Nat) : Bool := u = 0 || decide (BitVec.ofNat 5 u &&& ~~~(Config.classUsage c) = 0)

/-- Stage 3 (Table 12.6). -/
def packageArgs (s : State) (g : Package) : Bool :=
  (g.cls = 3 || g.cls = 4 || g.cls = 5 || g.cls = 8 || g.cls = 9)
    && (if g.cls = 3 then g.owner = 0xFF && g.part = 0 else g.owner < 8 && (s.part g.part).owners.testBit g.owner)
    && usageAllowed g.cls g.usage
    && (g.mask ||| classEngines g.cls) = classEngines g.cls
    && (g.cls = 8 || g.cls = 9 || g.dests = 0)
    && (argAny s || ((areaOf g.cls).1 ≤ argSlot s && argSlot s ≤ (areaOf g.cls).2))

/-- The key epoch in force of a partition, or of the fabric (32). -/
def epochNow (s : State) (i : Nat) : Nat := epochAt s i s.mrd.step

/-- The owner of a slot's key: in its attribute word for `CONTRIB` and `SHARE`, else as the import named it (Table 12.1, R371). -/
def slotOwner (x : Slot) : Nat := if atClass x.attr = 4 ∨ atClass x.attr = 5 then atOwner x.attr else x.owner

/-- The identity of a key: class and epoch, with partition and owner but for `FABRIC` (R371). -/
def sameIdentity (g : Package) (x : Slot) : Bool :=
  atClass x.attr = g.cls && atEpoch x.attr = g.epoch
    && (g.cls = 3 || (atPart x.attr = g.part && !atBlock x.attr && slotOwner x = g.owner))

/-- One key of an identity at a time (R371). -/
def uniqueClass (c : Nat) : Bool := c = 3 || c = 4 || c = 5

/-- Stage 6: the target, and whether it is a replacement (R371). -/
def importTarget (s : State) (g : Package) : Except Status (Option (Nat × Bool)) :=
  let area := areaOf g.cls
  let held := findSlot s (fun x => x.st ≠ .empty && sameIdentity g x)
  let active := findSlot s (fun x => x.st = .active && sameIdentity g x)
  let psec := g.cls = 5 && (activeSlot s 6 g.part 0 g.epoch).isSome
  if psec then .error .wrongState
  else
    let t := if argAny s then
        (match (if uniqueClass g.cls then active else none) with | some i => some i | none => lowestFree s area.1 area.2)
      else some (argSlot s)
    match t with
    | none => .ok none
    | some i =>
      let x := s.slot i
      if x.st = .empty then (if uniqueClass g.cls && held.isSome then .error .wrongState else .ok (some (i, false)))
      else if x.st = .active && sameIdentity g x && x.partner.isNone then .ok (some (i, true))
      else .error .wrongState

/-- Stage 7: a slot for the shadow within the area and the quota (Table 12.6). -/
def shadowSlot (s : State) (g : Package) (t : Option (Nat × Bool)) : Option Nat :=
  let area := areaOf g.cls
  let quota := g.cls = 3 || slotsHeld s g.part + 1 ≤ (s.part g.part).qSlots
  match t with
  | none => none
  | some (i, false) => if quota then some i else none
  | some (_, true) => if quota then lowestFree s area.1 area.2 else none

/-- The signer of a `FABRIC` package: a non-revoked integrator entry (R370, R416). -/
def integratorSigner (s : State) (keys : Bytes) : Bool :=
  !unusable s s.logb.sensed 7 &&
    (List.range 8).any (fun k => !(revoked s 1).testBit k && integratorHash s k ≠ 0 && integratorHash s k = Config.sha384 keys)

/-- The key-encryption key and the unwrapped key; none where a stage of R372 fails. -/
def unwrapKey (seed : Key) (b : Bytes) : Option Key :=
  match pointOf (slice b 64 97) with
  | none => none
  | some q =>
    match ecMul p384 (scalarOf p384 2 seed) (some q) with
    | none => none
    | some z =>
      let ks := mlkemSeed seed
      let kem := Config.mlkemDecaps ks.1 ks.2 (slice b 192 1568)
      let kek := kdfBytes (kem.take 32 ++ beBytes 48 z.1) "ORPV-IM1" (digestBytes (Config.sha384 (b.take 1760)))
      let ct := slice b 1760 32
      if Config.gcmTag kek 0 (b.take 64) ct = BitVec.ofNat 128 (beAt b 1792 16) then
        some (keyOf (fun i => ct.getD i 0 ^^^ Config.gcmStream kek 0 i))
      else none

/-- The slot of the import seed of a package's scope (Table 17.1). -/
def seedSlot (g : Package) : Nat := if g.cls = 3 then 2 else 33 + 4 * g.part

/-- The sequence number index of a package's owner. -/
def seqIndex (g : Package) : Nat := if g.cls = 3 then 256 else 8 * g.part + g.owner

/-- Requests of DRBG instance 0 that stage 9 makes in the engine: `ECDH`, then `MLKEM_DECAPS` (13 R399). -/
def agreeDraws : Nat := programDraws 0x11 false + programDraws 0x2A false

/-- Stages 2 to 9 on a package body with its signature entry and keys (Table 12.6; stage 4 also asks for a mask and for the draws of stage 9,
log 102): the failing stage and status, or the target slot and the next state. -/
def importStages (s : State) (b : Bytes) (policy : Option Bytes) : Except (Nat × Status) (Nat × State) :=
  let g := packageOf b
  let now := epochNow s (if g.cls = 3 then 32 else g.part)
  if !packageForm s b then .error (2, .badFormat)
  else if !packageArgs s g then .error (3, .badArg)
  else if (g.cls ≠ 3 && (s.part g.part).st ≠ .owned) || !classAdmitted s g.cls (g.cls = 3) || !canPut s g.cls || !drbgServesAll s 0 agreeDraws then
    .error (4, .wrongState)
  else if !((g.cls = 8 || g.cls = 9 || g.epoch = now || g.epoch = (now + 1) % 2 ^ 16) && tget 0 s.chrt.seqs (seqIndex g) < g.seq) then .error (5, .badArg)
  else match importTarget s g with
    | .error st => .error (6, st)
    | .ok t => match shadowSlot s g t with
      | none => .error (7, .quota)
      | some sh =>
        let tgt := match t with | some (i, _) => i | none => sh
        let keys := if g.cls = 3 then .ok (slice b 6544 2752) else (policyRecord s g.part policy).map (fun r => ownerKeys r g.owner)
        match keys with
        | .error st => .error (8, st)
        | .ok ks =>
          if (g.cls = 3 && !integratorSigner s ks) || !hybridVerify ks (slice b 1808 4736) (b.take 1808) then .error (8, .sigFail)
          else match (slotKey s (seedSlot g)).bind (fun seed => unwrapKey seed b) with
            | none => .error (9, .tagFail)
            | some key =>
              let pair := match t with | some (i, true) => some i | _ => none
              let s0 := putSlot s sh .shadow key (packageAttr g) pair
              let s1 := s0.setSlot sh { s0.slot sh with owner := g.owner }
              let s2 := match pair with | some i => s1.setSlot i { s1.slot i with partner := some sh } | none => s1
              .ok (tgt, { s2 with chrt.seqs := tset 0 s2.chrt.seqs (seqIndex g) g.seq })

/-- A package that fails its partition's quota of slots sets `QUOTA` (R316). -/
def quotaCause (s : State) (g : Package) : State :=
  if g.cls ≠ 3 ∧ (s.part g.part).qSlots < slotsHeld s g.part + 1 then raise s (0x80 + g.part) 4 else s

/-- `IMPORT` (R371): stage 1 reads the package, management windows for `FABRIC` and region windows for the rest. -/
def importOp (s : State) (a : Access) (pkg policy : Option Bytes) : State :=
  let mg := bitOf s.chrt.cmdAddr 53
  let addr := fld s.chrt.cmdAddr 47 0
  let len := if mg then 1808 + 4736 + 2752 else 1808 + 4736
  let inside := if mg then inMgmtWindows s addr len false else inRegions s (fld s.chrt.cmdAddr 52 48) addr len false
  match helmRead inside pkg len with
  | .error st => chrtDone s a st 1 (argSlot s)
  | .ok b =>
    if ((packageOf b).cls = 3) ≠ (mg = true) then chrtDone s a .bounds 1 (argSlot s)
    else match importStages s b policy with
      | .error (n, st) =>
        chrtDone (if n = 9 then engineRuns (noteBad s (seedSlot (packageOf b))) agreeDraws else if n = 8 then engineUp s
          else if st = .quota then quotaCause s (packageOf b) else s) a st n (argSlot s)
      | .ok (t, s1) => chrtDone (engineRuns s1 agreeDraws) a .ok 0 t

/-! ### Confirm, commit, discard, delete, generate -/

/-- The target has no shadow in a state (Table 12.7). -/
def noShadowIn (c : SlotSt → Bool) (s : State) : Bool :=
  match shadowOf s (argSlot s) with | some i => !c (s.slot i).st | none => true

/-- `CONFIRM` (R373). -/
def confirmOp (s : State) (a : Access) : State :=
  let t := argSlot s
  match shadowOf s t with
  | none => chrtRefused s a .wrongState t
  | some i =>
    let x := s.slot i
    if x.bad || !slotSound s i then chrtDone (noteBad s i) a .tagFail 0 t
    else
      let mac := kmac (keyBytes (x.key ^^^ x.mask)) (keyBytes s.chrt.nonce ++ wordBytes x.attr) 32 "ORPV-KC1"
      chrtDone { s.setSlot i { x with st := .confirmed } with chrt.confirm := keyOf (fun j => mac.getD j 0) } a .ok 0 t

/-- The `SHARE` slots of the other owners of a partition's epoch, where each of them has one (R367). -/
def otherShares (s : State) (attr : Word) : Option (List Nat) :=
  let l := ((bitsOf 8 (s.part (atPart attr)).owners).filter (· ≠ atOwner attr)).map (fun o => activeSlot s 5 (atPart attr) o (atEpoch attr))
  if l.any (·.isNone) then none else some (l.filterMap id)

/-- Why a `COMMIT` of the last share cannot form the secret: another share that is `BAD` (R363; log 147), or no mask for it (R383). -/
def shareRefusal (s : State) (attr : Word) : Option Status :=
  if atClass attr ≠ 5 then none
  else match otherShares s attr with
    | none => none
    | some l =>
      if l.any (fun i => (slotKey s i).isNone) then some .tagFail else refuseIf (!canPut s 6) .wrongState

/-- The last share of an epoch forms the partition secret in its own slot and frees the others (R367). -/
def formSecret (s : State) (t : Nat) : State :=
  let attr := (s.slot t).attr
  let p := atPart attr
  let e := atEpoch attr
  let owners := bitsOf 8 (s.part p).owners
  let shares := owners.map (fun o => activeSlot s 5 p o e)
  if shares.any (·.isNone) then s
  else
    let ks := shares.filterMap (fun x => x.bind (slotKey s))
    if ks.length ≠ owners.length then s
    else
      let secret := kdfBytes ((ks.map keyBytes).flatten) "ORPV-PS1" (beBytes 1 p ++ beBytes 2 e ++ digestBytes (s.part p).policy)
      let s1 := (shares.filterMap id).foldl (fun st i => if i = t then st else zeroSlot st i) s
      putSlot s1 t .active secret (mkAttr 0 p 6 4 e (2 ^ 16 - 1 + 2 ^ 17) 0 0 false) none

/-- `COMMIT` (R374). A `BAD` shadow, target or needed share ends it, and only the mark changes (R363; log 147). -/
def commitOp (s : State) (a : Access) : State :=
  let t := argSlot s
  match shadowOf s t with
  | none => chrtRefused s a .wrongState t
  | some i =>
    let x := s.slot i
    let old := s.slot t
    if x.bad || !slotSound s i then chrtDone (noteBad s i) a .tagFail 0 t
    else if old.bad || (old.st ≠ .empty && !slotSound s t) then chrtDone (noteBad s t) a .tagFail 0 t
    else match shareRefusal s x.attr with
    | some st => chrtDone (((otherShares s x.attr).getD []).foldl noteBad s) a st 0 t
    | none =>
      let s1 := flushDerived s t
      let s2 := s1.setSlot t { x with st := .active, partner := none }
      let s3 := if i = t then s2 else s2.setSlot i {}
      let s4 := if atClass x.attr = 5 then formSecret s3 t else s3
      chrtDone s4 a .ok 0 t

/-- `DISCARD` (Table 12.7); only `DELETE` clears a `BAD` shadow (R363). -/
def discardOp (s : State) (a : Access) : State :=
  let t := argSlot s
  match shadowOf s t with
  | none => chrtRefused s a .wrongState t
  | some i =>
    if (s.slot i).bad then chrtDone s a .tagFail 0 t
    else
    let s1 := zeroSlot s i
    chrtDone (if i = t then s1 else s1.setSlot t { s1.slot t with partner := none }) a .ok 0 t

/-- A slot, its paired shadow, and everything derived from it go (R375). -/
def deleteNow (s : State) (t : Nat) : State :=
  let s1 := match (s.slot t).partner with
    | some q => let y := s.slot q
      if y.st = .active then s.setSlot q { y with partner := none } else zeroSlot s q
    | none => s
  zeroSlot s1 t

/-- A delivery has read the slot and not ended (`CHRT_SLOT_INFO.BUSY`). -/
def slotBusy (s : State) (t : Nat) : Bool := match s.chrt.delivery with | some d => d.slot = t && d.sent | none => false

/-- `DELETE` is accepted on a non-`EMPTY` slot outside the reserves (Table 12.7). -/
def deleteBad (s : State) : Bool :=
  let t := argSlot s
  (s.slot t).st = .empty || t < 160

/-- `DELETE` (R375), waiting for the delivery that has read the slot. -/
def deleteOp (s : State) (a : Access) : State :=
  let t := argSlot s
  if slotBusy s t then { s with chrt.deleting := some t }
  else chrtDone (deleteNow s t) a .ok 0 t

/-- The slot a `GENERATE` fills: the one named, or the lowest empty one of the block reserve (Table 12.7). -/
def genSlot (s : State) : Option Nat := if argAny s then lowestFree s 12 31 else some (argSlot s)

/-- `GENERATE` is refused where no such slot is `EMPTY`, for a class the lifecycle excludes, and where a random instance it needs cannot
serve (Table 12.7, R358, R383). -/
def generateBad (s : State) : Bool :=
  (match genSlot s with | some i => (s.slot i).st ≠ .empty && (12 ≤ i && i ≤ 31) | none => true) || !classAdmitted s (atClass s.chrt.genAttr) true
    || !drbgServes s 0 || !canPut s (atClass s.chrt.genAttr)

/-- `GENERATE` (Table 12.7, R357, R358). -/
def generateOp (s : State) (a : Access) : State :=
  let w := s.chrt.genAttr
  let c := atClass w
  let bad := !atBlock w || !(c = 8 || c = 9) || atMask w ≠ 0 || bitOf w 1 || atOwner w ≠ 0 || atPart w ≠ 0
    || !usageAllowed c (fld w 51 47) || (!argAny s && !(12 ≤ argSlot s && argSlot s ≤ 31))
  match genSlot s with
  | none => chrtRefused s a .wrongState (argSlot s)
  | some i =>
    if bad then chrtRefused s a .badArg (argSlot s)
    else
      let d := drbgDraw s 0
      chrtDone (putSlot d.2 i .active (BitVec.ofNat 256 d.1) w none) a .ok 0 i

/-! ### Key delivery (R378, R379) -/

/-- A delivery ends: `CHRT_KD_LAST`, `KD_DONE` or `KD_FAIL`, and a `DELETE` that waited for it (R375, R379). `CHRT_CMD_RESULT` then holds
the status of the `DELIVER` (log 149). -/
def deliveryEnd (s : State) (st : Status) : State :=
  match s.chrt.delivery with
  | none => s
  | some d =>
    let s1 := { s with
      chrt.delivery := none, chrt.kdStatus := stCode st, chrt.kdDest := d.dest, chrt.kdSlot := d.slot, chrt.status := stCode st
      chrt.stage := 0, chrt.resSlot := d.slot }
    let s2 := noteCmd (raise s1 0x0B (if st = .ok then 0 else 1)) d.acc chrtCmdAddr st
    match s2.chrt.deleting with
    | some t => if t = d.slot then
        (let s3 := deleteNow { s2 with chrt.deleting := none } t
         raise { s3 with chrt.status := 0, chrt.stage := 0, chrt.resSlot := t } 0x0A 0)
      else s2
    | none => s2

/-- Conditions 1 to 3 of R378 for slot `t` and destination `d`. -/
def deliverCheck (s : State) (t d : Nat) : Option Status :=
  let x := s.slot t
  let e := destEntry s d
  if x.bad || (x.st ≠ .empty && !slotSound s t) then some .tagFail
  else if x.st ≠ .active then some .wrongState
  else if atBank x.attr ≠ d / 8 || !(atDests x.attr).testBit (d % 8) then some .destDenied
  else refuseIf (!(bitOf e 47 && fld e 43 32 ≠ 0 && (fld e 63 48).testBit (atClass x.attr) && (atBlock x.attr || bitOf e 46))) .destDenied

/-- `DELIVER`: condition 1 refuses it, conditions 2 and 3 end it as a delivery that failed; the verdict of condition 4 is then awaited
(R378, 19 `ST_DEST_DENIED`). -/
def deliverOp (s : State) (a : Access) : State :=
  let t := argSlot s
  let d := argDest s
  let s1 := { s with chrt.delivery := some { acc := a, slot := t, dest := d, sent := false } }
  match deliverCheck s t d with
  | none => noteBad s1 t
  | some .destDenied => deliveryEnd s1 .destDenied
  | some st => chrtRefused (noteBad s t) a st t

/-- An open verdict finds the conditions of R378 again, on what the slot and the destination's entry hold now (R2, R356, R363). -/
def deliverAgain (s : State) (d : Delivery) : Option Status := deliverCheck s d.slot d.dest

/-- An open key-release verdict sends the four beats (R379, Table 18.6). -/
def deliverBeats (s : State) : State :=
  match s.chrt.delivery with
  | none => s
  | some d =>
    let x := s.slot d.slot
    let k := (x.key ^^^ x.mask).toNat
    let part := if atBlock x.attr then 0x1F else atPart x.attr
    (List.range 4).foldl (fun st b => st.emit (.kdp b d.dest (atEpoch x.attr) part (BitVec.ofNat 64 (k / 2 ^ (64 * b)))))
      { s with chrt.delivery := some { d with sent := true } }

/-- A key-release deny or fault: no beat, `ST_DEST_DENIED` (01 R13, R14). -/
def deliverDenied (s : State) : State := deliveryEnd s .destDenied

/-- Raise the cancel indication where a delivery is cut between its first beat and its answer (R379, 18 R523). -/
def cancelDelivery (s : State) : State :=
  match s.chrt.delivery with
  | some d => if d.sent then { s with pins.kdpCancel := true, pins.kdpCdest := d.dest, chrt.delivery := none } else { s with chrt.delivery := none }
  | none => s

/-- The answer limit of the running delivery in `CLK_SEC` cycles from its first beat (Table 18.6). -/
def ackLimit (s : State) (d : Delivery) : Nat := 4 + 750 * fld (destEntry s d.dest) 43 32

/-- An answer of a destination (R522). -/
def kdpAnswer (s : State) (ack nack : Bool) (dest cycle : Nat) : State :=
  match s.chrt.delivery with
  | some d =>
    if d.sent && dest = d.dest && 4 ≤ cycle && cycle < ackLimit s d && (ack || nack) then
      if nack then deliveryEnd s .destDenied
      else deliveryEnd { s with chrt.deliveries := bump s.chrt.deliveries 1 } .ok
    else s
  | none => s

/-- No answer within `ACK_US` (R379). -/
def kdpTimeout (s : State) (cycle : Nat) : State :=
  match s.chrt.delivery with
  | some d => if d.sent && ackLimit s d ≤ cycle then deliveryEnd { s with pins.kdpCancel := true, pins.kdpCdest := d.dest } .deadline else s
  | none => s

/-! ### Re-masking (R360, R361) -/

/-- Replace both shares of a slot, its check made; without instance 34, or where the slot is `BAD`, it keeps its shares (R360, R363, R383). -/
def remaskSlot (s0 : State) (i : Nat) : State :=
  let s := noteBad s0 i
  let x := s.slot i
  if x.bad || !drbgServes s 34 then s
  else
  let d := drbgDraw s 34
  let r : Key := BitVec.ofNat 256 d.1
  { d.2.setSlot i { x with key := x.key ^^^ r, mask := x.mask ^^^ r, remaskAt := s.mrd.wall } with chrt.remasks := bump s.chrt.remasks 1 }

/-- Re-mask every occupied masked slot that satisfies a test, ascending. -/
def remaskWhere (s : State) (c : Slot → Bool) : State :=
  (s.chrt.slots.filter (fun e => e.2.st ≠ .empty && !checkedClass s (atClass e.2.attr) && c e.2)).foldl (fun st e => remaskSlot st e.1) s

/-- A `REMASK` event of the schedule: the classes of `ARG` (R360). -/
def remaskEvent (s : State) (arg : Nat) : State := remaskWhere s (fun x => arg.testBit (atClass x.attr))

/-- The floor of R361. -/
def remaskFloorOp (s : State) : State := remaskWhere s (fun x => x.remaskAt + 1000 * s.chrt.floorMs ≤ s.mrd.wall)

/-! ### Context epochs and derived keys (R369, Table 12.4) -/

/-- `USAGE` of a key the block derives: the spec gives it for `PSEC` alone, the rest is free (log 50). -/
def usageOf (c : Nat) : Nat := (Config.derivedUsage c).toNat

/-- The context key of a partition's epoch from the root (Table 12.4). -/
def contextKey (root : Key) (p : Nat) (policy : BitVec 384) (c : Nat) : Key :=
  kdf root "ORPV-CT1" (beBytes 1 p ++ digestBytes policy ++ beBytes 2 c)

/-- One roll of the context epoch (R369): the previous slot goes, the current key moves there, the next is derived. Without a mask for
the next there is no roll (R383; log 150). -/
def rollContext (s : State) (p : Nat) : State :=
  match s.chrt.root with
  | none => s
  | some root =>
    let cur := 34 + 4 * p
    let prv := 35 + 4 * p
    if (s.slot cur).st = .empty || !canPut s 7 then s
    else
      let s1 := zeroSlot s prv
      let x := s1.slot cur
      let s2 := s1.setSlot prv x
      let c := tget 0 s2.chrt.ctxEpoch p + 1
      let s3 := { s2 with chrt.ctxEpoch := tset 0 s2.chrt.ctxEpoch p (c % 2 ^ 16), chrt.derives := bump s2.chrt.derives 1 }
      putSlot s3 cur .active (contextKey root p (s3.part p).policy (c % 2 ^ 16)) (mkAttr 0 p 7 (usageOf 7) (c % 2 ^ 16) (255 * 256) 0 0 false) none

/-- The alias seed of a partition (Table 17.1). -/
def partAlias (s : State) (root : Key) (p : Nat) : Key :=
  kdf root "ORPV-AL1" (beBytes 1 p ++ digestBytes (s.part p).policy ++ digestBytes s.spdm.idA)

/-- Derive the reserve keys of a partition at `ASSIGN` step 6 (R369, Table 17.1). -/
def derivePart (s : State) (p : Nat) : State :=
  match s.chrt.root with
  | none => s
  | some root =>
    let pol := (s.part p).policy
    let s1 := putSlot s (32 + 4 * p) .active (partAlias s root p) (mkAttr 0 p 1 (usageOf 1) 0 (2 ^ 16) 0 0 false) none
    let s2 := putSlot s1 (33 + 4 * p) .active (kdf root "ORPV-IK1" (beBytes 1 p ++ digestBytes pol)) (mkAttr 0 p 2 (usageOf 2) 0 (2 ^ 16) 0 0 false) none
    let s3 := putSlot s2 (34 + 4 * p) .active (contextKey root p pol 0) (mkAttr 0 p 7 (usageOf 7) 0 (255 * 256) 0 0 false) none
    { (s3.setSlot (35 + 4 * p) {}) with chrt.ctxEpoch := tset 0 s3.chrt.ctxEpoch p 0, chrt.derives := bump s3.chrt.derives 3 }

/-- Derive the block reserve keys from the root: DeviceID, block alias, block import (Table 17.1, R382 step 4). -/
def deriveBlock (s : State) : State :=
  match s.chrt.root with
  | none => s
  | some root =>
    let z := zeros 16
    let s1 := putSlot s 0 .active (kdf root "ORPV-ID1" z) (mkAttr 0 0 0 (usageOf 0) 0 (2 ^ 16) 0 0 true) none
    let s2 := putSlot s1 1 .active (kdf root "ORPV-AL0" (digestBytes s.spdm.idA)) (mkAttr 0 0 0 (usageOf 0) 0 (2 ^ 16) 0 0 true) none
    let s3 := putSlot s2 2 .active (kdf root "ORPV-IK0" z) (mkAttr 0 0 2 (usageOf 2) 0 (2 ^ 16) 0 0 true) none
    { s3 with chrt.derives := bump s3.chrt.derives 3 }

/-- The root of R365 for the state and the debug rights (Table 12.3): test root, device root, or none. -/
def rootFor (s : State) (test : Bool) : Option Key :=
  if s.logb.lifted || s.life.st = 0 || s.life.st = 5 then none
  else if test || s.life.st = 1 then
    (if unusable s s.logb.sensed 11 then none else some (kdfBytes (fuseBytes s 11 0 4) "ORPV-RT1" (zeros 16)))
  else some (kdfBytes (fuseBytes s 2 0 4) "ORPV-RT1" (zeros 16))

/-- Form the root (R365, R382). -/
def formRoot (s : State) (test : Bool) : State :=
  { s with chrt.root := rootFor s test, chrt.testRoot := (rootFor s test).isSome && (test || s.life.st = 1) }

/-- Old-epoch slots go after a key epoch has left (R368): `p` a partition, or 32 the fabric. -/
def freeOldEpoch (s : State) (p old : Nat) : State :=
  zeroSlots s (fun _ x => x.st ≠ .empty && atEpoch x.attr = old &&
    (if p = 32 then atClass x.attr = 3
     else atPart x.attr = p && !atBlock x.attr && (atClass x.attr = 4 || atClass x.attr = 5 || atClass x.attr = 6)))

/-! ### The meanings of the page's commands -/

/-- `CHRT_IMPORT` (R371). -/
def execChrtImport (a : Access) (v : Word) (pkg policy : Option Bytes) (s : State) : Host.Outcome State Fault Refusal :=
  .next (chrtCmd s a v (fun _ => false) (fun s1 => importOp s1 a pkg policy))

/-- `CHRT_CONFIRM` (R373). -/
def execChrtConfirm (a : Access) (v : Word) (s : State) : Host.Outcome State Fault Refusal :=
  .next (chrtCmd s a v (noShadowIn (· = .shadow)) (fun s1 => confirmOp s1 a))

/-- `CHRT_COMMIT` (R374). -/
def execChrtCommit (a : Access) (v : Word) (s : State) : Host.Outcome State Fault Refusal :=
  .next (chrtCmd s a v (noShadowIn (· = .confirmed)) (fun s1 => commitOp s1 a))

/-- `CHRT_DISCARD` (R373). -/
def execChrtDiscard (a : Access) (v : Word) (s : State) : Host.Outcome State Fault Refusal :=
  .next (chrtCmd s a v (noShadowIn (fun _ => true)) (fun s1 => discardOp s1 a))

/-- `CHRT_DELETE` (R375). -/
def execChrtDelete (a : Access) (v : Word) (s : State) : Host.Outcome State Fault Refusal :=
  .next (chrtCmd s a v deleteBad (fun s1 => deleteOp s1 a))

/-- `CHRT_GENERATE` (R373). -/
def execChrtGenerate (a : Access) (v : Word) (s : State) : Host.Outcome State Fault Refusal :=
  .next (chrtCmd s a v generateBad (fun s1 => generateOp s1 a))

/-- `CHRT_DELIVER` (R378): refused while a delivery runs. -/
def execChrtDeliver (a : Access) (v : Word) (s : State) : Host.Outcome State Fault Refusal :=
  .next (if s.chrt.delivery.isSome then regWrite s a chrtCmdAddr (some .wrongState) none id else chrtCmd s a v (fun _ => false) (fun s1 => deliverOp s1 a))

/-- `KDP_ANSWER` (R522). -/
def execKdpAnswer (ack nack : Bool) (dest : BitVec 6) (cycle : Nat) (s : State) : Host.Outcome State Fault Refusal :=
  .next (whenSec s (fun x => kdpAnswer x ack nack dest.toNat cycle))

/-- `KDP_ACK_TIMEOUT` (R379). -/
def execKdpAckTimeout (cycle : Nat) (s : State) : Host.Outcome State Fault Refusal := .next (whenSec s (fun x => kdpTimeout x cycle))

/-- `REMASK_FLOOR` (R361): time passes, then every masked slot past the floor is re-masked. -/
def execRemaskFloor (us : Nat) (s : State) : Host.Outcome State Fault Refusal := .next (afterTime s us remaskFloorOp)

end Sys2Proof.Machine
end

