-- ==== Sys2Proof/Machine/Meridian.lean ====
section
/-! DEFINITION. Meridian (chapter 9): the schedule table and its phases, step boundaries, and what advances the step.
A handler `fab` stands for what a frame that returns from parking at a boundary's end does. -/

namespace Sys2Proof.Machine

/-! ### Phases (R294, R296, R548) -/

/-- The phases of a type: bit 0 at *S* − 1, bit 1 at *S*, bit 2 at *S* + 1 (Table 9.3). -/
def phaseMask (typ : Nat) : Nat := if typ = 1 then 7 else if typ = 2 then 6 else 2

/-- A phase of the table: its step, its entry and its bit. -/
structure Due where
  step : Nat
  idx : Nat
  bit : Nat
  deriving DecidableEq, Repr

/-- Insert a phase in table order: ascending step, then ascending entry (R296). -/
def insertDue (d : Due) : List Due → List Due
  | [] => [d]
  | e :: r => if d.step < e.step ∨ (d.step = e.step ∧ d.idx < e.idx) then d :: e :: r else e :: insertDue d r

/-- The phases of one entry that have not fired. -/
def openPhases (i : Nat) (e : Sched) : List Due :=
  if e.valid then ((bitsOf 3 (phaseMask e.typ)).filter (fun b => !e.phases.testBit b)).map (fun b => { step := e.step + b - 1, idx := i, bit := b })
  else []

/-- Every phase that has not fired, in the order of R296. -/
def allPhases (s : State) : List Due :=
  ((s.mrd.sched.map (fun e => openPhases e.1 e.2)).flatten).foldl (fun acc d => insertDue d acc) []

/-- The phases due at a step, in the order of R296: those at or below it (R291, R548). -/
def duePhases (s : State) (b : Nat) : List Due := (allPhases s).filter (fun d => d.step ≤ b)

/-- Occurrences of a periodic entry up to a step (R296). -/
def occurrences (e : Sched) (b : Nat) : Nat := (b - e.step) / e.period + 1

/-- An entry after one of its phases has fired: marked, moved on if periodic, cleared after its last phase (R296). -/
def firedEntry (e : Sched) (bit b : Nat) : Sched :=
  if e.period ≠ 0 then { e with fired := true, step := low 48 (e.step + occurrences e b * e.period) }
  else
    let ph := setBit e.phases bit
    if ph = phaseMask e.typ then { w1 := e.w1 } else { e with fired := true, phases := ph }

/-! ### The actions (Table 9.3) -/

/-- The clock a `KEY_EPOCH` entry changes: a partition's, or the fabric's. -/
def clockIndex (e : Sched) : Nat := if e.fabric then 32 else e.part

/-- A cache entry of a partition's, or the fabric's, epoch. -/
def ofEpoch (i old : Nat) (e : KcEntry) : Bool :=
  (if i = 32 then e.use = 4 else e.use ≠ 4 && e.part = i) && e.epoch = old

/-- Set a cause on the pages of every pipe that is not `OFFLINE` or `RETIRED` (R182). -/
def raisePipes (s : State) (c : Nat) : State :=
  (List.range 16).foldl (fun st k => if (st.pipe k).st = .offline || (st.pipe k).st = .retired then st else raise st (larkPage k) c) s

/-- The old key epoch leaves: its collectives abort, its cache entries go, the pair closes, Chartroom frees its slots
(R155, R182, R205, 12 R368). A collective past release is not aborted, only cut short (06 R202), and raises no `EPOCH_ABORT` alone. -/
def closeEpoch (s : State) (i : Nat) : State :=
  let c := s.clockOf i
  let hit (p : Nat) (e : Entry) : Bool := p = i && e.kEpoch = c.low
  let any := (admittedAll s).any (fun x => hit x.1 x.2 && isLive x.2)
  let s1 := abortWhere hit { st := .deadline, detail := 0xC0000000 + c.low } s
  let s2 := if any then raisePipes s1 1 else s1
  let s3 := zeroAllCaches s2 (ofEpoch i c.low)
  freeOldEpoch (s3.setClock i { s3.clockOf i with low := c.high, high := 0, pair := false }) i c.low

/-- `KEY_EPOCH` (R154, R155). -/
def fireKeyEpoch (s : State) (e : Sched) (bit : Nat) : State :=
  let i := clockIndex e
  let c := s.clockOf i
  if bit = 0 then s.setClock i { c with high := e.arg, pair := true }
  else if bit = 1 then s.setClock i { c with hist := (e.step, e.arg) :: c.hist }
  else closeEpoch s i

/-- The copies change places at *S* (R217). -/
def swapCopies (s : State) (step : Nat) : State :=
  { s with
    grp.descA := s.grp.descS, grp.descS := s.grp.descA, grp.mbrA := s.grp.mbrS, grp.mbrS := s.grp.mbrA,
    grp.epA := s.grp.epS, grp.epS := s.grp.epA, grp.frozen := false, grp.oldHeld := true, grp.since := some step, grp.lastSwap := some step }

/-- A window is kept at *S* + 1: its group's new descriptor is `VALID` and names the same partition and tile count (R218). -/
def windowKept (s : State) (w : Win) : Bool :=
  let d := s.desc false w.group
  bitOf d.w0 63 && dPart d = w.part && dTiles d = w.tiles

/-- An entry keeps the `DEADLINE_US` of its step's descriptor past that copy's retirement (R201). -/
def keepLimit (s : State) (p : Nat) (e : Entry) : Entry :=
  match entryDesc s p e with
  | some (d, true) => { e with limit := some (dDeadline d) }
  | _ => e

/-- Every entry of the old copy keeps its `DEADLINE_US` (R201). -/
def keepLimits (s : State) : State := { s with grp.lists := tmap [] (fun p l => l.map (keepLimit s p)) s.grp.lists }

/-- The old copy is retired at *S* + 1 (R217, R218): its collectives abort, windows without a group go, the refill starts. -/
def retireCopy (s : State) : State :=
  let old := s.grp.epS
  let s1 := abortWhere (fun _ e => (e.step.bind (copyAt s)) = some true) { st := .deadline, detail := 0xC0010000 + old } (keepLimits s)
  let gone := (s1.phlx.wins.filter (fun w => w.2.kind ≠ .free && !windowKept s1 w.2)).map (·.1)
  let s2 := gone.foldl freeWindowCmd s1
  { s2 with grp.oldHeld := false, grp.refill := true }

/-- `GROUP_SWAP` (R217, R222). -/
def fireSwap (s : State) (e : Sched) (bit : Nat) : State := if bit = 1 then raise (swapCopies s e.step) 0x60 2 else retireCopy s

/-- `BUDGET_PERIOD`: *k* grants come off `SPENT` (R250, R296). -/
def firePeriod (s : State) (e : Sched) (k : Nat) : State :=
  let b := s.budget e.part
  s.setBudget e.part { b with spent := b.spent - k * b.grant }

/-- The action of a phase, for *k* occurrences (Table 9.3). -/
def fireAction (s : State) (e : Sched) (bit k : Nat) : State :=
  if e.typ = 1 then fireKeyEpoch s e bit
  else if e.typ = 2 then fireSwap s e bit
  else if e.typ = 3 then remaskEvent s e.arg
  else if e.typ = 4 then firePeriod s e k
  else if e.typ = 5 then rollContext s e.part
  else if e.typ = 6 then selfTestEvent s
  else if e.typ = 7 then raise (raise s 0x04 3) (0x80 + e.part) 2
  else s

/-- Fire one phase: the entry is marked, then every part acts (R291 step 2, R296). -/
def firePhase (s : State) (d : Due) : State :=
  let e := s.schedOf d.idx
  let k := if e.period = 0 then 1 else min 0xFFFFF (occurrences e s.mrd.step)
  fireAction (s.setSched d.idx (firedEntry e d.bit s.mrd.step)) e d.bit k

/-- Fire up to `n` due phases of the running boundary. -/
def firePhases : Nat → State → State
  | 0, s => s
  | n + 1, s => match duePhases s s.mrd.step with
    | [] => s
    | d :: _ => firePhases n (firePhase s d)

/-! ### Boundaries (R291 to R293) -/

/-- `STEP` payload of the step master (Table 9.2); the period is not known (log 30). -/
def stepPayload (s : State) (b : Nat) : Bytes := wordBytes (pack [(63, 16, b), (14, 0, s.grp.rank)]) ++ zeros 8

/-- Send a `STEP` frame into step `b` on `RELAY_PORTS` where it may be sent (R289, R551). A relay, whose `HOP` is not 0, carries the step it
names, for a higher step supersedes it. DESIGN CHOICE (log 137): a master's own frame that must wait is not superseded, for R290 gives each
advance its frame, and its header names its own `NEW_STEP` (R288). -/
def sendStep (s : State) (b : Nat) (pay : Bytes) (hop : Nat) : State :=
  if s.mrd.relayPorts = 0 ∨ 255 < hop then s
  else
    let s1 := noteFabric s
    if fabricReady s1 5 s1.mrd.relayPorts then
      fabricGive s1 { cls := 5, ports := s1.mrd.relayPorts, part := 0, group := 0, hop := hop, payload := pay, heldNo := none,
                      relayOf := if hop = 0 then none else some b }
    else s1

/-- The held `ABORT` frames leave, in order, before any other fabric-class frame (R93). -/
def sendHeldAborts (s : State) : State :=
  s.park.holdQ.zipIdx.foldl (fun st x =>
    let f := x.1
    sendHeldAbort st x.2 f.1 f.2.1 f.2.2.1 f.2.2.2.1 f.2.2.2.2) { s with park.holdQ := [] }

/-- A frame is the relay of a step below `b`. -/
def superseded (b : Nat) (r : Option Nat) : Bool := (r.map (fun x => decide (x < b))).getD false

/-- Relays of lower steps that have not left are not sent, and each is counted (R289). -/
def dropRelays (s : State) (b : Nat) : State :=
  let old (f : OutFrame) : Bool := superseded b f.relayOf
  let n := (s.lark.unsent.filter (fun w => superseded b w.relayOf)).length
    + (s.lark.pipes.map (fun q => (q.2.outs.filter old).length)).sum
  { s with
    lark.unsent := s.lark.unsent.filter (fun w => !superseded b w.relayOf)
    lark.pipes := tmap {} (fun _ q => { q with outs := q.outs.filter (fun f => !old f) }) s.lark.pipes
    mrd.drops := bump s.mrd.drops n }

/-- An entry as the block enters step `b` at wall time `w`: one whose step is now reached takes that time as its entry into it, and one not
launched keeps it against the step its launch will give (R201). -/
def enterStep (b w : Nat) (e : Entry) : Entry :=
  let e1 := if e.stepAt.isNone && (e.step.map (fun x => decide (x ≤ b))).getD false then { e with stepAt := some w } else e
  if e.launched then e1 else { e1 with passed := e1.passed ++ [(b, w)] }

/-- Every entry enters step `b` (R201). -/
def enterSteps (s : State) (b : Nat) : State :=
  { s with grp.lists := tmap [] (fun _ l => l.map (enterStep b s.mrd.wall)) s.grp.lists }

/-- A boundary into step `b` begins: step 1 of R291, the held aborts, and the `STEP` frame it sends. -/
def startBoundary (s : State) (b : Nat) (out : Option (Bytes × Nat)) : State :=
  let a := s.mrd.step
  let s1 := { s with
    mrd.step := b, mrd.seen := true, mrd.running := some a, mrd.lastBoundary := s.mrd.wall, mrd.lateDone := false,
    mrd.jumps := if a + 1 < b then bump s.mrd.jumps 1 else s.mrd.jumps }
  let s2 := sendHeldAborts (enterSteps (dropRelays s1 b) b)
  match out with
  | some (pay, hop) => sendStep s2 b pay hop
  | none => s2

/-! ### Commands held at the step (R292) -/

/-- The step change of R287, judged. -/
def stepSetRefused (s : State) : Bool := anyAdmitted s || s.mrd.sched.any (fun e => e.2.valid)

/-- An entry, none of them admitted, as `MRD_STEP_SET` puts the block into step `b` at wall time `w`. -/
def placeEntry (b w : Nat) (e : Entry) : Entry :=
  { e with stepAt := if (e.step.map (fun x => decide (x ≤ b))).getD false then some (e.stepAt.getD w) else none, passed := [(b, w)] }

/-- The step changes: no event fires, `SEEN` clears, the hold queue empties, the class counters start anew, and relays of lower steps are not
sent (R287, R91, R93, R289). -/
def stepSetNow (s : State) (v : Word) : State :=
  let b := fld v 47 0
  dropHoldQ { dropRelays s b with
    mrd.step := b, mrd.seen := false, lark.fabSeq := [], lark.fabStep := b
    grp.lists := tmap [] (fun _ l => l.map (placeEntry b s.mrd.wall)) s.grp.lists }

/-- A state refusal of a write of word 0: the entry has fired a phase (R295). -/
def schedLocked (s : State) (i : Nat) : Bool := (s.schedOf i).valid && (s.schedOf i).fired

/-- The entry that words 0 and 1 commit (Table 9.9). -/
def schedEntry (v w1 : Word) : Sched :=
  { step := fld v 63 16, typ := fld v 15 12, valid := true, fired := false, part := fld v 9 5, fabric := bitOf v 4,
    arg := fld w1 63 48, period := fld w1 47 28, w1 := w1, phases := 0 }

/-- A step lies less than two after an earlier change (R156, R216). -/
def tooSoon (prev : Option Nat) (x : Nat) : Bool := match prev with | some p => decide (x < p + 2) | none => false

/-- The argument refusals of a commit (R295). -/
def schedBad (s : State) (i : Nat) (v : Word) : Bool :=
  let e := schedEntry v (s.schedOf i).w1
  let c := clockIndex e
  7 < e.typ || fld v 3 0 ≠ 0 || (e.typ ≠ 0 &&
    (fld e.w1 27 0 ≠ 0 || e.step ≤ s.mrd.step || (e.typ ≤ 2 && e.period ≠ 0)
      || (e.typ = 1 && (e.step ≤ s.mrd.step + 1 || e.arg ≠ (epochAt s c s.mrd.step + 1) % 2 ^ 16
          || s.mrd.sched.any (fun x => x.2.valid && x.2.typ = 1 && clockIndex x.2 = c)
          || tooSoon ((s.clockOf c).hist.head?.map (·.1)) e.step))
      || (e.typ = 2 && (s.mrd.sched.any (fun x => x.1 ≠ i && x.2.valid && x.2.typ = 2) || tooSoon s.grp.lastSwap e.step))))

/-- Commit or cancel an entry; a `GROUP_SWAP` freezes the shadow copy, and its cancel unfreezes it (R295, R216). -/
def schedNow (s : State) (i : Nat) (v : Word) : State :=
  let old := s.schedOf i
  let s1 := s.setSched i (if fld v 15 12 = 0 then { w1 := old.w1 } else schedEntry v old.w1)
  { s1 with grp.frozen := (pendingSwap s1).isSome }

/-- The address of an entry's word 0. -/
def schedAddr (i : Nat) : Nat := regAt 0x05 (0x100 + 16 * i)

/-- A write of word 1 of a schedule entry: it waits for the commit of word 0 (R295). -/
def schedStage (s : State) (i : Nat) (v : Word) : State :=
  s.setSched i { s.schedOf i with w1 := v }

/-- Run one held command: a refusal of a held write is recorded on its page (R292, R59). -/
def runHeld (s : State) (c : HeldCmd) : State :=
  match c with
  | .launch a _ => launchOp s a (fun _ => .normal)
  | .resyncSend a _ => launchOp s a (fun _ => .resyncSend)
  | .resyncRecv a _ => launchOp s a (fun r => .resyncRecv r)
  | .sched _ i true v => schedStage s i v
  | .sched a i false v =>
    if schedLocked s i then pageError s a true (schedAddr i) .wrongState
    else if schedBad s i v then pageError s a true (schedAddr i) .badArg
    else schedNow s i v
  | .stepSet a v => if stepSetRefused s then pageError s a true (regAt 0x04 0x60) .wrongState else stepSetNow s v

/-- Run the held commands in order. -/
def runHeldAll (s : State) : State := s.mrd.heldCmds.foldl runHeld { s with mrd.heldCmds := [] }

/-- Waits for a step that a boundary has reached are met at its end (11 R343). -/
def meetWaits (s : State) : State :=
  { s with rhmb.chans := tmap {} (fun _ c => match c.wait with
      | some (.step t m) => { c with wait := some (.step t (m || decide (t ≤ s.mrd.step))) }
      | _ => c) s.rhmb.chans }

/-- A parked frame whose key epoch the pair contains by now (R157 case 4). -/
def epochCame (s : State) (x : Parked) : Bool :=
  let h := hdrOf x.arr.bytes
  x.why = .epoch && inPair (s.clockOf (if isCollective h.cls then h.part else 32)) h.kEpoch

/-- Frames parked for their key epoch return once it is in the pair, as far as the pipes run (R25, R157 case 4). -/
def returnEpoch (fab : State → FabIn → State) (s : State) : State := if arithRuns s then returnParked fab (epochCame s) s else s

/-- A boundary ends: causes, waits, frames parked for their key epoch, and the held commands unless another boundary
follows (R291 step 3, R292, R157 case 4). -/
def boundaryEnd (fab : State → FabIn → State) (s : State) (a : Nat) : State :=
  let s1 := raise { s with mrd.running := none } 0x04 0
  let s3 := returnEpoch fab (meetWaits (if a + 1 < s.mrd.step then raise s1 0x04 1 else s1))
  if s3.mrd.pendingStep.isSome then s3 else runHeldAll s3

/-- End the running boundary once no phase is due. -/
def finishBoundary (fab : State → FabIn → State) (s : State) : State :=
  match s.mrd.running with
  | none => s
  | some a => if duePhases s s.mrd.step = [] then boundaryEnd fab s a else s

/-- The most phases a table of 64 entries holds. -/
def allOf (n : Option Nat) : Nat := n.getD 192

/-- Run a boundary into step `b`, firing at most `n` phases. -/
def runBoundary (fab : State → FabIn → State) (s : State) (b : Nat) (out : Option (Bytes × Nat)) (n : Option Nat) : State :=
  finishBoundary fab (firePhases (allOf n) (startBoundary s b out))

/-- Keep the highest step that arrives while a boundary runs, with its relay; a superseded relay is counted (R289, R293). -/
def pendStep (s : State) (b : Nat) (out : Option (Bytes × Nat)) : State :=
  let s1 := if s.mrd.pendingRelay.isSome then { s with mrd.drops := bump s.mrd.drops 1 } else s
  { s1 with mrd.pendingStep := some b, mrd.pendingRelay := out }

/-- The step reached once every pending boundary has run. -/
def topStep (s : State) : Nat := s.mrd.pendingStep.getD s.mrd.step

/-- The block's own advance by one: `STEP` frames from a master, none from a follower of `STEP_MARK`; a relay that waits for the pending boundary
is superseded (R289, R290, Table 9.1). -/
def advanceOne (fab : State → FabIn → State) (s : State) (n : Option Nat) : State :=
  let b := low 48 (topStep s + 1)
  let out := if s.mrd.mode = .master then some (stepPayload s b, 0) else none
  if s.mrd.running.isSome || s.mrd.pendingStep.isSome then pendStep s b none
  else runBoundary fab s b out n

/-- The relay that the pending boundary sends: a master's own frame, or the kept one. -/
def pendingOut (s : State) (b : Nat) : Option (Bytes × Nat) :=
  if s.mrd.mode = .master then some (stepPayload s b, 0) else s.mrd.pendingRelay

/-- The kept relay is not sent with the pending boundary: a master sends its own frame instead, or the step has been passed (R289). -/
def relayUnsent (s : State) (b : Nat) : Bool := s.mrd.pendingRelay.isSome && (decide (s.mrd.mode = .master) || decide (b ≤ s.mrd.step))

/-- Meridian runs: in service, with its clock (R25, R548). -/
def mrdRuns (s : State) : Bool := secRuns s && domLive s 1

/-- A boundary is stopped (R548): the phases that have not fired stay due; what waited for its end is gone with Helm and Meridian's
logic. -/
def stopBoundary (s : State) : State :=
  { s with mrd.running := none, mrd.pendingStep := none, mrd.pendingRelay := none, mrd.heldCmds := [] }

/-- `PENDING_BOUNDARY`: the running boundary ends, and one boundary runs to the highest pending step (R293). -/
def pendingBoundary (fab : State → FabIn → State) (s : State) (n : Option Nat) : State :=
  if !mrdRuns s then s else
  let s1 := finishBoundary fab (if s.mrd.running.isSome then firePhases 192 s else s)
  match s1.mrd.pendingStep with
  | none => s1
  | some b =>
    let out := pendingOut s1 b
    let s2 := { s1 with
      mrd.pendingStep := none, mrd.pendingRelay := none, mrd.drops := if relayUnsent s1 b then bump s1.mrd.drops 1 else s1.mrd.drops }
    if b ≤ s2.mrd.step then runHeldAll s2 else runBoundary fab s2 b out n

/-! ### `STEP` frames (R288, R289) -/

/-- A damaged `STEP` frame: counted by its pipe and recorded, and neither followed nor relayed (R288). -/
def stepDamaged (s : State) (f : FabIn) : State := recordFrame (larkCount s f.pipe 0xD0 1) f.pipe f.arr .badFormat

/-- Meridian takes an accepted `STEP` frame (R289, R290); `pendOnly` while the end of a boundary returns it. -/
def stepFrame (fab : State → FabIn → State) (pendOnly : Bool) (n : Option Nat) (s : State) (f : FabIn) : State :=
  match stepOf f.hdr f.plain with
  | none => stepDamaged s f
  | some b =>
    if s.mrd.mode ≠ .followFrame || b ≤ topStep s then { s with mrd.drops := bump s.mrd.drops 1 }
    else
      let out := some (f.plain, f.hdr.hop + 1)
      let s1 := recordStream s f.hdr
      if pendOnly || !mrdRuns s || s.mrd.running.isSome || s.mrd.pendingStep.isSome then pendStep s1 b out else runBoundary fab s1 b out n

/-! ### Registers that advance or set the step -/

/-- A write of `MRD_ADVANCE` (R300, Table 9.8). -/
def mrdAdvance (fab : State → FabIn → State) (s : State) (a : Access) (v : Word) (n : Option Nat) : State :=
  regWrite s a (regAt 0x04 0x58) (refuseIf (decide (s.mrd.mode ≠ .master)) .wrongState) (mbz v (maskBits 63 1))
    (fun s1 => if bitOf v 0 then advanceOne fab s1 n else s1)

/-- A write of `MRD_STEP_SET`, held while a boundary runs (R287). -/
def mrdStepSet (s : State) (a : Access) (v : Word) : State :=
  let addr := regAt 0x04 0x60
  if s.mrd.running.isSome then
    regWrite s a addr none (mbz v (maskBits 63 48)) (fun s1 => { s1 with mrd.heldCmds := s1.mrd.heldCmds ++ [.stepSet a v] })
  else regWrite s a addr (refuseIf (stepSetRefused s) .wrongState) (mbz v (maskBits 63 48)) (fun s1 => stepSetNow s1 v)

/-- A write of word 0 of a schedule entry, held while a boundary runs (R292, R295). -/
def schedWrite (s : State) (a : Access) (i : Nat) (v : Word) : State :=
  if s.mrd.running.isSome then
    regWrite s a (schedAddr i) none none (fun s1 => { s1 with mrd.heldCmds := s1.mrd.heldCmds ++ [.sched a i false v] })
  else regWrite s a (schedAddr i) (refuseIf (schedLocked s i) .wrongState) (refuseIf (schedBad s i v) .badArg) (fun s1 => schedNow s1 i v)

/-- A `STEP_MARK` pulse: counted in deep sleep, and an advance in `FOLLOW_MARK` or a marked `MASTER` while `PD01` is in
service (R33, R286). DEDUCED (log 138): the count runs on `AON_REF`, so a pulse while the security loop has no lock pends, and
Meridian acts on it once its clock is back (R25). -/
def stepMark (fab : State → FabIn → State) (s : State) (n : Option Nat) : State :=
  if s.pwr.asleep then { s with mrd.step := low 48 (s.mrd.step + 1) }
  else if inReset s || !domLive s 1 then s
  else if s.mrd.mode = .followMark || (s.mrd.mode = .master && s.mrd.masterMark) then
    (if mrdRuns s then advanceOne fab s n else pendStep s (low 48 (topStep s + 1)) none)
  else s

/-- `STEP_TIMEOUT`: time passes, and `LATE` is set once where no boundary has begun for the limit (R299). -/
def stepTimeout (s : State) (us : Nat) : State :=
  afterTime s us (fun s1 =>
    if s1.mrd.timeout ≠ 0 && !s1.mrd.lateDone && s1.mrd.lastBoundary + s1.mrd.timeout ≤ s1.mrd.wall then
      raise { s1 with mrd.lateDone := true } 0x04 2
    else s1)

/-- The refill of the old copy ends: the shadow is a copy of the active one with the next epoch (R217). -/
def refillDone (s : State) : State :=
  if s.grp.refill then
    { s with grp.refill := false, grp.descS := s.grp.descA, grp.mbrS := s.grp.mbrA, grp.epS := (s.grp.epA + 1) % 2 ^ 16 }
  else s

/-! ### The meanings that need no handler -/

/-- `MRD_STEP_SET` (R287). -/
def execMrdStepSet (a : Access) (v : Word) (s : State) : Host.Outcome State Fault Refusal := .next (mrdStepSet s a v)

/-- `SCHEDULE_ENTRY_WRITE` (R295). -/
def execScheduleEntryWrite (a : Access) (idx : BitVec 6) (v : Word) (s : State) : Host.Outcome State Fault Refusal :=
  .next (schedWrite s a idx.toNat v)

/-- `STEP_TIMEOUT` (R299). -/
def execStepTimeout (us : Nat) (s : State) : Host.Outcome State Fault Refusal := .next (stepTimeout s us)

/-- `REFILL_DONE` (R217). -/
def execRefillDone (s : State) : Host.Outcome State Fault Refusal := .next (whenArith s refillDone)

end Sys2Proof.Machine
end

