-- ==== Sys2Proof/Machine/Images.lean ====
section
/-! DEFINITION. The boot store (chapter 16): slot control records, containers with their signature blocks, manifests, items
and settings records, read from bytes and judged. -/

namespace Sys2Proof.Machine

/-- `BOOT_BASE` (18 R534). -/
def bootBase (s : State) : Nat := s.pins.bootBase * 2 ^ 16

/-- Offsets of Table 16.1. -/
def recordOffset (copy : Bool) : Nat := if copy then 0x1000 else 0
def slotOffset (b : Bool) : Nat := if b then 0x110000 else 0x10000
def certOffset : Nat := 0x210000
def areaOffset (b : Bool) : Nat := if b then 0x230000 else 0x220000

/-! ### Slot control records (R462) -/

/-- A slot entry of a record from its 56 bytes. -/
def slotEntryOf (b : Bytes) : SlotEntry :=
  { st := leAt b 0 1, attempts := leAt b 1 1, wdog := leAt b 2 2, fw := leAt b 4 2, uc := leAt b 6 2, digest := digestOf (slice b 8 48) }

/-- The 56 bytes of a slot entry. -/
def slotEntryBytes (e : SlotEntry) : Bytes :=
  leBytes 1 e.st ++ leBytes 1 e.attempts ++ leBytes 2 e.wdog ++ leBytes 2 e.fw ++ leBytes 2 e.uc ++ digestBytes e.digest

/-- A valid record copy: magic and CRC-32C (R462). -/
def recordOf (b : Bytes) : Option Record :=
  if b.take 8 = ascii "ORPV-SC1" && leAt b 252 4 = crc32c (slice b 0 252) then
    some { seq := leAt b 8 8, active := leAt b 16 1 = 1, a := slotEntryOf (slice b 24 56), b := slotEntryOf (slice b 80 56) }
  else none

/-- The 256 bytes of a record. -/
def recordBytes (r : Record) : Bytes :=
  let l := ascii "ORPV-SC1" ++ leBytes 8 r.seq ++ leBytes 1 r.active.toNat ++ zeros 7 ++ slotEntryBytes r.a ++ slotEntryBytes r.b ++ zeros 116
  l ++ leBytes 4 (crc32c l)

/-- An entry of a record. -/
def recEntry (r : Record) (b : Bool) : SlotEntry := if b then r.b else r.a
def setRecEntry (r : Record) (b : Bool) (e : SlotEntry) : Record := if b then { r with b := e } else { r with a := e }

/-- The record in force of two copies: which copy, its record, and whether the other is valid (R462). -/
def recordInForce (c0 c1 : Option Record) : Option (Bool × Record × Bool) :=
  match c0, c1 with
  | some x, some y => if x.seq < y.seq then some (true, y, true) else some (false, x, true)
  | some x, none => some (false, x, false)
  | none, some y => some (true, y, false)
  | none, none => none

/-- Write a record with the next `SEQ` into the copy that is not in force; none where its read-back fails (R463). -/
def writeRecord (s : State) (backOk : Bool) (r : Record) : Option State × State :=
  let copy := if s.helm.hasRecord then !s.helm.copy else false
  let r1 := { r with seq := (s.helm.record.seq + 1) % 2 ^ 64 }
  let s1 := s.emit (.mem (bootBase s + recordOffset copy) (recordBytes r1))
  if backOk then
    (some { s1 with helm.record := r1, helm.copy := copy, helm.otherValid := s.helm.hasRecord, helm.hasRecord := true }, s1)
  else (none, { s1 with helm.otherValid := false })

/-! ### Signature blocks (R464 to R466) -/

/-- Bytes of one signature block. -/
def sigBlock : Nat := 7504

/-- Every hash of region 3 is zero. -/
def noMakers (s : State) : Bool := (List.range 8).all (fun k => makerHash s k = 0)

/-- A maker key index and its keys are a pair of Table 16.5, revocation apart. -/
def makerPair (s : State) (k : Nat) (keys : Bytes) : Bool :=
  let h := Config.sha384 keys
  if k < 8 then makerHash s k ≠ 0 && makerHash s k = h
  else k = 0xFF && s.life.st = 1 && noMakers s && Config.devPairHash = h

/-- A maker pair is revoked (R465). -/
def makerRevoked (s : State) (k : Nat) : Bool := k < 8 && (revoked s 0).testBit k

/-- The signatures a lifecycle state asks for (Table 16.5). -/
def sigsHold (s : State) (keys entry body : Bytes) : Bool :=
  if s.life.st = 1 then ecHalf keys entry body || mlHalf keys entry body
  else if s.life.st = 5 || s.life.st = 0 then false
  else hybridVerify keys entry body

/-- What one signature block shows. -/
structure BlockRead where
  /-- its key index, whether its zero field is zero, whether it names a revoked pair, and whether it is accepted -/
  pair : Nat
  form : Bool
  revoked : Bool
  accepted : Bool
  deriving DecidableEq, Repr

/-- Read one signature block (R464 to R466). -/
def judgeBlock (s : State) (body blk : Bytes) : BlockRead :=
  let k := leAt blk 0 1
  let keys := slice blk 4752 2752
  let form := (slice blk 1 15).all (· = 0)
  { pair := k, form := form, revoked := makerRevoked s k
    accepted := form && makerPair s k keys && !makerRevoked s k && sigsHold s keys (slice blk 16 4736) body }

/-- What the signature blocks of a container give: the status of R466, the accepted pairs as a mask, and the first. -/
structure Signed where
  st : Status
  pairs : Nat
  signer : Nat
  deriving DecidableEq, Repr

/-- Judge the signature blocks after a body (R465, R466). -/
def judgeBlocks (s : State) (body blocks : Bytes) (n : Nat) : Signed :=
  let js := (List.range n).map (fun i => judgeBlock s body (slice blocks (sigBlock * i) sigBlock))
  match js.find? (·.accepted) with
  | some j => { st := .ok, pairs := (js.filter (·.accepted)).foldl (fun m x => if x.pair < 8 then setBit m x.pair else m) 0, signer := j.pair }
  | none =>
    { st := if !js.all (·.form) then .badFormat else if js.all (·.revoked) then .keyRevoked else .sigFail, pairs := 0, signer := 0 }

/-- `LC_MASK` permits the present state (Table 16.3). -/
def lcAllows (s : State) (m : Nat) : Bool := 1 ≤ s.life.st && m.testBit (s.life.st - 1)

/-! ### Containers -/

/-- The loader's code length. -/
def loaderLen (b : Bytes) : Nat := leAt b 28 4

/-- The header and code of a loader container. -/
def loaderBody (b : Bytes) : Bytes := slice b 0 (64 + loaderLen b)

/-- The form of a loader header (Table 16.3). -/
def loaderForm (s : State) (b : Bytes) : Bool :=
  b.take 8 = ascii "ORPV-LD1" && matchesBlock s (slice b 8 16) && leAt b 24 2 ≤ 256 && 1 ≤ leAt b 27 1 && leAt b 27 1 ≤ 2
    && 64 ≤ loaderLen b && loaderLen b ≤ 98304 && loaderLen b % 64 = 0 && (slice b 32 32).all (· = 0)

/-- Judge a loader container at the head of a slot (R465, R466). -/
def judgeLoader (s : State) (b : Bytes) : Signed :=
  let bad (st : Status) : Signed := { st := st, pairs := 0, signer := 0 }
  if !loaderForm s b then bad .badFormat
  else if !lcAllows s (leAt b 26 1) then bad .wrongState
  else
    let r := judgeBlocks s (loaderBody b) (b.drop (64 + loaderLen b)) (leAt b 27 1)
    if r.st = .ok ∧ leAt b 24 2 < counter s 0 then bad .keyRevoked else r

/-- The manifest body of a slot. -/
def manifestOf (b : Bytes) : Bytes := slice b 0x20000 320

/-- Entry `i` of a manifest: type, seven zero bytes, slot offset, length and digest. -/
def itemOffset (m : Bytes) (i : Nat) : Nat := leAt m (64 + 64 * i + 8) 4
def itemLen (m : Bytes) (i : Nat) : Nat := leAt m (64 + 64 * i + 12) 4
def itemDigest (m : Bytes) (i : Nat) : BitVec 384 := digestOf (slice m (64 + 64 * i + 16) 48)

/-- The length of an item is one its type allows (Table 16.4). -/
def itemLenOk (i n : Nat) : Bool :=
  if i = 0 then 1 ≤ n && n ≤ 327680 else if i = 1 then n = 32768 else n = 16384

/-- The form of a manifest (Table 16.4). -/
def manifestForm (s : State) (b : Bytes) : Bool :=
  let m := manifestOf b
  m.take 8 = ascii "ORPV-MF1" && matchesBlock s (slice m 8 16) && leAt m 24 2 = leAt b 24 2 && leAt m 26 2 ≤ 256 && leAt m 28 2 ≤ 256
    && 1 ≤ leAt m 35 1 && leAt m 35 1 ≤ 2 && (slice m 36 28).all (· = 0)
    && (List.range 4).all (fun i => leAt m (64 + 64 * i) 1 = i + 1 && (slice m (64 + 64 * i + 1) 7).all (· = 0)
        && itemLenOk i (itemLen m i) && 0x24000 ≤ itemOffset m i && itemOffset m i + itemLen m i ≤ 0x100000)

/-- Judge a manifest container (R465, R466). -/
def judgeManifest (s : State) (b : Bytes) : Signed :=
  let bad (st : Status) : Signed := { st := st, pairs := 0, signer := 0 }
  let m := manifestOf b
  if !manifestForm s b then bad .badFormat
  else if !lcAllows s (leAt m 34 1) then bad .wrongState
  else
    let r := judgeBlocks s m (b.drop (0x20000 + 320)) (leAt m 35 1)
    if r.st = .ok ∧ (leAt m 24 2 < counter s 0 ∨ leAt m 26 2 < counter s 1) then bad .keyRevoked else r

/-- Item `i` of a slot. -/
def itemBytes (b : Bytes) (i : Nat) : Bytes := slice b (itemOffset (manifestOf b) i) (itemLen (manifestOf b) i)

/-- Every item hashes as its entry says (R477, cold boot step 6). -/
def itemsHold (b : Bytes) : Bool :=
  (List.range 4).all (fun i => Config.sha384 (itemBytes b i) = itemDigest (manifestOf b) i)

/-- Units of 4 KiB that a byte range of a slot touches. -/
def unitsTouched (pos len : Nat) : List Nat := (List.range ((pos + len + 4095) / 4096 - pos / 4096)).map (· + pos / 4096)

/-- Units that the loader container, the manifest container and the items take (R477 check 1). -/
def unitsNeeded (b : Bytes) : List Nat :=
  let m := manifestOf b
  unitsTouched 0 (64 + loaderLen b + sigBlock * leAt b 27 1) ++ unitsTouched 0x20000 (320 + sigBlock * leAt m 35 1)
    ++ ((List.range 4).map (fun i => unitsTouched (itemOffset m i) (itemLen m i))).flatten

/-! ### Settings records (R485) -/

/-- Entries of a settings record. -/
def setCount (b : Bytes) : Nat := leAt b 12 2

/-- Bytes of a settings record. -/
def setLen (b : Bytes) : Nat := 32 + 16 * setCount b

/-- The CRC-32C of a record's head, its own field zero, and body. -/
def setCrc (b : Bytes) : Nat := crc32c (slice b 0 28 ++ zeros 4 ++ slice b 32 (setLen b - 32))

/-- A record of a settings area: magic, count, zero bytes and CRC (R485). -/
def setValid (b : Bytes) : Bool :=
  b.take 8 = ascii "ORPV-ST1" && setCount b ≤ 4094 && leAt b 11 1 = 0 && leAt b 14 2 = 0 && leAt b 24 4 = 0 && leAt b 28 4 = setCrc b

/-- A settings record with its version, state and sequence number set and its CRC made right. -/
def setRecord (body : Bytes) (ver st seq : Nat) : Bytes :=
  let h := ascii "ORPV-ST1" ++ leBytes 2 ver ++ leBytes 1 st ++ zeros 1 ++ leBytes 2 (body.length / 16) ++ zeros 2 ++ leBytes 8 seq ++ zeros 4
  h ++ leBytes 4 (crc32c (h ++ zeros 4 ++ body)) ++ body

/-- The body of a settings record. -/
def setBody (b : Bytes) : Bytes := slice b 32 (setLen b - 32)

/-- The record the loader uses: `ACTIVE`, of higher `SEQ`, of a version the firmware takes (R486); with its area. -/
def settingsInUse (a0 a1 : Bytes) (lo hi : Nat) : Option (Bool × Bytes) :=
  let ok (b : Bytes) : Bool := setValid b && leAt b 10 1 = 1 && lo ≤ leAt b 8 2 && leAt b 8 2 ≤ hi
  if ok a0 && (!ok a1 || leAt a1 16 8 ≤ leAt a0 16 8) then some (false, slice a0 0 (setLen a0))
  else if ok a1 then some (true, slice a1 0 (setLen a1))
  else none

end Sys2Proof.Machine
end

