-- ==== Sys2Proof/Machine/Logbook.lean ====
section
/-! DEFINITION. Logbook's commands (chapter 14): pulses, their cutting, the final read, and the checks of `LOGB_CMD`. A
programming command runs from its start to `LOGB_CMD_DONE`. -/

namespace Sys2Proof.Machine

/-! ### Pulses (R433, R434) -/

/-- Cut a list of bits into pulses of up to eight on a physical word. -/
def chunkPulses (phys : Nat) : Nat → List Nat → List Pulse
  | 0, _ => []
  | f + 1, l => match l with
    | [] => []
    | _ => .bits phys ((l.take 8).foldl setBit 0) :: chunkPulses phys f (l.drop 8)

/-- The pulses that set the one bits of a 72-bit value in a physical word, ascending (R433). -/
def pulsesFor (phys v : Nat) : List Pulse := chunkPulses phys 9 (bitsOf 72 v)

/-- The pulses of a value in every copy of a logical word, copy A first (R433). -/
def wordPulses (r i v : Nat) : List Pulse := ((copiesOf r i).map (fun p => pulsesFor p v)).flatten

/-- The three elements of a lock (R419). -/
def lockPulses (rd : Bool) (r : Nat) : List Pulse := (List.range 3).map (fun e => .lock rd r e)

/-- What a pulse over the bits `m` leaves of the reads at the wider spreads. -/
def addWide (m : Nat) (old new : List (Nat × Nat)) : List (Nat × Nat) :=
  (List.range (max old.length new.length)).map (fun i =>
    ((old.getD i (0, 0)).1 ||| (new.getD i (0, 0)).1, maskOff 72 (old.getD i (0, 0)).2 m ||| (new.getD i (0, 0)).2))

/-- A pulse over the bits `m` of a physical word: the bits that read 1 afterwards at the three references, and what differs at the wider
spreads. -/
def addBits (s : State) (phys m lo nom st : Nat) (wd : List (Nat × Nat)) : State :=
  let w := tget {} s.logb.array phys
  let w1 : PhysWord := { loose := w.loose ||| lo, nominal := w.nominal ||| nom, strict := w.strict ||| st, wide := addWide m w.wide wd }
  { s with logb.array := tset {} s.logb.array phys w1 }

/-- Blow one element of a lock. -/
def blowElement (s : State) (rd : Bool) (r e : Nat) : State :=
  if rd then { s with logb.rFuse := tset 0 s.logb.rFuse r (setBit (tget 0 s.logb.rFuse r) e) }
  else { s with logb.wFuse := tset 0 s.logb.wFuse r (setBit (tget 0 s.logb.wFuse r) e) }

/-- The bits of a physical word that stay weak (R433). -/
def missOf (l : List PhysMiss) (p : Nat) : PhysMiss :=
  (l.find? (fun m => m.phys.toNat = p)).getD { phys := 0, loose := 0, nominal := 0, strict := 0 }

/-- One pulse lands, but for the bits that stay weak. -/
def landPulse (miss : List PhysMiss) (s : State) (p : Pulse) : State :=
  match p with
  | .bits ph m =>
    let k := missOf miss ph
    addBits s ph m (maskOff 72 m k.loose.toNat) (maskOff 72 m k.nominal.toNat) (maskOff 72 m k.strict.toNat)
      (k.wide.map (fun x => (m &&& x.1.toNat, m &&& x.2.toNat)))
  | .lock rd r e => blowElement s rd r e

/-- The pulse that a cut stops: the bits that read 1 afterwards (R434, R419). -/
def cutPulse (s : State) (c : ProgCut) (p : Pulse) : State :=
  match p with
  | .bits ph m => addBits s ph m (m &&& c.loose.toNat) (m &&& c.nominal.toNat) 0 (c.wide.map (fun x => (m &&& x.toNat, 0)))
  | .lock rd r e => if c.loose = 0 then s else blowElement s rd r e

/-- The running program is cut: some pulses have ended and the next may have begun (R434). -/
def cutPulses (s : State) (c : ProgCut) : State :=
  match s.logb.running with
  | none => s
  | some p =>
    let s1 := (p.pulses.take c.pulses).foldl (landPulse []) s
    match p.pulses.drop c.pulses with
    | [] => s1
    | x :: _ => cutPulse s1 c x

/-- Loss of power: the program and everything waiting are gone. -/
def progCut (s : State) (c : ProgCut) : State :=
  let s1 := cutPulses s c
  { s1 with logb.running := none, logb.queue := [] }

/-- Loss of `OTP_VPP`: the pulses still to come are dropped, and the command ends with its final read (R434). -/
def progStop (s : State) (c : ProgCut) : State :=
  let s1 := cutPulses s c
  { s1 with logb.running := s1.logb.running.map (fun p => { p with pulses := [] }) }

/-- Re-read a physical word into the sensed image and its indications. -/
def senseWord (s : State) (ph : Nat) : State :=
  let w := physNow s ph
  { s with logb.sensed := tset {} s.logb.sensed ph w, logb.seen := tset {} s.logb.seen ph w }

/-- A word reads steady and clean in every copy (R433). -/
def wordClean (t : Table PhysWord) (w : Nat × Nat) : Bool :=
  let r := readWord t w.1 w.2
  r.value.isSome && !r.marginal && !r.corrected && r.aGood && (r.bGood || !twoCopies w.1)

/-- The final read of the running program: what it did lands, its words are sensed, and its status is decided (R433). -/
def progFinish (s : State) (o : ProgOut) : Status × State :=
  match s.logb.running with
  | none => (.ok, s)
  | some p =>
    let s1 := p.pulses.foldl (landPulse o.misses) s
    let s2 := ((p.words.map (fun w => copiesOf w.1 w.2)).flatten).foldl senseWord s1
    let k := (p.words.filter (fun w => (readWord s2.logb.sensed w.1 w.2).corrected)).length
    let s3 := { s2 with logb.running := none, logb.corrected := bump s2.logb.corrected k }
    (if p.words.all (wordClean s3.logb.sensed) then .ok else .fuseMarginal, s3)

/-! ### `LOGB_CMD` -/

def logbCmdAddr : Nat := regAt 0x10 0x50

/-- Fields of `LOGB_ARG`. -/
def lgRegion (s : State) : Nat := fld s.logb.arg 63 60
def lgWord (s : State) : Nat := fld s.logb.arg 59 52
def lgCounter (s : State) : Nat := fld s.logb.arg 51 50
def lgTarget (s : State) : Nat := fld s.logb.arg 49 41
def lgBit (s : State) : Nat := fld s.logb.arg 40 37

/-- A command's result, with `CMD_DONE` (R439, Table 14.7). -/
def logbResult (s : State) (op : Nat) (st : Status) (pulses : Nat) : State :=
  raise { s with logb.status := stCode st, logb.op := op, logb.pulses := pulses } 0x10 0

/-- A command ends at once. -/
def logbDone (s : State) (a : Access) (op : Nat) (st : Status) : State := noteCmd (logbResult s op st 0) a logbCmdAddr st

/-- The bus checks of a write of `LOGB_CMD`, then the command: while one runs another is refused (R439); the lifecycle state and the
supply (R431, R432) come before the must-be-zero bits, in the order of R542. -/
def logbCmd (s : State) (a : Access) (v : Word) (op : Nat) (state : State → Bool) (k : State → State) : State :=
  regWrite s a logbCmdAddr (refuseIf s.logb.running.isSome .wrongState) none (fun x =>
    if !state x then logbDone x a op .wrongState
    else match mbz v (maskBits 59 0) with
      | some st => refuse x a true logbCmdAddr st
      | none => k x)

/-- As `logbCmd`, for the commands of Helm firmware alone (R431). -/
def logbHelmCmd (s : State) (a : Access) (v : Word) (op : Nat) (state : State → Bool) (k : State → State) : State :=
  if a.src = .helm then logbCmd s a v op state k else regWrite s a logbCmdAddr (some .partition) none k

/-- Start a programming command. -/
def startProg (s : State) (a : Access) (op : Nat) (ps : List Pulse) (ws : List (Nat × Nat)) : State :=
  { s with logb.running := some { kind := .cmd op, acc := a, pulses := ps, words := ws } }

/-- The 72 bits of the value in use of a word: a tally has no check bits (R411, R412). -/
def rawValue (t : Table PhysWord) (r i : Nat) : Nat :=
  let v := (readWord t r i).value.getD 0
  if kindOf r i = .tally then v else codeword v

/-- `PROGRAM` may act in the lifecycle state (Table 14.4). -/
def programState (s : State) (r : Nat) : Bool :=
  let m := s.life.st = 1
  let i := s.life.st = 2
  let f := s.life.st = 3
  if r = 7 ∨ r = 9 then m || i else if 12 ≤ r ∧ r ≤ 14 then m || i || f else if r = 15 ∨ r = 2 then false else m

/-- `LOCK_WRITE` and `LOCK_READ` may act in the lifecycle state (Table 14.4). -/
def lockState (s : State) (r : Nat) : Bool :=
  s.life.st = 1 || (s.life.st = 2 && (r = 7 || r = 9 || (12 ≤ r && r ≤ 14))) || (s.life.st = 3 && 12 ≤ r && r ≤ 14)

/-- R413: what `PROGRAM` may do with a word that already holds bits. -/
def programAllowed (s : State) (r i v : Nat) : Bool :=
  let x := (readWord s.logb.sensed r i).value
  (x = some 0 && (copiesOf r i).all (fun p => (physNow s p).loose &&& codeword v = (physNow s p).loose))
    || (x.isNone && (copiesOf r i).all (fun p => (physNow s p).loose &&& codeword v = (physNow s p).loose))
    || x = some v

/-- `LOGB_ARG` names a word that no `PROGRAM` may write, in whatever lifecycle state (R431). -/
def programNever (s : State) : Bool :=
  let r := lgRegion s
  let i := lgWord s
  r = 2 || (i < regLen r && (kindOf r i = .event || kindOf r i = .tally))

/-- What `PROGRAM` asks of the state (R431, R432, R420): for a word that it may never write, the supply alone. -/
def programReady (s : State) : Bool := s.logb.vpp && (programNever s || (programState s (lgRegion s) && !wLocked s (lgRegion s)))

/-- `PROGRAM` (R413, R431, R433). -/
def programOp (s : State) (a : Access) : State :=
  let r := lgRegion s
  let i := lgWord s
  let v := s.logb.data.toNat
  if programNever s then logbDone s a 1 .badArg
  else if regLen r ≤ i then logbDone s a 1 .bounds
  else if !programAllowed s r i v then logbDone s a 1 .wrongState
  else startProg s a 1 (wordPulses r i (codeword v)) [(r, i)]

/-- What `REINFORCE` asks of the state (R431, R432). -/
def reinforceReady (s : State) : Bool := (s.life.st = 1 || s.life.st = 2) && s.logb.vpp

/-- `REINFORCE` (R437). -/
def reinforceOp (s : State) (a : Access) : State :=
  let r := lgRegion s
  let i := lgWord s
  if regLen r ≤ i then logbDone s a 2 .bounds
  else startProg s a 2 (wordPulses r i (rawValue s.logb.sensed r i)) [(r, i)]

/-- The conditions of R420. -/
def lockWriteOk (s : State) (r : Nat) : Bool :=
  digestOk s.logb.sensed r && (badWord s.logb.sensed r).isNone && !marginalRegion s.logb.sensed r

/-- What `LOCK_WRITE` asks of the state (R431, R432). -/
def lockWriteReady (s : State) : Bool := lockState s (lgRegion s) && s.logb.vpp

/-- `LOCK_WRITE` (R420). -/
def lockWriteOp (s : State) (a : Access) : State :=
  let r := lgRegion s
  if r = 15 then logbDone s a 3 .badArg
  else if !lockWriteOk s r then logbDone s a 3 .lockRefused
  else startProg s a 3 (lockPulses false r) []

/-- What `LOCK_READ` asks of the state (R421, R431, R432). -/
def lockReadReady (s : State) : Bool := lockState s (lgRegion s) && s.logb.vpp && wLocked s (lgRegion s)

/-- `LOCK_READ` (R421). -/
def lockReadOp (s : State) (a : Access) : State :=
  let r := lgRegion s
  if !(r = 2 || r = 10 || r = 11) then logbDone s a 4 .badArg
  else startProg s a 4 (lockPulses true r) []

/-- `ADVANCE` and `REVOKE` may act in the lifecycle state (Table 14.4). -/
def tallyState (s : State) : Bool := s.life.st = 1 || s.life.st = 2 || s.life.st = 3

/-- Set one bit of a tally word: a pulse for each copy that does not yet read it, copy A first (R435). -/
def tallyBit (s : State) (r w b : Nat) : List Pulse :=
  ((copiesOf r w).filter (fun p => !(physNow s p).strict.testBit b)).map (fun p => .bits p (2 ^ b))

/-- The pulses of `ADVANCE` of a counter to a target (R435). -/
def advancePulses (s : State) (c v : Nat) : List Pulse := ((List.range v).map (fun b => tallyBit s 6 (4 * c + b / 64) (b % 64))).flatten

/-- The words of a counter below a target. -/
def advanceWords (c v : Nat) : List (Nat × Nat) := (List.range (ceilDiv v 64)).map (fun i => (6, 4 * c + i))

/-- What `ADVANCE` and `REVOKE` ask of the state (R431, R432). -/
def tallyReady (s : State) : Bool := tallyState s && s.logb.vpp

/-- `ADVANCE` of a counter to a target (R435). -/
def advanceOp (s : State) (a : Access) (c v : Nat) : State :=
  if 256 < v then logbDone s a 5 .badArg
  else if v ≤ counter s c then logbDone s a 5 .ok
  else startProg s a 5 (advancePulses s c v) (advanceWords c v)

/-- `REVOKE` of a bit (R435). -/
def revokeOp (s : State) (a : Access) (k : Nat) : State := startProg s a 6 (tallyBit s 4 (k / 8) (k % 8)) [(4, k / 8)]

/-- The table with codewords of four secret words in region 2. -/
def withSecret (t : Table PhysWord) (n : Nat) : Table PhysWord :=
  (List.range 4).foldl (fun t1 i =>
    let c := codeword (n / 2 ^ (64 * i) % 2 ^ 64)
    (copiesOf 2 i).foldl (fun t2 p => tset {} t2 p { loose := c, nominal := c, strict := c }) t1) t

/-- No bit of region 2 reads 1 (R436). -/
def dusBlank (s : State) : Bool := (List.range (regLen 2)).all (fun i => (copiesOf 2 i).all (fun p => (physNow s p).loose = 0))

/-- What `GEN_DUS` asks of the state (R431, R432, R436, 12 R383). -/
def genDusReady (s : State) : Bool := s.life.st = 1 && s.logb.vpp && dusBlank s && drbgServes s 0

/-- `GEN_DUS` (R436). -/
def genDusOp (s : State) (a : Access) : State :=
  let d := drbgDraw s 0
  let n := d.1 % 2 ^ 256
  let dig := regionDigest (withSecret s.logb.sensed n) 2
  let last := regLen 2 - 1
  startProg d.2 a 7 (((List.range 4).map (fun i => wordPulses 2 i (codeword (n / 2 ^ (64 * i) % 2 ^ 64)))).flatten
      ++ wordPulses 2 last (codeword dig) ++ lockPulses false 2 ++ lockPulses true 2)
    ((List.range 4).map (fun i => (2, i)) ++ [(2, last)])

/-- The array as it reads now. -/
def arrayNow (s : State) : Table PhysWord := senseAll s.logb.spread s.logb.array

/-- `MARGIN_SCAN`: only the indications follow the reread array (R438). -/
def marginScanOp (s : State) (a : Access) : State :=
  logbDone { s with logb.seen := arrayNow s, logb.corrected := bump s.logb.corrected (correctedCount (arrayNow s)) } a 8 .ok

/-! ### Commands Helm issues of itself -/

/-- The `OP` of a command Helm issues. -/
def helmProgOp : HelmProg → Nat
  | .advance _ _ => 5
  | .revoke _ => 6

/-- Issue a command Helm asks for: it acts, and is refused, as the same `LOGB_CMD` (R431, R432, R435; 16 R473). -/
def startHelmProg (s : State) (p : HelmProg) : State :=
  if !tallyReady s then logbDone s helmAccess (helmProgOp p) .wrongState
  else match p with
    | .advance c v => advanceOp s helmAccess c v
    | .revoke k => revokeOp s helmAccess k

/-- Helm issues a program: at once, or after those that run and wait. -/
def helmProgram (s : State) (p : HelmProg) : State :=
  if s.logb.running.isSome then { s with logb.queue := s.logb.queue ++ [p] } else startHelmProg s p

/-- Start what waits, up to the first that runs. -/
def nextProg : Nat → State → State
  | 0, s => s
  | n + 1, s =>
    if s.logb.running.isSome then s
    else match s.logb.queue with
      | [] => s
      | p :: r => nextProg n (startHelmProg { s with logb.queue := r } p)

/-! ### The meanings -/

/-- `LOGB_PROGRAM` (R433). -/
def execLogbProgram (a : Access) (v : Word) (s : State) : Host.Outcome State Fault Refusal :=
  .next (logbCmd s a v 1 programReady (fun x => programOp x a))

/-- `LOGB_REINFORCE` (R437). -/
def execLogbReinforce (a : Access) (v : Word) (s : State) : Host.Outcome State Fault Refusal :=
  .next (logbCmd s a v 2 reinforceReady (fun x => reinforceOp x a))

/-- `LOCK_WRITE` (R420). -/
def execLockWrite (a : Access) (v : Word) (s : State) : Host.Outcome State Fault Refusal :=
  .next (logbCmd s a v 3 lockWriteReady (fun x => lockWriteOp x a))

/-- `LOCK_READ` (R421). -/
def execLockRead (a : Access) (v : Word) (s : State) : Host.Outcome State Fault Refusal :=
  .next (logbCmd s a v 4 lockReadReady (fun x => lockReadOp x a))

/-- `ADVANCE` (R435). -/
def execAdvance (a : Access) (v : Word) (s : State) : Host.Outcome State Fault Refusal :=
  .next (logbHelmCmd s a v 5 tallyReady (fun x => advanceOp x a (lgCounter x) (lgTarget x)))

/-- `LOGB_REVOKE` (R435). -/
def execLogbRevoke (a : Access) (v : Word) (s : State) : Host.Outcome State Fault Refusal :=
  .next (logbHelmCmd s a v 6 tallyReady (fun x => revokeOp x a (lgBit x)))

/-- `GEN_DUS` (R436). -/
def execGenDus (a : Access) (v : Word) (s : State) : Host.Outcome State Fault Refusal :=
  .next (logbHelmCmd s a v 7 genDusReady (fun x => genDusOp x a))

/-- `MARGIN_SCAN` (R438). -/
def execMarginScan (a : Access) (v : Word) (s : State) : Host.Outcome State Fault Refusal :=
  .next (logbCmd s a v 8 (fun _ => true) (fun x => marginScanOp x a))

end Sys2Proof.Machine
end

