-- ==== Sys2Proof/Machine/Update.lean ====
section
/-! DEFINITION. Helm's update commands (chapter 16): sessions, trial and confirmation, revocation, forwarding, settings and
host-die images, and the extension of measurement registers. -/

namespace Sys2Proof.Machine

/-! ### Measurements (R471) -/

def measOf (s : State) (m : Nat) : BitVec 384 := tget 0 s.meas.regs m
def setMeas (s : State) (m : Nat) (v : BitVec 384) : State := { s with meas.regs := tset 0 s.meas.regs m v }

/-- Extend a measurement register with a 48-byte event (R471). -/
def extendMeas (s : State) (m : Nat) (e : BitVec 384) : State := setMeas s m (Config.sha384 (digestBytes (measOf s m) ++ digestBytes e))

/-- Extend `MEAS_REG12` for an accepted command: the spec does not say over which bytes the event is taken, so the event is a
free value (log 31). -/
def extendCommand (s : State) : State :=
  let d := freeDraw s
  extendMeas d.2 12 (BitVec.ofNat 384 d.1)

/-! ### Ends of commands -/

def helmCmdAddr : Nat := regAt 0x02 0x40

/-- A command ends (Table 16.14, R492). -/
def helmDone (s : State) (a : Access) (op : Nat) (st : Status) (step : Nat) : State :=
  noteCmd (raise { s with helm.status := stCode st, helm.op := op, helm.stepFailed := step } 0x02 0) a helmCmdAddr st

/-- The bus checks of a write of `HELM_CMD`, then the command: none while one runs (R492), and recovery takes the update commands and
`ACTIVATE` alone (R474). -/
def helmCmd (s : State) (a : Access) (v : Word) (inRecovery : Bool) (k : State → State) : State :=
  regWrite s a helmCmdAddr (refuseIf (s.helm.confirming.isSome || (s.blk.recovery && !inRecovery)) .wrongState) (mbz v (maskBits 59 0)) k

/-- Fields of `HELM_ARG0`. -/
def haUnit (s : State) : Nat := fld s.helm.arg0 63 56
def haCrc (s : State) : Nat := fld s.helm.arg0 55 24
def haWdog (s : State) : Nat := fld s.helm.arg0 23 14
def haPorts (s : State) : Nat := fld s.helm.arg0 13 6

/-- The 4,096 bytes of the staging buffer. -/
def stagingBytes (s : State) : Bytes := ((List.range 512).map (fun i => wordBytes (tget 0 s.helm.staging i))).flatten

/-! ### The session (R475 to R478) -/

/-- The slot updates go to: the one that is not `ACTIVE` (log 32 where no record says); in recovery the one that is not
`CONFIRMED`, or slot A (R474). -/
def targetSlot (s : State) : Bool :=
  if s.blk.recovery then
    let r := s.helm.record
    r.a.st = 3 && r.b.st ≠ 3
  else if s.helm.hasRecord then !s.helm.record.active else !s.helm.slot

/-- A session is open: `RECEIVING`, `VERIFYING` or `STAGED` (log 33). -/
def sessionOpen (s : State) : Bool := s.helm.upd.st = 1 || s.helm.upd.st = 2 || s.helm.upd.st = 3

/-- A slot of the record in force is in `TRIAL` and has not been tried (R475). -/
def trialWaits (s : State) : Bool :=
  s.helm.hasRecord && ((s.helm.record.a.st = 2 && s.helm.record.a.attempts = 0) || (s.helm.record.b.st = 2 && s.helm.record.b.attempts = 0))

/-- The running slot is a trial not yet confirmed. -/
def runningTrial (s : State) : Bool := s.helm.trial && (recEntry s.helm.record s.helm.slot).st = 2

/-- `UPD_BEGIN` (R475); `ring` marks a session of the node ring. -/
def updBeginCore (s : State) (backOk ring : Bool) (bundle : Nat) : Status × State :=
  if sessionOpen s || runningTrial s || trialWaits s then (.wrongState, s)
  else
    let t := targetSlot s
    match writeRecord s backOk (setRecEntry s.helm.record t {}) with
    | (none, s1) => (.busError, s1)
    | (some s1, _) => (.ok, { s1 with helm.upd := { st := 1, target := t, ring := ring, map := 0, drops := s1.helm.upd.drops, bundle := bundle, at_ := s1.mrd.wall } })

/-- `UPD_BLOCK` of a unit (R476). -/
def updBlockCore (s : State) (st : StoreIn) (unit crc : Nat) (bytes : Bytes) : Status × State :=
  let u := s.helm.upd
  if u.st ≠ 1 then (.wrongState, s)
  else if crc32c bytes ≠ crc then (.badArg, s)
  else if u.map.testBit unit then
    match st.slot with
    | none => (.busError, s)
    | some b => if slice b (4096 * unit) 4096 = bytes then (.ok, s) else (.badArg, s)
  else
    let s1 := s.emit (.mem (bootBase s + slotOffset u.target + 4096 * unit) bytes)
    if st.backOk then (.ok, { s1 with helm.upd := { u with map := setBit u.map unit, at_ := s.mrd.wall } }) else (.busError, s1)

/-- The checks of `UPD_FINISH`: the failing one with its status (R477). -/
def finishFailure (s : State) (b : Bytes) : Option (Nat × Status) :=
  if !((unitsNeeded b).all (fun u => s.helm.upd.map.testBit u)) then some (1, .badFormat)
  else if (judgeLoader s b).st ≠ .ok then some (2, (judgeLoader s b).st)
  else if (judgeManifest s b).st ≠ .ok then some (2, (judgeManifest s b).st)
  else if !itemsHold b then some (3, .sigFail)
  else none

/-- `UPD_FINISH` (R477): the status, the failing check and the next state; from check 2 on it needs the engine (18 R538). -/
def updFinishCore (s : State) (st : StoreIn) : Status × Nat × State :=
  let u := s.helm.upd
  if u.st ≠ 1 then (.wrongState, 0, s)
  else match st.slot with
    | none => (.busError, 0, s)
    | some b =>
      match finishFailure s b with
      | some (n, x) => (x, n, if n = 1 then s else engineUp s)
      | none =>
        let m := manifestOf b
        let d := Config.sha384 m
        let e : SlotEntry := { st := 1, attempts := 0, wdog := 0, fw := leAt m 24 2, uc := leAt m 26 2, digest := d }
        match writeRecord (engineUp s) st.backOk (setRecEntry s.helm.record u.target e) with
        | (none, s1) => (.busError, 0, s1)
        | (some s1, _) =>
          (.ok, 0, extendCommand { s1 with helm.upd := { u with st := 3, bundle := leNat ((digestBytes d).take 8) } })

/-- The session ends; the target stays as it is (R478). -/
def endSessionUpd (s : State) : State := if sessionOpen s then { s with helm.upd.st := 4 } else s

/-- `UPD_ABORT` (R478). -/
def updAbortOp (s : State) (a : Access) : State :=
  if sessionOpen s then helmDone (endSessionUpd s) a 4 .ok 0 else helmDone s a 4 .wrongState 0

/-- A `RECEIVING` session that accepts no unit for one second ends (R478). -/
def updTimeout (s : State) : State :=
  if s.helm.upd.st = 1 && s.helm.upd.at_ + 1000000 ≤ s.mrd.wall then endSessionUpd s else s

/-! ### Trial and confirmation (R479, R480) -/

/-- `ACTIVATE`: the record is written and the event measured (R479). -/
def activateCore (s : State) (backOk : Bool) : Status × State :=
  let t := targetSlot s
  let e := recEntry s.helm.record t
  if !(e.st = 1 || e.st = 4) || haWdog s < 2 || 600 < haWdog s then (.badArg, s)
  else match writeRecord s backOk (setRecEntry s.helm.record t { e with st := 2, attempts := 0, wdog := haWdog s }) with
    | (none, s1) => (.busError, s1)
    | (some s1, _) => (.ok, extendCommand s1)

/-- Helm advances the counters to the versions of the running slot (R473). -/
def advanceCounters (s : State) : State :=
  helmProgram (helmProgram (helmProgram s (.advance 0 s.helm.fw)) (.advance 1 s.helm.uc)) (.advance 2 s.helm.policyFmt)

/-- The migrated settings become `ACTIVE` and the old ones `OBSOLETE` (R486). -/
def completeMigration (s : State) : State :=
  if !s.helm.setPending then s
  else
    let new := setRecord (setBody s.helm.settings) s.helm.setVer 1 s.helm.setSeq
    let old := setRecord (setBody s.helm.setOld) (leAt s.helm.setOld 8 2) 3 (leAt s.helm.setOld 16 8)
    let s1 := s.emit (.mem (bootBase s + areaOffset s.helm.area) new)
    let s2 := s1.emit (.mem (bootBase s + areaOffset (!s.helm.area)) old)
    { s2 with helm.setPending := false, helm.settings := new, helm.setOld := [] }

/-- The firmware's own start checks have passed. DESIGN CHOICE (log 160): the spec names none; they are that `READY` has risen and that no
SRAM copy of a store has failed (R470). -/
def startChecks (s : State) : Bool := s.blk.ready && !s.helm.copyFault

/-- A `CONFIRM` whose counters have advanced, or were refused, goes on with the settings and ends (R480 step 4, R473). -/
def confirmEnd (s : State) : State :=
  match s.helm.confirming with
  | some a =>
    if s.logb.running.isSome || s.logb.queue ≠ [] then s
    else helmDone (extendCommand (completeMigration { s with helm.confirming := none })) a 6 .ok 0
  | none => s

/-- `CONFIRM` (R480): the record, the watchdog and the counters; the settings follow the counters. -/
def confirmTrial (s : State) (a : Access) (st : StoreIn) : State :=
  let inTime := match s.helm.wdog with | some t => decide (s.mrd.wall < t) | none => false
  if !runningTrial s || !inTime || !startChecks s then helmDone s a 6 .wrongState 0
  else
    let slot := s.helm.slot
    let r1 := setRecEntry s.helm.record slot { recEntry s.helm.record slot with st := 3 }
    let o := recEntry r1 (!slot)
    let r2 := setRecEntry { r1 with active := slot } (!slot) (if o.st = 3 then { o with st := 1 } else o)
    match writeRecord s st.backOk r2 with
    | (none, s1) => helmDone s1 a 6 .busError 0
    | (some s1, _) => confirmEnd (advanceCounters { s1 with helm.wdog := none, helm.confirming := some a })

/-! ### Signers that are maker pairs or integrator entries (R481, R488) -/

/-- What a named signer is: revoked, or the owner of the keys. -/
def signerStatus (s : State) (kind k : Nat) (keys : Bytes) : Option Status :=
  if kind = 1 then
    if makerRevoked s k then some .keyRevoked else if makerPair s k keys then none else some .sigFail
  else if (revoked s 1).testBit k then some .keyRevoked
  else if !unusable s s.logb.sensed 7 && integratorHash s k ≠ 0 && integratorHash s k = Config.sha384 keys then none
  else some .sigFail

/-- The form of a revocation request (Table 16.8). -/
def revokeForm (s : State) (b : Bytes) : Bool :=
  b.take 8 = ascii "ORPV-RV1" && matchesBlock s (slice b 8 16) && (leAt b 24 1 = 1 || leAt b 24 1 = 2) && leAt b 25 1 < 8
    && (leAt b 26 1 = 1 || leAt b 26 1 = 2) && leAt b 27 1 < 8 && (slice b 28 36).all (· = 0)

/-- R482: what the revocation of maker pair *k* needs of the running slot. -/
def revokeAllowed (s : State) (kind k : Nat) : Bool :=
  kind = 2 || ((recEntry s.helm.record s.helm.slot).st = 3 && s.helm.hasRecord
    && (bitsOf 8 s.helm.pairs).any (fun j => j ≠ k && !makerRevoked s j))

/-- `REVOKE` (R481). -/
def revokeReq (s : State) (a : Access) (mem : Option Bytes) : State :=
  let len := 64 + 4736 + 2752
  match helmRead (inMgmtWindows s s.helm.arg1 len false) mem len with
  | .error st => helmDone s a 7 st 1
  | .ok b =>
    let keys := slice b 4800 2752
    if !revokeForm s b then helmDone s a 7 .badFormat 2
    else if leAt b 24 1 = 1 ∧ leAt b 26 1 = 2 then helmDone s a 7 .sigFail 3
    else match signerStatus s (leAt b 26 1) (leAt b 27 1) keys with
      | some st => helmDone s a 7 st 3
      | none =>
        let s1 := engineUp s
        if !hybridVerify keys (slice b 64 4736) (b.take 64) then helmDone s1 a 7 .sigFail 4
        else if !revokeAllowed s (leAt b 24 1) (leAt b 25 1) then helmDone s1 a 7 .wrongState 5
        else helmDone (extendCommand (helmProgram s1 (.revoke (if leAt b 24 1 = 1 then leAt b 25 1 else 8 + leAt b 25 1)))) a 7 .ok 0

/-! ### Passing an update along (R483) -/

/-- The payload of the `UPDATE` frame of a unit (Table 16.9). -/
def updatePayload (s : State) (slot : Bytes) (u : Nat) : Bytes :=
  let b := slice slot (4096 * u) 4096
  wordBytes (pack [(63, 55, popCount 256 s.helm.upd.map), (54, 47, u), (31, 0, crc32c b)]) ++ leBytes 8 s.helm.upd.bundle ++ b

/-- `FORWARD` (R483, R93, R551). -/
def forwardOp (s : State) (a : Access) (st : StoreIn) : State :=
  if s.helm.upd.st ≠ 3 || !s.mrd.seen then helmDone s a 8 .wrongState 0
  else match st.slot with
    | none => helmDone s a 8 .busError 0
    | some b =>
      let s1 := noteFabric s
      if !fabricReady s1 7 (haPorts s) then helmDone s1 a 8 .tagFail 0
      else
        let us := if haPorts s = 0 then [] else bitsOf 256 s.helm.upd.map
        helmDone (us.foldl (fun x u => fabricSend x 7 (haPorts s) 0 0 0 (updatePayload x b u)) s1) a 8 .ok 0

/-! ### Settings (R487) -/

/-- `SETTINGS`: the staged record goes into the area not in use, unit after unit where it is longer than 4 KiB (R487). -/
def settingsOp (s : State) (a : Access) (st : StoreIn) : State :=
  let u := haUnit s
  if u ≠ 0 && s.helm.setNew.length ≠ 4096 * u then helmDone s a 9 .badArg 0
  else
    let all := (if u = 0 then [] else s.helm.setNew) ++ stagingBytes s
    if 4094 < setCount all then helmDone { s with helm.setNew := [] } a 9 .badFormat 0
    else if all.length < setLen all then helmDone { s with helm.setNew := all } a 9 .ok 0
    else if !st.backOk then helmDone { s with helm.setNew := [] } a 9 .busError 0
    else
      let area := if s.helm.noSettings then s.helm.area else !s.helm.area
      let new := setRecord (setBody all) s.helm.setVer 1 ((s.helm.setSeq + 1) % 2 ^ 64)
      let s1 := { s.emit (.mem (bootBase s + areaOffset area) new) with helm.setNew := [] }
      let s2 := if s.helm.noSettings then s1
        else s1.emit (.mem (bootBase s + areaOffset s.helm.area)
          (setRecord (setBody s.helm.settings) (leAt s.helm.settings 8 2) 3 s.helm.setSeq))
      helmDone (extendCommand s2) a 9 .ok 0

/-! ### Host-die images (R488) -/

/-- The form of a host-die image header (R488). -/
def hostForm (s : State) (b : Bytes) : Bool :=
  b.take 8 = ascii "ORPV-HI1" && matchesBlock s (slice b 8 16) && leAt b 24 1 < 8 && (leAt b 25 1 = 1 || leAt b 25 1 = 2)
    && (leAt b 26 1 < 8 || (leAt b 25 1 = 1 && leAt b 26 1 = 0xFF)) && (slice b 27 5).all (· = 0) && (slice b 96 32).all (· = 0)

/-- `VERIFY_HOST` (R488); its signatures need the engine (18 R538). -/
def verifyHostOp (s : State) (a : Access) (mem body : Option Bytes) : State :=
  let len := 128 + sigBlock
  match helmRead (inMgmtWindows s s.helm.arg1 len false) mem len with
  | .error st => helmDone s a 10 st 0
  | .ok b =>
    let keys := slice b (128 + 4752) 2752
    if !hostForm s b then helmDone s a 10 .badFormat 0
    else match signerStatus s (leAt b 25 1) (leAt b 26 1) keys with
      | some st => helmDone s a 10 st 0
      | none =>
        let s1 := engineUp s
        if !sigsHold s keys (slice b (128 + 16) 4736) (b.take 128) then helmDone s1 a 10 .sigFail 0
        else
          let n := leAt b 32 8
          match helmRead (inMgmtWindows s (leAt b 40 8) n false) body n with
          | .error st => helmDone s1 a 10 st 0
          | .ok img =>
            if Config.sha384 img ≠ digestOf (slice b 48 48) then helmDone s1 a 10 .sigFail 0
            else helmDone (extendMeas s1 (16 + leAt b 24 1) (Config.sha384 (b.take 128))) a 10 .ok 0

/-! ### `UPDATE` frames (R484) -/

/-- Count a dropped `UPDATE` frame (R484). -/
def updDrop (s : State) : State := { s with helm.upd.drops := satInc 0xFFFF s.helm.upd.drops }

/-- A frame of an open ring session runs `UPD_BLOCK`, then `UPD_FINISH` when every unit is present (R484). -/
def ringUnit (s : State) (st : StoreIn) (total unit crc : Nat) (bytes : Bytes) : State :=
  match updBlockCore s st unit crc bytes with
  | (.ok, s1) =>
    let s2 := if s1.helm.upd.map = s.helm.upd.map then s1 else raise s1 0x02 1
    if popCount 256 s2.helm.upd.map = total then (updFinishCore s2 st).2.2 else s2
  | (_, s1) => s1

/-- The block takes an `UPDATE` frame: it accepts a ring session from that sender, the payload is well formed, and a session that is open is
of the same bundle (R484, Table 16.9). -/
def updateTaken (s : State) (rank : Nat) (plain : Bytes) : Bool :=
  let w0 := BitVec.ofNat 64 (leAt plain 0 8)
  let total := fld w0 63 55
  s.helm.ringAccept && rank = s.helm.ringSrc && fld w0 46 32 = 0 && total ≠ 0 && total ≤ 256
    && (!sessionOpen s || leAt plain 8 8 = s.helm.upd.bundle)

/-- An accepted `UPDATE` frame by its sender and payload (R484, Table 16.9). -/
def updateFrame (s : State) (st : StoreIn) (rank : Nat) (plain : Bytes) : State :=
  let w0 := BitVec.ofNat 64 (leAt plain 0 8)
  let total := fld w0 63 55
  let bundle := leAt plain 8 8
  let bytes := slice plain 16 4096
  if !updateTaken s rank plain then updDrop s
  else if s.helm.upd.st = 1 && s.helm.upd.ring then ringUnit s st total (fld w0 54 47) (fld w0 31 0) bytes
  else match updBeginCore s st.backOk true bundle with
    | (.ok, s1) => ringUnit s1 st total (fld w0 54 47) (fld w0 31 0) bytes
    | (_, s1) => s1

/-! ### `MEAS_CMD` (R472) -/

/-- `EXTEND` of the register in the command word with the staged event (R472, Table 16.16); registers 0 to 7 take only the events of steps
1 to 9 (R467), so a command finds them closed whether or not they are locked yet (DEDUCED, log 176). -/
def measExtendOp (s : State) (a : Access) (m : Nat) : State :=
  let done (x : State) (st : Status) : State := noteCmd { x with meas.status := stCode st } a (regAt 0x15 0x40) st
  if m < 8 then done s .wrongState
  else if 8 ≤ m && m ≤ 12 && a.src ≠ .helm then done s .partition
  else if 13 ≤ m && m ≤ 15 || 23 < m then done s .badArg
  else done (extendMeas s m s.meas.event) .ok

/-! ### Staging -/

/-- An access of `HELM_STAGE_DATA` (Table 16.14): the word moves, and `WORD` rises by one. -/
def stageAccess (s : State) (a : Access) (write : Bool) (v : Word) : State :=
  let addr := regAt 0x03 0x48
  let next (x : State) : State := { x with helm.stagePtr := (x.helm.stagePtr + 1) % 512 }
  if write then regWrite s a addr none none (fun x => next { x with helm.staging := tset 0 x.helm.staging x.helm.stagePtr v })
  else regRead s a addr none (tget 0 s.helm.staging s.helm.stagePtr) next

/-! ### The meanings -/

/-- `UPD_BEGIN` (R475). -/
def execUpdBegin (a : Access) (v : Word) (st : StoreIn) (s : State) : Host.Outcome State Fault Refusal :=
  .next (helmCmd s a v true (fun x => let r := updBeginCore x st.backOk false 0; helmDone r.2 a 1 r.1 0))

/-- `UPD_BLOCK` (R476). -/
def execUpdBlock (a : Access) (v : Word) (st : StoreIn) (s : State) : Host.Outcome State Fault Refusal :=
  .next (helmCmd s a v true (fun x => let r := updBlockCore x st (haUnit x) (haCrc x) (stagingBytes x); helmDone r.2 a 2 r.1 0))

/-- `UPD_FINISH` (R477). -/
def execUpdFinish (a : Access) (v : Word) (st : StoreIn) (s : State) : Host.Outcome State Fault Refusal :=
  .next (helmCmd s a v true (fun x => let r := updFinishCore x st; helmDone r.2.2 a 3 r.1 r.2.1))

/-- `UPD_ABORT` (R478). -/
def execUpdAbort (a : Access) (v : Word) (s : State) : Host.Outcome State Fault Refusal :=
  .next (helmCmd s a v true (fun x => updAbortOp x a))

/-- `UPD_SESSION_TIMEOUT` (R478). -/
def execUpdSessionTimeout (us : Nat) (s : State) : Host.Outcome State Fault Refusal :=
  .next (afterTime s us updTimeout)

/-- `HELM_CONFIRM` (R480). -/
def execHelmConfirm (a : Access) (v : Word) (st : StoreIn) (s : State) : Host.Outcome State Fault Refusal :=
  .next (helmCmd s a v false (fun x => confirmTrial x a st))

/-- `HELM_REVOKE` (R481). -/
def execHelmRevoke (a : Access) (v : Word) (mem : Option Bytes) (s : State) : Host.Outcome State Fault Refusal :=
  .next (helmCmd s a v false (fun x => revokeReq x a mem))

/-- `FORWARD` (R483). -/
def execForward (a : Access) (v : Word) (st : StoreIn) (s : State) : Host.Outcome State Fault Refusal :=
  .next (helmCmd s a v false (fun x => forwardOp x a st))

/-- `SETTINGS` (R487). -/
def execSettings (a : Access) (v : Word) (st : StoreIn) (s : State) : Host.Outcome State Fault Refusal :=
  .next (helmCmd s a v false (fun x => settingsOp x a st))

/-- `VERIFY_HOST` (R488). -/
def execVerifyHost (a : Access) (v : Word) (mem body : Option Bytes) (s : State) : Host.Outcome State Fault Refusal :=
  .next (helmCmd s a v false (fun x => verifyHostOp x a mem body))

/-- `HELM_STAGE_DATA_ACCESS` (R475). -/
def execHelmStageDataAccess (a : Access) (write : Bool) (v : Word) (s : State) : Host.Outcome State Fault Refusal :=
  .next (stageAccess s a write v)

/-- `EXTEND` (R472). -/
def execExtend (a : Access) (v : Word) (s : State) : Host.Outcome State Fault Refusal :=
  .next (regWrite s a (regAt 0x15 0x40) none (mbz v (maskBits 54 0)) (fun x => measExtendOp x a (fld v 59 55)))

end Sys2Proof.Machine
end

