-- ==== Sys2Proof/Machine/Deliver.lean ====
section
/-! DEFINITION. What the block does with each class of frame it has accepted, Chartroom's service of key requests, the
activation of entries and replays: whatever may take a frame on from where it waits. -/

namespace Sys2Proof.Machine

/-! ### `ABORT` frames (R82, R204) -/

/-- What a received `ABORT` payload carries. -/
def abortInfoOf (f : FabIn) : AbortInfo :=
  let w0 := BitVec.ofNat 64 (leAt f.plain 0 8)
  { st := .aborted, origin := some (fld w0 47 33), detail := leAt f.plain 8 4, dl := bytesWord (f.plain.drop 16),
    dr := bytesWord (f.plain.drop 24), relay := some (fld w0 63 48, f.plain, f.hdr.hop + 1) }

/-- The ticket a received `ABORT` names. -/
def abortTicketOf (f : FabIn) : Nat := leAt f.plain 12 4

/-- An `ABORT` of a ticket without an entry: R196, or an entry made as `ABORTED` (R204; log 34). -/
def abortUnknown (s : State) (f : FabIn) : State :=
  let p := f.hdr.part
  let g := f.hdr.group
  let t := abortTicketOf f
  let i := abortInfoOf f
  let q := s.part p
  let below := (q.overflow.map (fun m => decide (t ≤ m))).getD false
  if 64 ≤ listCount s p ∨ below then
    let m := match q.overflow with | some m => max m t | none => t
    { s.setPart p { q with overflow := some m } with park.dropOrder := bump s.park.dropOrder 1 }
  else
    let s1 := putEntry (recordStream s f.hdr) p { ticket := t, group := g, st := .aborted, madeAt := s.mrd.wall, fin := true }
    let s2 := noteAborted (latchAbort s1 g ((i.relay.map (·.1)).getD 0) (i.origin.getD 0) i.detail i.dl i.dr) p g t (epochAt s p f.hdr.step)
    raise (raise { s2 with park.aborts := bump s2.park.aborts 1 } 0x60 1) (0x80 + p) 0

/-- An accepted `ABORT` frame (R204); one that is dropped leaves no stream record (R103). A collective that has left the list is told by
`GRP_LAST`, in the key epoch in force at the frame's `STEP` (R106; log 140). -/
def abortFrame (s : State) (f : FabIn) : State :=
  let p := f.hdr.part
  let g := f.hdr.group
  let i := abortInfoOf f
  let late := larkCount s f.pipe 0xF8 1
  match findEntry s p g (abortTicketOf f) with
  | none => if abortedHere s p g (abortTicketOf f) (epochAt s p f.hdr.step) then late else abortUnknown s f
  | some e0 =>
    let e := claimEntry g e0
    let s1 := recordStream s f.hdr
    if e.st = .aborted || (e.st = .done && e.relayed) then late
    else if e.st = .done then
      let s2 := abortEntry s1 p e i
      let s3 := match findEntry s2 p g e.ticket with
        | none => s2
        | some e1 => putEntry s2 p { e1 with relayed := true }
      let ports := match entryDesc s p e with | some (d, _) => dAbortPorts d | none => dAbortPorts (s.desc false g)
      sendAbort s3 ports p g (f.hdr.hop + 1) f.plain
    else abortEntry s1 p e i

/-! ### `PROBE` and `MGMT` frames (R83, R215) -/

/-- Count an answer that is not sent (R93, R551). -/
def unanswered (s : State) : State := { s with park.unanswered := bump s.park.unanswered 1 }

/-- Send an answer that concerns a group, or none, on the port a frame came in on (R83, R91, R215; R551). While no boundary has been seen the
request is dropped (R93). -/
def answerFrame (s : State) (f : FabIn) (cls group : Nat) (payload : Bytes) : State :=
  let ports := 2 ^ f.arr.port.toNat
  if !s.mrd.seen then unanswered s
  else
    let s1 := noteFabric (recordStream s f.hdr)
    if fabricReady s1 cls ports then fabricSend s1 cls ports 0 group 0 payload else unanswered s1

/-- An accepted `PROBE` (R83): a request, told by its reply bit alone, is answered; a reply is taken. -/
def probeFrame (s : State) (f : FabIn) : State :=
  if leAt f.plain 8 1 % 2 = 1 then recordStream s f.hdr else answerFrame s f 8 0 (f.plain.take 8 ++ leBytes 8 1)

/-- `STRG_LAST` and `STRG_LAST_TICKET` of a group (Table 6.24). -/
def strgLastWord (r : GrpRec) : Word := pack [(63, 49, r.strgRank), (48, 48, r.strgLocal.toNat), (19, 0, r.strgLate)]
def strgTicketWord (r : GrpRec) : Word := pack [(63, 32, r.strgTicket)]

/-- The querying block is a source or the `DIST_SRC` of the group here (R215). -/
def mayQuery (s : State) (g rank : Nat) : Bool :=
  let d := s.desc false g
  bitOf d.w0 63 && (rank = dDistSrc d || (sourcesOf s false d).any (fun x => x.rank = rank))

/-- An accepted `MGMT` frame (R215, Table 6.10). DESIGN CHOICE (log 174): a `STRG_QUERY` whose body is not 8 bytes, or with a bit above 11:0 of it
or of word 1 set, is dropped without answer or count, like one from a rank or a port that may not ask (log 95). -/
def mgmtFrame (s : State) (f : FabIn) : State :=
  let w0 := BitVec.ofNat 64 (leAt f.plain 0 8)
  let svc := fld w0 63 48
  let len := fld w0 47 32
  let form (n : Nat) : Bool := len = n && leAt f.plain 8 8 = 0 && f.plain.length = 16 + 16 * ceilDiv n 16
  if svc = 0x8001 then recordStream s f.hdr
  else if svc ≠ 1 then { s with park.mgmtUnknown := bump s.park.mgmtUnknown 1 }
  else
    let body := leAt f.plain 16 8
    let g := body % 2 ^ 12
    if !form 8 || body / 2 ^ 12 ≠ 0 || !s.grp.mgmtPorts.testBit f.arr.port.toNat || !mayQuery s g f.hdr.rank then recordStream s f.hdr
    else
      let r := s.grpRec g
      answerFrame s f 6 g (wordBytes (pack [(63, 48, 0x8001), (47, 32, 16), (31, 0, fld w0 31 0)]) ++ zeros 8
        ++ wordBytes (strgLastWord r) ++ wordBytes (strgTicketWord r))

/-! ### Fabric-class frames -/

/-- What the block does with a fabric-class frame that returns from parking at the end of a boundary: a `STEP` only pends. -/
def fabInner (x : StepIn) (s : State) (f : FabIn) : State :=
  if f.hdr.cls = 4 then abortFrame s f
  else if f.hdr.cls = 5 then stepFrame (fun t _ => t) true none s f
  else if f.hdr.cls = 6 then mgmtFrame s f
  else if f.hdr.cls = 7 then updateFrame (if updateTaken s f.hdr.rank f.plain then recordStream s f.hdr else s) x.st f.hdr.rank f.plain
  else if f.hdr.cls = 8 then probeFrame s f
  else s

/-- What the block does with an accepted fabric-class frame (Table 3.2). -/
def fab (x : StepIn) (s : State) (f : FabIn) : State :=
  if f.hdr.cls = 5 then stepFrame (fabInner x) false x.phases s f else fabInner x s f

/-- A command that brings nothing of its own. -/
def noStepIn : StepIn := { phases := none, st := { slot := none, backOk := true }, ecc := { corrected := 0, bad := none } }

/-! ### Key requests (R151, R366) -/

/-- The first key a frame needs and its pipe lacks. -/
def missingKey (s : State) (k : Nat) (f : HeldFrame) : Option KeyReq :=
  (frameNeeds s k f).find? (fun r => (heldKey (s.pipe k) f.id r).isNone && (kcFind (s.pipe k) r.use r.part r.sel r.epoch).isNone)

/-- Frames of an ingress pipe that wait for a request. -/
def waitersOf (s : State) (r : KeyReq) : List HeldFrame :=
  (s.pipe r.pipe).buf.filter (fun f => decide (f.st = .waitKey) && decide (missingKey s r.pipe f = some r))

/-- A pipe and state with a waiting request's outcome: the key and whether it was derived, or a refusal (R19, R363, R366). -/
def lookupKey (s : State) (r : KeyReq) : Except Status (Key × Bool × Nat) :=
  match baseSlot s r with
  | none => .error .tagFail
  | some i =>
    match slotKey s i, s.chrt.cache.find? (fun c => decide (c.req = { r with pipe := 0 }) && c.slot = i) with
    | none, _ => .error .tagFail
    | some b, c =>
      if !(atMask (s.slot i).attr).testBit r.pipe then .error .destDenied
      else match c with
        | some x => .ok (x.key, false, i)
        | none => .ok (requestKey b r, decide (r.use ≠ 3), i)

/-- Keep a derived key in the frame-key cache of 256 entries, the oldest going first (R366). -/
def cacheKey (s : State) (r : KeyReq) (key : Key) (slot : Nat) : State :=
  let c := s.chrt.cache ++ [{ req := { r with pipe := 0 }, slot := slot, key := key }]
  { s with chrt.cache := c.drop (c.length - 256), chrt.derives := bump s.chrt.derives 1 }

/-- A key arrives at a pipe: its waiting frames hold it and run again (R151, R152). -/
def keyArrives (x : StepIn) (s : State) (r : KeyReq) (key : Key) : State :=
  let ws := waitersOf s r
  let s1 := if (kcFind (s.pipe r.pipe) r.use r.part r.sel r.epoch).isSome then s else (kcPush s r.pipe r key).1
  let s2 := { s1 with chrt.pushes := bump s1.chrt.pushes 1 }
  if r.pipe < 8 then
    let s3 := ws.foldl (fun st f =>
      let st1 := match kcFind (st.pipe r.pipe) r.use r.part r.sel r.epoch with | some i => kcHold st r.pipe f.id i | none => st
      modHeld st1 r.pipe f.id (fun h => { h with st := .queued })) s2
    pumpPipe (fab x) ((s3.pipe r.pipe).buf.length) s3 r.pipe
  else if r.use = 4 then sendWaiting s2
  else
    let q := s2.pipe r.pipe
    s2.setPipe r.pipe { q with waitKey := none, filled := q.waitKey }

/-- Chartroom refuses a fabric key: the frame that asked for it is not sent (R551). -/
def fabricRefused (s : State) (r : KeyReq) : State :=
  match s.lark.unsent with
  | w :: rest => if w.cls = r.sel ∧ outPipe s w.ports = some r.pipe then fabricLost { s with lark.unsent := rest } w else s
  | [] => s

/-- Chartroom refuses a request: the waiting frames are damaged, or the egress stream's collective aborts (R151). -/
def keyRefused (x : StepIn) (s : State) (r : KeyReq) (st : Status) : State :=
  let s1 := { s with chrt.refusals := bump s.chrt.refusals 1 }
  if r.pipe < 8 then
    let s2 := (waitersOf s r).foldl (fun y f => damaged y r.pipe f { st := st } true) s1
    pumpPipe (fab x) ((s2.pipe r.pipe).buf.length) s2 r.pipe
  else if r.use = 4 then sendWaiting (fabricRefused s1 r)
  else
    let q := s1.pipe r.pipe
    let s2 := s1.setPipe r.pipe { q with waitKey := none }
    match q.waitKey with
    | none => s2
    | some (p, g, t) => match findEntry s2 p g t with
      | some e => abortEntry s2 p e { st := st }
      | none => s2

/-- Return the frames parked for exponents that are now agreed (R123). -/
def returnAllScaled (x : StepIn) (s : State) : State :=
  s.grp.lists.foldl (fun st l => l.2.foldl (fun st2 e => returnScaled (fab x) st2 l.1 e.group e.ticket) st) s

/-- A push needs room in the pipe's cache: with every entry held, which R152 keeps from happening, the request stays the oldest (log 35). -/
def cacheFull (s : State) (r : KeyReq) : Bool :=
  (kcFind (s.pipe r.pipe) r.use r.part r.sel r.epoch).isNone && (kcVictim (s.pipe r.pipe)).isNone

/-- What a push of a slot's key to engine 16 comes to: the key with its owner, or a refusal (R356, R363, R19). -/
def engineKey (s : State) (i : Nat) : Except Status (Key × Nat) :=
  let x := s.slot i
  if x.st = .empty || (x.st ≠ .active && !x.bad) then .error .wrongState
  else match slotKey s i with
    | none => .error .tagFail
    | some k => if (atMask x.attr).testBit 16 then .ok (k, if atBlock x.attr then 32 else atPart x.attr) else .error .destDenied

/-- A push to engine 16 that Helm asks for is refused: Chartroom returns the status (R396). -/
def engineRefused (s : State) (st : Status) : State :=
  { s with chrt.refusals := bump s.chrt.refusals 1, chrt.pushSt := stCode st }

/-- Helm has a slot's key pushed into the target slot of engine 16 (R19, R20, R396). -/
def serveEngine (s0 : State) (i : Nat) : State :=
  let s := noteBad s0 i
  match engineKey s i with
  | .error st => engineRefused s st
  | .ok (k, o) => match astrPush s k o with
    | .error st => engineRefused s st
    | .ok s1 => { s1 with chrt.pushes := bump s1.chrt.pushes 1, chrt.pushSt := 0 }

/-- Such a push is cut short before its fourth beat: the words it was filling are zeroed, and it is not acknowledged (R20). -/
def cutEngine (s0 : State) (i : Nat) : State :=
  let s := noteBad s0 i
  match engineKey s i, astrPush s 0 0 with
  | .ok _, .ok _ => putWords s (s.astrSlot s.astr.keySlot).base (wordsOfBytes (keyBytes 0))
  | _, _ => s

/-- A push that is cut short before its fourth beat: the entry it was filling is zeroed, and the push is not acknowledged (R20). DESIGN
CHOICE (log 139): the request stands again as the oldest. -/
def cutPush (s : State) (r : KeyReq) : State :=
  match kcVictim (s.pipe r.pipe) with
  | none => s
  | some i => s.setPipe r.pipe { s.pipe r.pipe with kc := tset {} (s.pipe r.pipe).kc i {} }

/-- `KEY_REQUEST_SERVE`: Chartroom answers its oldest request (R366), or a push to engine 16 that Helm asks for (R396), unless the push is cut
short (R20); Chartroom, the engine and the pipes run only while their loops hold lock (R25). -/
def serveKey (s : State) (x : StepIn) (cut : Bool) (ask : Option (BitVec 9)) : State :=
  if !secRuns s || !arithRuns s then s
  else match ask, s.chrt.queue with
  | some i, _ => if cut then cutEngine s i.toNat else serveEngine s i.toNat
  | none, [] => s
  | none, r :: rest =>
    if cut then cutPush s r
    else if cacheFull s r then s
    else
      let s1 := { s with chrt.queue := rest }
      let s2 := match baseSlot s1 r with | some i => noteBad s1 i | none => s1
      returnAllScaled x (match lookupKey s2 r with
        | .error st => keyRefused x s2 r st
        | .ok (key, derived, i) => keyArrives x (if derived then cacheKey s2 r key i else s2) r key)

/-! ### Activation (R194) -/

/-- The lowest `WAITING` entry whose chain is closed and that nothing blocks. -/
def activatable (s : State) (p : Nat) : Option Entry :=
  (s.entries p).find? (fun e => e.st = .waiting && (chainGap s p 65 e).isNone && (blocker s p e).isNone)

/-- Open a window for an entry and make it `ACTIVE`, or abort it with `ST_QUOTA`; its parked frames return (R194). -/
def activate (s : State) (p : Nat) (e : Entry) : State :=
  match entryDesc s p e with
  | none => s
  | some (d, _) =>
    let r : WinResult × State := match descWindow d with
      | some wi => ({ status := 0, win := wi, detail := 0 }, s)
      | none => let y := allocWindow s p e.group (dTiles d) (dRetain d); (y.1, winDone y.2 y.1)
    if r.1.status ≠ 0 then abortEntry r.2 p e { st := .quota }
    else
      let s1 := winDone (openWindow r.2 r.1.win e.ticket (if dFixed d then some (dEfix d) else none)) { win := r.1.win }
      let s2 := putEntry s1 p { e with st := .active }
      let s3 := progress s2 p e.group e.ticket
      let s4 := returnParked (fab noStepIn) (fun y => y.why = .ticket && y.part = p && y.group = e.group && y.ticket = e.ticket) s3
      returnAllScaled noStepIn s4

/-- A parked frame of a partition waits for nothing but a `BOUND` ingress pipe: its entry is active, or its key epoch is in the pair (R194,
R157). -/
def overdue (s : State) (p : Nat) (x : Parked) : Bool :=
  x.part = p && (match x.why with
    | .ticket => (match findEntry s p x.group x.ticket with | some e => decide (e.st = .active) | none => false)
    | .epoch => let h := hdrOf x.arr.bytes; inPair (s.clockOf (if isCollective h.cls then h.part else 32)) h.kEpoch
    | .scale => false)

/-- `ENTRY_ACTIVATE` (R194): the next entry becomes active; frames that stayed parked for want of a `BOUND` pipe return where one is now.
DESIGN CHOICE (log 141): this command stands for both, for the table has none of its own for a pipe that becomes `BOUND`. -/
def entryActivate (s : State) (p : Nat) : State :=
  if !secRuns s || !arithRuns s then s
  else
    let s1 := match activatable s p with
      | some e => activate s p e
      | none => s
    returnAllScaled noStepIn (returnParked (fab noStepIn) (overdue s1 p) s1)

/-! ### The meanings -/

/-- `DATA_FRAME_RECEIVE` (R101). -/
def execDataFrameReceive (f : Arrival) (e : EccIn) (s : State) : Host.Outcome State Fault Refusal :=
  .next (eccAdded s (ingressFrame (fab noStepIn) s f) e)

/-- `SCALE_FRAME_RECEIVE` (R121). -/
def execScaleFrameReceive (f : Arrival × EccIn) (s : State) : Host.Outcome State Fault Refusal :=
  .next (eccAdded s (ingressFrame (fab noStepIn) s f.1) f.2)

/-- `RESULT_FRAME_RECEIVE` (R173). -/
def execResultFrameReceive (f : Arrival) (s : State) : Host.Outcome State Fault Refusal := .next (ingressFrame (fab noStepIn) s f)

/-- `ABORT_FRAME_RECEIVE` (R204). -/
def execAbortFrameReceive (f : Arrival) (s : State) : Host.Outcome State Fault Refusal := .next (ingressFrame (fab noStepIn) s f)

/-- `STEP_FRAME_RECEIVE` (R289). -/
def execStepFrameReceive (f : Arrival) (x : StepIn) (s : State) : Host.Outcome State Fault Refusal :=
  .next (eccAdded s (ingressFrame (fab x) s f) x.ecc)

/-- `PROBE_FRAME_RECEIVE` (R83). -/
def execProbeFrameReceive (f : Arrival) (s : State) : Host.Outcome State Fault Refusal := .next (ingressFrame (fab noStepIn) s f)

/-- `MGMT_FRAME_RECEIVE` (R215). -/
def execMgmtFrameReceive (f : Arrival) (s : State) : Host.Outcome State Fault Refusal := .next (ingressFrame (fab noStepIn) s f)

/-- `UPDATE_FRAME_RECEIVE` (R484). No tile is added by it. -/
def execUpdateFrameReceive (f : Arrival) (x : StepIn) (s : State) : Host.Outcome State Fault Refusal := .next (ingressFrame (fab x) s f)

/-- `KEY_REQUEST_SERVE` (R366). -/
def execKeyRequestServe (x : KeyServe) (s : State) : Host.Outcome State Fault Refusal :=
  .next (eccAdded s (serveKey s x.step x.cut x.ask) x.step.ecc)

/-- `CS_PARITY_ERROR` (R272). -/
def execCsParityError (pipe : BitVec 4) (x : List (BitVec 11 × Word) × StepIn) (s : State) : Host.Outcome State Fault Refusal :=
  .next (eccAdded s (whenArith s (fun y => csParityError (fab x.2) y pipe.toNat x.1)) x.2.ecc)

/-- `INGRESS_REPLAY` (R267); the replaying pipe adds the tiles again, and so reads their codewords (R176, R177). -/
def execIngressReplay (pipe : BitVec 4) (e : EccIn) (s : State) : Host.Outcome State Fault Refusal :=
  .next (eccAdded s (whenArith s (fun x => ingressReplay x pipe.toNat)) e)

/-- `EGRESS_REPLAY` (R268); the replaying pipe reads the codewords of the lanes anew (R176, R177). -/
def execEgressReplay (pipe : BitVec 4) (e : EccIn) (s : State) : Host.Outcome State Fault Refusal :=
  .next (eccReplayed s (whenArith s (fun x => egressReplay x pipe.toNat)) pipe.toNat e)

/-- `ENTRY_ACTIVATE` (R194). -/
def execEntryActivate (x : BitVec 5 × EccIn) (s : State) : Host.Outcome State Fault Refusal :=
  .next (eccAdded s (entryActivate s x.1.toNat) x.2)

/-- `MRD_ADVANCE` (R290). -/
def execMrdAdvance (a : Access) (v : Word) (x : StepIn) (s : State) : Host.Outcome State Fault Refusal :=
  .next (eccAdded s (mrdAdvance (fabInner x) s a v x.phases) x.ecc)

/-- `STEP_MARK_PULSE` (R286). -/
def execStepMarkPulse (x : StepIn) (s : State) : Host.Outcome State Fault Refusal := .next (eccAdded s (stepMark (fabInner x) s x.phases) x.ecc)

/-- `PENDING_BOUNDARY` (R293). -/
def execPendingBoundary (x : StepIn) (s : State) : Host.Outcome State Fault Refusal := .next (eccAdded s (pendingBoundary (fabInner x) s x.phases) x.ecc)

/-- Bring every active entry up to date. -/
def progressAll (s : State) : State :=
  s.grp.lists.foldl (fun st l => l.2.foldl (fun st2 e => progress st2 l.1 e.group e.ticket) st) s

/-- `ABSENCE_CUT`: time passes, then every cut that has passed acts (R209). -/
def execAbsenceCut (x : Nat × EccIn) (s : State) : Host.Outcome State Fault Refusal :=
  .next (eccAdded s (afterTime s x.1 (fun s1 => returnAllScaled noStepIn (progressAll (cutAbsent s1)))) x.2)

/-- `DEADLINE_EXPIRE`: time passes, then every deadline that has passed acts (R201). -/
def execDeadlineExpire (us : Nat) (s : State) : Host.Outcome State Fault Refusal := .next (afterTime s us expireDeadlines)

end Sys2Proof.Machine
end

