-- ==== Sys2Proof/Machine/Rhumb.lean ====
section
/-! DEFINITION. Rhumb's engine (chapter 11): the memory master port, the movement of bytes between the spaces, and how an
instruction ends. A register access of a channel goes through the handler `bus`. -/

namespace Sys2Proof.Machine

/-- The handler of a register access: the state after it, its answer standing in `bus.resp`. -/
abbrev BusFn := State → Access → Bool → Nat → Word → State

def State.chan (s : State) (k : Nat) : Chan := tget {} s.rhmb.chans k
def State.setChan (s : State) (k : Nat) (c : Chan) : State := { s with rhmb.chans := tset {} s.rhmb.chans k c }

/-- Change a channel. -/
def modChan (s : State) (k : Nat) (f : Chan → Chan) : State := s.setChan k (f (s.chan k))

/-- The page of a channel. -/
def chanPage (k : Nat) : Nat := 0x20 + k

/-- The windows of a channel by number: its owner's, or the management windows (R324). -/
def chanWindows (s : State) (k : Nat) : List (Nat × Region) :=
  match chanOwner s k with
  | some p => (List.range 8).map (fun w => (w, tget {} (s.part p).regions w))
  | none => (List.range 4).map (fun w => (w, tget {} s.rhmb.mgmt w))

/-- A byte range lies inside a window of the channel's owner, or a management window (R324, R313, R315). -/
def chanInside (s : State) (k : Nat) (addr : Int) (len : Nat) (write : Bool) : Bool :=
  decide (0 ≤ addr) && (chanWindows s k).any (fun w => windowGrants k (s.chan k).serial w.2 addr.toNat len write)

/-- Byte ranges of memory that a side of a job spans (R329, R336). -/
def segRanges : SegGen → List (Nat × Nat)
  | .list l => (l.filter (fun g => g.sp = 0)).map (fun g => (g.addr, g.len))
  | .matrix base stride cols w _ _ total => [(base, (16 * ceilDiv (total / 16) cols - 1) * stride + 16 * cols * w)]
  | .tiles base size _ _ _ total => [(base, total / 16 * size)]

/-- The windows of a channel that hold one of these ranges (R315). -/
def windowsOver (s : State) (k : Nat) (l : List (Nat × Nat)) : List Nat :=
  ((chanWindows s k).filter (fun w => w.2.en && l.any (fun x => w.2.base ≤ x.1 && x.1 + x.2 ≤ w.2.limit))).map (·.1)

/-- The status of a status word; `ST_BUS_ERROR` for a word that is none (R541: none arises). -/
def statusOf (c : Nat) : Status :=
  ([.ok, .badArg, .badFormat, .bounds, .quota, .budgetExhausted, .wrongState, .transitionTorn, .lockRefused, .partition, .destDenied,
    .keyRevoked, .sigFail, .tagFail, .inputRejected, .descMismatch, .orderTimeout, .deadline, .aborted, .memberAbsent,
    .arithMismatch, .pipeRetired, .fuseMarginal, .eccUncorrectable, .busError, .paused] : List Status).find? (fun x => stCode x = c)
    |>.getD .busError

/-! ### Runs of bytes -/

/-- Go `n` bytes into a list of runs; a stream endpoint keeps its number. -/
def advList : Nat → List Seg → List Seg
  | _, [] => []
  | n, x :: r =>
    if n < x.len then { x with addr := if x.sp = 1 then x.addr else x.addr + n, len := x.len - n } :: r else advList (n - x.len) r

/-- The next run of a side; the rows of a tile are one run where it is written (R335, R347). -/
def segHead (write : Bool) : SegGen → Option Seg
  | .list l => l.head?
  | .matrix base stride cols w next done total =>
    if total ≤ next then none
    else some { sp := 0, addr := base + (16 * (next / 16 / cols) + next % 16) * stride + 16 * (next / 16 % cols) * w + done, len := 16 * w - done }
  | .tiles base size row next done total =>
    if total ≤ next then none
    else some { sp := 0, addr := base + next / 16 * size + 8 + next % 16 * row + done, len := (if write then (16 - next % 16) * row else row) - done }

/-- Go `n` bytes into a side. -/
def segAdv (n : Nat) : SegGen → SegGen
  | .list l => .list (advList n l)
  | .matrix b st c w next done total => .matrix b st c w ((next * (16 * w) + done + n) / (16 * w)) ((done + n) % (16 * w)) total
  | .tiles b sz row next done total => .tiles b sz row ((next * row + done + n) / row) ((done + n) % row) total

/-- The place of the next byte of a side, or the end of its last run. -/
def segPos (before after : SegGen) (old : Nat × Nat) : Nat × Nat :=
  match segHead true after with
  | some g => (g.sp, g.addr)
  | none => match before with
    | .list l => match l.getLast? with
      | some g => (g.sp, if g.sp = 1 then g.addr else g.addr + g.len)
      | none => old
    | _ => match segHead true before with
      | some g => (g.sp, g.addr + g.len)
      | none => old

/-- The bytes of a tile at the destination of a `SHUFFLE`. -/
def tileBytes (g : SegGen) : Nat :=
  match g with
  | .matrix _ _ _ w _ _ _ => 256 * w
  | .tiles _ _ row _ _ _ => 16 * row
  | .list _ => 1

/-! ### Requests (R515, R347) -/

/-- A request is a write. -/
def isWrite : ReqKind → Bool
  | .write _ => true
  | _ => false

/-- The lowest number that no outstanding request carries, and no request that timed out while its answer may still come (R515). DESIGN CHOICE
(log 175): such a number is used again once that answer has come. -/
def freeId (s : State) : Option Nat := (List.range 256).find? (fun i => s.rhmb.reqs.all (fun r => r.id ≠ i) && !s.rhmb.late.contains i)

/-- Outstanding requests of a channel. -/
def reqsOf (s : State) (k : Nat) : List Req := s.rhmb.reqs.filter (fun r => r.ch = k)
def readsOf (s : State) (k : Nat) : List Req := (reqsOf s k).filter (fun r => !isWrite r.kind)
def writesOf (s : State) (k : Nat) : List Req := (reqsOf s k).filter (fun r => isWrite r.kind)

/-- Issue a request of up to one beat (R347; 18 Table 18.2). -/
def issue (s : State) (k : Nat) (kind : ReqKind) (addr n : Nat) (data : Bytes) : State :=
  match freeId s with
  | none => s
  | some id =>
    let off := addr % 64
    let r : Req := { id := id, ch := k, by_ := k, kind := kind, addr := addr - off, off := off, n := n, wall := s.mrd.wall }
    ({ s with rhmb.reqs := s.rhmb.reqs ++ [r] }).emit
      (.mmp (isWrite kind) id (addr - off) (if isWrite kind then (2 ^ n - 1) * 2 ^ off else 0) ((chanOwner s k).getD 32) data)

/-- No channel waits for these requests any more: what has been answered is discarded, the rest when its answer comes (R349, R351). -/
def detach (s : State) (c : Req → Bool) : State :=
  { s with rhmb.reqs := (s.rhmb.reqs.filter (fun r => !(c r && r.ans.isSome))).map (fun r => if c r then { r with ch := 16 } else r) }

/-! ### Register accesses of a channel (R341) -/

/-- The access a channel makes. -/
def chanAccess (s : State) (k : Nat) (mgmt : Bool) : Access :=
  match chanOwner s k with
  | some p => { src := .rhumb (BitVec.ofNat 4 k), tagged := true, ptag := BitVec.ofNat 5 p, mgmt := false }
  | none => { src := .rhumb (BitVec.ofNat 4 k), tagged := false, ptag := 0, mgmt := mgmt }

/-- One register access of a channel: its data, or the refusal's status. The port's last answer stays the host's. -/
def chanReg (bus : BusFn) (s : State) (a : Access) (write : Bool) (addr : Nat) (v : Word) : State × Except Status Word :=
  let keep := s.bus.resp
  let s1 := bus { s with bus.resp := {} } a write addr v
  let r := s1.bus.resp
  ({ s1 with bus.resp := keep }, if r.refused then .error (statusOf r.stat) else .ok r.rdata)

/-- Read `n` registers in order, up to a refusal. -/
def chanReads (bus : BusFn) (a : Access) : Nat → Nat → State → Bytes → State × Bytes × Option Status
  | 0, _, s, acc => (s, acc, none)
  | n + 1, addr, s, acc =>
    let r := chanReg bus s a false addr 0
    match r.2 with
    | .error st => (r.1, acc, some st)
    | .ok w => chanReads bus a n (addr + 8) r.1 (acc ++ wordBytes w)

/-! ### The staging buffer (16 R475) -/

/-- Bytes of the staging buffer. -/
def stageBytes (s : State) (off n : Nat) : Bytes :=
  (List.range n).map (fun i => (wordBytes (tget 0 s.helm.staging ((off + i) / 8))).getD ((off + i) % 8) 0)

/-- Write bytes of the staging buffer. -/
def stageWrite (s : State) (off : Nat) (b : Bytes) : State :=
  ((List.range b.length).foldl (fun (st : State) i =>
    let k := (off + i) / 8
    let w := wordBytes (tget 0 st.helm.staging k)
    { st with helm.staging := tset 0 st.helm.staging k (bytesWord (w.set ((off + i) % 8) (b.getD i 0))) }) s)

/-! ### The running data instruction -/

/-- The fields of an instruction (Table 11.4). -/
structure Ins where
  op : Nat
  ssp : Nat
  dsp : Nat
  irq : Bool
  mgmt : Bool
  sub : Nat
  len : Nat
  rest : Nat
  w1 : Word
  w2 : Word
  w3 : Word
  deriving DecidableEq, Repr

/-- Read an instruction's words. -/
def insOf (l : List Word) : Ins :=
  let w := l.getD 0 0
  { op := fld w 63 60, ssp := fld w 59 57, dsp := fld w 56 54, irq := bitOf w 53, mgmt := bitOf w 52, sub := fld w 51 48, rest := fld w 47 32,
    len := fld w 31 0, w1 := l.getD 1 0, w2 := l.getD 2 0, w3 := l.getD 3 0 }

/-- The instruction a channel has fetched. -/
def chanIns (s : State) (k : Nat) : Ins := insOf ((s.chan k).instr.getD [])

/-- Put a channel's job. -/
def setJob (s : State) (k : Nat) (j : Job) : State := modChan s k (fun c => { c with job := some j })

/-- The stream endpoints a job names: 0 to 3 `LSP_IN`, 4 to 7 `LSP_OUT`. -/
def jobEnds (j : Job) : List Nat :=
  let g (second : Bool) (x : SegGen) : List Nat := match segHead false x with
    | some h => if h.sp = 1 then [if second then h.addr else 4 + h.addr] else []
    | none => []
  g false j.rd ++ g true j.wd

/-- Every endpoint the job names is the channel's, or free (R340). -/
def claimable (s : State) (k : Nat) (j : Job) : Bool :=
  (jobEnds j).all (fun e => tget 0 s.rhmb.claims e = 0 || tget 0 s.rhmb.claims e = k + 1)

/-- Take the endpoints (R340). -/
def claim (s : State) (k : Nat) (j : Job) : State :=
  { s with rhmb.claims := (jobEnds j).foldl (fun t e => tset 0 t e (k + 1)) s.rhmb.claims }

/-- A channel that waits for a stream endpoint takes what it names as soon as that is free (R340). -/
def takeReleased (s : State) (k : Nat) : State :=
  let c := s.chan k
  match (if c.st = .waiting ∧ c.wait = some .stream then c.job else none) with
  | some j => if claimable s k j then claim s k j else s
  | none => s

/-- Release every endpoint of a channel; channels that wait take them in ascending number (R340). -/
def unclaim (s : State) (k : Nat) : State :=
  (List.range 16).foldl takeReleased { s with rhmb.claims := s.rhmb.claims.filter (fun e => e.2 ≠ k + 1) }

/-- The first frame at the source endpoint that has not been taken. -/
def nextFrame (s : State) (j : Job) (k : Nat) : Option Bytes := (tget [] s.rhmb.sink k)[j.frames.length]?

/-- A stream source gives no further frame: the last one has been taken, or the next does not fit in what remains (R339). -/
def streamEnd (s : State) (j : Job) (g : Seg) : Bool :=
  j.sawLast || g.len < 80 || ((nextFrame s j g.addr).map (fun b => decide (g.len < b.length))).getD false

/-- Nothing more is to be read. -/
def readsDone (s : State) (j : Job) : Bool :=
  j.stop.isSome || (decide (j.part = 0) && (match segHead false j.rd with
    | none => true
    | some g => g.sp = 1 && streamEnd s j g))

/-- Add bytes of the source to the funnel, as the kind of the job makes them. -/
def takeIn (j : Job) (b : Bytes) : Job :=
  match j.kind with
  | .shuffle 1 =>
    let l := j.funnel2 ++ b
    { j with
      funnel := j.funnel ++ (List.range (l.length / 2)).map (fun i => BitVec.ofNat 8 ((l.getD (2 * i) 0).toNat % 16 + 16 * ((l.getD (2 * i + 1) 0).toNat % 16))),
      funnel2 := l.drop (2 * (l.length / 2)) }
  | .shuffle 2 =>
    let l := (b.map (fun x => [BitVec.ofNat 8 (uNat 8 (sInt 4 x.toNat)), BitVec.ofNat 8 (uNat 8 (sInt 4 (x.toNat / 16)))])).flatten
    { j with funnel := j.funnel ++ l.drop j.funnel2.length, funnel2 := [] }
  | _ => { j with funnel := j.funnel ++ b }

/-- Bytes of the source behind bytes `done` to `done + n` of the destination. -/
def srcBytes (j : Job) (n : Nat) : Nat :=
  match j.kind with
  | .shuffle 1 => 2 * n
  | .shuffle 2 => (j.done + n) / 2 - j.done / 2
  | _ => n

/-- A job reads the pairs of a `COMPARE`. -/
def isCompare : JobKind → Bool
  | .compare _ => true
  | _ => false

/-- What a job reads is kept outside the buffers: a pair list, judged whole before any byte moves (R331). -/
def isPairs : JobKind → Bool
  | .pairs _ _ => true
  | _ => false

/-- Reads of one side that are outstanding. -/
def sideReads (s : State) (k : Nat) (second : Bool) : Nat :=
  ((readsOf s k).filter (fun r => r.kind = (if second then .data2 else .data))).length

/-- Bytes that the read buffer of 1 KiB and the funnel buffer of 128 bytes still have room for (R324), shared by the two operands of a
`COMPARE`. -/
def bufRoom (s : State) (k : Nat) (j : Job) (second : Bool) : Nat :=
  (if isPairs j.kind then 4096 else if isCompare j.kind then 576 else 1152) - 64 * sideReads s k second
    - (if second then j.funnel2 else j.funnel).length

/-- Issue one read of a side from memory (R347): at most 16 outstanding, 8 for each operand of a `COMPARE`, and room for the beat (R324). -/
def pullMem (s : State) (k : Nat) (j : Job) (second : Bool) (g : Seg) : Option State :=
  let kind : ReqKind := if second then .data2 else .data
  if (if isCompare j.kind then 8 else 16) ≤ sideReads s k second || (freeId s).isNone || bufRoom s k j second < 64 then none
  else
    let n := min g.len (64 - g.addr % 64)
    some (setJob (issue s k kind g.addr n []) k (if second then { j with wd := segAdv n j.wd } else { j with rd := segAdv n j.rd }))

/-- Bytes arrive from a side. -/
def arrive (j : Job) (second : Bool) (b : Bytes) : Job := if second then { j with funnel2 := j.funnel2 ++ b } else takeIn j b

/-- Move a side on. -/
def sideAdv (j : Job) (second : Bool) (n : Nat) : Job := if second then { j with wd := segAdv n j.wd } else { j with rd := segAdv n j.rd }

/-- Take what a side gives at once from a space other than memory: registers, the context image, the staging buffer or a frame. -/
def pullOther (bus : BusFn) (s : State) (k : Nat) (j : Job) (second : Bool) (g : Seg) : Option State :=
  let n := min g.len (bufRoom s k j second)
  if g.sp = 2 then
    let m := 8 * (n / 8)
    if m = 0 then none
    else
      let r := chanReads bus (chanAccess s k (chanIns s k).mgmt) (m / 8) g.addr s []
      some (setJob r.1 k { sideAdv (arrive j second r.2.1) second m with stop := r.2.2 })
  else if g.sp = 3 then
    match s.snd.ctx with
    | some x =>
      if !(x.ch = k && x.save) then some (setJob s k { j with stop := some .wrongState })
      else if n = 0 then none
      else some (savePassed (setJob s k (sideAdv (arrive j second (slice (imageBytes s x) g.addr n)) second n)) x (g.addr + n))
    | none => some (setJob s k { j with stop := some .wrongState })
  else if g.sp = 4 then (if n = 0 then none else some (setJob s k (sideAdv (arrive j second (stageBytes s g.addr n)) second n)))
  else
    match nextFrame s j g.addr with
    | none => none
    | some b =>
      if streamEnd s j g then none
      else
        let h := hdrOf b
        let last := match j.kind with | .move l => l && flagLast h | _ => false
        some (setJob s k { sideAdv j second b.length with frames := j.frames ++ [(b.length, classVc h.cls)], part := b.length, sawLast := last })

/-- Take bytes of the begun frame of a stream source as the buffers have room for them. -/
def pullPart (s : State) (k : Nat) (j : Job) : Option State :=
  let n := min j.part (bufRoom s k j false)
  match segHead false j.ws with
  | none => none
  | some g =>
    let b := (tget [] s.rhmb.sink g.addr).getD (j.frames.length - 1) []
    if n = 0 then none else some (setJob s k { takeIn j (slice b (b.length - j.part) n) with part := j.part - n })

/-- One step of reading for a side, from memory (`port`) or from another space, where one can be made. -/
def pullSide (bus : BusFn) (port : Bool) (s : State) (k : Nat) (j : Job) (second : Bool) : Option State :=
  match segHead false (if second then j.wd else j.rd) with
  | none => none
  | some g =>
    if g.sp = 0 then (if port then pullMem s k j second g else none)
    else if port then none else pullOther bus s k j second g

/-- The frame a job sends into a local ingress port: what has left the funnel, then the funnel. -/
def frameBytes (j : Job) : Bytes := j.sent ++ j.funnel

/-- A frame begun on a stream destination lacks bytes that no read has been made for (R348, R351). -/
def frameShort (s : State) (k : Nat) (j : Job) : Bool :=
  let coming := ((readsOf s k).map (fun r => r.n)).sum + j.part
  !j.sent.isEmpty && decide ((frameBytes j).length + coming < 80 + (hdrOf (frameBytes j)).payLen)

/-- A channel makes new reads: while it runs, and while it pauses or stops only those that finish a begun frame (R348, R351). -/
def mayRead (s : State) (k : Nat) (j : Job) : Bool :=
  let c := s.chan k
  (c.st = .running && !c.stopping) || ((c.st = .running || c.st = .pausing) && frameShort s k j)

/-- One step of reading (R348). -/
def pullOne (bus : BusFn) (port : Bool) (s : State) (k : Nat) : Option State :=
  let c := s.chan k
  match c.job with
  | none => none
  | some j =>
    if !mayRead s k j || j.stop.isSome || !claimable s k j then none
    else if 0 < j.part then (if port then none else pullPart s k j)
    else
      let s1 := claim s k j
      match pullSide bus port s1 k j false with
      | some s2 => some s2
      | none => if isCompare j.kind then pullSide bus port s1 k j true else none

/-! ### Writing -/

/-- Return the credits of the beats of taken frames that `n` written bytes complete, and let whole frames leave the port (R339). -/
def consumeFrames (port : Nat) : Nat → Nat → State → List (Nat × Bool) → State × List (Nat × Bool)
  | 0, _, s, l => (s, l)
  | _ + 1, _, s, [] => (s, [])
  | f + 1, n, s, (left, vc) :: r =>
    let whole := ((tget [] s.rhmb.sink port).head?.map (·.length)).getD left
    let m := min n left
    let beats (w : Nat) : Nat := if w = whole then ceilDiv whole 128 else w / 128
    let cr := beats (whole - (left - m)) - beats (whole - left)
    let s1 := if cr = 0 then s else
      { s with lark.outCr := tset {} s.lark.outCr (8 + port) (addCredits (tget {} s.lark.outCr (8 + port)) vc cr) }
    if left ≤ n then
      consumeFrames port f (n - left) { s1 with rhmb.sink := tset [] s1.rhmb.sink port ((tget [] s1.rhmb.sink port).drop 1) } r
    else (s1, (left - n, vc) :: r)

/-- What `RHMB_CH_REMAIN` shows for a job (Table 11.12). -/
def jobRemain (j : Job) : Nat :=
  match j.kind with
  | .shuffle _ => ceilDiv (j.len - j.done) (tileBytes j.ad)
  | .desc left => left
  | .listed left _ _ _ => left
  | _ => j.len - j.done

/-- `n` bytes of the destination are written: the position registers and the byte count move on (R348, R352). -/
def acked (s : State) (k n : Nat) : State :=
  let c := s.chan k
  match c.job with
  | none => s
  | some j =>
    let j1 := { j with done := j.done + n, ws := segAdv (srcBytes j n) j.ws, ad := segAdv n j.ad }
    let r := match segHead false j.ws with
      | some g => if g.sp = 1 then consumeFrames g.addr (j.frames.length + 1) n s j.frames else (s, j.frames)
      | none => (s, j.frames)
    let j2 := { j1 with frames := r.2 }
    let listed := match j.kind with | .listed _ _ _ _ => true | _ => false
    let c1 := { c with
      job := some j2, bytes := if isCompare j.kind then c.bytes else bump c.bytes n, remain := jobRemain j2,
      src := if listed then c.src else segPos j.ws j2.ws c.src, dst := segPos j.ad j2.ad c.dst }
    r.1.setChan k c1

/-- The bytes of a `FILL` at an address (R333). -/
def fillBytes (pat : Word) (addr n : Nat) : Bytes := (List.range n).map (fun i => (wordBytes pat).getD ((addr + i) % 8) 0)

/-- What the job has ready for the next `n` bytes of its destination run at `g`. -/
def readyBytes (j : Job) (g : Seg) (n : Nat) : Bytes :=
  match j.kind with
  | .fill pat => fillBytes pat (if g.sp = 2 then 0 else g.addr) n
  | _ => j.funnel.take n

/-- How many bytes the job has ready. -/
def readyLen (j : Job) : Nat :=
  match j.kind with
  | .fill _ => j.len
  | _ => j.funnel.length

/-- A `FILL` stops where its channel pauses; every other job writes what it has read. A channel that stops only finishes a begun frame (R351). -/
def mayWrite (c : Chan) (j : Job) : Bool :=
  if c.stopping then (c.st = .running || c.st = .pausing) && !j.sent.isEmpty else
  match j.kind with
  | .fill _ => c.st = .running
  | .compare _ => false
  | .desc _ => false
  | .pairs _ _ => false
  | _ => c.st = .running || c.st = .pausing

/-- The write of the last bytes before an end may be short (R347, R348). -/
def flushing (s : State) (k : Nat) (j : Job) : Bool :=
  (readsOf s k).isEmpty && (readsDone s j || (s.chan k).st = .pausing)

/-- Take `n` bytes of the funnel to the destination. -/
def spend (j : Job) (n : Nat) : Job :=
  match j.kind with
  | .fill _ => { j with wd := segAdv n j.wd }
  | _ => { j with wd := segAdv n j.wd, funnel := j.funnel.drop n }

/-- One write to memory: whole aligned beats but for the ends (R347). -/
def pushMem (s : State) (k : Nat) (j : Job) (g : Seg) : Option State :=
  let want := min g.len (64 - g.addr % 64)
  let n := if want ≤ readyLen j then want else if flushing s k j then readyLen j else 0
  if n = 0 || (freeId s).isNone then none
  else some (setJob (issue s k (.write n) g.addr n (readyBytes j g n)) k (spend j n))

/-- The job ends with an error that stands before its next byte: what it has not written it drops (R350). -/
def stopJob (s : State) (k : Nat) (j : Job) (st : Status) : State :=
  setJob (detach s (fun r => r.ch = k && !isWrite r.kind)) k { j with stop := some st, funnel := [], funnel2 := [], part := 0, sent := [] }

/-- The credits a channel holds on an endpoint for a virtual channel. -/
def srcCredits (s : State) (e : Nat) (vc : Bool) : Nat := let c := tget {} s.rhmb.srcCr e; if vc then c.vc1 else c.vc0

/-- The credits of the frame that stands at the head are not held (R338, R96). -/
def needsCredit (s : State) (j : Job) (g : Seg) : Bool :=
  let h := hdrOf (frameBytes j)
  j.sent.isEmpty && 64 ≤ j.funnel.length && decide (srcCredits s g.addr (classVc h.cls) < creditsOf (80 + h.payLen))

/-- A whole frame enters a local ingress port: its credits are spent, and the pipe takes it (R338, R96). -/
def sendFrame (s : State) (k : Nat) (j : Job) (g : Seg) (wire m : Nat) : State :=
  let b := frameBytes j
  let vc := classVc (hdrOf b).cls
  let n := creditsOf wire
  let c := tget {} s.rhmb.srcCr g.addr
  let c1 := if vc then { c with vc1 := c.vc1 - n } else { c with vc0 := c.vc0 - n }
  let s1 := acked (setJob { s with rhmb.srcCr := tset {} s.rhmb.srcCr g.addr c1 } k
    { j with wd := segAdv wire j.wd, funnel := j.funnel.drop m, sent := [] }) k wire
  let f : Arrival := { port := BitVec.ofNat 4 (8 + g.addr), vc := vc, wireLen := BitVec.ofNat 15 wire, whole := true, bytes := b.take wire }
  takeFrame (fab noStepIn) s1 f

/-- A frame of the funnel is sent into a local ingress port once its credits are held (R338, R96). DESIGN CHOICE (log 142): its beats take
effect together, with its last one, and a channel that pauses begins no frame whose last byte has not been read: what was read of it is read
again (R348). -/
def pushFrame (s : State) (k : Nat) (j : Job) (g : Seg) : Option State :=
  let b := frameBytes j
  let h := hdrOf b
  let wire := 80 + h.payLen
  let m := min (wire - j.sent.length) j.funnel.length
  let wait (_ : Unit) : Option State :=
    if !(readsOf s k).isEmpty || !readsDone s j || b.isEmpty then none
    else if j.stop.isSome then some (setJob s k { j with funnel := [], sent := [] })
    else some (stopJob s k j .badFormat)
  if b.length < 64 then wait ()
  else if 16384 < h.payLen || j.len - j.done < wire then some (stopJob s k j .badFormat)
  else if needsCredit s j g then none
  else if (s.chan k).st = .pausing && j.sent.isEmpty && b.length < wire then none
  else if wire ≤ b.length then some (sendFrame s k j g wire m)
  else if m = 0 then wait ()
  else some (setJob s k { j with sent := j.sent ++ j.funnel.take m, funnel := j.funnel.drop m })

/-- One write to a space other than memory. -/
def pushOther (bus : BusFn) (s : State) (k : Nat) (j : Job) (g : Seg) : Option State :=
  if g.sp = 1 then pushFrame s k j g
  else
    let n := if g.sp = 2 then 8 else min g.len (readyLen j)
    if n = 0 || readyLen j < n || g.len < n then none
    else
      let b := readyBytes j g n
      if g.sp = 2 then
        let r := chanReg bus s (chanAccess s k (chanIns s k).mgmt) true g.addr (bytesWord b)
        match r.2, (r.1.chan k).job with
        | _, none => some r.1
        | .error st, some _ => some (stopJob r.1 k j st)
        | .ok _, some _ => some (acked (setJob r.1 k (spend j n)) k n)
      else if g.sp = 4 then some (acked (setJob (stageWrite s g.addr b) k (spend j n)) k n)
      else
        match s.snd.ctx with
        | some x => if x.ch = k && !x.save then some (acked (setJob (restoreAt s x g.addr b) k (spend j n)) k n) else some (stopJob s k j .wrongState)
        | none => some (stopJob s k j .wrongState)

/-- One write, to memory (`port`) or to another space, where one can be made. -/
def pushOne (bus : BusFn) (port : Bool) (s : State) (k : Nat) : Option State :=
  let c := s.chan k
  match c.job with
  | none => none
  | some j =>
    match segHead true j.wd with
    | none => none
    | some g =>
      if !mayWrite c j || !claimable s k j then none
      else if g.sp = 0 then (if port then pushMem s k j g else none)
      else if port then none else pushOther bus (claim s k j) k j g

/-! ### Ends -/

/-- The number an owner is kept as: 0 none, else partition + 1. -/
def ownerCode (o : Option Nat) : Nat := match o with | some p => p + 1 | none => 0

/-- A channel becomes `IDLE` with a status and a cause (R352). -/
def goIdle (s : State) (k : Nat) (st : Status) (cause : Nat) : State :=
  let s1 := modChan s k (fun c => { c with
    st := .idle, status := stCode st, job := none, instr := none, wait := none, stopping := false, lastOwner := some (ownerCode (chanOwner s k)) })
  raise (ctxCut (unclaim (detach s1 (fun r => r.ch = k)) k) k st) (chanPage k) cause

/-- A stopped channel is `IDLE`, with `ST_ABORTED` and `STOPPED` (R351, R352). -/
def goStopped (s : State) (k : Nat) : State :=
  goIdle (modChan s k (fun c => { c with
    loop0 := { c.loop0 with armed := false }, loop1 := { c.loop1 with armed := false }, offSrc := 0, offDst := 0 })) k .aborted 5

/-- A channel halts (R349, R350): the job stays only for a memory error, and for the descriptor a `LIST` had come to (R332). One that a `STOP`
has ended stops instead (R351). -/
def haltChan (s : State) (k : Nat) (st : Status) : State :=
  let c := s.chan k
  if c.stopping then goStopped s k else
  let keep : Option Job := match c.job with
    | none => none
    | some j => if st = .busError then some j else match j.kind with
      | .desc _ => some j
      | .listed left _ _ _ =>
        let g : SegGen := .list [{ sp := 0, addr := c.src.2, len := 32 }]
        some { kind := .desc left, len := 32, rd := g, ws := g, wd := .list [], ad := .list [] }
      | _ => none
  let s1 := s.setChan k { c with st := .halted, status := stCode st, job := keep, wait := none }
  raise (ctxCut (detach s1 (fun r => r.ch = k)) k st) (chanPage k) 1

/-- The instruction ends: the next one is fetched when the channel runs (R326, R340). -/
def insDone (s : State) (k : Nat) : State :=
  let i := chanIns s k
  let s1 := unclaim (modChan s k (fun c => { c with
    pc := low 48 (c.pc + 32), job := none, instr := none, wait := none, st := if c.st = .waiting then .running else c.st })) k
  if i.irq then raise s1 (chanPage k) 2 else s1

/-- A channel is to fetch its next instruction: every write it has issued is acknowledged, those that an error has cut off from it too
(R326, R330). -/
def canFetch (s : State) (k : Nat) : Bool :=
  let c := s.chan k
  decide (c.st = .running) && c.job.isNone && c.instr.isNone && (reqsOf s k).isEmpty && (freeId s).isSome
    && !(s.rhmb.reqs.any (fun r => r.by_ = k && isWrite r.kind))

/-- Fetch the instruction at the program counter, checked as a read (R326, R313). -/
def fetchIns (s : State) (k : Nat) : State :=
  let c := s.chan k
  if !canFetch s k then s
  else if !chanInside s k c.pc 32 false then haltChan s k .bounds
  else issue (modChan s k (fun x => { x with serial := x.serial + 1, used := windowsOver s k [(c.pc, 32)] })) k .fetch c.pc 32 []

/-- Begin a job: the position registers show its start, and the windows it was checked against are noted (R315). -/
def startJob (s : State) (k : Nat) (j : Job) : State :=
  modChan s k (fun c => { c with
    job := some j, used := c.used ++ windowsOver s k ((segRanges j.ws) ++ (segRanges j.ad)), wait := none, st := if c.st = .waiting then .running else c.st, remain := jobRemain j,
    src := segPos j.ws j.ws c.src, dst := segPos j.ad j.ad c.dst })

/-- Read the descriptor at an address next (R332). -/
def startDesc (s : State) (k addr left : Nat) : State :=
  if !chanInside s k addr 32 false then
    let g : SegGen := .list [{ sp := 0, addr := addr, len := 32 }]
    haltChan (startJob s k { kind := .desc left, len := 32, rd := g, ws := g, wd := .list [], ad := .list [] }) k .bounds
  else
    let g : SegGen := .list [{ sp := 0, addr := addr, len := 32 }]
    startJob s k { kind := .desc left, len := 32, rd := g, ws := g, wd := .list [], ad := .list [] }

/-- The data instruction has written, or compared, its last byte. -/
def jobDone (s : State) (k : Nat) (j : Job) : State :=
  match j.kind with
  | .listed left last irq nxt =>
    let s1 := if irq then raise s (chanPage k) 2 else s
    let s2 := modChan s1 k (fun c => { c with remain := left - 1 })
    if last || nxt = 0 || left ≤ 1 then insDone s2 k else startDesc s2 k nxt (left - 1)
  | .compare _ => insDone (modChan s k (fun c => { c with cmpValid := false })) k
  | _ => insDone s k

/-! ### What an instruction asks of its operands (R327, R329) -/

/-- The upper bits of an operand that its space does not use are zero. -/
def operandForm (sp : Nat) (w : Word) : Bool :=
  if sp = 0 || sp = 4 then fld w 63 48 = 0 else if sp = 1 then fld w 63 2 = 0 else if sp = 2 then fld w 63 20 = 0 else sp = 3

/-- A channel is of the management class (Table 11.1). -/
def mgmtClass (k : Nat) : Bool := 12 ≤ k

/-- A space is allowed to a channel's class (Table 11.1). -/
def spaceClass (k sp : Nat) : Bool := if mgmtClass k then sp = 0 || sp = 2 || sp = 4 else sp = 0 || sp = 1 || sp = 3

/-- The argument rules of an operand of `len` bytes (R327, R341, R342; Table 11.5). -/
def operandArg (s : State) (k sp : Nat) (w : Word) (len : Nat) (mgmt : Bool) : Bool :=
  spaceClass k sp
    && (sp ≠ 1 || s.blk.profile = 1)
    && (sp ≠ 2 || (w.toNat % 8 = 0 && len % 8 = 0))
    && (!mgmt || (chanOwner s k).isNone)
    && (sp ≠ 4 || ((chanOwner s k).isNone && (s.chan k).mgmtStart))

/-- The state rules of an operand (R338, R342). -/
def operandState (s : State) (k sp : Nat) (w : Word) (dest : Bool) : Bool :=
  (sp ≠ 3 || (match s.snd.ctx with | some x => x.ch = k && x.save = !dest | none => false))
    && (sp ≠ 1 || !dest || s.rhmb.lspSrc.testBit w.toNat)

/-- Where an operand stands once the offsets are added (R334). -/
def operandAt (off : Int) (sp : Nat) (w : Word) : Int := if sp = 0 then (w.toNat : Int) + off else w.toNat

/-- The range check of an operand (R329). -/
def operandIn (s : State) (k sp : Nat) (at_ : Int) (len : Nat) (write : Bool) : Bool :=
  if sp = 0 then chanInside s k at_ len write
  else if sp = 2 then at_.toNat + len ≤ 2 ^ 20
  else if sp = 4 then at_.toNat + len ≤ 4096
  else if sp = 3 then at_.toNat + len ≤ (s.snd.ctx.map (fun (x : CtxCmd) => imageLen (s.win x.win).tiles)).getD 0
  else true

/-- One run. -/
def oneRun (sp addr len : Nat) : SegGen := .list (if len = 0 then [] else [{ sp := sp, addr := addr, len := len }])

/-- The checks of a move of `len` bytes between two operands, and its job. -/
def moveJob (s : State) (k : Nat) (kind : JobKind) (ssp dsp : Nat) (w1 w2 : Word) (len : Nat) (oS oD : Int) (mgmt : Bool) : Except Status Job :=
  if !operandArg s k ssp w1 len mgmt || !operandArg s k dsp w2 len mgmt then .error .badArg
  else
    let a := operandAt oS ssp w1
    let b := operandAt oD dsp w2
    if !operandState s k ssp w1 false || !operandState s k dsp w2 true then .error .wrongState
    else if !operandIn s k ssp a len false || !operandIn s k dsp b len true then .error .bounds
    else .ok { kind := kind, len := len, rd := oneRun ssp a.toNat len, ws := oneRun ssp a.toNat len, wd := oneRun dsp b.toNat len, ad := oneRun dsp b.toNat len }

/-! ### Descriptors and pair lists -/

/-- A whole descriptor has been read: its form, its ranges, then its move (R332, Table 11.7). -/
def descRead (s : State) (k : Nat) (j : Job) (left : Nat) : State :=
  let i := chanIns s k
  let w (n : Nat) : Word := bytesWord (slice j.funnel (8 * n) 8)
  let len := fld (w 0) 31 0
  let nxt := fld (w 3) 47 0
  if fld (w 0) 61 32 ≠ 0 || fld (w 3) 63 48 ≠ 0 || !operandForm i.ssp (w 1) || !operandForm i.dsp (w 2) then haltChan s k .badFormat
  else if nxt % 32 ≠ 0 || (len = 0 && (!operandArg s k i.ssp (w 1) 0 i.mgmt || !operandArg s k i.dsp (w 2) 0 i.mgmt)) then haltChan s k .badArg
  else
    let kind : JobKind := .listed left (bitOf (w 0) 63) (bitOf (w 0) 62) nxt
    if len = 0 then jobDone s k { j with kind := kind }
    else match moveJob s k kind i.ssp i.dsp (w 1) (w 2) len 0 0 i.mgmt with
      | .error st => haltChan s k st
      | .ok x =>
        let src := (s.chan k).src
        modChan (startJob s k x) k (fun c => { c with src := src })

/-- Pair lists as runs; none where an entry breaks its layout (R331). -/
def pairsOf (b : Bytes) : Nat → Option (List Seg)
  | 0 => some []
  | n + 1 =>
    let w0 := bytesWord (slice b 0 8)
    let w1 := bytesWord (slice b 8 8)
    if fld w0 63 48 ≠ 0 || fld w1 63 32 ≠ 0 then none
    else (pairsOf (b.drop 16) n).map (fun r => if fld w1 31 0 = 0 then r else { sp := 0, addr := fld w0 47 0, len := fld w1 31 0 } :: r)

/-- The length of a list of runs. -/
def runsLen (l : List Seg) : Nat := l.foldl (fun acc x => acc + x.len) 0

/-- Both pair lists have been read: their sums, every range, then the move (R331). -/
def pairsRead (s : State) (k : Nat) (j : Job) (nS nD : Nat) : State :=
  let len := (chanIns s k).len
  match pairsOf j.funnel nS, pairsOf (j.funnel.drop (16 * nS)) nD with
  | some a, some b =>
    if runsLen a ≠ len || runsLen b ≠ len then haltChan s k .badArg
    else if !(a.all (fun g => chanInside s k g.addr g.len false) && b.all (fun g => chanInside s k g.addr g.len true)) then haltChan s k .bounds
    else startJob s k { kind := .move false, len := len, rd := .list a, ws := .list a, wd := .list b, ad := .list b }
  | _, _ => haltChan s k .badArg

/-! ### `COMPARE` (R333) -/

/-- Compare what both operands have brought: the number of equal bytes, and whether a difference follows. -/
def comparePrefix : Bytes → Bytes → Nat × Bool
  | x :: a, y :: b => if x = y then let r := comparePrefix a b; (r.1 + 1, r.2) else (0, true)
  | _, _ => (0, false)

/-- The compared bytes leave the buffers; a difference ends the instruction. -/
def compareStep (s : State) (k : Nat) (j : Job) : State :=
  let r := comparePrefix j.funnel j.funnel2
  let s1 := acked (setJob s k { j with funnel := j.funnel.drop r.1, funnel2 := j.funnel2.drop r.1 }) k r.1
  if !r.2 then s1
  else
    let s2 := detach (modChan s1 k (fun c => { c with cmpValid := true, cmpOff := j.done + r.1 })) (fun q => q.ch = k)
    let s3 := raise s2 (chanPage k) 4
    match j.kind with
    | .compare true => goIdle (modChan (if (chanIns s k).irq then raise s3 (chanPage k) 2 else s3) k (fun c => { c with cmpEnd := true })) k .ok 0
    | _ => insDone s3 k

/-! ### The engine -/

/-- Nothing of the channel is outstanding at the port. -/
def quiet (s : State) (k : Nat) : Bool := (reqsOf s k).isEmpty

/-- What is left of a move into registers is less than one register, which no write can take (R347). -/
def shortReg (j : Job) : Bool :=
  decide (j.funnel.length < 8) && (match segHead true j.wd with | some g => decide (g.sp = 2) | none => false)

/-- Judge where the job stands: an end, a halt, or the next stage. -/
def settle (s : State) (k : Nat) : State :=
  match (s.chan k).job with
  | none => s
  | some j =>
    match j.stop with
    | some st =>
      if !quiet s k then s
      else if isCompare j.kind then
        let s1 := compareStep s k j
        if (s1.chan k).job.isSome then haltChan s1 k st else s1
      else if j.funnel.isEmpty || !(mayWrite (s.chan k) j) || shortReg j then haltChan s k st else s
    | none =>
      match j.kind with
      | .desc left => if quiet s k && j.funnel.length = 32 then descRead s k j left else s
      | .pairs a b => if quiet s k && j.funnel.length = 16 * (a + b) then pairsRead s k j a b else s
      | .compare _ =>
        let s1 := compareStep s k j
        match (s1.chan k).job with
        | some x => if x.done = x.len then jobDone s1 k x else s1
        | none => s1
      | _ => if quiet s k && (j.done = j.len || (readsDone s j && j.funnel.isEmpty && (match segHead false j.rd with | some g => g.sp = 1 | none => false)))
             then jobDone s k j else s

/-- The channel waits for a stream endpoint, for credits or for a frame (Table 11.2, R339, R340). -/
def streamBlocked (s : State) (k : Nat) : Bool :=
  let c := s.chan k
  match c.job with
  | none => false
  | some j =>
    !claimable s k j
    || (j.funnel.isEmpty && decide (j.part = 0) && quiet s k && (match segHead false j.rd with | some g => g.sp = 1 && !readsDone s j | none => false))
    || (match segHead true j.wd with
        | some g => g.sp = 1 && needsCredit s j g
        | none => false)

/-- Move bytes that need no beat of the memory port, as long as that goes. -/
def moveInside (bus : BusFn) (k : Nat) : Nat → State → State
  | 0, s => s
  | n + 1, s => match pullOne bus false s k with
    | some s1 => moveInside bus k n s1
    | none => match pushOne bus false s k with
      | some s1 => moveInside bus k n s1
      | none => s

/-- A stopping channel has finished the frame it had begun (R351). -/
def stopReady (s : State) (k : Nat) : Bool :=
  let c := s.chan k
  c.stopping && (match c.job with | some j => j.sent.isEmpty | none => true)

/-- One round of a channel's work inside the block: what needs no beat of the memory port, then where its job stands. -/
def insideRound (bus : BusFn) (s : State) (k : Nat) : State :=
  let c := s.chan k
  let s1 := if c.st = .waiting && c.wait = some .stream then s.setChan k { c with st := .running, wait := none } else s
  let big := match (s1.chan k).job with | some j => 4 * j.len + 64 | none => 0
  let s2 := settle (moveInside bus k big s1) k
  let d := s2.chan k
  if stopReady s2 k then goStopped s2 k
  else if d.st = .running && !d.stopping && streamBlocked s2 k then s2.setChan k { d with st := .waiting, wait := some .stream } else s2

/-- A channel works on an instruction. -/
def busyChan (c : Chan) : Bool := c.job.isSome && (c.st = .running || c.st = .pausing || c.st = .waiting)

/-- The work of one channel inside the block, over the stages an instruction may pass at once. -/
def insideChan (bus : BusFn) (s : State) (k : Nat) : State :=
  if busyChan (s.chan k) then insideRound bus (insideRound bus (insideRound bus s k) k) k else s

/-- The work of every channel inside the block, those that wait for a stream endpoint first, in ascending number (R340). -/
def insideAll (bus : BusFn) (s : State) : State :=
  let waits (k : Nat) : Bool := decide ((s.chan k).wait = some .stream)
  ((List.range 16).filter waits ++ (List.range 16).filter (fun k => !waits k)).foldl (insideChan bus) s

/-- The beat that a channel has ready at the memory port: a read, a write, or the fetch of its next instruction (R346). -/
def portBeat (bus : BusFn) (s : State) (k : Nat) : Option State :=
  match pullOne bus true s k with
  | some s1 => some s1
  | none => match pushOne bus true s k with
    | some s1 => some s1
    | none => if canFetch s k then some (fetchIns s k) else none

/-- The channels in the order one priority serves them: the one in its turn while that has not taken 16 beats, then in ascending number,
round and round (R346). -/
def turnOrder (t : Nat × Nat) : List Nat := (List.range 16).map (fun i => (t.1 + i + (if t.2 < 16 then 0 else 1)) % 16)

/-- The next beat that the port serves: the highest priority with a ready beat, and within it the channel whose turn it is (R346). Helm's own
beats come first of all: each is over with the command that makes it. -/
def nextBeat (bus : BusFn) (s : State) : Option State :=
  [3, 2, 1, 0].findSome? (fun p =>
    let t := tget (0, 0) s.rhmb.turns p
    (turnOrder t).findSome? (fun k =>
      if (s.chan k).prio = p then
        (portBeat bus s k).map (fun s1 =>
          { s1 with rhmb.turns := tset (0, 0) s1.rhmb.turns p (k, if k = t.1 ∧ t.2 < 16 then t.2 + 1 else 1) })
      else none))

/-- Serve up to `n` beats of the port; the work inside the block goes on between them. -/
def serveBeats (bus : BusFn) : Nat → State → State
  | 0, s => s
  | n + 1, s => match nextBeat bus s with
    | none => s
    | some s1 => serveBeats bus n (insideAll bus s1)

/-! ### Answers (R349, R515) -/

/-- Latch a failing access (R349). -/
def latchErr (s : State) (k : Nat) (write : Bool) (addr : Nat) : State :=
  modChan s k (fun c => { c with err := (true, write, 0, addr) })

/-- An instruction arrives: an undefined `OP` halts the channel (R327). -/
def insArrives (s : State) (k : Nat) (b : Bytes) : State :=
  let l := (List.range 4).map (fun i => bytesWord (slice b (8 * i) 8))
  let s1 := modChan s k (fun c => { c with instr := some l, serial := c.serial + 1, used := [] })
  let op := (insOf l).op
  if op = 0 || (9 < op && op < 15) then haltChan s1 k .badFormat else s1

/-- Take one answer for a channel. -/
def takeAnswer (s : State) (k : Nat) (r : Req) (a : Option Bytes) : State :=
  let s1 := { s with rhmb.reqs := s.rhmb.reqs.filter (fun x => x.id ≠ r.id) }
  let bad := latchErr s1 k (isWrite r.kind) (r.addr + r.off)
  match r.kind, a with
  | .fetch, some b => insArrives s1 k (slice b r.off r.n)
  | .fetch, none => haltChan bad k .busError
  | .write n, some _ => acked s1 k n
  | .write _, none =>
    let s2 := detach (modChan bad k (fun c => { c with job := c.job.map (fun (j : Job) => { j with funnel := [], funnel2 := [], part := 0, sent := [] }) })) (fun x => x.ch = k)
    haltChan s2 k .busError
  | kind, some b => modChan s1 k (fun c => { c with job := c.job.map (fun (j : Job) => arrive j (kind = .data2) (slice b r.off r.n)) })
  | _, none =>
    modChan (detach bad (fun x => x.ch = k && !isWrite x.kind)) k (fun c => { c with job := c.job.map (fun (j : Job) => { j with stop := some .busError }) })

/-- The oldest request of a channel and direction, once answered. -/
def answered (s : State) (k : Nat) (write : Bool) : Option (Req × Option Bytes) :=
  match (reqsOf s k).find? (fun r => isWrite r.kind = write) with
  | some r => r.ans.map (fun x => (r, x))
  | none => none

/-- Take every answer that may be taken, in order of issue for each direction. -/
def takeAll (k : Nat) : Nat → State → State
  | 0, s => s
  | n + 1, s =>
    match answered s k false with
    | some x => takeAll k n (takeAnswer s k x.1 x.2)
    | none => match answered s k true with
      | some x => takeAll k n (takeAnswer s k x.1 x.2)
      | none => s

/-- Every channel's work as far as it goes now, while Rhumb is out of reset with its clock (R25): answers that have come, the work inside the
block, and the beats of the port, each of which takes one of the 256 request numbers; the port needs its domain (R512). -/
def pumpAll (bus : BusFn) (s : State) : State :=
  if !secRuns s then s
  else
    let s1 := insideAll bus ((List.range 16).foldl (fun st k => takeAll k 257 st) s)
    if domLive s1 18 then serveBeats bus 257 s1 else s1

/-- A request ends with an answer or an error; a channel that waits for it takes it in its turn. -/
def endReq (bus : BusFn) (s : State) (r : Req) (a : Option Bytes) : State :=
  if r.ch = 16 then pumpAll bus { s with rhmb.reqs := s.rhmb.reqs.filter (fun x => x.id ≠ r.id) }
  else pumpAll bus { s with rhmb.reqs := s.rhmb.reqs.map (fun x => if x.id = r.id then { x with ans := some a } else x) }

/-- An answer arrives on the memory master port: the late one of a request that has timed out is ignored, and so is one for which no request
stands open, or any while the port's domain is off (R512, R515). -/
def answerReq (bus : BusFn) (s : State) (id : Nat) (write : Bool) (a : Option Bytes) : State :=
  if !domLive s 18 then s
  else if s.rhmb.late.contains id then { s with rhmb.late := s.rhmb.late.erase id }
  else match s.rhmb.reqs.find? (fun r => r.id = id && r.ans.isNone && isWrite r.kind = write) with
  | none => s
  | some r => endReq bus s r a

/-- A request has waited 1 ms: an error, and its number waits for the late answer (R515). -/
def timeoutReq (bus : BusFn) (s : State) (id us : Nat) : State :=
  let s1 := passTime s us
  match s1.rhmb.reqs.find? (fun r => r.id = id && r.ans.isNone) with
  | none => s1
  | some r =>
    if r.wall + 1000 ≤ s1.mrd.wall then endReq bus { s1 with rhmb.late := s1.rhmb.late ++ [id] } r none else s1

end Sys2Proof.Machine
end

