-- ==== Sys2Proof/Machine/Channels.lean ====
section
/-! DEFINITION. Rhumb's instructions and channel commands (chapter 11) and the context commands of Sounding that run on a
channel (chapter 8, R278 to R282). -/

namespace Sys2Proof.Machine

/-! ### Instructions -/

/-- Run the fetched instruction of a channel where it is the one the command names; then every channel's work goes on. -/
def runIns (bus : BusFn) (s : State) (k op : Nat) (body : State → Ins → State) : State :=
  let c := s.chan k
  if secRuns s && c.st = .running && !c.stopping && c.job.isNone && c.instr.isSome && (chanIns s k).op = op then pumpAll bus (body s (chanIns s k)) else s

/-- `MGMT` is 1 in an owned channel (R341). -/
def ownedMgmt (s : State) (k : Nat) (i : Ins) : Bool := i.mgmt && (chanOwner s k).isSome

/-- The fields no instruction of this shape uses are zero, and its spaces are among those given (R327). DEDUCED (log 143): `MGMT` of an
instruction without a `REG` operand is such a field in a channel that no partition owns; in an owned one R341 speaks of it first. -/
def insForm (s : State) (k : Nat) (i : Ins) (src dst : List Nat) (subs : List Nat) : Bool :=
  i.rest = 0 && src.contains i.ssp && dst.contains i.dsp && subs.contains i.sub && (!i.mgmt || i.ssp = 2 || i.dsp = 2 || ownedMgmt s k i)

/-- The spaces of Table 11.5. -/
def anySpace : List Nat := [0, 1, 2, 3, 4]

/-- Start a data instruction, complete one of length 0, or halt (R327 to R329). -/
def startOr (s : State) (k len : Nat) (r : Except Status Job) : State :=
  match r with
  | .error st => haltChan s k st
  | .ok j => if len = 0 then insDone s k else startJob s k j

/-- `MOVE` (R326 to R330, R338, R339). -/
def insMove (s : State) (i : Ins) (k : Nat) : State :=
  let c := s.chan k
  if !insForm s k i anySpace anySpace (if i.ssp = 1 then [0, 1] else [0]) || i.w3 ≠ 0 || !operandForm i.ssp i.w1 || !operandForm i.dsp i.w2 then haltChan s k .badFormat
  else if ownedMgmt s k i then haltChan s k .badArg
  else if i.len = 0 then
    if operandArg s k i.ssp i.w1 0 i.mgmt && operandArg s k i.dsp i.w2 0 i.mgmt then insDone s k else haltChan s k .badArg
  else startOr s k i.len (moveJob s k (.move (i.sub = 1)) i.ssp i.dsp i.w1 i.w2 i.len c.offSrc c.offDst i.mgmt)

/-- `MOVE_SG` (R331). -/
def insMoveSg (s : State) (i : Ins) (k : Nat) : State :=
  let nS := fld i.w3 63 48
  let nD := fld i.w3 47 32
  if !insForm s k i [0] [0] [0] || fld i.w3 31 0 ≠ 0 || !operandForm 0 i.w1 || !operandForm 0 i.w2 then haltChan s k .badFormat
  else if ownedMgmt s k i || !(1 ≤ nS && nS ≤ 64 && 1 ≤ nD && nD ≤ 64) then haltChan s k .badArg
  else if i.len = 0 then insDone s k
  else if !chanInside s k i.w1.toNat (16 * nS) false || !chanInside s k i.w2.toNat (16 * nD) false then haltChan s k .bounds
  else
    let g : SegGen := .list [{ sp := 0, addr := i.w1.toNat, len := 16 * nS }, { sp := 0, addr := i.w2.toNat, len := 16 * nD }]
    startJob s k { kind := .pairs nS nD, len := i.len, rd := g, ws := g, wd := .list [], ad := .list [] }

/-- `FILL` (R333). -/
def insFill (s : State) (i : Ins) (k : Nat) : State :=
  if !insForm s k i [0] [0, 2] [0] || i.w1 ≠ 0 || !operandForm i.dsp i.w2 then haltChan s k .badFormat
  else if ownedMgmt s k i || !mgmtClass k || !operandArg s k i.dsp i.w2 i.len i.mgmt then haltChan s k .badArg
  else
    let at_ := operandAt (s.chan k).offDst i.dsp i.w2
    if i.len = 0 then insDone s k
    else if !operandIn s k i.dsp at_ i.len true then haltChan s k .bounds
    else startJob s k { kind := .fill i.w3, len := i.len, rd := .list [], ws := .list [], wd := oneRun i.dsp at_.toNat i.len, ad := oneRun i.dsp at_.toNat i.len }

/-- `COMPARE` (R333). -/
def insCompare (s : State) (i : Ins) (k : Nat) : State :=
  if !insForm s k i [0, 2] [0, 2] [0, 1] || i.w3 ≠ 0 || !operandForm i.ssp i.w1 || !operandForm i.dsp i.w2 then haltChan s k .badFormat
  else if ownedMgmt s k i || !mgmtClass k || !operandArg s k i.ssp i.w1 i.len i.mgmt || !operandArg s k i.dsp i.w2 i.len i.mgmt then haltChan s k .badArg
  else
    let a := operandAt (s.chan k).offSrc i.ssp i.w1
    let b := operandAt (s.chan k).offDst i.dsp i.w2
    if i.len = 0 then insDone (modChan s k (fun c => { c with cmpValid := false })) k
    else if !operandIn s k i.ssp a i.len false || !operandIn s k i.dsp b i.len false then haltChan s k .bounds
    else startJob s k { kind := .compare (i.sub = 1), len := i.len, rd := oneRun i.ssp a.toNat i.len, ws := oneRun i.ssp a.toNat i.len,
                        wd := oneRun i.dsp b.toNat i.len, ad := oneRun i.dsp b.toNat i.len }

/-- `SHUFFLE` (R335 to R337). -/
def insShuffle (s : State) (i : Ins) (k : Nat) : State :=
  let fmt := fld i.w3 63 61
  let cols := fld i.w3 47 32
  let stride := fld i.w3 31 0
  let w := if fmt = 3 then 4 else if fmt = 2 then 2 else 1
  let row := if fmt = 0 then 8 else 16 * w
  let size := denseSize fmt
  let a := operandAt (s.chan k).offSrc 0 i.w1
  let b := operandAt (s.chan k).offDst 0 i.w2
  let rows := ceilDiv i.len cols
  let span := (16 * rows - 1) * stride + 16 * cols * w
  if !insForm s k i [0] [0] [1, 2] || fld i.w3 60 48 ≠ 0 || !operandForm 0 i.w1 || !operandForm 0 i.w2 then haltChan s k .badFormat
  else if ownedMgmt s k i || mgmtClass k || 3 < fmt || cols = 0 || stride < 16 * cols * w then haltChan s k .badArg
  else if i.len = 0 then insDone s k
  else if i.sub = 1 then
    if !chanInside s k a span false || !chanInside s k b (i.len * size) true then haltChan s k .bounds
    else
      let m : SegGen := .matrix a.toNat stride cols w 0 0 (16 * i.len)
      let t : SegGen := .tiles b.toNat size row 0 0 (16 * i.len)
      startJob s k { kind := .shuffle (if fmt = 0 then 1 else 0), len := i.len * (16 * row), rd := m, ws := m, wd := t, ad := t }
  else
    if !chanInside s k a (i.len * size) false || !chanInside s k b span true then haltChan s k .bounds
    else
      let m : SegGen := .matrix b.toNat stride cols w 0 0 (16 * i.len)
      let t : SegGen := .tiles a.toNat size row 0 0 (16 * i.len)
      startJob s k { kind := .shuffle (if fmt = 0 then 2 else 0), len := i.len * (256 * w), rd := t, ws := t, wd := m, ad := m }

/-- A `LOOP` increment is within ±2^47 (R334). -/
def incOk (v : Int) : Bool := -(2 ^ 47 : Int) ≤ v && v ≤ 2 ^ 47

/-- The pc after a jump back (R334). -/
def pcBack (pc back : Nat) : Nat := low 48 (pc + 2 ^ 48 * 32 - 32 * back)

/-- An offset is a signed 64-bit value and wraps (R334). -/
def wrapOff (x : Int) : Int := (BitVec.ofInt 64 x).toInt

/-- `LOOP` (R334). -/
def insLoop (s : State) (i : Ins) (k : Nat) : State :=
  let c := s.chan k
  let back := fld i.w3 15 0
  let a := i.w1.toInt
  let b := i.w2.toInt
  if !insForm s k i [0] [0] [0, 1] || fld i.w3 63 16 ≠ 0 then haltChan s k .badFormat
  else if ownedMgmt s k i || back = 0 || !incOk a || !incOk b then haltChan s k .badArg
  else
    let l := if i.sub = 1 then c.loop1 else c.loop0
    let put (c : Chan) (x : LoopCtr) : Chan := if i.sub = 1 then { c with loop1 := x } else { c with loop0 := x }
    if l.armed && l.owner ≠ c.pc then haltChan s k .badFormat
    else
      let l1 : LoopCtr := if l.armed then l else { armed := true, count := i.len, owner := c.pc }
      if l1.count = 0 then
        insDone (s.setChan k { put c { l1 with armed := false } with offSrc := wrapOff (c.offSrc - i.len * a), offDst := wrapOff (c.offDst - i.len * b) }) k
      else
        let s1 := s.setChan k { put c { l1 with count := l1.count - 1 } with
          offSrc := wrapOff (c.offSrc + a), offDst := wrapOff (c.offDst + b), pc := pcBack c.pc back, instr := none }
        if i.irq then raise s1 (chanPage k) 2 else s1

/-- A semaphore belongs to the channel's owner (R344). -/
def semOwn (s : State) (k i : Nat) : Bool :=
  let x := tget {} s.rhmb.sems i
  (if x.owned then some x.part else none) = chanOwner s k

/-- `WAIT` (R343). -/
def insWait (s : State) (i : Ins) (k : Nat) : State :=
  let hold (w : WaitFor) : State := modChan s k (fun c => { c with st := .waiting, wait := some w })
  if !insForm s k i [0] [0] [1, 2, 3] || i.len ≠ 0 || i.w1 ≠ 0 || i.w2 ≠ 0 then haltChan s k .badFormat
  else if ownedMgmt s k i then haltChan s k .badArg
  else if i.sub = 1 then (if fld i.w3 63 48 ≠ 0 then haltChan s k .badFormat else hold (.step (fld i.w3 47 0) false))
  else if i.sub = 2 then
    if fld i.w3 58 32 ≠ 0 then haltChan s k .badFormat
    else if !semOwn s k (fld i.w3 63 59) then haltChan s k .partition
    else hold (.sem (fld i.w3 63 59) (fld i.w3 31 0))
  else if i.w3 ≠ 0 then haltChan s k .badFormat
  else hold .bell

/-- Judge the wait of one channel (R343). -/
def judgeWait (s : State) (k : Nat) : State :=
  let c := s.chan k
  if c.st ≠ .waiting then s
  else match c.wait with
    | some (.step _ true) => insDone s k
    | some (.sem i n) =>
      let x := tget {} s.rhmb.sems i
      if n ≤ x.value then insDone { s with rhmb.sems := tset {} s.rhmb.sems i { x with value := x.value - n } } k else s
    | some .bell => if 1 ≤ c.bells then insDone (s.setChan k { c with bells := c.bells - 1 }) k else s
    | _ => s

/-- Waits are judged in ascending channel number (R345). -/
def judgeWaits (bus : BusFn) (s : State) : State := pumpAll bus ((List.range 16).foldl judgeWait s)

/-- A doorbell rings (R343). -/
def ringBell (s : State) (k : Nat) : State := modChan s k (fun c => { c with bells := satInc 0xFFFF c.bells })

/-- `SIGNAL` (R343, R344). -/
def insSignal (s : State) (i : Ins) (k : Nat) : State :=
  if !insForm s k i [0] [0] [1, 2, 3, 4] || i.len ≠ 0 || i.w1 ≠ 0 || (i.sub ≠ 4 && i.w2 ≠ 0) then haltChan s k .badFormat
  else if ownedMgmt s k i then haltChan s k .badArg
  else if i.sub = 1 then
    let n := fld i.w3 63 59
    if fld i.w3 58 32 ≠ 0 then haltChan s k .badFormat
    else if !semOwn s k n then haltChan s k .partition
    else
      let x := tget {} s.rhmb.sems n
      insDone { s with rhmb.sems := tset {} s.rhmb.sems n { x with value := satAdd (2 ^ 32 - 1) x.value (fld i.w3 31 0) } } k
  else if i.sub = 2 then
    if fld i.w3 63 4 ≠ 0 then haltChan s k .badFormat
    else if chanOwner s (fld i.w3 3 0) ≠ chanOwner s k then haltChan s k .partition
    else insDone (ringBell s (fld i.w3 3 0)) k
  else if i.sub = 3 then (if i.w3 ≠ 0 then haltChan s k .badFormat else insDone (raise s (chanPage k) 2) k)
  else if !operandForm 0 i.w2 then haltChan s k .badFormat
  else if i.w2.toNat % 8 ≠ 0 then haltChan s k .badArg
  else if !chanInside s k i.w2.toNat 8 true then haltChan s k .bounds
  else startJob s k { kind := .move false, len := 8, rd := .list [], ws := .list [], wd := oneRun 0 i.w2.toNat 8, ad := oneRun 0 i.w2.toNat 8, funnel := wordBytes i.w3 }

/-- `LIST` (R332). -/
def insList (s : State) (i : Ins) (k : Nat) : State :=
  if !insForm s k i anySpace anySpace [0] || i.w2 ≠ 0 || i.w3 ≠ 0 || !operandForm 0 i.w1 then haltChan s k .badFormat
  else if ownedMgmt s k i || i.w1.toNat % 32 ≠ 0 || !operandArg s k i.ssp 0 0 i.mgmt || !operandArg s k i.dsp 0 0 i.mgmt then haltChan s k .badArg
  else if i.len = 0 then insDone s k
  else startDesc s k i.w1.toNat i.len

/-- `END` (R352): the run ends. -/
def insEnd (s : State) (i : Ins) (k : Nat) : State :=
  if !insForm s k i [0] [0] [0] || i.len ≠ 0 || i.w1 ≠ 0 || i.w2 ≠ 0 || i.w3 ≠ 0 then haltChan s k .badFormat
  else if ownedMgmt s k i then haltChan s k .badArg
  else goIdle (if i.irq then raise s (chanPage k) 2 else s) k .ok 0

/-! ### Channel commands (Table 11.3) -/

/-- The address of `RHMB_CH_CMD`. -/
def chanCmdAddr (k : Nat) : Nat := regAt (chanPage k) 0x58

/-- The argument rules of `RHMB_CH_CMD`. -/
def chanCmdArg (v : Word) : Option Status := orElse (refuseIf (fld v 63 60 = 0 || 4 < fld v 63 60) .badArg) (mbz v (maskBits 59 0))

/-- `START` is refused with `ST_PARTITION` (R325). -/
def startDenied (s : State) (a : Access) (k : Nat) : Bool :=
  ((chanOwner s k).isNone && !isMgmt a)
    || ((s.chan k).lastOwner.map (fun o => decide (o ≠ ownerCode (chanOwner s k)))).getD false

/-- A run begins: counters disarmed, offsets zero, doorbells kept (Table 11.3); its fetch waits for its beat of the port (R346). -/
def startRun (s : State) (k : Nat) (mgmt : Bool) : State :=
  modChan s k (fun c => { c with
    st := .running, cmpEnd := false, mgmtStart := mgmt, loop0 := { c.loop0 with armed := false }, loop1 := { c.loop1 with armed := false },
    offSrc := 0, offDst := 0, instr := none, job := none, wait := none })

/-- `START` (R325). -/
def chanStart (s : State) (a : Access) (k : Nat) (v : Word) : State :=
  regWrite s a (chanCmdAddr k) (orElse (refuseIf (startDenied s a k) .partition) (refuseIf ((s.chan k).st ≠ .idle) .wrongState)) (chanCmdArg v)
    (fun s1 => startRun s1 k (isMgmt a))

/-- The channel reaches `PAUSED` (R348). -/
def paused (s : State) (k : Nat) : State :=
  raise (modChan s k (fun c => { c with st := .paused, status := stCode .paused })) (chanPage k) 3

/-- `PAUSE` (R348): of a `WAITING` channel at once; what its reads still bring is read again after `RESUME`. -/
def chanPause (s : State) (a : Access) (k : Nat) (v : Word) : State :=
  let c := s.chan k
  regWrite s a (chanCmdAddr k) (refuseIf (c.st ≠ .running && c.st ≠ .waiting) .wrongState) (chanCmdArg v) (fun s1 =>
    if c.st = .waiting then paused (detach s1 (fun r => r.ch = k && !isWrite r.kind)) k else s1.setChan k { s1.chan k with st := .pausing })

/-- A pausing channel has drained: nothing outstanding, nothing that can still be written (R348). -/
def drained (s : State) (k : Nat) : Bool :=
  quiet s k && (match (s.chan k).job with
    | none => true
    | some j => j.stop.isNone && j.sent.isEmpty && (j.funnel.isEmpty || !mayWrite (s.chan k) j
        || shortReg j
        || (match segHead true j.wd with
            | some g => g.sp = 1 && (needsCredit s j g || !(64 ≤ (frameBytes j).length && 80 + (hdrOf (frameBytes j)).payLen ≤ (frameBytes j).length))
            | none => true)))

/-- `PAUSE_DRAINED` (R348). -/
def pauseDrained (bus : BusFn) (s : State) (k : Nat) : State :=
  let s1 := if (s.chan k).st = .pausing then pumpAll bus s else s
  if (s1.chan k).st = .pausing && drained s1 k then paused s1 k else s1

/-- A kept job reads and writes again from its first byte not yet written; a stream source from the frame it had begun, a
`SIGNAL` write from its value. -/
def rejoin (s : State) (w3 : Word) (j : Job) : Job :=
  let half := match j.kind with | .shuffle 2 => decide (j.done % 2 = 1) | _ => false
  let k := match segHead false j.ws with | some g => if g.sp = 1 then some g.addr else none | none => none
  let begun : Option (Bytes × (Nat × Bool)) := match k, j.frames with
    | some e, x :: _ =>
      let b := (tget [] s.rhmb.sink e).headD []
      if x.1 < b.length then some (b.drop (b.length - x.1), x) else none
    | _, _ => none
  let signalled := match j.kind, j.ws with | .move _, .list [] => true | _, _ => false
  { j with
    rd := (match begun with | some b => segAdv b.1.length j.ws | none => j.ws), wd := j.ad,
    funnel := if signalled then wordBytes w3 else [], funnel2 := if half then [0] else [],
    part := (begun.map (fun b => b.1.length)).getD 0, sent := [],
    frames := (begun.map (fun b => [b.2])).getD [], sawLast := false, stop := none }

/-- A kept job goes on: a `LIST` reads its descriptor again, its range checked anew (R329, R332). -/
def resumeJob (s : State) (k : Nat) (j : Job) : State :=
  match j.kind with
  | .desc left => startDesc s k (((segHead false j.ws).map (fun g => g.addr)).getD 0) left
  | _ => modChan s k (fun c => { c with job := some (rejoin s (chanIns s k).w3 j) })

/-- `RESUME` (R348 to R350): a kept job goes on, a wait waits again, else the instruction is fetched again. -/
def resumeRun (s : State) (k : Nat) : State :=
  let c := s.chan k
  match c.wait, c.job with
  | some .stream, some j => resumeJob (s.setChan k { c with st := .running, wait := none }) k j
  | some .stream, none => s.setChan k { c with st := .running, wait := none, instr := none }
  | some _, _ => s.setChan k { c with st := .waiting }
  | none, some j => resumeJob (s.setChan k { c with st := .running }) k j
  | none, none => s.setChan k { c with st := .running, instr := none }

/-- A write of `RESUME`. -/
def chanResume (s : State) (a : Access) (k : Nat) (v : Word) : State :=
  regWrite s a (chanCmdAddr k) (refuseIf ((s.chan k).st ≠ .paused && (s.chan k).st ≠ .halted) .wrongState) (chanCmdArg v) (fun s1 => resumeRun s1 k)

/-- A frame that a stopped channel has written in part leaves its port with the credits of its other beats (log 38). -/
def dropBegun (s : State) (j : Job) : State :=
  match segHead false j.ws, j.frames with
  | some g, x :: _ =>
    let b := (tget [] s.rhmb.sink g.addr).headD []
    if g.sp = 1 && x.1 < b.length then (consumeFrames g.addr 1 x.1 s [x]).1 else s
  | _, _ => s

/-- The channel stops at a beat boundary, whatever it had begun (R351; R68). -/
def stopNow (s : State) (k : Nat) : State :=
  let c := s.chan k
  if c.st = .idle then s
  else goStopped (match c.job with | some j => dropBegun s j | none => s) k

/-- The channel has begun a frame on a stream destination and can finish it. -/
def frameBegun (s : State) (k : Nat) : Bool :=
  let c := s.chan k
  (c.st = .running || c.st = .waiting || c.st = .pausing) && (match c.job with | some j => !j.sent.isEmpty && j.stop.isNone | none => false)

/-- The channel stops at a beat boundary; a frame begun on a stream destination finishes first (R351). -/
def stopChan (s : State) (k : Nat) : State :=
  if frameBegun s k then
    modChan s k (fun c => { c with stopping := true, st := if c.st = .waiting then .running else c.st, wait := if c.st = .waiting then none else c.wait })
  else stopNow s k

/-- A write of `STOP`. -/
def chanStop (s : State) (a : Access) (k : Nat) (v : Word) : State :=
  regWrite s a (chanCmdAddr k) (refuseIf ((s.chan k).st = .idle) .wrongState) (chanCmdArg v) (fun s1 => stopChan s1 k)

/-- A write of `RHMB_CH_DOORBELL` (R343). -/
def chanBell (s : State) (a : Access) (k : Nat) (v : Word) : State :=
  regWrite s a (regAt (chanPage k) 0xA0) none (mbz v (maskBits 63 1)) (fun s1 => if bitOf v 0 then ringBell s1 k else s1)

/-! ### The global page (R353) -/

/-- `LOCK` of a page. -/
def locked (s : State) (p : Nat) : Bool := (s.page p).lock

/-- A write of `RHMB_GCTRL` (R353, R52). -/
def gctrlWrite (s : State) (a : Access) (v : Word) : State :=
  let src := fld v 3 0
  let sink := fld v 7 4
  let moved := (bitsOf 4 (src ^^^ s.rhmb.lspSrc)).any (fun k => tget 0 s.rhmb.claims k ≠ 0)
    || (bitsOf 4 (sink ^^^ s.rhmb.lspSink)).any (fun k => tget 0 s.rhmb.claims (4 + k) ≠ 0)
  regWrite s a (regAt 0x30 0x40) (refuseIf (locked s 0x30 || moved) .wrongState) (refuseIf (s.blk.profile ≠ 1) .badArg)
    (fun s1 => { s1 with rhmb.lspSrc := src, rhmb.lspSink := sink })

/-- A channel waits on a semaphore. -/
def semWaited (s : State) (i : Nat) : Bool :=
  (List.range 16).any (fun k => match (s.chan k).wait with | some (.sem j _) => j = i | _ => false)

/-- A write of `RHMB_SEM` (R353). -/
def semWrite (s : State) (a : Access) (v : Word) : State :=
  let i := s.rhmb.semSel
  let x := tget {} s.rhmb.sems i
  let y : Sem := { owned := bitOf v 63, part := fld v 62 58, value := fld v 31 0 }
  let owner (z : Sem) : Option Nat := if z.owned then some z.part else none
  regWrite s a (regAt 0x30 0x58) (refuseIf (semWaited s i && decide (owner x ≠ owner y)) .wrongState) none
    (fun s1 => { s1 with rhmb.sems := tset {} s1.rhmb.sems i y })

/-! ### Context commands (08 R278 to R282) -/

/-- The egress pipe that carries a context command: the lowest-numbered one `BOUND` or `IDLE` (R278). -/
def ctxPipe (s : State) : Option Nat :=
  ((List.range 8).map (· + 8)).find? (fun k => (s.pipe k).st = .bound || (s.pipe k).st = .idle)

/-- The state refusals of `SND_CTX_CMD` (R278, R342). -/
def ctxBusy (s : State) (wi ch : Nat) : Bool :=
  let w := s.win wi
  s.snd.ctx.isSome || (s.chan ch).st ≠ .idle || w.st = .opened || w.st = .releasing || groupAdmitted s w.part w.group || (ctxPipe s).isNone

/-- A write of `SND_CTX_CMD` (Table 8.16): a save key that cannot be had ends a save at once (R280). -/
def ctxCmd (s : State) (a : Access) (v : Word) (fault : Option (Nat × TileFault)) : State :=
  let save := fld v 63 60 = 1
  let wi := fld v 59 47
  let ch := fld v 46 43
  let w := s.win wi
  let badOp := fld v 63 60 ≠ 1 && fld v 63 60 ≠ 2
  regWrite s a ctxCmdAddr (refuseIf (ctxBusy s wi ch || (save && !drbgServes s 0)) .wrongState)
    (orElse (mbz v (maskBits 42 0)) (refuseIf (badOp || 12 ≤ ch || w.kind = .free || chanOwner s ch ≠ some w.part) .badArg)) (fun s1 =>
    let d := if save then drbgDraw s1 0 else (0, s1)
    let epoch := atEpoch (s1.slot (34 + 4 * w.part)).attr
    let salt := BitVec.ofNat 128 d.1
    let x : CtxCmd :=
      { acc := a, save := save, win := wi, ch := ch, chunks := 0, epoch := epoch, salt := salt, passed := 0, buf := [], hdr := [], headed := false
        pipe := (ctxPipe s).getD 8, key := 0, fault := fault }
    if !save then startRun { d.2 with snd.ctx := some x } ch (isMgmt a)
    else match saveKeyPush d.2 x.pipe w.part w.group epoch salt with
      | (s2, .error st) => ctxEnd { s2 with snd.ctx := some x } x st
      | (s2, .ok key) => startRun { s2 with snd.ctx := some { x with key := key } } ch (isMgmt a))

end Sys2Proof.Machine
end

