-- ==== Sys2Proof/Machine/Certs.lean ====
section
/-! DEFINITION. The certificates the block issues (17 R501, Table 17.3), in the DER of X.509 version 3 (RFC 5280). PRESUMED (log 154): the
object identifiers and the shape of each field come from the standards that R501 names. -/

namespace Sys2Proof.Machine

/-! ### DER -/

/-- The length octets of a value. -/
def lengthOctets (n : Nat) : Bytes :=
  if n < 128 then [BitVec.ofNat 8 n] else if n < 256 then [0x81, BitVec.ofNat 8 n] else 0x82 :: beBytes 2 n

/-- A value under its tag. -/
def der (tag : Byte) (b : Bytes) : Bytes := tag :: (lengthOctets b.length ++ b)

/-- `SEQUENCE`. -/
def derSeq (l : List Bytes) : Bytes := der 0x30 l.flatten

/-- `INTEGER` of a non-negative number, most significant byte first. -/
def derInt (b : Bytes) : Bytes :=
  match b.dropWhile (· = 0) with
  | [] => der 0x02 [0]
  | x :: r => der 0x02 (if x.msb then 0 :: x :: r else x :: r)

/-- `BIT STRING` of whole bytes. -/
def derBits (b : Bytes) : Bytes := der 0x03 (0 :: b)

/-- `OBJECT IDENTIFIER`. -/
def derOid (b : Bytes) : Bytes := der 0x06 b

def oidEcKey : Bytes := derOid [0x2A, 0x86, 0x48, 0xCE, 0x3D, 0x02, 0x01]
def oidP384 : Bytes := derOid [0x2B, 0x81, 0x04, 0x00, 0x22]
def oidEcdsa384 : Bytes := derOid [0x2A, 0x86, 0x48, 0xCE, 0x3D, 0x04, 0x03, 0x03]
def oidMldsa87 : Bytes := derOid [0x60, 0x86, 0x48, 0x01, 0x65, 0x03, 0x04, 0x03, 0x13]
def oidSha384 : Bytes := derOid [0x60, 0x86, 0x48, 0x01, 0x65, 0x03, 0x04, 0x02, 0x02]
def oidName : Bytes := derOid [0x55, 0x04, 0x03]
def oidBasic : Bytes := derOid [0x55, 0x1D, 0x13]
def oidUsage : Bytes := derOid [0x55, 0x1D, 0x0F]
def oidTcbInfo : Bytes := derOid [0x67, 0x81, 0x05, 0x05, 0x04, 0x01]

/-! ### The parts of a certificate -/

/-- A name of one common name. -/
def commonName (b : Bytes) : Bytes := derSeq [der 0x31 (derSeq [oidName, der 0x0C b])]

/-- The validity of R501. -/
def validity : Bytes := derSeq [der 0x17 (ascii "700101000000Z"), der 0x18 (ascii "99991231235959Z")]

/-- An extension; the two of RFC 5280 are critical (log 154). -/
def extension (oid : Bytes) (critical : Bool) (v : Bytes) : Bytes :=
  derSeq [oid, if critical then der 0x01 [0xFF] else [], der 0x04 v]

/-- `basicConstraints`: a CA of path length 0, or none. -/
def basicConstraints (ca : Bool) : Bytes := extension oidBasic true (derSeq (if ca then [der 0x01 [0xFF], derInt [0]] else []))

/-- `keyUsage`: digitalSignature, and keyCertSign of a CA. -/
def keyUsage (ca : Bool) : Bytes := extension oidUsage true (der 0x03 (if ca then [2, 0x84] else [7, 0x80]))

/-- The fwids of a TCG DiceTcbInfo: SHA-384 values. -/
def fwids (l : List Bytes) : Bytes := der 0xA6 (l.map (fun d => derSeq [oidSha384, der 0x04 d])).flatten

/-- TCG DiceTcbInfo: vendor and model, layer, fwids and type, each where it is named. -/
def tcbInfo (vendor model : Option String) (layer : Byte) (ids : List Bytes) (type : Option String) : Bytes :=
  extension oidTcbInfo false (derSeq
    [(vendor.map (fun v => der 0x80 (ascii v))).getD [], (model.map (fun v => der 0x81 (ascii v))).getD [], der 0x84 [layer], fwids ids,
     (type.map (fun v => der 0x89 (ascii v))).getD []])

/-- What both halves of a pair carry (R501). -/
structure CertBody where
  issuer : Bytes
  subject : Bytes
  serial : Bytes
  exts : Bytes
  deriving DecidableEq, Repr

/-- What an issuer signs: version 3, and the fields of a half with its signature algorithm and subject key. -/
def tbsOf (c : CertBody) (alg key : Bytes) : Bytes :=
  derSeq [der 0xA0 (derInt [2]), derInt c.serial, alg, c.issuer, validity, c.subject, key, der 0xA3 (der 0x30 c.exts)]

def ecAlg : Bytes := derSeq [oidEcdsa384]
def mlAlg : Bytes := derSeq [oidMldsa87]

/-- The ECDSA half: a P-384 subject key (97 bytes), signed under the issuer's P-384 key. -/
def ecCert (c : CertBody) (issuer : Key) (ec : Bytes) (k : Nat) : Bytes :=
  let t := tbsOf c ecAlg (derSeq [derSeq [oidEcKey, oidP384], derBits ec])
  let s := ecSignWith issuer (Config.sha384 t) k
  derSeq [t, ecAlg, derBits (derSeq [derInt (beBytes 48 s.1), derInt (beBytes 48 s.2)])]

/-- The ML-DSA half: an ML-DSA-87 subject key, signed with an empty context under the issuer's ML-DSA key. -/
def mlCert (c : CertBody) (issuer : Key) (ml : Bytes) (rnd : Nat) : Bytes :=
  let t := tbsOf c mlAlg (derSeq [mlAlg, derBits ml])
  derSeq [t, mlAlg, derBits (mlSignWith issuer t rnd)]

/-! ### The pairs of Table 17.3 -/

/-- The serial number of a pair: of the subject's keys (R501). -/
def certSerial (ec ml : Bytes) : Bytes :=
  match (digestBytes (Config.sha384 (ec ++ ml))).take 16 with
  | b :: r => (b &&& 0x7F) :: r
  | [] => []

/-- An uppercase hex digit. -/
def hexDigit (n : Nat) : Byte := BitVec.ofNat 8 (if n < 10 then 0x30 + n else 0x37 + n)

/-- Bytes in uppercase hex digits. -/
def hexOf (b : Bytes) : Bytes := b.flatMap (fun x => [hexDigit (x.toNat / 16), hexDigit (x.toNat % 16)])

/-- The subject of the block alias certificate, of the block identifier's 16 bytes. -/
def aliasSubject (block : Bytes) : Bytes := commonName (ascii "ORPV-ALIAS-" ++ hexOf block)

/-- The subject of the alias certificate of partition `p`. -/
def partSubject (block : Bytes) (p : Nat) : Bytes :=
  commonName (ascii "ORPV-PART-" ++ hexOf block ++ ascii "-" ++ [BitVec.ofNat 8 (0x30 + p / 10), BitVec.ofNat 8 (0x30 + p % 10)])

/-- The block alias certificate, issued by the DeviceID subject; fwids of `MEAS_REG1` to `MEAS_REG5` and `MEAS_REG7`. -/
def aliasBody (issuer block : Bytes) (ids : List Bytes) (ec ml : Bytes) : CertBody :=
  { issuer := issuer, subject := aliasSubject block, serial := certSerial ec ml,
    exts := basicConstraints true ++ keyUsage true ++ tcbInfo (some "Memolen") (some "Orpovis") 1 ids none }

/-- The alias certificate of partition `p`, issued by the block alias. -/
def partBody (block : Bytes) (p : Nat) (policy ec ml : Bytes) : CertBody :=
  { issuer := aliasSubject block, subject := partSubject block p, serial := certSerial ec ml,
    exts := basicConstraints false ++ keyUsage false ++ tcbInfo none none 2 [policy] (some "ORPV-PART") }

/-- Issue a pair: the ECDSA half and the ML-DSA half, each signature with its draws from DRBG instance 0. -/
def issuePair (s : State) (c : CertBody) (issuer : Key) (ec ml : Bytes) : (Bytes × Bytes) × State :=
  let d := drbgDraws s 0 signDraws
  ((ecCert c issuer ec (d.1.getD 0 0), mlCert c issuer ml (d.1.getD 3 0)), d.2)

end Sys2Proof.Machine
end

