-- ==== Sys2Proof/Machine/Identity.lean ====
section
/-! DEFINITION. The identity layers (chapter 17): the value *A*, the DeviceID and alias keys, the certificate area, and the
certificate pairs the block issues. -/

namespace Sys2Proof.Machine

/-- The concatenated measurement registers of a list, each as 48 bytes. -/
def measBytes (s : State) (l : List Nat) : Bytes := (l.map (fun m => digestBytes (tget 0 s.meas.regs m))).flatten

/-- *A* (R494). -/
def formA (s : State) : BitVec 384 := Config.sha384 (measBytes s [0, 1, 2, 3, 4, 5, 7])

/-! ### The certificate area (Table 17.2) -/

/-- An entry of the area: kind, depth and certificate. -/
structure AreaEntry where
  kind : Nat
  depth : Nat
  der : Bytes
  deriving DecidableEq, Repr

/-- Entry `i` of an area, where its fields hold. -/
def areaEntry (b : Bytes) (i : Nat) : Option AreaEntry :=
  let k := 16 + 16 * i
  let kind := leAt b k 1
  let pos := leAt b (k + 4) 4
  let len := leAt b (k + 8) 4
  if 1 ≤ kind && kind ≤ 4 && leAt b (k + 2) 2 = 0 && leAt b (k + 12) 4 = 0 && pos + len ≤ 65536 then
    some { kind := kind, depth := leAt b (k + 1) 1, der := slice b pos len }
  else none

/-- The entries of a well-formed area. -/
def areaEntries (b : Bytes) : Option (List AreaEntry) :=
  let n := leAt b 8 2
  let es := (List.range n).map (areaEntry b)
  if b.take 8 = ascii "ORPV-CA1" && 1 ≤ n && n ≤ 32 && (slice b 10 6).all (· = 0) && es.all (·.isSome) then some (es.filterMap id) else none

/-- Every certificate of a kind, at least one, carries a key. -/
def carriesKey (es : List AreaEntry) (kind : Nat) (key : Bytes) : Bool :=
  let l := es.filter (fun e => e.kind = kind)
  !l.isEmpty && l.all (fun e => decide (Config.certKey e.der = key))

/-- `ID_CERT_OK` for derived DeviceID keys (R500). -/
def certsMatch (s : State) (area ec ml : Bytes) : Bool :=
  s.life.rights = 0 && !s.chrt.testRoot &&
    (match areaEntries area with
     | some es => carriesKey es 3 ec && carriesKey es 4 ml
     | none => false)

/-! ### Certificates the block issues (R501) -/

/-- The subject of the DeviceID certificate of an area, which issues the block alias (Table 17.3). DESIGN CHOICE (log 154): an area that is
not well formed names none, and the issuer is then the subject of no bytes. -/
def deviceSubject (area : Bytes) : Bytes :=
  Config.certSubject (match areaEntries area with
    | some es => (match es.find? (fun e => e.kind = 3) with | some e => e.der | none => [])
    | none => [])

/-- The fwids of the block alias certificate (Table 17.3). -/
def blockFwids (s : State) : List Bytes := ([1, 2, 3, 4, 5, 7] : List Nat).map (fun m => digestBytes (tget 0 s.meas.regs m))

/-- Steps 1 to 4 of R497, on the certificate area: four key generations, the two signatures and the comparison. -/
def formIdentity (s : State) (area : Bytes) : State :=
  let s0 := noteBad (noteBad s 0) 1
  match slotKey s0 0, (if drbgServesAll s0 0 (2 * keygenDraws + signDraws) then slotKey s0 1 else none) with
  | some dev, some al =>
    let s1 := engineRuns s0 (2 * keygenDraws)
    let r := issuePair s1 (aliasBody (deviceSubject area) (blockId s1) (blockFwids s1) (ecPublic al) (mlPublic al)) dev (ecPublic al) (mlPublic al)
    let x := r.2
    { x with
      spdm.devEc := ecPublic dev, spdm.devMl := mlPublic dev, spdm.aliasEc := r.1.1, spdm.aliasMl := r.1.2
      spdm.certOk := certsMatch x area (ecPublic dev) (mlPublic dev) }
  | _, _ => { s0 with spdm.devEc := [], spdm.devMl := [], spdm.aliasEc := [], spdm.aliasMl := [], spdm.certOk := false }

/-- Draws of the key pairs and the certificate pair of a partition alias. -/
def partDraws : Nat := keygenDraws + signDraws

/-- The key pairs of a partition alias are generated, and its pair is issued with the block alias key (R498). -/
def issuePart (s : State) (p : Nat) : State :=
  let s0 := noteBad (noteBad s 1) (32 + 4 * p)
  match slotKey s0 1, (if drbgServesAll s0 0 partDraws then slotKey s0 (32 + 4 * p) else none) with
  | some al, some pa =>
    let s1 := engineRuns s0 keygenDraws
    let r := issuePair s1 (partBody (blockId s1) p (digestBytes (s1.part p).policy) (ecPublic pa) (mlPublic pa)) al (ecPublic pa) (mlPublic pa)
    let x := r.2
    { x with spdm.partEc := tset [] x.spdm.partEc p r.1.1, spdm.partMl := tset [] x.spdm.partMl p r.1.2 }
  | _, _ => s0

/-- The pair of a partition, issued by the first request that needs it (R497, R499). -/
def needPart (s : State) (p : Nat) : State := if tget [] s.spdm.partEc p = [] then issuePart s p else s

/-- The pair of a partition is gone. -/
def dropPart (s : State) (p : Nat) : State :=
  { s with spdm.partEc := tset [] s.spdm.partEc p [], spdm.partMl := tset [] s.spdm.partMl p [] }

end Sys2Proof.Machine
end

