-- ==== Sys2Proof/Machine/Zinnia.lean ====
section
/-! DEFINITION. Zinnia's budget requests (chapter 7, R252 to R258). -/

namespace Sys2Proof.Machine

/-- The address of `ZIN_CMD`. -/
def zinCmdAddr : Nat := regAt 0x55 0x80

/-- A budget request ends: `ZIN_CMD_RESULT`, the cause `CMD_DONE`, and the page's error record (R254, Table 7.14). -/
def zinDone (s : State) (a : Access) (st : Status) (stage signer : Nat) : State :=
  let s1 := { s with zin.result := pack [(63, 48, stCode st), (47, 40, stage), (39, 32, signer)] }
  noteCmd (raise s1 0x55 0) a zinCmdAddr st

/-- The form of a request for partition `p` (Table 7.10 stage 2). -/
def requestForm (s : State) (p : Nat) (b : Bytes) : Bool :=
  b.take 8 = ascii "ORPV-BG1" && matchesBlock s (slice b 8 16) && leAt b 24 1 = p && (slice b 26 6).all (· = 0)
    && leAt b 40 8 < 2 ^ 63 && leAt b 62 1 ≤ 1 && leAt b 63 1 = 0

/-- A request is a raise (R253). -/
def isRaise (x : Budget) (b : Bytes) : Bool :=
  x.total < leAt b 40 8 || x.grant < leAt b 48 8 || leAt b 56 4 < x.minCharge || leAt b 60 2 < x.noiseMult2
    || (x.privRequired && leAt b 62 1 = 0)

/-- The signers a request needs (R253, Table 7.10 stage 4). -/
def signersHold (owners signers : Nat) (up : Bool) : Bool :=
  signers &&& owners = signers && (if up then signers = owners else signers ≠ 0)

/-- The first signer, in ascending owner order, whose entry does not verify under the registered pair (R252, stage 5). -/
def badSigner (rec req : Bytes) (signers : Nat) : Option Nat :=
  ((bitsOf 8 signers).zip (List.range 8)).findSome? (fun e =>
    if hybridVerify (ownerKeys rec e.1) (slice req (64 + 4736 * e.2) 4736) (req.take 64) then none else some e.1)

/-- Stage 6: every field but `SPENT` (R255). -/
def applyRequest (s : State) (p : Nat) (b : Bytes) : State :=
  let x := s.budget p
  let y : Budget := { x with total := leAt b 40 8, grant := leAt b 48 8, minCharge := leAt b 56 4, noiseMult2 := leAt b 60 2,
                             privRequired := leAt b 62 1 = 1, seq := leAt b 32 8 }
  let s1 := s.setBudget p y
  if y.total < y.spent then raise (raise s1 0x55 2) (0x80 + p) 5 else s1

/-- The stages of Table 7.10: the failing stage with its status and signer, or the state after stage 6 (R254). -/
def budgetStages (s : State) (mem policy : Option Bytes) : Except (Status × Nat × Nat) State :=
  let p := fld s.zin.cmdAddr 52 48
  let ad := fld s.zin.cmdAddr 47 0
  match helmRead (inRegions s p ad 64 false) mem 64 with
  | .error st => .error (st, 1, 0xFF)
  | .ok head =>
    let signers := leAt head 25 1
    let len := 64 + 4736 * popCount 8 signers
    match helmRead (inRegions s p ad len false) mem len with
    | .error st => .error (st, 1, 0xFF)
    | .ok req =>
      let x := s.budget p
      let q := s.part p
      if !requestForm s p req then .error (.badArg, 2, 0xFF)
      else if q.st ≠ .owned then .error (.wrongState, 2, 0xFF)
      else if leAt req 32 8 ≤ x.seq then .error (.badArg, 3, 0xFF)
      else if !signersHold q.owners signers (isRaise x req) then .error (.sigFail, 4, 0xFF)
      else match policyRecord s p policy with
        | .error st => .error (st, 5, 0xFF)
        | .ok rec => match badSigner rec req signers with
          | some i => .error (.sigFail, 5, i)
          | none => .ok (applyRequest s p req)

/-- Helm runs a budget request to its end; from stage 5 on it needs the engine (18 R538). -/
def zinRun (s : State) (a : Access) (mem policy : Option Bytes) : State :=
  match budgetStages s mem policy with
  | .error e => zinDone (if 5 ≤ e.2.1 then engineUp s else s) a e.1 e.2.1 e.2.2
  | .ok s1 => zinDone (engineUp s1) a .ok 0 0xFF

/-- A write of `ZIN_CMD` (Table 7.14). DESIGN CHOICE (log 129): no row of the table ends a request, so it runs to its end at once; where an
operation holds the engine that verifies its signatures it waits for that operation's end, and the page is `BUSY` until then (R258). -/
def zinCmd (s : State) (a : Access) (v : Word) (mem policy : Option Bytes) : State :=
  regWrite s a zinCmdAddr (refuseIf s.zin.waiting.isSome .wrongState) (orElse (mbz v (maskBits 59 0)) (refuseIf (fld v 63 60 ≠ 1) .badArg)) (fun s1 =>
    if s1.astr.st = .running then { s1 with zin.waiting := some (a, mem, policy) } else zinRun s1 a mem policy)

/-- The request that waited for the engine runs once the engine is free. -/
def zinResume (s : State) : State :=
  match s.zin.waiting with
  | some w => if s.astr.st = .running then s else zinRun { s with zin.waiting := none } w.1 w.2.1 w.2.2
  | none => s

/-- `ASTR_OP_END` (R404). -/
def execAstrOpEnd (how : AstrEnd) (s : State) : Host.Outcome State Fault Refusal := .next (whenArith s (fun x => zinResume (astrOpEnd x how)))

/-- `ABORT` (R405, R406). -/
def astrAbort (s : State) (a : Access) (v : Word) : State :=
  astrCmd s a v (fun x => orElse (refuseIf (x.astr.st ≠ .running) .wrongState) (mbz v (maskBits 51 0))) (fun x => zinResume (astrAbortNow x))

/-- `ASTR_ABORT` (R405). -/
def execAstrAbort (a : Access) (v : Word) (s : State) : Host.Outcome State Fault Refusal := .next (astrAbort s a v)

/-- `ZIN_BUDGET` (R254). -/
def execZinBudget (a : Access) (v : Word) (mem policy : Option Bytes) (s : State) : Host.Outcome State Fault Refusal :=
  .next (zinCmd s a v mem policy)

end Sys2Proof.Machine
end

