-- ==== Sys2Proof/Machine/Partitions.lean ====
section
/-! DEFINITION. Partitions (chapter 10): assign, release and wipe, region windows, quotas, ranges and channel masks. -/

namespace Sys2Proof.Machine

/-- The page of a partition. -/
def partPage (p : Nat) : Nat := 0x80 + p

def partCmdAddr (p : Nat) : Nat := regAt (partPage p) 0x88

/-! ### Region windows (R312 to R315) -/

/-- A channel's operation of number `n` still runs. -/
def opRuns (s : State) (k n : Nat) : Bool := decide ((s.chan k).serial = n) && ((s.chan k).job.isSome || !(reqsOf s k).isEmpty)

/-- The operations already checked against window `w` of partition `o`, or of the block's own for none, that still run (R315). -/
def windowUsers (s : State) (o : Option Nat) (w : Nat) : List (Nat × Nat) :=
  ((List.range 16).filter (fun k => chanOwner s k = o && opRuns s k (s.chan k).serial && (s.chan k).used.contains w)).map (fun k => (k, (s.chan k).serial))

/-- An operation for which a closing window stays open still runs (R315). -/
def regionUsed (s : State) (r : Region) : Bool := r.users.any (fun u => opRuns s u.1 u.2)

/-- A window of a partition is closing (`PAGE_STATUS.BUSY`, R315). -/
def regionClosing (s : State) (p : Nat) : Bool := (s.part p).regions.any (fun e => e.2.closing)

/-- Two windows overlap. -/
def regionsMeet (a b : Region) : Bool := a.base < b.limit && b.base < a.limit

/-- An enabled window of another partition overlaps (R314). -/
def meetsParts (s : State) (not : Option Nat) (r : Region) : Bool :=
  (List.range 32).any (fun q => some q ≠ not && (s.part q).regions.any (fun e => e.2.en && regionsMeet r e.2))

/-- An enabled management window other than `w` overlaps (11 R353). -/
def meetsMgmt (s : State) (w : Nat) (r : Region) : Bool := s.rhmb.mgmt.any (fun e => e.1 ≠ w && e.2.en && regionsMeet r e.2)

/-- The window a write of a `BASE` register asks for. -/
def baseWrite (r : Region) (v : Word) : Region := { r with en := bitOf v 63, rd := bitOf v 62, wr := bitOf v 61, base := fld v 47 0 }

/-- The state refusal of a write of `BASE` or `LIMIT` (R315). -/
def regionLocked (r : Region) (limit : Bool) (v : Word) : Bool :=
  r.en && (limit || !((baseWrite r v) = { r with en := false }))

/-- The argument refusal (R312, R314, R546). -/
def regionBad (r : Region) (limit : Bool) (v : Word) (meets : Region → Bool) : Bool :=
  fld v 11 0 ≠ 0 || (!limit && !r.en && bitOf v 63 &&
    (let n := baseWrite r v; n.limit ≤ n.base || n.base % 4096 ≠ 0 || n.limit % 4096 ≠ 0 || meets n))

/-- The window after an accepted write: a cleared `EN` takes effect once no operation already checked against it runs (R315). -/
def regionAfter (r : Region) (limit : Bool) (v : Word) (users : List (Nat × Nat)) : Region :=
  if limit then { r with limit := fld v 47 0 }
  else if r.closing then r
  else if r.en then (if users.isEmpty then { r with en := false } else { r with closing := true, users := users })
  else baseWrite r v

/-- A write of `PART_REGION_BASE`w or `PART_REGION_LIMIT`w. -/
def regionWrite (s : State) (a : Access) (p w : Nat) (limit : Bool) (v : Word) : State :=
  let r : Region := tget {} (s.part p).regions w
  regWrite s a (regAt (partPage p) (0x100 + 16 * w + (if limit then 8 else 0)))
    (refuseIf (regionLocked r limit v) .wrongState) (refuseIf (regionBad r limit v (meetsParts s (some p))) .badArg) (fun s1 =>
    let q := s1.part p
    s1.setPart p { q with regions := tset {} q.regions w (regionAfter r limit v (windowUsers s1 (some p) w)) })

/-- A write of `RHMB_MGMT_BASE`w or `RHMB_MGMT_LIMIT`w (11 R353). -/
def mgmtRegionWrite (s : State) (a : Access) (w : Nat) (limit : Bool) (v : Word) : State :=
  let r : Region := tget {} s.rhmb.mgmt w
  regWrite s a (regAt 0x30 (0x60 + 16 * w + (if limit then 8 else 0)))
    (refuseIf (regionLocked r limit v) .wrongState) (refuseIf (regionBad r limit v (fun n => meetsParts s none n || meetsMgmt s w n)) .badArg)
    (fun s1 => { s1 with rhmb.mgmt := tset {} s1.rhmb.mgmt w (regionAfter r limit v (windowUsers s1 none w)) })

/-- A closing window goes off. -/
def closeRegion (s : State) (r : Region) : Region := if r.closing && !regionUsed s r then { r with en := false, closing := false, users := [] } else r

/-- `REGION_DISABLE_DONE`: the last checked operation has completed (R315). -/
def regionDisableDone (s : State) (p w : Nat) : State :=
  let q := s.part p
  s.setPart p { q with regions := tset {} q.regions w (closeRegion s (tget {} q.regions w)) }

/-- Closing management windows go off with the last operation checked against them (11 R353). -/
def closeMgmt (s : State) : State := { s with rhmb.mgmt := tmap {} (fun _ r => closeRegion s r) s.rhmb.mgmt }

/-! ### Assign (R307) -/

/-- `PAGE_STATUS.BUSY` of a `PART` page (R323). -/
def partBusy (s : State) (p : Nat) : Bool := (s.part p).st = .wiping || regionClosing s p

/-- A command of the page ends (Table 10.7). -/
def partDone (s : State) (a : Access) (p : Nat) (st : Status) (step : Nat) : State :=
  let q := s.part p
  noteCmd (s.setPart p { q with status := stCode st, stepFailed := step }) a (partCmdAddr p) st

/-- The head of a policy record (step 3). -/
def policyHead (p : Nat) (b : Bytes) : Bool :=
  b.take 8 = ascii "ORPV-PL1" && leAt b 8 1 = p && 1 ≤ leAt b 9 1 && leAt b 9 1 ≤ 8 && (slice b 12 52).all (· = 0)

/-- The owner entries of a record (step 5). -/
def ownersOk (b : Bytes) (n : Nat) : Bool :=
  let es := (List.range n).map (ownerKeys b)
  es.all (fun e => (pointOf (slice e 0 97)).isSome && (slice e 97 31).all (· = 0) && (slice e 2720 32).all (· = 0))
    && decide ((es.map (fun e => slice e 0 97)).Nodup) && decide ((es.map (fun e => slice e 128 2592)).Nodup)

/-- Steps 1 to 5 of `ASSIGN`, and what keeps the key generation of step 6 from running (17 R498): the failing step and its status,
or the owners and the record. `RETURNED`, present or pending, refuses at step 1 (15 Table 15.1, R448). The operations of step 6 end it with
their own status; a slot 1 that is `BAD` gives no key to sign with (12 R363). -/
def assignChecks (s : State) (p : Nat) (x : AssignIn) : Except (Nat × Status) (Nat × Bytes) :=
  let mem := x.bytes
  let q := s.part p
  if q.st ≠ .free || s.life.st = 4 || s.life.pending = 4 then .error (1, .wrongState)
  else match helmRead (inRegions s p q.policyAddr 64 false) mem 64 with
    | .error st => .error (2, st)
    | .ok head =>
      let n := leAt head 9 1
      let len := 256 + 2752 * n
      if !policyHead p head then .error (3, .badFormat)
      else if leAt head 10 2 < counter s 2 then .error (4, .badFormat)
      else match helmRead (inRegions s p q.policyAddr len false) mem len with
        | .error st => .error (5, st)
        | .ok b =>
        if !ownersOk b n then .error (5, .badFormat)
        else if s.chrt.root.isNone || !drbgServesAll s 0 (keygenDraws + partDraws) || !canPutAll s [1, 2, 7] || (s.slot 1).st ≠ .active then
          .error (6, .wrongState)
        else if (slotKey s 1).isNone then .error (6, .tagFail)
        else match x.fail with
          | some f => .error (6, faultStatus f)
          | none => .ok (n, b)

/-- `ASSIGN` (R307): steps 6 and 7 once the checks pass; step 6 reads slot 1 and runs the engine (17 R498). -/
def assignOp (s : State) (a : Access) (p : Nat) (mem : AssignIn) : State :=
  match assignChecks s p mem with
  | .error e => partDone (if e.1 = 6 then engineUp (noteBad s 1) else s) a p e.2 e.1
  | .ok (n, b) =>
    let q := s.part p
    let s1 := s.setPart p { q with st := .owned, owners := 2 ^ n - 1, policy := Config.sha384 b }
    raise (partDone (issuePart (engineRuns (derivePart s1 p) keygenDraws) p) a p .ok 0) (partPage p) 3

/-- A write of `ASSIGN` to `PART_CMD`. -/
def partAssign (s : State) (a : Access) (p : Nat) (v : Word) (mem : AssignIn) : State :=
  regWrite s a (partCmdAddr p) (refuseIf (partBusy s p) .wrongState) (mbz v (maskBits 59 0)) (fun s1 => assignOp s1 a p mem)

/-! ### Release and wipe (R309 to R311) -/

/-- A write of `RELEASE` to `PART_CMD`: refused where the partition is not `OWNED`, with the status in `PART_RESULT` (R309, R542). -/
def partRelease (s : State) (a : Access) (p : Nat) (v : Word) : State :=
  regWrite s a (partCmdAddr p) (refuseIf (partBusy s p) .wrongState) none (fun s1 =>
    let q := s1.part p
    if q.st ≠ .owned then refuse (s1.setPart p { q with status := stCode .wrongState, stepFailed := 0 }) a true (partCmdAddr p) .wrongState
    else match mbz v (maskBits 59 0) with
      | some st => refuse s1 a true (partCmdAddr p) st
      | none => raise (partDone (s1.setPart p { q with st := .wiping, wipeTag := errTag a }) a p .ok 0) (partPage p) 3)

/-- Steps 1 to 3: collectives, channels and hot key caches. -/
def wipeTraffic (s : State) (p : Nat) : State :=
  let s1 := abortWhere (fun q _ => q = p) { st := .aborted, detail := (s.part p).wipeTag } s
  let s2 := ((List.range 16).filter (fun k => chanOwner s1 k = some p)).foldl stopChan s1
  flushAllCaches s2 (fun e => e.use ≠ 4 && e.part = p)

/-- Steps 4 to 6: keys, engine slots and windows, each freed under `FREE` as Helm's command (05 R183, R184). -/
def wipeSecrets (s : State) (p : Nat) : State :=
  let s1 := zeroSlots s (fun i x => slotOfPart p i x)
  let s2 := astrWipe { s1 with hashu.drbgs := tset {} s1.hashu.drbgs (2 + p) {} } p
  ((s2.phlx.wins.filter (fun e => e.2.kind ≠ .free && e.2.part = p)).map (·.1)).foldl freeWindowCmd s2

/-- A stream record is of a collective-class sender stream of a partition. -/
def streamOfPart (p : Nat) (r : StreamRec) : Bool := r.key.use ≠ 4 && r.key.part = p

/-- Step 7: parking, entries, straggler slots, the overflow mark and stream records. DESIGN CHOICE (log 126): parked frames of a
`KNOWN` entry go uncounted; 05 R180 lists the drops and a wipe's are not among them. -/
def wipeTables (s : State) (p : Nat) : State :=
  let own (g : Nat) : Bool := descOwner (s.desc false g) = some p || descOwner (s.desc true g) = some p
  let q := s.part p
  let s1 := s.setPart p { q with overflow := none }
  { s1 with
    park.frames := s1.park.frames.filter (fun f => f.part ≠ p), park.reserve := s1.park.reserve.filter (fun f => f.part ≠ p),
    grp.lists := tset [] s1.grp.lists p [],
    grp.recs := tmap {} (fun g r => if own g then { r with slot := none, hist := [] } else r) s1.grp.recs,
    lark.streams := s1.lark.streams.filter (fun r => !streamOfPart p r) }

/-- Step 8: descriptors and the member-list range, in both copies. -/
def wipeDescs (s : State) (p : Nat) : State :=
  let q := s.part p
  let d (_ : Nat) (x : Desc) : Desc := if descOwner x = some p then {} else x
  let m (t : Table Nat) : Table Nat := t.filter (fun e => !(q.mbrBase ≤ e.1 && e.1 < q.mbrBase + q.mbrLen))
  { s with grp.descA := tmap {} d s.grp.descA, grp.descS := tmap {} d s.grp.descS, grp.mbrA := m s.grp.mbrA, grp.mbrS := m s.grp.mbrS }

/-- Step 9, the semaphores of 11 Table 11.14, and `FREE` (R310). -/
def wipeEnd (s : State) (p : Nat) : State :=
  let q := s.part p
  let s1 := ((dropPart s p).setBudget p {}).setPart p { q with policy := 0, owners := 0, st := .free, wipeTag := 0 }
  raise { s1 with rhmb.sems := tmap {} (fun _ x => if x.owned && x.part = p then { x with value := 0 } else x) s1.rhmb.sems } (partPage p) 3

/-- Steps 4 to 9 of the wipe. -/
def wipeRest (s : State) (p : Nat) : State := wipeEnd (wipeDescs (wipeTables (wipeSecrets s p) p) p) p

/-- The wipe of Table 10.4, in its order. -/
def wipeAll (s : State) (p : Nat) : State := wipeRest (wipeTraffic s p) p

/-- Every channel of a partition has stopped (Table 10.4 step 2). -/
def chansStopped (s : State) (p : Nat) : Bool := (List.range 16).all (fun k => chanOwner s k ≠ some p || (s.chan k).st = .idle)

/-- A launch of a partition is held at a step boundary (09 R292): the command runs, so the wipe waits for it (R309). -/
def launchHeld (s : State) (p : Nat) : Bool :=
  s.mrd.heldCmds.any (fun c => match c with
    | .launch a _ | .resyncSend a _ | .resyncRecv a _ => decide (a.ptag.toNat = p)
    | _ => false)

/-- `WIPE_DONE`: a wiping partition is wiped (R310), by Helm while it runs (01 R25), once its running command has completed (R309); a channel
that has begun a frame finishes it first, and the wipe stands at step 2 till then (11 R351). Budget requests that waited for the engine go on
where the wipe has ended its operation. -/
def wipeDone (s : State) (p : Nat) : State :=
  if (s.part p).st = .wiping && secRuns s && !launchHeld s p then
    let s1 := wipeTraffic s p
    if chansStopped s1 p then zinResume (wipeRest s1 p) else s1
  else s

/-! ### Range, channels and quotas (R317 to R320) -/

/-- A write of `PART_MBR_RANGE` (R319). -/
def mbrRangeWrite (s : State) (a : Access) (p : Nat) (v : Word) : State :=
  let b := fld v 63 46
  let n := fld v 45 27
  let meets := 1 ≤ n && (List.range 32).any (fun q => q ≠ p && 1 ≤ (s.part q).mbrLen && b < (s.part q).mbrBase + (s.part q).mbrLen && (s.part q).mbrBase < b + n)
  regWrite s a (regAt (partPage p) 0xA8) (refuseIf ((s.part p).st ≠ .free) .wrongState) (refuseIf (262144 < b + n || meets) .badArg)
    (fun s1 => let q := s1.part p; s1.setPart p { q with mbrBase := b, mbrLen := n })

/-- A write of `PART_CHANNELS` (R320). -/
def channelsWrite (s : State) (a : Access) (p : Nat) (v : Word) : State :=
  let old := (s.part p).channels
  let new := fld v 15 0
  let busy := (bitsOf 16 (old ^^^ new)).any (fun k => (s.chan k).st ≠ .idle || (match chanOwner s k with | some q => q ≠ p | none => false))
  regWrite s a (regAt (partPage p) 0xB0) (refuseIf busy .wrongState) none
    (fun s1 => let q := s1.part p; s1.setPart p { q with channels := new })

/-- A write of `PART_QUOTA0` or `PART_QUOTA1` (R317, Table 10.8). -/
def quotaWrite (s : State) (a : Access) (p : Nat) (second : Bool) (v : Word) : State :=
  let bad := if second then 16384 < fld v 63 49 || 3584 < fld v 48 37 else 512 < fld v 53 44 || 4096 < fld v 43 31 || 8192 < fld v 30 17
  regWrite s a (regAt (partPage p) (if second then 0xA0 else 0x98)) none (refuseIf bad .badArg) (fun s1 =>
    let q := s1.part p
    s1.setPart p (if second then { q with qGran := fld v 63 49, qPark := fld v 48 37, weight := fld v 36 29 }
      else { q with qSlots := fld v 53 44, qDescs := fld v 43 31, qWins := fld v 30 17 }))

end Sys2Proof.Machine
end

