-- ==== Sys2Proof/Machine/Flags.lean ====
section
/-! DEFINITION. The status flags of a page (chapter 2, Table 2.7): `BUSY`, `READY`, `LOCKED` and the word `PAGE_STATUS`. The
interrupt flags and lines stand in Machine/Ops.lean. -/

namespace Sys2Proof.Machine

/-- `PAGE_STATUS.BUSY` of a page for a reader: each chapter names what runs behind it (05 R153, R184; 08; 09 R300; 10 R323;
11; 12 R385; 13; 14 R439; 15 R460; 16 R492; 18 R537); on page 0x60 it is the reader's own (02 R545). -/
def pageBusy (s : State) (a : Access) (p : Nat) : Bool :=
  if p = 0x02 then s.helm.confirming.isSome
  else if p = 0x04 then s.mrd.running.isSome
  else if p = 0x0A then s.chrt.deleting.isSome
  else if p = 0x0B then s.chrt.delivery.isSome
  else if p = 0x0C then s.astr.st = .running
  else if p = 0x10 then s.logb.running.isSome
  else if p = 0x12 then s.life.running.isSome
  else if 0x20 ≤ p ∧ p ≤ 0x2F then (s.chan (p - 0x20)).st ≠ .idle
  else if p = 0x30 then s.rhmb.mgmt.any (fun e => e.2.closing)
  else if 0x40 ≤ p ∧ p ≤ 0x4F then kcBusy (s.pipe (p - 0x40))
  else if p = 0x51 then s.phlx.running.isSome
  else if p = 0x55 then s.zin.waiting.isSome
  else if p = 0x56 then s.snd.ctx.isSome
  else if p = 0x60 then grpBusy s a
  else if 0x80 ≤ p ∧ p ≤ 0x9F then partBusy s (p - 0x80)
  else if p = 0xC0 then s.pwr.running.isSome
  else false

/-- A pipe of this state is initialised and accepts operations (05 Table 5.1). -/
def pipeAccepts : PipeSt → Bool
  | .idle | .bound | .draining => true
  | .offline | .loading | .fault | .retired => false

/-- `PAGE_STATUS.FAULT`: the unit has a fault condition that its chapter defines: the pipe state `FAULT` (05 Table 5.1), and the noise
source's `FAILED` (12 R383). -/
def pageFault (s : State) (p : Nat) : Bool :=
  if p = 0x0E then s.hashu.failed
  else if 0x40 ≤ p ∧ p ≤ 0x4F then decide ((s.pipe (p - 0x40)).st = .fault)
  else false

/-- `PAGE_STATUS.READY`: the unit is initialised (Table 2.7); which units are not while their page responds is the model's
reading (log 43). -/
def pageReady (s : State) (p : Nat) : Bool :=
  if p = 0x00 then s.blk.ready
  else if 0x08 ≤ p ∧ p ≤ 0x0B then s.chrt.root.isSome
  else if p = 0x0C ∨ p = 0x0D then decide (s.astr.st ≠ .loading)
  else if p = 0x0E then s.hashu.ready && !s.hashu.failed
  else if 0x40 ≤ p ∧ p ≤ 0x4F then pipeAccepts (s.pipe (p - 0x40)).st
  else true

/-- `PAGE_STATUS` (Table 2.7): no chapter defines a page-specific bit. -/
def pageStatus (s : State) (a : Access) (p : Nat) : Word :=
  pack [(3, 3, (pageBusy s a p).toNat), (2, 2, (pageFault s p).toNat), (1, 1, (s.page p).lock.toNat), (0, 0, (pageReady s p).toNat)]

/-- A page of a domain is busy for some reader: what R540 asks before the domain may be switched off. -/
def domainBusy (s : State) (d : Nat) : Bool :=
  (List.range 256).any (fun p => (pageDomains p).contains d && p ≠ 0xC0
    && (pageBusy s helmAccess p || (p = 0x60 && s.mrd.heldCmds.any (fun c => match c with
        | .launch _ _ => true | .resyncSend _ _ => true | .resyncRecv _ _ => true | _ => false))))

end Sys2Proof.Machine
end

