-- ==== Sys2Proof/Machine/Reset.lean ====
section
/-! DEFINITION. What a reset that keeps `PD00` leaves: the ends of everything under way, and the state of Table 2.25 (02 R68). -/

namespace Sys2Proof.Machine

/-- Give credits back to an egress port's count. -/
def giveBack (port : Nat) (s : State) (b : Bytes) : State :=
  let c := addCredits (tget {} s.lark.outCr port) (classVc (hdrOf b).cls) (creditsOf b.length)
  { s with lark.outCr := tset {} s.lark.outCr port c }

/-- Frames that stand at a port for Rhumb are dropped, and their credits go back to the port's count (18 R519). -/
def dropSink (s : State) : State := { s.rhmb.sink.foldl (fun x e => e.2.foldl (giveBack (8 + e.1)) x) s with rhmb.sink := [] }

/-- Every frame of the ingress buffers leaves, with its credits (03 R98). -/
def dropBuffers (s : State) : State :=
  (List.range 8).foldl (fun x k => (x.pipe k).buf.foldl (fun y f => leaveBuffer y k f.id) x) s

/-- Collectives abort, `STATION_LIVE` falls, buffered frames leave with their credits, channels stop, and a delivery that has
begun is cancelled (Table 2.25, 12 R379). -/
def settleTraffic (s : State) : State :=
  dropSink (cancelDelivery ((List.range 16).foldl stopNow (dropBuffers (plannedFall s 0))))

/-- A pipe after a reset: retired ones stay so, and those of a live domain wait for their control store (05 Table 5.1, 01 R27, R28). -/
def restartPipe (s : State) (k : Nat) (p : Pipe) : Pipe :=
  { st := if p.st = .retired then .retired else if domLive s (5 + k % 8) then .loading else .offline }

/-- A descriptor whose window has been freed: `WINDOW` and `WIN_VALID` clear (Table 2.25). -/
def dropWindow (d : Desc) : Desc := { d with w7 := d.w7 &&& BitVec.ofNat 64 (2 ^ 64 - 1 - maskBits 48 35) }

/-- What a group keeps: its last launched ticket and `GRP_LAST` (Table 2.25). -/
def keptGroup (r : GrpRec) : GrpRec :=
  { launched := r.launched, lastTicket := r.lastTicket, lastEpoch := r.lastEpoch, outcome := r.outcome }

/-- The group tables after a reset (Table 2.25). -/
def keptGrp (g : Grp) : Grp :=
  { descA := tmap {} (fun _ d => dropWindow d) g.descA, descS := tmap {} (fun _ d => dropWindow d) g.descS, mbrA := g.mbrA, mbrS := g.mbrS
    epA := g.epA, epS := g.epS, frozen := g.frozen, oldHeld := g.oldHeld, refill := g.refill, since := g.since, lastSwap := g.lastSwap
    recs := tmap {} (fun _ r => keptGroup r) g.recs, rankValid := g.rankValid, rank := g.rank }

/-- The slots a soft reset keeps: the `ACTIVE` ones, or none where a debug right was open (12 R376, 02 R68). -/
def keptSlots (s : State) : Table Slot :=
  if s.life.rights ≠ 0 then []
  else (s.chrt.slots.filter (fun e => decide (e.2.st = .active))).map (fun e => (e.1, { e.2 with partner := none }))

/-- A partition after a reset: its -S fields; a window that was closing is off, since nothing checked against it still runs. -/
def keptPart (q : Part) : Part :=
  { q with status := 0, stepFailed := 0, overflow := none, regions := tmap {} (fun _ r => if r.closing then { r with en := false, closing := false, users := [] } else r) q.regions }

/-- The step clock after a reset: the counter, the table and what only `PORST_N` clears (09 R284, R294, R297, R300); no boundary
has been seen (03 R92; log 44). -/
def keptMrd (m : Mrd) : Mrd :=
  { step := m.step, wall := m.wall, lastBoundary := m.lastBoundary, drops := m.drops, jumps := m.jumps, sched := m.sched }

/-- Logbook after a reset: the array, the sensed image and a program under way, with the programs that wait for it (15 R448). -/
def keptLogb (l : Logb) : Logb :=
  { array := l.array, sensed := l.sensed, seen := l.seen, wFuse := l.wFuse, rFuse := l.rFuse, done := l.done, lifted := l.lifted, hold := l.hold
    marginal := l.marginal, vpp := l.vpp, corrected := l.corrected, running := l.running, queue := l.queue }

/-- The lifecycle gate after a reset: rights, nonce and arguments are gone, a transition runs on (15 R448, R451, R456). -/
def keptLife (l : Life) : Life :=
  { st := l.st, pending := l.pending, torn := l.torn, tornTarget := l.tornTarget, pwLeft := l.pwLeft, running := l.running, acc := l.acc
    scrapping := l.scrapping, mboxIn := l.mboxIn, mboxOut := l.mboxOut }

/-- The state of Table 2.25 (02 R68): every field not named here takes its reset value. -/
def softState (s0 : State) : State :=
  let s := settleTraffic s0
  { pending := s.pending, free := s.free, out := s.out
    bus := { pages := tmap {} (fun _ p => { lock := p.lock }) s.bus.pages, resp := s.bus.resp }
    blk := { s.blk with ready := false, recovery := false }
    pins := { s.pins with stationLive := false }
    clkr := { s.clkr with portMhz := 0 }
    pwr := { req := s.pwr.req, ack := s.pwr.ack, live := s.pwr.live, lost := s.pwr.lost, rising := s.pwr.rising, again := s.pwr.again }
    verdict := { faults := s.verdict.faults }
    retained := s.retained
    lark := { pipes := tmap {} (fun k p => restartPipe s k p) s.lark.pipes, inCr := s.lark.inCr, outCr := s.lark.outCr, fabSeq := s.lark.fabSeq
              fabStep := s.lark.fabStep, nextId := s.lark.nextId, nextUse := s.lark.nextUse }
    grp := keptGrp s.grp
    park := { abortsUnsent := reg s.park.holdQ.length }
    zin := { budgets := s.zin.budgets }
    snd := { pipes := s.snd.pipes, ctr := s.snd.ctr, totals := s.snd.totals }
    mrd := keptMrd s.mrd
    keyClock := s.keyClock
    parts := tmap {} (fun _ q => keptPart q) s.parts
    chrt := { slots := keptSlots s, root := s.chrt.root, testRoot := s.chrt.testRoot, modes := s.chrt.modes, itKey := s.chrt.itKey
              seqs := s.chrt.seqs, ctxEpoch := s.chrt.ctxEpoch }
    hashu := { s.hashu with drbgSel := 0 }
    logb := keptLogb s.logb
    life := keptLife s.life
    rhmb := { srcCr := s.rhmb.srcCr, reqs := s.rhmb.reqs, late := s.rhmb.late }
    meas := { regs := s.meas.regs } }

end Sys2Proof.Machine
end

