-- ==== Sys2Proof/Machine/Retained.lean ====
section
/-! DEFINITION. The retained RAM of deep sleep (01 Table 1.7, R29 to R32; 16 Table 16.10; 17 R499): its records as bytes, each with its
tag under the wake key, and what a wake reads back from them. -/

/-- The bytes of the partition records: the spec gives their content and no layout, so any is possible (log 62). -/
opaque Sys2Proof.Config.partImage : Sys2Proof.Machine.PartImage → Sys2Proof.Bytes

namespace Sys2Proof.Machine

/-! ### Tags (R29, R31) -/

/-- The tag of a record: AES-256-GCM under the wake key over the record as additional data, with the record's offset in the retained RAM as
IV; for the digest record that is the IV of zero of 16 R489 (log 152). -/
def wakeTag (key : Key) (off : Nat) (b : Bytes) : BitVec 128 := Config.gcmTag key (BitVec.ofNat 96 off) b []

/-- A record and its tag after it. -/
def tagged (key : Key) (off : Nat) (b : Bytes) : Bytes := b ++ beBytes 16 (wakeTag key off b).toNat

/-- The tag that follows the first `n` bytes of an area verifies (R31). -/
def tagHolds (key : Key) (off : Nat) (b : Bytes) (n : Nat) : Bool := decide (wakeTag key off (slice b 0 n) = BitVec.ofNat 128 (beAt b n 16))

/-! ### The digest record (16 Table 16.10) -/

/-- *D*: SHA-384 of the seven digests of the booted images and the settings in use (16 R489). -/
def digestD (l : List (BitVec 384)) : BitVec 384 := Config.sha384 ((l.map digestBytes).flatten)

/-- The digests of the booted images, with that of the settings record in use now, a migrated one included (16 R486, R489). -/
def digestsInUse (s : State) : List (BitVec 384) :=
  s.helm.digests.take 6 ++ [if s.helm.noSettings then 0 else Config.sha384 s.helm.settings]

/-- Bytes 0 to 239 of the digest record. -/
def digestBody (s : State) : Bytes :=
  ascii "ORPV-WK1" ++ leBytes 1 s.helm.slot.toNat ++ leBytes 1 s.life.st ++ zeros 6 ++ ((List.range 4).map (fun i => leBytes 2 (counter s i))).flatten
    ++ leBytes 1 (revoked s 0) ++ leBytes 1 (revoked s 1) ++ zeros 6 ++ digestBytes (digestD (digestsInUse s))
    ++ ((List.range 3).map (fun i => digestBytes (measOf s (8 + i)))).flatten ++ zeros 16

/-- The digest record verifies. -/
def digestHolds (r : Retained) : Bool := r.digest.take 8 = ascii "ORPV-WK1" && tagHolds r.wakeKey 0 r.digest 240

/-! ### The Chartroom image (01 Table 1.7) -/

/-- The record of a slot: key, attribute word, tag; zero for a slot that holds none, and for a `BAD` one, whose key goes nowhere (12 R363). -/
def slotRecord (key : Key) (i : Nat) (x : Slot) : Bytes :=
  if x.st = .empty || x.bad then zeros 56 else tagged key (0x100 + 56 * i) (keyBytes (x.key ^^^ x.mask) ++ wordBytes x.attr)

/-- What the 56 bytes of a slot leave out. -/
def slotMark (x : Slot) : Slot := { x with key := 0, mask := 0, tag := 0 }

/-- Record `i` holds a slot, and verifies. -/
def slotHolds (r : Retained) (i : Nat) : Bool :=
  let b := slice r.slots (56 * i) 56
  decide (b ≠ zeros 56) && tagHolds r.wakeKey (0x100 + 56 * i) b 40

/-- Key and attribute word of record `i`. -/
def slotImage (r : Retained) (i : Nat) : Key × Word :=
  let b := slice r.slots (56 * i) 56
  (keyOf (fun j => b.getD j 0), bytesWord (slice b 32 8))

/-! ### The partition records -/

/-- The partition records and what a slot's own record leaves out. -/
def partImage (s : State) : PartImage :=
  { parts := s.parts, budgets := s.zin.budgets, rankValid := s.grp.rankValid, rank := s.grp.rank, marks := tmap {} (fun _ x => slotMark x) s.chrt.slots }

/-- The partition records where they verify. -/
def imageHeld (r : Retained) : Option PartImage :=
  match r.image with
  | some m => if wakeTag r.wakeKey 0x7100 (Config.partImage m) = r.imageTag then some m else none
  | none => none

/-! ### The group records (R32) -/

/-- `SLEEP_KEEP` of a descriptor (06 Table 6.2). -/
def sleepKeep (d : Desc) : Bool := bitOf d.w7 34

/-- The descriptor words of a group record, with the list digest. -/
def descWords (d : Desc) : Bytes := ([d.w0, d.w1, d.w2, d.w3, d.w4, d.w5, d.w6, d.w7].map wordBytes).flatten ++ leBytes 32 d.ld.toNat

/-- Bytes of a group record: head, descriptor, list digest, entries, padding and tag. -/
def groupRecordLen (d : Desc) : Nat := 16 * ceilDiv (16 + 64 + 32 + 4 * (fld d.w2 63 49 + fld d.w6 42 36)) 16 + 16

/-- The entries of a slice of the active member table. -/
def sliceEntries (s : State) (base n : Nat) : Bytes := ((List.range n).map (fun i => leBytes 4 (tget 0 s.grp.mbrA (base + i)))).flatten

/-- A group record up to its tag. -/
def groupBody (s : State) (g : Nat) (d : Desc) : Bytes :=
  padTo 16 (leBytes 2 g ++ leBytes 2 (groupRecordLen d) ++ leBytes 2 s.grp.epA ++ zeros 10 ++ descWords (withEpoch s false d)
    ++ sliceEntries s (fld d.w1 17 0) (fld d.w2 63 49) ++ sliceEntries s (fld d.w6 60 43) (fld d.w6 42 36))

/-- The groups marked for retention, in ascending order. -/
def keptGroups (s : State) : List (Nat × Desc) := s.grp.descA.filter (fun e => sleepKeep e.2)

/-- The group area: the records one after another. -/
def groupArea (s : State) (key : Key) : Bytes :=
  (keptGroups s).foldl (fun b e => b ++ tagged key (0x9100 + b.length) (groupBody s e.1 e.2)) []

/-- The records fit the 16 KiB group area. -/
def recordsFit (s : State) : Bool := ((keptGroups s).map (fun e => groupRecordLen e.2)).sum ≤ 16384

/-- The records of the group area that verify, from position `p`; no record is shorter than 128 bytes. -/
def groupsHeld (r : Retained) : Nat → Nat → List Bytes
  | 0, _ => []
  | n + 1, p =>
    let b := r.groups.drop p
    let len := leAt b 2 2
    if len < 128 ∨ b.length < len then []
    else (if tagHolds r.wakeKey (0x9100 + p) b (len - 16) then [b.take (len - 16)] else []) ++ groupsHeld r n (p + len)

/-- The descriptor of a group record. -/
def recordDesc (b : Bytes) : Desc :=
  let w (i : Nat) : Word := bytesWord (slice b (16 + 8 * i) 8)
  { w0 := w 0, w1 := w 1, w2 := w 2, w3 := w 3, w4 := w 4, w5 := w 5, w6 := w 6, w7 := w 7, ld := BitVec.ofNat 256 (leAt b 80 32) }

/-- Put `n` entries of a group record, from its byte `k`, into a member table. -/
def putEntries (b : Bytes) (k base n : Nat) (t : Table Nat) : Table Nat :=
  (List.range n).foldl (fun m i => tset 0 m (base + i) (leAt b (k + 4 * i) 4)) t

/-- A group record goes back into both copies of the tables: `VALID` 1, `WIN_VALID` 0, `EPOCH` of each copy (R32). -/
def restoreGroup (s : State) (b : Bytes) : State :=
  let d := recordDesc b
  let e := { d with w0 := d.w0 ||| bitWord 63, w7 := BitVec.ofNat 64 (clrBit d.w7.toNat 35) }
  let n := fld d.w2 63 49
  let both (t : Table Nat) : Table Nat := putEntries b (112 + 4 * n) (fld d.w6 60 43) (fld d.w6 42 36) (putEntries b 112 (fld d.w1 17 0) n t)
  let g := leAt b 0 2 % 4096
  { ((s.setDesc false g (withEpoch s false e)).setDesc true g (withEpoch s true e)) with grp.mbrA := both s.grp.mbrA, grp.mbrS := both s.grp.mbrS }

/-- The group tables after a wake: the epoch of the first record that verifies, and every such record (R32). -/
def restoreGroups (s : State) (l : List Bytes) : State :=
  match l.head? with
  | none => s
  | some b => l.foldl restoreGroup { s with grp.epA := leAt b 4 2, grp.epS := (leAt b 4 2 + 1) % 2 ^ 16 }

/-! ### The alias record (17 R499) -/

/-- The alias record: head, the block alias pair, tag. -/
def aliasRecord (s : State) (key : Key) : Bytes :=
  let pair := s.spdm.aliasEc ++ s.spdm.aliasMl
  tagged key 0xD100 (ascii "ORPV-AC1" ++ leBytes 4 pair.length ++ leBytes 1 s.spdm.certOk.toNat ++ zeros 19 ++ pair)

/-- The alias record verifies. -/
def aliasHolds (r : Retained) : Bool := r.freeArea.take 8 = ascii "ORPV-AC1" && tagHolds r.wakeKey 0xD100 r.freeArea (32 + leAt r.freeArea 8 4)

/-- Bytes of a DER object with its identifier and length octets (RFC 5280): a pair is two certificates one after the other. -/
def derLen (b : Bytes) : Nat :=
  let n := leAt b 1 1
  if n < 128 then 2 + n else 2 + (n - 128) + beAt b 2 (n - 128)

/-- The pair of the alias record: the P-384 half and the ML-DSA half. -/
def aliasPair (r : Retained) : Bytes × Bytes :=
  let b := slice r.freeArea 32 (leAt r.freeArea 8 4)
  (b.take (derLen b), b.drop (derLen b))

/-- What deep-sleep entry writes under a wake key (R29). -/
def retainedRam (s : State) (key : Key) : Retained :=
  { wakeKey := key
    digest := tagged key 0 (digestBody s)
    slots := ((List.range 512).map (fun i => slotRecord key i (s.slot i))).flatten
    image := some (partImage s), imageTag := wakeTag key 0x7100 (Config.partImage (partImage s))
    groups := groupArea s key
    freeArea := aliasRecord s key }

end Sys2Proof.Machine
end

