-- ==== Sys2Proof/Machine/Domains.lean ====
section
/-! DEFINITION. What a power domain gains and loses with its supply (chapters 1 and 18): Table 1.6, R27 to R33, R470, R529 and
R530, with deep sleep. -/

namespace Sys2Proof.Machine

/-! ### Control stores (R141, R392, R470) -/


/-- Load and commit a pipe's control store (R141). -/
def loadPipe (s : State) (k : Nat) (b : Bytes) : State :=
  if (s.pipe k).st ≠ .loading || !arithRuns s then s
  else setPipeSt (s.setPipe k { s.pipe k with cs := storeOf b 2048, csValid := true, csAddr := 0 }) k .idle


/-- Helm loads a pipe in `LOADING` from its copy (R27, R470). -/
def reloadPipe (s : State) (k i : Nat) (b : Bytes) : State :=
  if (s.pipe k).st ≠ .loading || s.helm.stage ≠ .firmware || !secRuns s || !arithRuns s then s
  else if copyHolds s i b then loadPipe s k b
  else { s with helm.copyFault := true }

/-- The control store copies of a pipe pair (R27, R470). -/
def reloadPair (s : State) (n : Nat) : State := reloadPipe (reloadPipe s n 2 s.helm.csInCopy) (n + 8) 3 s.helm.csOutCopy

/-- What stands in `LOADING` is loaded, as Helm does once both loops hold lock (01 R25). -/
def loadWaiting (s : State) : State :=
  (List.range 8).foldl reloadPair (if domLive s 3 then reloadAstr s else s)

/-! ### Power up -/

/-- A pipe whose domain has power: `LOADING`, of class `HEALTHY` where it was offline; a retired one stays so (01 R28; log 45). -/
def pipeOn (s : State) (k : Nat) : State :=
  if (s.pipe k).st = .retired then s
  else
    let s1 := setPipeSt (s.setPipe k { st := (s.pipe k).st, ctr := (s.pipe k).ctr }) k .loading
    if (s1.sndPipe k).cls = .offline then setClass s1 k .healthy else s1

/-- What follows the opening of a domain's isolation. -/
def domainUp (s : State) (d : Nat) : State :=
  if d = 3 then reloadAstr { s with astr := {} }
  else if 5 ≤ d ∧ d ≤ 12 then reloadPair (pipeOn (pipeOn s (d - 5)) (d + 3)) (d - 5)
  else s

/-- Helm powers a domain of its own accord (R538; log 42). -/
def powerUp (s : State) (d : Nat) : State := if domLive s d then s else domainUp (handshake s d) d

/-! ### Power down -/

/-- A pipe whose domain has lost power holds nothing (18 R529): offline, or retired for good (01 R28), and out of a self-test round under
way (08 R275). DESIGN CHOICE (log 127): its counters of 05 Table 5.16 are zero afterwards, as all it held. -/
def pipeOff (s : State) (k : Nat) : State :=
  let s1 := leaveRound s k
  if (s.pipe k).st = .retired then s1.setPipe k { st := .retired } else setClass (s1.setPipe k {}) k .offline

/-- Helm adds the counters of Sounding to its totals before `PD17` is switched off (08 R277). -/
def keepCounts (s : State) : Table Word := s.snd.ctr.foldl (fun t e => tset 0 t e.1 (tget 0 t e.1 + e.2)) s.snd.totals

/-- What the loss of a domain's supply loses (Table 1.6, R529): keys are zeroed before the request falls. `PD02` empties every slot and
cache (12 R376), `PD04` the DRBG states. -/
def domainDown (s : State) (d : Nat) : State :=
  if d = 2 then { flushAllCaches s (fun _ => true) with chrt := { modes := s.chrt.modes, delivery := s.chrt.delivery } }
  else if d = 3 then { s with astr := {} }
  else if d = 4 then { s with hashu := { failed := s.hashu.failed, fails := s.hashu.fails } }
  else if 5 ≤ d ∧ d ≤ 12 then pipeOff (pipeOff s (d - 5)) (d + 3)
  else if 13 ≤ d ∧ d ≤ 16 then { s with phlx.lanes := [], phlx.recs := [] }
  else if d = 17 then
    { s with aster := {}, zin := { budgets := s.zin.budgets }, snd := { pipes := s.snd.pipes, totals := keepCounts s } }
  else if d = 19 then
    { s with park := {}, grp := { epA := s.grp.epA, epS := s.grp.epS, rankValid := s.grp.rankValid, rank := s.grp.rank } }
  else s

/-- A domain's request falls, and with it its service. -/
def dropDomain (s : State) (d : Nat) : State :=
  domainDown { s with
    pwr.req := clrBit s.pwr.req d, pwr.live := clrBit s.pwr.live d
    pwr.rising := clrBit s.pwr.rising d, pwr.again := clrBit s.pwr.again d } d

/-! ### Refusals (R26, R29, R32, R479, R540) -/

/-- The domain holds what Table 1.6 keeps powered (R26). -/
def domainNeeded (s : State) (d : Nat) : Bool :=
  if d = 3 then s.astr.st = .running
  else if 5 ≤ d ∧ d ≤ 12 then portsOf (s.pipe (d - 5)) ≠ 0 || portsOf (s.pipe (d + 3)) ≠ 0
  else if 13 ≤ d ∧ d ≤ 16 then s.phlx.wins.any (fun e => decide (e.2.kind ≠ .free))
  else if d = 17 then (List.range 8).any (fun n => domLive s (5 + n))
  else if d = 19 then anyAdmitted s
  else false

/-- Why deep-sleep entry is refused: R29, R479 and R540, then R32. -/
def sleepRefusal (s : State) : Option Status :=
  if anyAdmitted s || !drbgServes s 0 || (List.range 16).any (fun k => decide ((s.chan k).st ≠ .idle)) || runningTrial s || trialWaits s || sessionOpen s
      || (List.range 19).any (fun d => domainBusy s (d + 1)) || domainBusy s 0 then some .wrongState
  else if !recordsFit s then some .quota
  else none

/-! ### Deep sleep (R29 to R32, 16 R489, 17 R499) -/

/-- A pipe in deep sleep: offline, or retired for good (R28). -/
def sleepPipe (p : Pipe) : Pipe := { st := if p.st = .retired then .retired else .offline }

/-- What deep sleep keeps of the slots: none where a debug right is open, which the loss of `PD01` closes (12 R382, 15 R452). -/
def closeRights (s : State) : State := if s.life.rights ≠ 0 then { s with chrt.slots := [] } else s

/-- The block enters deep sleep: a new wake key, the records, and only `PD00` powered (R29). -/
def enterSleep (s0 : State) : State :=
  let d := drbgDraw s0 0
  let key : Key := BitVec.ofNat 256 d.1
  let s := softState d.2
  { s with
    retained := retainedRam (closeRights d.2) key
    bus.resp := {}
    pwr := { s.pwr with req := 1, ack := 1, live := 1, rising := 0, again := 0, asleep := true }
    lark.pipes := tmap {} (fun _ p => sleepPipe p) s.lark.pipes
    grp := {}, parts := [], zin := {}
    snd := { pipes := tmap {} (fun _ (p : SndPipe) => if p.cls = .retired then p else { p with cls := .offline }) s.snd.pipes, totals := keepCounts s }
    chrt := { modes := s.chrt.modes, seqs := s.chrt.seqs, ctxEpoch := s.chrt.ctxEpoch }
    hashu := { failed := s.hashu.failed, fails := s.hashu.fails }
    meas := {} }

/-- A restored slot takes fresh shares or a tag under the new integrity key (12 R360, R362), with the state, partner and owner of its mark. -/
def restoreSlot (s : State) (r : Retained) (i : Nat) (m : Slot) : State :=
  let x := slotImage r i
  let s1 := putSlot s i (if m.st = .empty then .active else m.st) x.1 x.2 m.partner
  s1.setSlot i { s1.slot i with owner := m.owner }

/-- Slot `i` after a wake: its record where it verifies, and the mark of a `BAD` one, which stays (12 R363). A partition's key needs its
partition `OWNED`, as the partition records give it (log 151). -/
def wakeSlot (r : Retained) (marks : Table Slot) (s : State) (i : Nat) : State :=
  let m : Slot := tget {} marks i
  if m.bad then s.setSlot i m
  else if slotHolds r i && (atBlock (slotImage r i).2 || (s.part (atPart (slotImage r i).2)).st = .owned) then restoreSlot s r i m
  else s

/-- What a wake restores from the records that verify under the wake key; one that does not leaves the reset values (R31, R32, 06 R223,
07 R255, R256). -/
def restoreRecords (s : State) : State :=
  let r := s.retained
  let s1 := match imageHeld r with
    | some m => { s with parts := m.parts, zin.budgets := m.budgets, grp.rankValid := m.rankValid, grp.rank := m.rank }
    | none => s
  let marks := match imageHeld r with | some m => m.marks | none => []
  let s2 := (List.range (r.slots.length / 56)).foldl (wakeSlot r marks) s1
  restoreGroups s2 (groupsHeld r 128 0)

end Sys2Proof.Machine
end

