-- ==== Sys2Proof/Machine/Gate.lean ====
section
/-! DEFINITION. The lifecycle and debug gate (chapter 15): transitions and scrapping with their programs, debug rights, passwords,
challenges and grants. A transition waits, as plain data, for its verdicts and its programs. -/

namespace Sys2Proof.Machine

def lifeCmdAddr : Nat := regAt 0x12 0x48

/-- A lifecycle command ends: `LIFE_RESULT` and `CMD_DONE` (R460, Table 15.11). -/
def lifeDone (s : State) (a : Access) (op : Nat) (st : Status) (step : Nat) : State :=
  noteCmd (raise { s with life.status := stCode st, life.op := op, life.stepFailed := step } 0x12 0) a lifeCmdAddr st

/-- What the gate refuses outright: while a command runs, while a new state is pending (R448), and while a word is torn, but for the
transition that completes it (R445). -/
def lifeRefusal (s : State) (completes : Bool) : Option Status :=
  if s.life.running.isSome || s.life.pending ≠ 0 then some .wrongState
  else if s.life.torn && !completes then some .transitionTorn
  else none

/-- The bus checks and refusals of a write of `LIFE_CMD`, then the command. -/
def lifeCmd (s : State) (a : Access) (v : Word) (completes : Bool) (k : State → State) : State :=
  regWrite s a lifeCmdAddr (lifeRefusal s completes) (mbz v (maskBits 59 0)) k

/-! ### Wiping every tenant (R447 step 4, R452 step 1, 18 R532) -/

/-- A partition that is not `FREE` starts its wipe, with `STATE` (10 R323). -/
def startWipe (s : State) (p : Nat) : State :=
  if (s.part p).st = .owned then raise (s.setPart p { s.part p with st := .wiping }) (0x80 + p) 3 else s

/-- Every partition that is not `FREE` is released and wiped (10 Table 10.4). -/
def wipeTenants (s : State) : State := (List.range 32).foldl (fun x p => wipeDone (startWipe x p) p) s

/-! ### Programs of the gate -/

/-- A program of the gate on words of the array. -/
def gateProg (s : State) (k : ProgKind) (ps : List Pulse) (ws : List (Nat × Nat)) : State :=
  { s with logb.running := some { kind := k, acc := s.life.acc, pulses := ps, words := ws } }

/-- The program of an event word (R441, R447 step 6). -/
def eventProg (s : State) (k : ProgKind) (w : Nat) : State :=
  let e := eventAt w
  gateProg s k (wordPulses e.1 e.2 (codeword (eventCode w))) [e]

/-- The 1,000 physical words that scrapping wipes, in its order: all but those of regions 5 and 15 (R449 step 3). -/
def wipeOrder : List Nat :=
  let span (r : Nat) : List Nat := (List.range (regLen r * (if twoCopies r then 2 else 1))).map (· + regBase r)
  let early := span 2 ++ span 11 ++ span 10
  early ++ (List.range 0x3F8).filter (fun i => !early.contains i && !(0xB8 ≤ i && i ≤ 0xC7))

/-- The wipe: every bit of the words that do not yet read all ones at `STRICT` (R449 step 3). -/
def wipeProg (s : State) : State :=
  gateProg s .wipe (((wipeOrder.filter (fun i => (physNow s i).strict ≠ 2 ^ 72 - 1)).map (fun i => pulsesFor i (2 ^ 72 - 1))).flatten) []

/-- Start the program a transition has come to, once Logbook is free. Without the supply the transition ends, and scrapping waits for
the next start (R432, R450). -/
def lifePump (s : State) : State :=
  if s.logb.running.isSome then s
  else match s.life.running with
    | some (.word t) =>
      if s.logb.vpp then eventProg s .event (t - 2) else lifeDone { s with life.running := none } s.life.acc 1 .wrongState 6
    | some .intent => if s.logb.vpp then eventProg s .intent 4 else { s with life.running := none }
    | some .wipe => if s.logb.vpp then wipeProg s else { s with life.running := none }
    | some .scrapped => if s.logb.vpp then eventProg s .scrapped 3 else { s with life.running := none }
    | _ => s

/-! ### Scrapping (R449, R450) -/

/-- Step 2: collectives, keys, memories and the retained RAM go, and `STATION_LIVE` falls. -/
def scrapErase (s : State) : State :=
  let s1 := zeroKeyCaches (zeroAllSlots (cancelDelivery (plannedFall s 0)))
  { s1 with
    chrt.root := none, chrt.testRoot := false, pins.kdpZeroise := true, astr.mem := [], astr.slots := [], phlx := {}
    park.frames := [], park.reserve := [], retained := {} }

/-- Step 2, then the wipe of step 3. -/
def scrapGo (s : State) : State :=
  let s1 := scrapErase s
  lifePump { s1 with life.running := some .wipe, life.scrapping := true }

/-- Scrapping that is pending at a start goes on, once the supply is in range (R450). -/
def scrapResume (s : State) : State :=
  if s.life.scrapping && s.life.running.isNone && s.logb.running.isNone && s.logb.vpp && !s.blk.ready && secRuns s then scrapGo s else s

/-! ### Grants (R457) -/

/-- The result of a grant check: the failing step with its status, or the rights granted; and the state, its nonce consumed. -/
structure GrantResult where
  fail : Option (Nat × Status)
  rights : Nat
  after : State

/-- Steps 3 to 5 of R457 on a grant body. -/
def grantBody (s : State) (b : Bytes) (target : Nat) : Option (Nat × Status) :=
  let rights := leAt b 56 4
  let epoch := leAt b 62 2
  if !(b.take 8 = ascii "ORPV-DG1" && isBlock s (slice b 8 16) && slice b 24 32 = keyBytes s.life.nonce && (slice b 65 63).all (· = 0)) then some (3, .badFormat)
  else if target = 0 && 256 ≤ rights then some (4, .badFormat)
  else if leAt b 64 1 ≠ target || (target ≠ 0 && rights ≠ 0) || (target = 0 && leAt b 60 1 = 2 && (rights &&& 0xB7) ≠ rights)
      || (target = 0 && rights.testBit 6 && s.life.st ≠ 4) then some (4, .badArg)
  else if epoch < counter s 3 then some (5, .keyRevoked)
  else if 256 < epoch then some (5, .badArg)
  else none

/-- Step 6 of R457: the signer named by kind and index, a maker alone where the transition asks for one (Table 15.3). -/
def grantSigner (s : State) (b keys : Bytes) (target : Nat) : Option Status :=
  let kind := leAt b 60 1
  let k := leAt b 61 1
  if !(kind = 1 || kind = 2) || 8 ≤ k || (target = 4 && kind ≠ 1) then some .sigFail else signerStatus s kind k keys

/-- The check of R457, for `UNLOCK_GRANT` (target 0) or a transition. -/
def grantCheck (s : State) (mem : Option Bytes) (target : Nat) : GrantResult :=
  let len := 128 + 4736 + 2752
  match helmRead (inMgmtWindows s s.life.grantAddr len false) mem len with
  | .error st => { fail := some (1, st), rights := 0, after := s }
  | .ok b =>
    if !s.life.nonceValid then { fail := some (2, .wrongState), rights := 0, after := s }
    else
      let s1 := { s with life.nonceValid := false, life.nonce := 0 }
      let keys := slice b (128 + 4736) 2752
      let f := match grantBody s b target with
        | some x => some x
        | none => match grantSigner s b keys target with
          | some st => some (6, st)
          | none => if hybridVerify keys (slice b 128 4736) (b.take 128) then none else some (7, Status.sigFail)
      let epoch := leAt b 62 2
      let s2 := if (f.map (·.1)).getD 7 = 7 then engineUp s1 else s1
      { fail := f, rights := leAt b 56 4
        after := if f.isNone && counter s 3 < epoch then helmProgram s2 (.advance 3 epoch) else s2 }

/-! ### Debug rights (R451 to R453) -/

/-- One extension of `MEAS_REG11` for each right opened or a lifted hold; the spec does not give the event's bytes (log 31). -/
def extendGate (s : State) : State :=
  let d := freeDraw s
  extendMeas d.2 11 (BitVec.ofNat 384 d.1)

/-- R382: the keys go and the test root stands in, so the DeviceID and alias keys are other ones from here on (17 R494, R500). DESIGN CHOICE
(log 158): Helm forms them, and issues the alias pair, as at step 9 of a start, at once. -/
def firstOpening (s : State) : State :=
  let s1 := zeroAllSlots { s with pins.kdpZeroise := true }
  let s2 := formIdentity (deriveBlock (formRoot s1 true)) s1.helm.certs
  { s2 with spdm.certOk := false }

/-- Open rights (R452); an empty set opens nothing (log 52). -/
def openRights (s : State) (r : Nat) : State :=
  if r = 0 then s
  else
    let s1 := wipeTenants s
    let s2 := if s1.life.rights = 0 then firstOpening s1 else s1
    let s3 := (bitsOf 8 (maskOff 32 r s2.life.rights)).foldl (fun x _ => extendGate x) s2
    raise { s3 with life.rights := s3.life.rights ||| r } 0x12 1

/-! ### Password, challenge and grant (R454 to R457) -/

/-- SHA-384 of the password input (R454). -/
def passwordHash (s : State) : BitVec 384 := Config.sha384 (ascii "ORPV-PW1" ++ blockId s ++ keyBytes s.life.pw)

/-- The password hash of region 10. -/
def storedHash (s : State) : BitVec 384 := BitVec.ofNat 384 (leNat (fuseBytes s 10 0 6))

/-- A password of zero bytes opens any right: `MAKER`, region 10 not write-locked (R455). -/
def freePassword (s : State) : Bool := s.life.st = 1 && !wLocked s 10 && s.life.pw = 0

/-- `UNLOCK_PW`: its status, and the state with the attempt counted or the rights opened (R453 to R455). An unusable region 10 or 11 refuses
it in every state (14 R430). -/
def passwordOp (s : State) : Status × State :=
  let r := s.life.argRights
  if !(s.life.st = 1 || s.life.st = 2) || unusable s s.logb.sensed 11 || unusable s s.logb.sensed 10 then (.wrongState, s)
  else if !freePassword s && (s.life.pwLeft = 0 || storedHash s = 0) then (.wrongState, s)
  else if 256 ≤ r then (.badFormat, s)
  else if r.testBit 6 && s.life.st ≠ 1 then (.badArg, s)
  else if freePassword s then (.ok, openRights s r)
  else if passwordHash s ≠ storedHash s then (.sigFail, { s with life.pwLeft := s.life.pwLeft - 1 })
  else if (r &&& (fuse s 10 6 % 2 ^ 32)) ≠ r then (.destDenied, s)
  else (.ok, openRights s r)

/-- `UNLOCK_PW` ends, with the password zeroed (R454). -/
def unlockPwOp (s : State) (a : Access) : State :=
  let x := passwordOp s
  lifeDone { x.2 with life.pw := 0 } a 3 x.1 0

/-- Grants and challenges serve in `FIELDED` and `RETURNED` (R456, Table 15.1). -/
def grantState (s : State) : Bool := s.life.st = 3 || s.life.st = 4

/-- `CHALLENGE` (R456). -/
def challengeOp (s : State) (a : Access) : State :=
  if !grantState s || !drbgServes s 0 then lifeDone s a 2 .wrongState 0
  else
    let d := drbgDraw s 0
    lifeDone { d.2 with life.nonce := BitVec.ofNat 256 d.1, life.nonceValid := true } a 2 .ok 0

/-- `UNLOCK_GRANT` (R453, R457). -/
def unlockGrantOp (s : State) (a : Access) (mem : Option Bytes) : State :=
  if !grantState s || unusable s s.logb.sensed 11 then lifeDone s a 4 .wrongState 0
  else
    let g := grantCheck s mem 0
    match g.fail with
    | some f => lifeDone g.after a 4 f.2 f.1
    | none => lifeDone (openRights g.after g.rights) a 4 .ok 0

/-! ### Transitions (R446, R447) -/

/-- The state and conditions of a row of Table 15.3. -/
def transitionRow (s : State) (t : Nat) : Bool :=
  if t = 2 then
    s.life.st = 1 && (List.range 16).all (fun r => !critical r || wLocked s r) && rLocked s 2 && wLocked s 10 && rLocked s 10 && wLocked s 11 && rLocked s 11
      && hasSerial s && s.life.rights = 0
  else if t = 3 then
    s.life.st = 2 && wLocked s 7 && wLocked s 9 && (List.range 8).any (fun k => makerHash s k ≠ 0 && !makerRevoked s k) && s.life.rights = 0
  else if t = 4 then s.life.st = 3 && s.life.rights = 0
  else t = 5 && 1 ≤ s.life.st && s.life.st ≠ 5

/-- A row asks for a grant (Table 15.3). -/
def needsGrant (s : State) (t : Nat) : Bool := t = 4 || (t = 5 && s.life.st = 3)

/-- Steps 3 to 5: the supply, the wipe of tenants, and the verdict that is then awaited. -/
def transitionGo (s : State) (a : Access) (t : Nat) : State :=
  if !s.logb.vpp then lifeDone s a 1 .wrongState 3
  else
    let s1 := if t = 4 then wipeTenants s else s
    { s1 with life.running := some (.verdict t), life.acc := a }

/-- `TRANSITION` (R447 steps 1 to 5, R449). -/
def transitionOp (s : State) (a : Access) (mem : Option Bytes) : State :=
  let t := s.life.target
  if !transitionRow s t then lifeDone s a 1 .wrongState 2
  else if needsGrant s t then
    let g := grantCheck s mem t
    match g.fail with
    | some f => lifeDone g.after a 1 f.2 2
    | none => transitionGo g.after a t
  else transitionGo s a t

/-- A lifecycle verdict (R13, R14, R447 step 5, R449 step 4): an open one lets the programs run. -/
def lifeVerdict (s : State) (opens : Bool) : State :=
  match s.life.running with
  | some (.verdict t) =>
    if !opens then lifeDone { s with life.running := none } s.life.acc 1 .wrongState 5
    else if t = 5 then lifePump { s with life.running := some .intent, life.scrapping := true }
    else lifePump { s with life.running := some (.word t) }
  | some .verdict2 =>
    if opens then lifePump { s with life.running := some .scrapped } else lifeDone { s with life.running := none } s.life.acc 1 .wrongState 5
  | _ => s

/-- Step 7 of R447: the event word is read. -/
def wordEnd (s : State) (t : Nat) : State :=
  let s1 := { s with life.running := none }
  if eventCond s1.logb.sensed (t - 2) = .complete then lifeDone { s1 with life.pending := t } s.life.acc 1 .ok 0
  else lifeDone { s1 with life.torn := true, life.tornTarget := t, blk.torn := true } s.life.acc 1 .transitionTorn 7

/-- A program of the gate has ended: the next step, or, without the supply, the wait for the next start (R449, R450). -/
def gateEnd (s : State) (k : ProgKind) : State :=
  match k, s.life.running with
  | .event, some (.word t) => wordEnd s t
  | .intent, _ => if s.logb.vpp then scrapGo s else { s with life.running := none }
  | .wipe, _ =>
    let s1 := { s with logb.sensed := arrayNow s, logb.seen := arrayNow s }
    { s1 with life.running := if s.logb.vpp then some .verdict2 else none }
  | .scrapped, _ =>
    let s1 := { s with life.running := none }
    if eventCond s1.logb.sensed 3 = .complete then { s1 with life.st := 5, life.scrapping := false, blk.held := true, blk.ready := false } else s1
  | _, _ => s

/-! ### The end of any Logbook program (14 R433) -/

/-- What waits for a free Logbook starts, in order: Helm's commands, then the gate's next program. -/
def afterLogb (s : State) : State := if secRuns s then lifePump (nextProg 16 s) else s

/-- The running program ends: its final read, its result or the gate's next step, then what waits for Logbook. Helm and the gate stand on
the security loop's clock: what they do next waits for its lock (01 R25). -/
def progEnd (s : State) (o : ProgOut) : State :=
  match s.logb.running with
  | none => s
  | some p =>
    let r := progFinish s o
    afterLogb (match p.kind with
      | .cmd op => noteCmd (logbResult r.2 op r.1 o.pulses.toNat) p.acc logbCmdAddr r.1
      | k => if secRuns r.2 then gateEnd r.2 k else { r.2 with life.ended := some k })

/-- The gate takes up a program that ended while its clock was stopped (01 R25). -/
def gateResume (s : State) : State :=
  match s.life.ended with
  | some k => gateEnd { s with life.ended := none } k
  | none => s

/-! ### The meanings -/

/-- `TRANSITION` (R447). -/
def execTransition (a : Access) (v : Word) (grant : Option Bytes) (s : State) : Host.Outcome State Fault Refusal :=
  .next (lifeCmd s a v (s.life.target = s.life.tornTarget) (fun x => transitionOp x a grant))

/-- `LIFE_CHALLENGE` (R456). -/
def execLifeChallenge (a : Access) (v : Word) (s : State) : Host.Outcome State Fault Refusal :=
  .next (lifeCmd s a v false (fun x => challengeOp x a))

/-- `UNLOCK_PW` (R454). -/
def execUnlockPw (a : Access) (v : Word) (s : State) : Host.Outcome State Fault Refusal :=
  .next (lifeCmd s a v false (fun x => unlockPwOp x a))

/-- `UNLOCK_GRANT` (R457). -/
def execUnlockGrant (a : Access) (v : Word) (grant : Option Bytes) (s : State) : Host.Outcome State Fault Refusal :=
  .next (lifeCmd s a v false (fun x => unlockGrantOp x a grant))

end Sys2Proof.Machine
end

