-- ==== Sys2Proof/Machine/Regs.lean ====
section
/-! DEFINITION. Reading the registers: every register of every page with what a read of it returns (the register tables of chapters
1, 2, 5 to 16 and 18), the wide values of R41, and the page header (R48 to R53). -/

namespace Sys2Proof.Machine

/-- What a read of an offset gives. -/
inductive RegVal where
  /-- a value -/
  | val (w : Word)
  /-- a register that is wholly WO: `ST_BAD_ARG` (R54) -/
  | wo
  /-- a read the register's own rule refuses -/
  | refused (st : Status)
  deriving DecidableEq, Repr

/-- The register at an offset of a list of a page's registers; an offset that no table lists reads zero (log 47). -/
def regOf (l : List (Nat × RegVal)) (off : Nat) : RegVal := ((l.find? (fun e => e.1 = off)).map (·.2)).getD (.val 0)

/-- A value of fields at an offset. -/
def rv (off : Nat) (l : List (Nat × Nat × Nat)) : Nat × RegVal := (off, .val (pack l))

/-- A whole word at an offset. -/
def rw64 (off : Nat) (w : Word) : Nat × RegVal := (off, .val w)

/-- Word `i` of a wide number. -/
def wordAt (n i : Nat) : Word := BitVec.ofNat 64 (n / 2 ^ (64 * i))

/-- The words of a wide number at consecutive offsets. -/
def wide (off n words : Nat) : List (Nat × RegVal) := (List.range words).map (fun i => rw64 (off + 8 * i) (wordAt n i))

/-! ### Errors and headers (R53, R65) -/

/-- An error record as a register (Tables 2.12 and 2.22). -/
def errWord (e : ErrRec) : Word :=
  pack [(63, 63, e.valid.toNat), (62, 62, e.again.toNat), (61, 61, e.dir.toNat), (60, 60, e.mgmt.toNat), (59, 55, e.ptag), (51, 32, e.addr), (15, 0, e.status)]

/-- An error record as an access reads it (R53, R65). -/
def errShown (e : ErrRec) (a : Access) : Word := if isMgmt a || (a.tagged && a.ptag.toNat = e.ptag) then errWord e else 0

/-- A register of the page header (Table 2.4). -/
def headerRead (s : State) (a : Access) (p off : Nat) : RegVal :=
  let pg := s.page p
  regOf [rv 0x00 [(31, 24, (pageType p).1), (23, 16, (pageType p).2), (15, 8, p)], rv 0x08 [(15, 8, 1)], rw64 0x10 (pageStatus s a p),
    rw64 0x18 pg.cause, rw64 0x20 pg.enable, (0x28, .wo), rv 0x30 [(0, 0, pg.lock.toNat)], rw64 0x38 (errShown pg.err a)] off

/-! ### Chapters 1, 2 and 16: pages 0x00 to 0x03 -/

/-- Page 0x00 (Tables 1.8 and 2.19). -/
def blkRead (s : State) (a : Access) (off : Nat) : RegVal :=
  let b := s.blk
  regOf [rv 0x40 [(63, 48, 0x4F52), (47, 40, 1), (31, 30, b.profile), (23, 20, if b.profile = 1 then 4 else 0), (19, 16, 8), (15, 10, 32), (9, 4, 32)],
    rv 0x48 [(7, 5, s.life.st), (4, 4, (decide (s.life.rights ≠ 0)).toNat), (3, 3, b.fuseMarginal.toNat), (2, 2, b.torn.toNat),
      (1, 1, b.recovery.toNat), (0, 0, b.ready.toNat)],
    rv 0x50 [(7, 7, a.tagged.toNat), (6, 6, (isMgmt a).toNat), (4, 0, errTag a)], rw64 0x58 (errShown s.bus.decode a), (0x60, .wo), rv 0x68 [(3, 0, b.resetCause)]] off

def stageCode : Stage → Nat
  | .rom => 0 | .loader => 1 | .firmware => 2 | .recovery => 3

/-- `HELM_SLOT_A` or `HELM_SLOT_B` (Table 16.13). -/
def slotWord (s : State) (b : Bool) : List (Nat × Nat × Nat) :=
  let e := recEntry s.helm.record b
  [(63, 56, e.st), (55, 48, e.attempts), (47, 38, e.wdog), (37, 29, e.fw), (28, 20, e.uc),
   (19, 12, if s.helm.stage = .firmware && s.helm.slot = b then s.helm.signer else 0)]

/-- Page 0x01 (Table 16.13). -/
def helm1Read (s : State) (off : Nat) : RegVal :=
  let h := s.helm
  regOf [rv 0x40 [(63, 61, stageCode h.stage), (60, 60, h.slot.toNat), (59, 59, h.trial.toNat), (58, 58, h.fastWake.toNat), (57, 57, h.fellBack.toNat),
      (56, 56, h.copyFault.toNat), (55, 40, h.failStatus)],
    rv 0x48 (slotWord s false), rv 0x50 (slotWord s true), rv 0x58 [(63, 2, h.record.seq), (1, 1, h.copy.toNat), (0, 0, h.otherValid.toNat)],
    rw64 0x60 (reg h.bootTime), rv 0x68 [(31, 0, s.verdict.faults)],
    rv 0x70 (match h.wdog with | some t => [(63, 63, 1), (19, 0, (t - s.mrd.wall) / 1000)] | none => [])] off

/-- Page 0x02 (Tables 16.13 and 16.14). -/
def helm2Read (s : State) (off : Nat) : RegVal :=
  let h := s.helm
  let u := h.upd
  regOf ([(0x40, .wo), rw64 0x48 h.arg0, rv 0x50 [(47, 0, h.arg1)], rv 0x58 [(63, 48, h.status), (47, 44, h.op), (43, 40, h.stepFailed)],
    rv 0x60 [(63, 61, u.st), (60, 60, u.target.toNat), (59, 59, u.ring.toNat), (58, 50, popCount 256 u.map), (49, 34, u.drops), (31, 0, u.bundle)],
    rv 0x88 [(63, 63, h.ringAccept.toNat), (14, 0, h.ringSrc)]] ++ wide 0x68 u.map 4) off

/-- Page 0x03, its data port apart. -/
def helm3Read (s : State) (off : Nat) : RegVal :=
  let h := s.helm
  regOf [rv 0x40 [(8, 0, h.stagePtr)],
    rv 0x50 [(63, 63, h.area.toNat), (62, 62, h.noSettings.toNat), (61, 61, h.setPending.toNat), (60, 45, h.setInUse), (44, 33, h.skipped)]] off

/-! ### Chapter 9: pages 0x04 and 0x05 -/

def modeCode : MrdMode → Nat
  | .off => 0 | .followFrame => 1 | .followMark => 2 | .master => 3

/-- Page 0x04 (Tables 9.6 to 9.8); `MRD_NEXT` shows the first phase in the order of R296. -/
def mrdRead (s : State) (off : Nat) : RegVal :=
  let m := s.mrd
  regOf [rv 0x40 [(10, 9, modeCode m.mode), (8, 8, m.masterMark.toNat), (7, 0, m.relayPorts)], rv 0x48 [(63, 63, m.seen.toNat), (47, 0, m.step)],
    rw64 0x50 (reg m.wall), (0x58, .wo), (0x60, .wo), rv 0x68 [(19, 0, m.timeout)], rw64 0x70 (reg m.lastBoundary),
    rv 0x78 (match allPhases s with | d :: _ => [(63, 16, d.step), (15, 15, 1), (5, 0, d.idx)] | [] => []),
    rw64 0x80 m.drops, rw64 0x88 m.jumps] off

/-- A word of a schedule entry (Table 9.9); the reserved bits of word 1 read zero whatever was written. -/
def schedWord (e : Sched) (second : Bool) : Word :=
  if second then e.w1 &&& BitVec.ofNat 64 (maskBits 63 28)
  else pack [(63, 16, e.step), (15, 12, e.typ), (11, 11, e.valid.toNat), (10, 10, e.fired.toNat), (9, 5, e.part), (4, 4, e.fabric.toNat)]

/-- Page 0x05 (Table 9.9). -/
def schedRead (s : State) (off : Nat) : RegVal :=
  if off = 0x40 then .val (reg ((s.mrd.sched.filter (fun e => e.2.valid)).length))
  else if 0x100 ≤ off ∧ off < 0x500 then .val (schedWord (s.schedOf ((off - 0x100) / 16)) (decide (off % 16 = 8)))
  else .val 0

/-! ### Chapter 12: pages 0x08 to 0x0B and 0x0E -/

def slotCode : SlotSt → Nat
  | .empty => 0 | .active => 1 | .shadow => 2 | .confirmed => 3

/-- Page 0x08 (Table 12.12). -/
def chrt0Read (s : State) (off : Nat) : RegVal :=
  let c := s.chrt
  regOf [rv 0x40 [(63, 48, c.modes), (47, 47, c.testRoot.toNat), (46, 46, c.root.isSome.toNat)], rv 0x48 [(9, 0, c.floorMs)], rv 0x50 [(8, 0, poolSlotsFree s)],
    rw64 0x58 c.pushes, rw64 0x60 c.derives, rw64 0x68 c.refusals, rw64 0x70 c.deliveries, rw64 0x78 c.remasks, rw64 0x80 c.badCount] off

/-- Page 0x09 (Tables 12.12 and 12.1): a slot's state and attributes, never its key. -/
def chrt1Read (s : State) (off : Nat) : RegVal :=
  let i := s.chrt.slotSel
  let x := s.slot i
  let busy := match s.chrt.delivery with | some d => decide (d.slot = i) | none => false
  regOf [rv 0x40 [(8, 0, i)], rw64 0x48 x.attr,
    rv 0x50 [(63, 62, slotCode x.st), (61, 61, x.bad.toNat), (60, 60, busy.toNat), (59, 59, x.partner.isSome.toNat), (58, 50, x.partner.getD 0)]] off

/-- Page 0x0A (Table 12.13). -/
def chrt2Read (s : State) (off : Nat) : RegVal :=
  let c := s.chrt
  regOf ([(0x40, .wo), rw64 0x48 c.cmdAddr, rw64 0x50 c.cmdArg, rv 0x58 [(63, 48, c.status), (47, 40, c.stage), (39, 31, c.resSlot)],
    rw64 0xA0 c.genAttr] ++ wide 0x60 c.nonce.toNat 4 ++ wide 0x80 c.confirm.toNat 4) off

/-- Owners with an `ACTIVE` key of a class and epoch. -/
def ownersWith (s : State) (cls p epoch : Nat) : Nat :=
  (List.range 8).foldl (fun m i => if (activeSlot s cls p i epoch).isSome then m + 2 ^ i else m) 0

/-- `PSEC` of a partition's epoch, or for the fabric a `FABRIC` key, is `ACTIVE`. -/
def secretHeld (s : State) (p epoch : Nat) : Bool :=
  if p = 32 then (findSlot s (fun x => x.st = .active && atClass x.attr = 3 && atEpoch x.attr = epoch)).isSome else (activeSlot s 6 p 0 epoch).isSome

/-- `CHRT_EP_STATE` and `CHRT_EP_CTX` (Table 12.13). -/
def epochRead (s : State) (p : Nat) : List (Nat × RegVal) :=
  let e := epochAt s p s.mrd.step
  let n := (e + 1) % 2 ^ 16
  let own (cls ep : Nat) : Nat := if p = 32 then 0 else ownersWith s cls p ep
  [rv 0x60 [(63, 48, e), (47, 40, own 4 e), (39, 32, own 4 n), (31, 24, own 5 e), (23, 16, own 5 n), (15, 15, (secretHeld s p e).toNat), (14, 14, (secretHeld s p n).toNat)],
   rv 0x68 (if p = 32 then [] else [(63, 48, tget 0 s.chrt.ctxEpoch p), (47, 47, (decide ((s.slot (35 + 4 * p)).st ≠ .empty)).toNat)])]

/-- Page 0x0B (Tables 12.9 and 12.13). -/
def chrt3Read (s : State) (off : Nat) : RegVal :=
  let c := s.chrt
  regOf ([rv 0x40 [(5, 0, c.kdSel)], rw64 0x48 (destEntry s c.kdSel), rv 0x50 [(63, 48, c.kdStatus), (47, 42, c.kdDest), (41, 33, c.kdSlot)], rv 0x58 [(5, 0, c.epSel)]]
    ++ epochRead s c.epSel) off

/-- Page 0x0E (Table 12.14). -/
def hashRead (s : State) (off : Nat) : RegVal :=
  let h := s.hashu
  let d : Drbg := tget {} h.drbgs h.drbgSel
  regOf [rv 0x40 [(1, 1, h.failed.toNat), (0, 0, h.ready.toNat)], rw64 0x48 h.fails, rv 0x50 [(5, 0, h.drbgSel)], rv 0x58 [(63, 62, d.st), (20, 0, d.requests)]] off

/-! ### Chapter 13: pages 0x0C and 0x0D -/

def astrCode : AstrSt → Nat
  | .loading => 1 | .ready => 2 | .running => 3

/-- Page 0x0C (Table 13.11). -/
def astr0Read (s : State) (off : Nat) : RegVal :=
  let x := s.astr
  regOf [rv 0x40 [(63, 61, astrCode x.st), (60, 53, x.prog), (52, 37, x.csVersion)], rv 0x48 [(11, 0, x.csAddr)], (0x50, .wo), (0x58, .wo), (0x60, .wo),
    rw64 0x68 x.arg0, rw64 0x70 x.arg1, rv 0x78 [(63, 48, x.status), (47, 40, x.resProg), (39, 32, x.attempts)], rw64 0x80 x.cycles,
    rv 0x88 [(8, 8, x.keyEn.toNat), (7, 0, x.keySlot)], rw64 0x90 x.ops, rw64 0x98 x.rejects, rw64 0xA0 x.faults] off

/-- Page 0x0D, its data port apart (Table 13.12). -/
def astr1Read (s : State) (off : Nat) : RegVal :=
  let i := s.astr.slotSel
  let d := s.astrSlot i
  let o := d.owner.getD 0
  regOf [rv 0x40 [(7, 0, i)],
    rv 0x48 [(63, 52, d.base), (51, 44, d.len), (43, 43, d.key.toNat), (42, 42, d.secret.toNat), (41, 41, d.sealed.toNat), (40, 40, d.owner.isSome.toNat),
      (39, 39, (decide (d.owner = some 32)).toNat), (38, 34, if o = 32 then 0 else o), (33, 33, (slotNamed s i).toNat)],
    rv 0x50 [(6, 0, s.astr.dataAddr)], (0x60, .wo)] off

/-! ### Chapter 14: pages 0x10 and 0x11 -/

/-- A mask over the 16 regions. -/
def regionMask (f : Nat → Bool) : Nat := (List.range 16).foldl (fun m r => if f r then m + 2 ^ r else m) 0

/-- A read-locked region reads as zero and the read is recorded; region 2 reads as zero in every case (R421). -/
def guarded (s : State) (r : Nat) (w : Word) : RegVal := if rLocked s r then .refused .wrongState else if r = 2 then .val 0 else .val w

/-- The contents of an unusable region read as zero, and each read is recorded (R430). -/
def contents (s : State) (r : Nat) (w : Word) : RegVal := if !rLocked s r && unusable s s.logb.sensed r then .refused .eccUncorrectable else guarded s r w

/-- `LOGB_REGION_STATUS` (Table 14.7): the locks, the digest of the sensed image, and the marginal and unusable indications of the last
reading (R438). -/
def regionStatus (s : State) (r : Nat) : Word :=
  let un := unusable s s.logb.seen r
  pack [(63, 63, (critical r).toNat), (62, 62, (wLocked s r).toNat), (61, 61, (rLocked s r).toNat), (60, 60, un.toNat), (59, 59, (digestOk s.logb.sensed r).toNat),
    (58, 58, (marginalRegion s.logb.seen r).toNat), (57, 50, regLen r - 1), (49, 40, regBase r), (39, 32, if un then (badWord s.logb.seen r).getD 0 else 0)]

/-- Page 0x10 (Tables 14.6 and 14.7). -/
def logb0Read (s : State) (off : Nat) : RegVal :=
  let l := s.logb
  let r := l.regionSel
  regOf [rv 0x40 [(63, 63, l.done.toNat), (62, 62, l.lifted.toNat), (61, 61, l.marginal.toNat), (60, 60, l.vpp.toNat),
      (59, 44, regionMask (unusable s l.seen)), (43, 28, regionMask (marginalRegion l.seen))],
    rv 0x48 [(63, 48, regionMask (wLocked s)), (47, 32, regionMask (rLocked s))], (0x50, .wo), rw64 0x58 l.arg, rw64 0x60 l.data,
    rv 0x68 [(63, 48, l.status), (47, 44, l.op), (43, 40, l.pulses)], rv 0x70 [(3, 0, r)], rw64 0x78 (regionStatus s r),
    (0x80, if r = 15 then .val 0 else guarded s r (BitVec.ofNat 64 (regionDigest l.sensed r))), rw64 0x88 l.corrected] off

def kindCode : WordKind → Nat
  | .data => 0 | .digest => 1 | .event => 2 | .tally => 3

/-- `LOGB_VIEW_INFO` (Table 14.8). -/
def viewInfo (s : State) (r i : Nat) : Word :=
  let x := readWord s.logb.seen r i
  pack [(63, 61, kindCode (kindOf r i)), (60, 60, x.aGood.toNat), (59, 59, x.bGood.toNat), (58, 58, x.marginal.toNat), (57, 57, x.corrected.toNat),
    (56, 56, x.value.isNone.toNat), (55, 55, x.blank.toNat)]

/-- Page 0x11 (Table 14.8). -/
def logb1Read (s : State) (off : Nat) : RegVal :=
  let r := fld s.logb.viewSel 63 60
  let i := fld s.logb.viewSel 59 52
  let view (x : RegVal) : RegVal := if regLen r ≤ i then .refused .bounds else x
  regOf [rw64 0x40 s.logb.viewSel, (0x48, view (contents s r (BitVec.ofNat 64 (fuse s r i)))), (0x50, view (guarded s r (viewInfo s r i))),
    rv 0x58 [(63, 55, counter s 0), (54, 46, counter s 1), (45, 37, counter s 2), (36, 28, counter s 3), (27, 20, revoked s 0), (19, 12, revoked s 1)]] off

/-! ### Chapters 15 and 16: pages 0x12, 0x14 and 0x15 -/

/-- Page 0x12 (Tables 15.10 and 15.11). -/
def lifeRead (s : State) (off : Nat) : RegVal :=
  let l := s.life
  regOf ([rv 0x40 [(63, 61, l.st), (60, 58, l.pending), (57, 57, l.torn.toNat), (56, 54, l.tornTarget), (53, 53, s.logb.lifted.toNat),
      (52, 52, l.nonceValid.toNat), (51, 44, l.pwLeft)], (0x48, .wo), rv 0x50 [(63, 61, l.target), (31, 0, l.argRights)],
    rv 0x58 [(63, 48, l.status), (47, 44, l.op), (43, 40, l.stepFailed)], rv 0x60 [(31, 0, l.rights)],
    (0x88, .wo), (0x90, .wo), (0x98, .wo), (0xA0, .wo), rv 0xA8 [(47, 0, l.grantAddr)]] ++ wide 0x68 (if l.nonceValid then l.nonce.toNat else 0) 4) off

/-- Page 0x14 (Table 16.15, R493). -/
def meas0Read (s : State) (off : Nat) : RegVal :=
  if off = 0x40 then
    .val (pack [(63, 40, (List.range 24).foldl (fun m i => if measOf s i = 0 then m else m + 2 ^ i) 0), (39, 39, s.meas.locked.toNat)])
  else if 0x100 ≤ off ∧ off < 0x100 + 48 * 24 then .val (wordAt (measOf s ((off - 0x100) / 48)).toNat ((off - 0x100) % 48 / 8))
  else .val 0

/-- Page 0x15 (Table 16.15). -/
def meas1Read (s : State) (off : Nat) : RegVal := regOf ([(0x40, .wo), rv 0x78 [(63, 48, s.meas.status)]] ++ wide 0x48 s.meas.event.toNat 6) off

/-! ### Chapter 11: pages 0x20 to 0x30 -/

def chanCode : ChanSt → Nat
  | .idle => 0 | .running => 1 | .waiting => 2 | .pausing => 3 | .paused => 4 | .halted => 5

/-- A channel page (Tables 11.10 to 11.12). -/
def chanRead (s : State) (k off : Nat) : RegVal :=
  let c := s.chan k
  let o := chanOwner s k
  regOf [rv 0x40 [(1, 0, c.prio)],
    rv 0x48 [(63, 61, chanCode c.st), (60, 60, c.cmpEnd.toNat), (59, 59, (mgmtClass k).toNat), (58, 58, o.isSome.toNat), (57, 53, o.getD 0), (47, 32, c.status),
      (31, 16, c.bells), (15, 15, c.loop1.armed.toNat), (14, 14, c.loop0.armed.toNat)],
    rv 0x50 [(47, 0, c.pc)], (0x58, .wo), rv 0x60 [(63, 61, c.src.1), (47, 0, c.src.2)], rv 0x68 [(63, 61, c.dst.1), (47, 0, c.dst.2)], rv 0x70 [(31, 0, c.remain)],
    rv 0x78 [(63, 32, c.loop1.count), (31, 0, c.loop0.count)], rw64 0x80 (BitVec.ofInt 64 c.offSrc), rw64 0x88 (BitVec.ofInt 64 c.offDst),
    rv 0x90 [(63, 63, c.err.1.toNat), (62, 62, c.err.2.1.toNat), (61, 59, c.err.2.2.1), (47, 0, c.err.2.2.2)], rv 0x98 [(63, 63, c.cmpValid.toNat), (31, 0, c.cmpOff)],
    (0xA0, .wo), rw64 0xA8 c.bytes] off

/-- A `BASE` or a `LIMIT` register of a window (Table 10.10). -/
def regionWord (r : Region) (limit : Bool) : Word :=
  if limit then pack [(47, 0, r.limit)] else pack [(63, 63, r.en.toNat), (62, 62, r.rd.toNat), (61, 61, r.wr.toNat), (47, 0, r.base)]

/-- Page 0x30 (Tables 11.13 and 11.14). -/
def rhmbRead (s : State) (off : Nat) : RegVal :=
  let r := s.rhmb
  let m : Sem := tget {} r.sems r.semSel
  if 0x60 ≤ off ∧ off < 0xA0 then .val (regionWord (tget {} r.mgmt ((off - 0x60) / 16)) (decide (off % 16 = 8)))
  else regOf [rv 0x40 [(7, 4, r.lspSink), (3, 0, r.lspSrc)],
    rv 0x48 [(23, 16, (List.range 8).foldl (fun x i => if tget 0 r.claims i = 0 then x else x + 2 ^ i) 0),
      (15, 0, (List.range 16).foldl (fun x k => if (s.chan k).st = .idle then x else x + 2 ^ k) 0)],
    rv 0x50 [(4, 0, r.semSel)], rv 0x58 [(63, 63, m.owned.toNat), (62, 58, m.part), (31, 0, m.value)]] off

/-! ### Chapter 5: pages 0x40 to 0x53 -/

def pipeCode : PipeSt → Nat
  | .offline => 0 | .loading => 1 | .idle => 2 | .bound => 3 | .draining => 4 | .fault => 5 | .retired => 6

/-- A pipe's page (Tables 5.14 to 5.23); the counters of Table 5.16 by their offset. -/
def larkRead (s : State) (k off : Nat) : RegVal :=
  let p := s.pipe k
  let e : KcEntry := tget {} p.kc p.kcSel
  let c := s.clockOf p.epochSel
  if off = 0xE0 ∧ 8 ≤ k then .val (reg (streamsOn s k))
  else if 0xC0 ≤ off ∧ off ≤ 0x108 then .val (tget 0 p.ctr off)
  else regOf ([rv 0x40 [(11, 0, p.bind)], rv 0x48 [(15, 13, pipeCode p.st), (12, 12, p.csValid.toNat), (11, 0, portsOf p)], rv 0x50 [(10, 0, p.csAddr)],
      (0x58, .wo), (0x60, .wo), rv 0x68 [(5, 0, p.kcSel)],
      rv 0x70 [(63, 63, e.valid.toNat), (62, 62, (decide (0 < e.holders)).toNat), (61, 59, e.use), (58, 54, if e.use = 4 then 0 else e.part),
        (53, 42, if e.use = 4 then 0 else e.sel), (41, 26, e.epoch)],
      (0x78, .wo), rv 0x80 [(5, 0, p.epochSel)], rv 0x88 [(63, 48, c.low), (47, 32, c.high), (31, 31, c.pair.toNat)]]
    ++ (if k < 8 then (List.range 4).map (fun i => rw64 (0x110 + 8 * i) (p.hdr.getD i 0)) else [])) off

def winKindCode : WinKind → Nat
  | .free => 0 | .working => 1 | .shadow => 2

def winStCode : WinSt → Nat
  | .idle => 0 | .opened => 1 | .releasing => 2 | .done => 3

/-- Pages 0x50 to 0x53 (Tables 5.24 to 5.32). -/
def phlxRead (s : State) (p off : Nat) : RegVal :=
  let x := s.phlx
  let w := s.win x.winSel
  if p = 0x50 then regOf [rv 0x40 [(14, 0, poolFree s)], rw64 0x48 x.eccCorr, rw64 0x50 x.eccUncorr, rw64 0x58 x.eccAddr] off
  else if p = 0x51 then
    regOf [rv 0x40 [(12, 0, x.winSel)],
      rv 0x48 [(63, 62, winKindCode w.kind), (61, 57, w.part), (56, 45, w.group), (44, 30, w.tiles), (29, 15, winGranules w), (14, 1, w.base), (0, 0, w.shadowValid.toNat)],
      rv 0x50 [(63, 51, w.partner.getD 0), (50, 50, w.partner.isSome.toNat), (49, 47, winStCode w.st), (46, 32, w.frontier), (31, 0, w.ticket)],
      (0x58, .wo), rv 0x60 [(63, 48, x.result.status), (47, 35, x.result.win), (1, 0, x.result.detail)], rv 0x68 [(31, 0, x.winArg)]] off
  else if p = 0x52 then
    let g := tget 0 x.gmap x.mapSel
    regOf [rv 0x40 [(13, 0, x.mapSel)], rv 0x48 [(63, 63, (decide (g ≠ 0)).toNat), (13, 0, g - 1)]] off
  else if 0x40 ≤ off ∧ off ≤ 0x138 then let n := (off - 0x40) / 8; .val (pack [(47, 32, partWindows s n), (14, 0, partGranules s n)])
  else .val 0

/-! ### Chapters 7, 8 and 6: pages 0x54 to 0x62 -/

/-- Page 0x54 (Table 7.11). -/
def asterRead (s : State) (off : Nat) : RegVal :=
  let x := s.aster
  regOf [rw64 0x40 x.selTiles, rw64 0x48 x.scatter, rw64 0x50 x.relTiles, rw64 0x58 x.maxminTiles, rw64 0x60 x.tieCuts, rw64 0x68 x.sparseErr] off

/-- Page 0x55 (Tables 7.12 to 7.14); `ZIN_REMAIN` is `TOTAL` less `SPENT`. -/
def zinRead (s : State) (off : Nat) : RegVal :=
  let z := s.zin
  let b := s.budget z.partSel
  regOf [rv 0x40 [(4, 0, z.partSel)], rw64 0x48 (reg b.total), rw64 0x50 (reg b.spent), rw64 0x58 (reg b.total - reg b.spent), rw64 0x60 (reg b.grant),
    rv 0x68 [(48, 48, b.privRequired.toNat), (47, 32, b.noiseMult2), (31, 0, b.minCharge)], rw64 0x70 (reg b.seq), rw64 0x78 z.cmdAddr, (0x80, .wo),
    rw64 0x88 z.result, rw64 0x90 z.segments, rw64 0x98 z.clipped, rw64 0xA0 z.noised, rw64 0xB0 z.refunds] off

def classCode : PipeClass → Nat
  | .healthy => 0 | .suspect => 1 | .suspended => 2 | .testing => 3 | .retired => 4 | .offline => 5

/-- Page 0x56 (Tables 8.8 to 8.16). -/
def sndRead (s : State) (off : Nat) : RegVal :=
  let x := s.snd
  let q := s.sndPipe x.pipeSel
  if 0x50 ≤ off ∧ off ≤ 0x90 then .val (tget 0 x.ctr off)
  else regOf [rv 0x40 [(16, 16, x.stEn.toNat), (15, 8, x.limit), (4, 0, x.stTiles)],
    rv 0x48 [(63, 48, (List.range 16).foldl (fun m k => if (s.sndPipe k).cls = .retired then m + 2 ^ k else m) 0),
      (47, 0, (List.range 16).foldl (fun m k => m + classCode (s.sndPipe k).cls * 2 ^ (3 * k)) 0)],
    rw64 0x98 x.last0, rw64 0xA0 x.last1, rw64 0xA8 x.last2, rv 0xB0 [(3, 0, x.pipeSel)],
    rv 0xB8 [(63, 48, q.life), (47, 40, q.strikes), (39, 24, q.units), (23, 8, q.unitsFailed), (2, 0, classCode q.cls)], (0xC0, .wo), (0xC8, .wo), rw64 0xD0 x.ctxResult] off

/-- Page 0x57 (Tables 6.25 and 6.26). -/
def parkRead (s : State) (off : Nat) : RegVal :=
  let x := s.park
  regOf [rv 0x40 [(27, 16, reserveUsed s), (11, 0, unitsFree s)], rv 0x48 [(4, 0, x.partSel)],
    rv 0x50 [(63, 52, partUnits s x.partSel), (51, 36, partFrames s x.partSel), (35, 29, listCount s x.partSel)],
    rw64 0x58 x.dropMismatch, rw64 0x60 x.dropOrder, rw64 0x68 x.dropAbsent, rw64 0x70 x.aborts, rw64 0x78 x.mgmtUnknown, rw64 0x80 x.abortsUnsent,
    rw64 0x88 x.unanswered] off

/-- Page 0x60 (Tables 6.13 to 6.20) as an access's own bank selects. -/
def grpRead (s : State) (a : Access) (off : Nat) : RegVal :=
  let b := bankOf a
  let gs := selected s a 0x60
  let r := s.grpRec gs.1
  let g := s.grp
  if 0x48 ≤ off ∧ off ≤ 0x80 then .val (descWord (withEpoch s gs.2 (s.desc gs.2 gs.1)) ((off - 0x48) / 8))
  else regOf [rv 0x40 [(16, 0, tget 0 g.index b)], (0x88, .wo), rw64 0x90 (tget 0 g.arg0 b), rw64 0x98 (tget 0 g.arg1 b), rw64 0xA0 (tget 0 g.result b),
    rv 0xA8 [(63, 32, r.lastTicket), (31, 16, r.lastEpoch), (2, 0, r.outcome)], rv 0xB0 [(63, 63, r.abValid.toNat), (62, 48, r.abOrigin), (47, 32, r.abStatus), (31, 0, r.abDetail)],
    rw64 0xB8 r.abLocal, rw64 0xC0 r.abReceived,
    rv 0xC8 [(63, 48, g.epA), (47, 32, g.epS), (31, 31, g.frozen.toNat), (30, 30, g.oldHeld.toNat), (29, 29, g.refill.toNat), (15, 0, r.misEpoch)],
    rv 0xD0 [(39, 39, g.rankValid.toNat), (38, 24, g.rank), (23, 16, g.mgmtPorts), (8, 8, g.liveEn.toNat)]] off

/-- Page 0x61, its data port apart (Table 6.22); `MBR_LIST_DIGEST` is the low 64 bits of the list digest (06 R190). -/
def mbrReadReg (s : State) (a : Access) (off : Nat) : RegVal :=
  let b := bankOf a
  let gs := selected s a 0x61
  regOf [rv 0x40 [(16, 0, tget 0 s.grp.mbrIndex b)], rv 0x48 [(17, 0, tget 0 s.grp.mbrAddr b)], rw64 0x58 (BitVec.ofNat 64 (s.desc gs.2 gs.1).ld.toNat)] off

/-- Four buckets of a source's straggler counters. -/
def histWord (r : GrpRec) (src first : Nat) : Word :=
  if r.slot.isSome then pack ((List.range 4).map (fun i => (16 * i + 15, 16 * i, tget 0 r.hist (8 * src + first + i)))) else 0

/-- Page 0x62 (Table 6.24). -/
def strgRead (s : State) (a : Access) (off : Nat) : RegVal :=
  let r := s.grpRec (selected s a 0x62).1
  regOf [rv 0x40 [(11, 0, tget 0 s.grp.strgIndex (bankOf a))], rv 0x48 [(63, 49, r.strgRank), (48, 48, r.strgLocal.toNat), (19, 0, r.strgLate)], rv 0x50 [(63, 32, r.strgTicket)],
    rv 0x58 [(63, 63, r.slot.isSome.toNat), (7, 0, r.slot.getD 0)], rv 0x60 [(5, 0, s.grp.srcSel)], rw64 0x68 (histWord r s.grp.srcSel 0),
    rw64 0x70 (histWord r s.grp.srcSel 4), (0x78, .wo)] off

/-! ### Chapters 10, 18 and 2: pages 0x80 to 0x9F and 0xC0 to 0xC2 -/

def partCode : PartSt → Nat
  | .free => 0 | .owned => 1 | .wiping => 2

/-- A partition's page (Tables 10.6 to 10.10). -/
def partRead (s : State) (n off : Nat) : RegVal :=
  let q := s.part n
  if 0x100 ≤ off ∧ off < 0x180 then .val (regionWord (tget {} q.regions ((off - 0x100) / 16)) (decide (off % 16 = 8)))
  else regOf ([rv 0x40 [(9, 2, q.owners), (1, 0, partCode q.st)], rv 0x48 [(0, 0, q.hold.toNat)], rv 0x80 [(47, 0, q.policyAddr)], (0x88, .wo),
      rv 0x90 [(63, 48, q.status), (47, 40, q.stepFailed)], rv 0x98 [(53, 44, q.qSlots), (43, 31, q.qDescs), (30, 17, q.qWins)],
      rv 0xA0 [(63, 49, q.qGran), (48, 37, q.qPark), (36, 29, q.weight)], rv 0xA8 [(63, 46, q.mbrBase), (45, 27, q.mbrLen)], rv 0xB0 [(15, 0, q.channels)],
      rv 0xB8 [(63, 54, slotsHeld s n), (53, 41, partDescs s n), (40, 27, partWindows s n), (26, 20, ((s.entries n).filter isAdmitted).length)],
      rv 0xC0 [(63, 49, partGranules s n), (48, 37, partUnits s n)],
      rv 0xC8 (match q.overflow with | some m => [(63, 32, m), (31, 31, 1)] | none => [])] ++ wide 0x50 q.policy.toNat 6) off

/-- Pages 0xC0 to 0xC2 (Tables 18.16, 18.17 and 2.15). -/
def sysRead (s : State) (p off : Nat) : RegVal :=
  let w := s.pwr
  let c := s.clkr
  if p = 0xC0 then
    regOf [rv 0x40 [(59, 40, w.req), (39, 20, w.ack), (19, 0, w.live)], (0x48, .wo), rv 0x50 [(63, 48, w.status), (47, 43, w.domain)], rv 0x58 [(19, 0, w.lost)],
      rv 0x60 [(15, 0, w.waitMax)]] off
  else if p = 0xC1 then
    regOf [rv 0x40 [(63, 63, c.arithLock.toNat), (62, 62, c.secLock.toNat), (15, 8, 0x5A), (7, 0, 0x1E)], rw64 0x48 c.losses, rv 0x50 [(11, 0, c.portMhz)]] off
  else if 0x40 ≤ off ∧ off ≤ 0x58 then
    let m := (off - 0x40) / 8
    .val (reg ((List.range 64).foldl (fun x b => if pagePending s (64 * m + b) then x + 2 ^ b else x) 0))
  else regOf [rv 0x60 [(4, 0, (List.range 5).foldl (fun x k => if irqLevel s k then x + 2 ^ k else x) 0)], rv 0x68 [(4, 0, s.bus.lineMask)],
    rv 0x70 [(31, 0, (List.range 32).foldl (fun x n => if pagePending s (0x80 + n) then x + 2 ^ n else x) 0)]] off

/-! ### Any register -/

/-- What a read of an offset of a mapped page returns, wide values not yet latched. -/
def regValue (s : State) (a : Access) (p off : Nat) : RegVal :=
  if off < 0x40 then headerRead s a p off
  else if p = 0x00 then blkRead s a off
  else if p = 0x01 then helm1Read s off
  else if p = 0x02 then helm2Read s off
  else if p = 0x03 then helm3Read s off
  else if p = 0x04 then mrdRead s off
  else if p = 0x05 then schedRead s off
  else if p = 0x08 then chrt0Read s off
  else if p = 0x09 then chrt1Read s off
  else if p = 0x0A then chrt2Read s off
  else if p = 0x0B then chrt3Read s off
  else if p = 0x0C then astr0Read s off
  else if p = 0x0D then astr1Read s off
  else if p = 0x0E then hashRead s off
  else if p = 0x10 then logb0Read s off
  else if p = 0x11 then logb1Read s off
  else if p = 0x12 then lifeRead s off
  else if p = 0x14 then meas0Read s off
  else if p = 0x15 then meas1Read s off
  else if 0x20 ≤ p ∧ p ≤ 0x2F then chanRead s (p - 0x20) off
  else if p = 0x30 then rhmbRead s off
  else if 0x40 ≤ p ∧ p ≤ 0x4F then larkRead s (p - 0x40) off
  else if 0x50 ≤ p ∧ p ≤ 0x53 then phlxRead s p off
  else if p = 0x54 then asterRead s off
  else if p = 0x55 then zinRead s off
  else if p = 0x56 then sndRead s off
  else if p = 0x57 then parkRead s off
  else if p = 0x60 then grpRead s a off
  else if p = 0x61 then mbrReadReg s a off
  else if p = 0x62 then strgRead s a off
  else if 0x80 ≤ p ∧ p ≤ 0x9F then partRead s (p - 0x80) off
  else if 0xC0 ≤ p ∧ p ≤ 0xC2 then sysRead s p off
  else .val 0

/-! ### Wide values (R41; log 46) -/

/-- The wide values as first page, last page, first offset and words. -/
def wideTable : List (Nat × Nat × Nat × Nat) :=
  [(0x51, 0x51, 0x48, 2), (0x60, 0x60, 0xB0, 3), (0x56, 0x56, 0x98, 3), (0x80, 0x9F, 0x50, 6), (0x0A, 0x0A, 0x60, 4), (0x0A, 0x0A, 0x80, 4), (0x15, 0x15, 0x48, 6), (0x12, 0x12, 0x68, 4), (0x02, 0x02, 0x68, 4)]

/-- The wide value a register belongs to: its lowest offset, its words, and the word this register is. -/
def wideOf (p off : Nat) : Option (Nat × Nat × Nat) :=
  if p = 0x14 ∧ 0x100 ≤ off ∧ off < 0x100 + 48 * 24 then some (off - (off - 0x100) % 48, 6, (off - 0x100) % 48 / 8)
  else (wideTable.find? (fun e => e.1 ≤ p && p ≤ e.2.1 && e.2.2.1 ≤ off && off < e.2.2.1 + 8 * e.2.2.2)).map (fun e => (e.2.2.1, e.2.2.2, (off - e.2.2.1) / 8))

/-- The value of a readable register. -/
def valueOf : RegVal → Word
  | .val w => w
  | _ => 0

/-- A read of an offset: the value with the latch of the reader's bank (R41), and the state with what the read latches. -/
def readReg (s : State) (a : Access) (p off : Nat) : RegVal × State :=
  match wideOf p off with
  | none => (regValue s a p off, s)
  | some (base, n, i) =>
    let b := bankOf a
    if i = 0 then
      let ws := (List.range n).map (fun j => valueOf (regValue s a p (base + 8 * j)))
      (regValue s a p off, { s with bus.latch := tset [] s.bus.latch b ws })
    else (.val ((tget [] s.bus.latch b).getD i 0), s)

end Sys2Proof.Machine
end

