-- ==== Sys2Proof/Machine/Writes.lean ====
section
/-! DEFINITION. Writing the registers that only hold a value: RW, RWL, W1C and W1S fields of every page (Table 2.13, R50 to R55, R546).
The command registers stand with their commands. -/

namespace Sys2Proof.Machine

/-- What a write of a register does: its state refusal, its argument refusal, its effect. -/
structure Wr where
  st : Option Status := none
  arg : Option Status := none
  eff : State → State

/-- A write without refusals. -/
def wr (f : State → State) : Option Wr := some { eff := f }

/-- A write refused for its value where the condition holds. -/
def wrIf (bad : Bool) (f : State → State) : Option Wr := some { arg := refuseIf bad .badArg, eff := f }

/-- A write of a register whose writable fields are all RWL (R52). -/
def wrLock (s : State) (p : Nat) (bad : Bool) (f : State → State) : Option Wr :=
  some { st := refuseIf (locked s p) .wrongState, arg := refuseIf bad .badArg, eff := f }

/-- Bits of a mask in a word. -/
def someBits (v : Word) (m : Nat) : Bool := v.toNat &&& m ≠ 0

/-- Keep only the bits `hi:lo` of a word. -/
def only (v : Word) (hi lo : Nat) : Word := v &&& BitVec.ofNat 64 (maskBits hi lo)

/-- Clear the write-one-to-clear bits of a word. -/
def clearBits (w v : Word) (m : Nat) : Word := w &&& ~~~(v &&& BitVec.ofNat 64 m)

/-- Put word `i` into a wide number. -/
def putWord (n i : Nat) (v : Word) : Nat := n - (n / 2 ^ (64 * i) % 2 ^ 64) * 2 ^ (64 * i) + v.toNat * 2 ^ (64 * i)

/-! ### The header (R48 to R53) -/

/-- The causes a page defines beyond `ACCESS_ERR` (each page's chapter). -/
def pageCauses (p : Nat) : List Nat :=
  if p = 0x00 then [0, 62]
  else if p = 0x02 then [0, 1]
  else if p = 0x04 then [0, 1, 2, 3]
  else if p = 0x08 ∨ p = 0x0A ∨ p = 0x10 ∨ p = 0x51 ∨ p = 0x54 ∨ p = 0x57 then [0]
  else if p = 0x0B ∨ p = 0x0E ∨ p = 0x50 then [0, 1]
  else if p = 0x0C ∨ p = 0x12 ∨ p = 0x55 ∨ p = 0xC0 ∨ p = 0xC1 then [0, 1, 2]
  else if 0x20 ≤ p ∧ p ≤ 0x2F then [0, 1, 2, 3, 4, 5]
  else if 0x40 ≤ p ∧ p ≤ 0x4F then [0, 1, 2, 3]
  else if p = 0x56 then [0, 1, 2, 3, 4, 5, 6]
  else if p = 0x60 then [0, 1, 2, 3, 4]
  else if 0x80 ≤ p ∧ p ≤ 0x9F then [0, 1, 2, 3, 4, 5]
  else []

/-- Those causes with `ACCESS_ERR` as a mask: undefined bits read zero (Table 2.8). -/
def causeMask (p : Nat) : Nat := 2 ^ 63 + ((pageCauses p).map (2 ^ ·)).sum

/-- Clear `VALID` and `OVER` of an error record (Table 2.12). -/
def clearErr (e : ErrRec) (v : Word) : ErrRec := { e with valid := e.valid && !bitOf v 63, again := e.again && !bitOf v 62 }

/-- A write of `INT_CAUSE`. -/
def causeWrite (s : State) (p : Nat) (v : Word) : State := s.setPage p { s.page p with cause := (s.page p).cause &&& ~~~v }

/-- A write of `INT_SET` (R50). -/
def intSet (s : State) (p : Nat) (v : Word) : State :=
  s.setPage p { s.page p with cause := (s.page p).cause ||| (v &&& BitVec.ofNat 64 (causeMask p)) }

/-- A write of `PAGE_LOCK` (R51). -/
def lockPage (s : State) (p : Nat) (v : Word) : State := if bitOf v 0 then s.setPage p { s.page p with lock := true } else s

/-- A register of the page header. -/
def headerWrite (p off : Nat) (v : Word) : Option Wr :=
  if off = 0x18 then wr (fun s => causeWrite s p v)
  else if off = 0x20 then wr (fun s => s.setPage p { s.page p with enable := v })
  else if off = 0x28 then wr (fun s => intSet s p v)
  else if off = 0x30 then wr (fun s => lockPage s p v)
  else if off = 0x38 then wr (fun s => s.setPage p { s.page p with err := clearErr (s.page p).err v })
  else none

/-! ### The pages -/

/-- Pages 0x00 to 0x05. -/
def plainA (s : State) (a : Access) (p off : Nat) (v : Word) : Option Wr :=
  if p = 0x00 then (if off = 0x58 then wr (fun x => { x with bus.decode := clearErr x.bus.decode v }) else none)
  else if p = 0x02 then
    if off = 0x48 then wr (fun x => { x with helm.arg0 := only v 63 6 })
    else if off = 0x50 then wrIf (someBits v 63) (fun x => { x with helm.arg1 := fld v 47 0 })
    else if off = 0x88 then wr (fun x => { x with helm.ringAccept := bitOf v 63, helm.ringSrc := fld v 14 0 })
    else none
  else if p = 0x03 then (if off = 0x40 then wr (fun x => { x with helm.stagePtr := fld v 8 0 }) else none)
  else if p = 0x04 then
    if off = 0x40 then
      wrLock s p false (fun x => { x with
        mrd.mode := (match fld v 10 9 with | 1 => .followFrame | 2 => .followMark | 3 => .master | _ => .off),
        mrd.masterMark := bitOf v 8, mrd.relayPorts := fld v 7 0 })
    else if off = 0x68 then wr (fun x => { x with mrd.timeout := fld v 19 0 })
    else none
  else if p = 0x05 then
    if 0x100 ≤ off ∧ off < 0x500 ∧ off % 16 = 8 then
      let i := (off - 0x100) / 16
      wr (fun x => if x.mrd.running.isSome then { x with mrd.heldCmds := x.mrd.heldCmds ++ [.sched a i true v] } else schedStage x i v)
    else none
  else none

/-- Pages 0x08 to 0x0E. -/
def plainB (s : State) (p off : Nat) (v : Word) : Option Wr :=
  if p = 0x08 then (if off = 0x48 then wrLock s p (fld v 9 0 = 0 || 1000 < fld v 9 0) (fun x => { x with chrt.floorMs := fld v 9 0 }) else none)
  else if p = 0x09 then (if off = 0x40 then wr (fun x => { x with chrt.slotSel := fld v 8 0 }) else none)
  else if p = 0x0A then
    if off = 0x48 then wrIf (someBits v 63) (fun x => { x with chrt.cmdAddr := only v 53 0 })
    else if off = 0x50 then wr (fun x => { x with chrt.cmdArg := only v 63 48 })
    else if 0x60 ≤ off ∧ off ≤ 0x78 then wr (fun x => { x with chrt.nonce := BitVec.ofNat 256 (putWord x.chrt.nonce.toNat ((off - 0x60) / 8) v) })
    else if off = 0xA0 then wr (fun x => { x with chrt.genAttr := v })
    else none
  else if p = 0x0B then
    if off = 0x40 then wr (fun x => { x with chrt.kdSel := fld v 5 0 })
    else if off = 0x58 then wrIf (32 < fld v 5 0) (fun x => { x with chrt.epSel := fld v 5 0 })
    else none
  else if p = 0x0C then
    if off = 0x48 then wr (fun x => { x with astr.csAddr := fld v 11 0 })
    else if off = 0x68 then wr (fun x => { x with astr.arg0 := only v 63 4 })
    else if off = 0x70 then wr (fun x => { x with astr.arg1 := only v 63 45 })
    else if off = 0x88 then wr (fun x => { x with astr.keyEn := bitOf v 8, astr.keySlot := fld v 7 0 })
    else none
  else if p = 0x0D then
    if off = 0x40 then wr (fun x => { x with astr.slotSel := fld v 7 0 })
    else if off = 0x50 then wr (fun x => { x with astr.dataAddr := fld v 6 0 })
    else none
  else if p = 0x0E then (if off = 0x50 then wrIf (34 < fld v 5 0) (fun x => { x with hashu.drbgSel := fld v 5 0 }) else none)
  else none

/-- Pages 0x10 to 0x30. -/
def plainC (s : State) (p off : Nat) (v : Word) : Option Wr :=
  if p = 0x10 then
    if off = 0x58 then wr (fun x => { x with logb.arg := only v 63 37 })
    else if off = 0x60 then wr (fun x => { x with logb.data := v })
    else if off = 0x70 then wr (fun x => { x with logb.regionSel := fld v 3 0 })
    else none
  else if p = 0x11 then (if off = 0x40 then wr (fun x => { x with logb.viewSel := only v 63 52 }) else none)
  else if p = 0x12 then
    if off = 0x50 then wr (fun x => { x with life.target := fld v 63 61, life.argRights := fld v 31 0 })
    else if 0x88 ≤ off ∧ off ≤ 0xA0 then wr (fun x => { x with life.pw := BitVec.ofNat 256 (putWord x.life.pw.toNat ((off - 0x88) / 8) v) })
    else if off = 0xA8 then wrIf (someBits v 63) (fun x => { x with life.grantAddr := fld v 47 0 })
    else none
  else if p = 0x15 then
    if 0x48 ≤ off ∧ off ≤ 0x70 then wr (fun x => { x with meas.event := BitVec.ofNat 384 (putWord x.meas.event.toNat ((off - 0x48) / 8) v) }) else none
  else if 0x20 ≤ p ∧ p ≤ 0x2F then
    let k := p - 0x20
    if off = 0x40 then wr (fun x => modChan x k (fun c => { c with prio := fld v 1 0 }))
    else if off = 0x50 then
      some { st := refuseIf (decide ((s.chan k).st ≠ .idle)) .wrongState, arg := refuseIf (someBits v 31) .badArg
             eff := fun x => modChan x k (fun c => { c with pc := fld v 47 0 }) }
    else if off = 0x90 then wr (fun x => modChan x k (fun c => { c with err := (c.err.1 && !bitOf v 63, c.err.2) }))
    else none
  else if p = 0x30 then (if off = 0x50 then wr (fun x => { x with rhmb.semSel := fld v 4 0 }) else none)
  else none

/-- Pages 0x40 to 0x57. -/
def plainD (s : State) (p off : Nat) (v : Word) : Option Wr :=
  if 0x40 ≤ p ∧ p ≤ 0x4F then
    let k := p - 0x40
    if off = 0x50 then wr (fun x => x.setPipe k { x.pipe k with csAddr := fld v 10 0 })
    else if off = 0x68 then wr (fun x => x.setPipe k { x.pipe k with kcSel := fld v 5 0 })
    else if off = 0x80 then wrIf (32 < fld v 5 0) (fun x => x.setPipe k { x.pipe k with epochSel := fld v 5 0 })
    else none
  else if p = 0x50 then (if off = 0x58 then wr (fun x => { x with phlx.eccAddr := clearBits x.phlx.eccAddr v (3 * 2 ^ 62) }) else none)
  else if p = 0x51 then
    if off = 0x40 then wr (fun x => { x with phlx.winSel := fld v 12 0 })
    else if off = 0x68 then wr (fun x => { x with phlx.winArg := fld v 31 0 })
    else none
  else if p = 0x52 then (if off = 0x40 then wr (fun x => { x with phlx.mapSel := fld v 13 0 }) else none)
  else if p = 0x55 then
    if off = 0x40 then wr (fun x => { x with zin.partSel := fld v 4 0 })
    else if off = 0x78 then wrIf (someBits v 15) (fun x => { x with zin.cmdAddr := only v 52 0 })
    else none
  else if p = 0x56 then
    if off = 0x40 then
      wrLock s p (fld v 15 8 = 0 || fld v 4 0 = 0 || 16 < fld v 4 0) (fun x => { x with snd.stEn := bitOf v 16, snd.limit := fld v 15 8, snd.stTiles := fld v 4 0 })
    else if off = 0x98 then wr (fun x => { x with snd.last0 := clearBits x.snd.last0 v (3 * 2 ^ 62) })
    else if off = 0xB0 then wr (fun x => { x with snd.pipeSel := fld v 3 0 })
    else none
  else if p = 0x57 then (if off = 0x48 then wr (fun x => { x with park.partSel := fld v 4 0 }) else none)
  else none

/-- Pages 0x60 to 0x62, by the writer's bank. -/
def plainE (s : State) (a : Access) (p off : Nat) (v : Word) : Option Wr :=
  let b := bankOf a
  let gi := fld v 16 16 * 2 ^ 16 + fld v 11 0
  if p = 0x60 then
    if off = 0x40 then wr (fun x => { x with grp.index := tset 0 x.grp.index b gi })
    else if off = 0x90 then wr (fun x => { x with grp.arg0 := tset 0 x.grp.arg0 b v })
    else if off = 0x98 then wr (fun x => { x with grp.arg1 := tset 0 x.grp.arg1 b v })
    else if off = 0xB0 then
      let g := (selected s a 0x60).1
      wr (fun x => if bitOf v 63 then x.setGrpRec g { x.grpRec g with abValid := false } else x)
    else none
  else if p = 0x61 then
    if off = 0x40 then wr (fun x => { x with grp.mbrIndex := tset 0 x.grp.mbrIndex b gi })
    else if off = 0x48 then wr (fun x => { x with grp.mbrAddr := tset 0 x.grp.mbrAddr b (fld v 17 0) })
    else none
  else if p = 0x62 then
    if off = 0x40 then wr (fun x => { x with grp.strgIndex := tset 0 x.grp.strgIndex b (fld v 11 0) })
    else if off = 0x60 then wr (fun x => { x with grp.srcSel := fld v 5 0 })
    else none
  else none

/-- Pages 0x80 to 0x9F and 0xC0 to 0xC2. -/
def plainF (s : State) (p off : Nat) (v : Word) : Option Wr :=
  if 0x80 ≤ p ∧ p ≤ 0x9F then
    let n := p - 0x80
    if off = 0x48 then wr (fun x => x.setPart n { x.part n with hold := bitOf v 0 })
    else if off = 0x80 then
      some { st := refuseIf (decide ((s.part n).st ≠ .free)) .wrongState, arg := refuseIf (someBits v 63) .badArg
             eff := fun x => x.setPart n { x.part n with policyAddr := fld v 47 0 } }
    else none
  else if p = 0xC0 then (if off = 0x58 then wr (fun x => { x with pwr.lost := maskOff 20 x.pwr.lost (fld v 19 0) }) else none)
  else if p = 0xC2 then (if off = 0x68 then wrLock s p false (fun x => { x with bus.lineMask := fld v 4 0 }) else none)
  else none

/-- A register that only holds a value; none where an offset has no such writable field. -/
def plainWr (s : State) (a : Access) (p off : Nat) (v : Word) : Option Wr :=
  if off < 0x40 then headerWrite p off v
  else if p < 0x08 then plainA s a p off v
  else if p < 0x10 then plainB s p off v
  else if p < 0x40 then plainC s p off v
  else if p < 0x60 then plainD s p off v
  else if p < 0x80 then plainE s a p off v
  else plainF s p off v

/-- A write of a register: its own refusals and effect, or `ST_BAD_ARG` where it has no writable field (R54). -/
def plainWrite (s : State) (a : Access) (addr : Nat) (v : Word) : State :=
  match plainWr s a (addr / 4096) (addr % 4096) v with
  | none => regWrite s a addr none (some .badArg) id
  | some w => regWrite s a addr w.st w.arg w.eff

/-- Whether a write of a register is accepted, its bus checks apart. -/
def wrAccepted (w : Wr) : Bool := w.st.isNone && w.arg.isNone

end Sys2Proof.Machine
end

