-- ==== Sys2Proof/Machine/Boot.lean ====
section
/-! DEFINITION. Starting the block (chapter 16): the noise source tests, slot choice, the nine steps of the cold boot with their two
verdicts, recovery, fast wake, settings and readiness. A start waits, as plain data, for each verdict. -/

namespace Sys2Proof.Machine

/-! ### The noise source (12 R383, R384) -/

/-- The repetition count test over samples: the last one, its run, and whether the cutoff of 41 was reached. -/
def rctFold : List Bool → Bool → Nat → Bool → Bool × Nat × Bool
  | [], last, run, bad => (last, run, bad)
  | x :: r, last, run, bad =>
    let n := if run ≠ 0 && x = last then satInc 63 run else 1
    rctFold r x n (bad || 41 ≤ n)

/-- The adaptive proportion test of one window of 1,024 samples, cutoff 795. -/
def aptFails (l : List Bool) : Bool := 795 ≤ (l.filter (fun x => some x = l.head?)).length

/-- The bytes of a block of samples, eight to a byte, the first lowest (log 51). -/
def sampleBytes : Nat → List Bool → Bytes
  | 0, _ => []
  | n + 1, l => BitVec.ofNat 8 (((l.take 8).reverse).foldl (fun a b => 2 * a + b.toNat) 0) :: sampleBytes n (l.drop 8)

/-- Instantiate a DRBG instance from the noise source; without it the instance stands in error (R383, R384). -/
def seedDrbg (s : State) (i : Nat) : State :=
  { s with hashu.drbgs := tset {} s.hashu.drbgs i { st := if s.hashu.ready && !s.hashu.failed then 1 else 2 } }

/-- A block of samples that passes becomes seed material, and the first of a power-up lets the unit serve. -/
def noisePass (s : State) (l : List Bool) : State :=
  let s1 := { s with hashu.run := 0, hashu.seed := BitVec.ofNat 256 (Config.sha384 (sampleBytes 128 l)).toNat }
  if s1.hashu.ready then s1 else seedDrbg (seedDrbg { s1 with hashu.ready := true } 0) 34

/-- A block that fails is discarded and counted; the fourth in a row ends the source (R383, R386). -/
def noiseFail (s : State) : State :=
  let s1 := raise { s with hashu.run := satInc 7 s.hashu.run, hashu.fails := bump s.hashu.fails 1 } 0x0E 0
  if 4 ≤ s1.hashu.run then raise { s1 with hashu.failed := true } 0x0E 1 else s1

/-- One block of 1,024 samples (R383). -/
def noiseBlock (s : State) (l : List Bool) : State :=
  if !domLive s 4 || s.hashu.failed || l.length ≠ 1024 then s
  else
    let r := rctFold l s.hashu.rctLast s.hashu.rctRun false
    let s1 := { s with hashu.rctLast := r.1, hashu.rctRun := r.2.1 }
    if r.2.2 || aptFails l then noiseFail s1 else noisePass s1 l

/-! ### What the boot store holds -/

/-- The slot a start reads. -/
def slotBytes (store : Bytes) (b : Bool) : Bytes := slice store (slotOffset b) 0x100000

/-- The settings record in use under a manifest's versions (R486). -/
def settingsOf (store slot : Bytes) : Option (Bool × Bytes) :=
  let m := manifestOf slot
  settingsInUse (store.drop (areaOffset false)) (store.drop (areaOffset true)) (leAt m 32 2) (leAt m 30 2)

/-- Digest of the settings record in use, zero where there is none (Table 16.6). -/
def settingsDigest (x : Option (Bool × Bytes)) : BitVec 384 := match x with | some r => Config.sha384 r.2 | none => 0

/-- The seven digests of R489, in its order. -/
def imageDigests (store slot : Bytes) : List (BitVec 384) :=
  [Config.sha384 (loaderBody slot), Config.sha384 (manifestOf slot)] ++ (List.range 4).map (fun i => Config.sha384 (itemBytes slot i))
    ++ [settingsDigest (settingsOf store slot)]

/-- The conditions of the fast path of a wake (R490). -/
def fastHolds (s : State) (store : Bytes) (b : Bool) : Bool :=
  let k := s.retained.digest
  let slot := leAt k 8 1 = 1
  digestHolds s.retained && leAt k 9 1 = s.life.st && (List.range 4).all (fun i => leAt k (16 + 2 * i) 2 = counter s i)
    && leAt k 24 1 = revoked s 0 % 256 && leAt k 25 1 = revoked s 1 % 256 && s.helm.hasRecord && s.helm.record.active = slot && b = slot
    && (recEntry s.helm.record slot).st = 3 && slice k 32 48 = digestBytes (digestD (imageDigests store (slotBytes store b)))

/-! ### Recovery and readiness (R69, R474) -/

/-- `BLK_STATUS.READY` rises once every wipe under way has finished (02 R69, 10 R304, 15 R460, Table 16.14). -/
def readyRise (s0 : State) : State :=
  let s := (List.range 32).foldl wipeDone s0
  let s1 := raise { s with blk.ready := true, helm.bootTime := s.mrd.wall, helm.boot := none } 0x00 0
  updateLive (if s1.life.torn then raise s1 0x12 2 else s1)

/-- A Logbook program or a transition runs, which `READY` waits for (14 R434, 15 R448). -/
def programRuns (s : State) : Bool := s.logb.running.isSome || s.life.running.isSome

/-- `READY` rises, or waits for the program that runs (15 R448). -/
def readyOrWait (s : State) (r : BootRun) : State :=
  if programRuns s then { s with helm.boot := some { r with wait := .program } } else readyRise s

/-- A start with nothing decided yet. -/
def newRun (inp : BootIn) (wait : BootWait) (wake : Bool) : BootRun :=
  { inp := inp, wait := wait, slot := false, trial := false, second := false, checks := .ok, fast := wake }

/-- The recovery loader runs from ROM with the boot microcode; no slot is booted, and every partition is `FREE` (R474). -/
def enterRecovery (s : State) : State :=
  let s1 := wipeTenants (loadAstr { s with astr := {}, helm.stage := .recovery, helm.trial := false, helm.wdog := none, blk.recovery := true } Config.bootMicrocode)
  readyOrWait s1 (newRun { store := none, backOk := false, noise := [] } .program false)

/-! ### Steps 2 and 3: the slot and its loader -/

/-- The slot is read, its loader judged unless the fast path holds, and the first verdict is awaited (steps 3 and 4). -/
def beginSlot (s : State) (r : BootRun) (b trial second : Bool) : State :=
  match r.inp.store with
  | none => { s with helm.boot := some { r with wait := .loader, slot := b, trial := trial, second := second, checks := .busError, fast := false } }
  | some store =>
    let slot := slotBytes store b
    let fast := r.fast && !second && fastHolds s store b
    let st := if fast then Status.ok else (judgeLoader s slot).st
    let s1 := if st = .ok then extendMeas s 1 (Config.sha384 (loaderBody slot)) else s
    { s1 with helm.boot := some { r with wait := .loader, slot := b, trial := trial, second := second, checks := st, fast := fast } }

/-- The other slot may be tried: it is `CONFIRMED` or `VALID`, or, without a record, it is slot B (R468). -/
def otherAllowed (s : State) (r : BootRun) : Bool :=
  !r.second && (if s.helm.hasRecord then (let e := recEntry s.helm.record (!r.slot); e.st = 3 || e.st = 1) else !r.slot)

/-- Nothing, or one slot more, is left to try (R468). -/
def tryOther (s : State) (r : BootRun) : State := if otherAllowed s r then beginSlot s r (!r.slot) false true else enterRecovery s

/-- A slot fails: the first failure's status stands (R468). -/
def slotFails (s : State) (r : BootRun) (st : Status) : State :=
  tryOther { s with helm.failStatus := if s.helm.fellBack then s.helm.failStatus else stCode st, helm.fellBack := true } r

/-- A slot of the record that R468 lets boot. -/
def bootable (e : SlotEntry) : Bool := !(e.st = 0 || e.st = 4)

/-- The slot in `TRIAL` of a record. -/
def trialSlot (r : Record) : Option Bool := if r.a.st = 2 then some false else if r.b.st = 2 then some true else none

/-- A trial that has not been tried: `ATTEMPTS` becomes 1 before it boots (R468). -/
def startTrial (s : State) (r : BootRun) (t : Bool) : State :=
  match writeRecord s r.inp.backOk (setRecEntry s.helm.record t { recEntry s.helm.record t with attempts := 1 }) with
  | (some s1, _) => beginSlot s1 r t true false
  | (none, s1) => slotFails s1 { r with slot := t } .busError

/-- Boot a slot of the record, or pass on where it may not boot. -/
def bootRecorded (s : State) (r : BootRun) (b : Bool) : State :=
  if bootable (recEntry s.helm.record b) then beginSlot s r b false false else tryOther s { r with slot := b }

/-- Step 2: the slot choice of R468. -/
def chooseSlot (s : State) (r : BootRun) : State :=
  if !s.helm.hasRecord then beginSlot s r false false false
  else match trialSlot s.helm.record with
    | some t =>
      if (recEntry s.helm.record t).attempts = 0 then startTrial s r t
      else
        let w := writeRecord s r.inp.backOk (setRecEntry s.helm.record t { recEntry s.helm.record t with st := 4 })
        bootRecorded (w.1.getD w.2) r (!t)
    | none => bootRecorded s r s.helm.record.active

/-- The record in force is read from the boot store (R462). -/
def readRecord (s : State) (store : Option Bytes) : State :=
  match store.bind (fun b => recordInForce (recordOf (slice b (recordOffset false) 256)) (recordOf (slice b (recordOffset true) 256))) with
  | some (copy, r, other) => { s with helm.record := r, helm.hasRecord := true, helm.copy := copy, helm.otherValid := other }
  | none => s

/-! ### Step 1 -/

/-- The event of `MEAS_REG0` (Table 16.6). -/
def romEvent (s : State) : BitVec 384 :=
  Config.sha384 (ascii "ORPV-M0R" ++ Config.romVersion ++ leBytes 1 s.life.st ++ leBytes 1 s.blk.profile ++ leBytes 1 s.blk.torn.toNat)

/-- Registers 1 to 15 are zeroed at each start (Table 16.6). -/
def zeroStartMeas (s : State) : State := { s with meas.regs := s.meas.regs.filter (fun e => e.1 = 0 || 16 ≤ e.1), meas.locked := false }

/-- After a power-up: `MEAS_REG0`, a fresh integrity key, and the retained records (R471, 12 R362, 01 R31). -/
def afterPower (s : State) : State :=
  let d := drbgDraw (setMeas s 0 0) 0
  restoreRecords (extendMeas { d.2 with chrt.itKey := BitVec.ofNat 256 d.1 } 0 (romEvent s))

/-- The ROM start once the noise source serves (steps 1 and 2): `fresh` after a power-up of the domains. -/
def romGo (s : State) (r : BootRun) (fresh : Bool) : State :=
  let s1 := zeroStartMeas s
  let s2 := if fresh then afterPower s1 else s1
  let s3 := loadAstr { setLive s2 3 with astr := {} } Config.bootMicrocode
  chooseSlot (readRecord { s3 with helm.stage := .rom } r.inp.store) r

/-- A start: after a power-up the noise source tests come first, with the blocks at hand; a start they hold waits (step 1). -/
def romStart (s : State) (inp : BootIn) (fresh wake : Bool) : State :=
  let r := newRun inp .noise wake
  if fresh then
    let s1 := inp.noise.foldl noiseBlock s
    if s1.hashu.ready then romGo s1 r true else { s1 with helm.boot := some r }
  else romGo s r false

/-- A block of noise samples arrives; a start that waited for the tests goes on (step 1). -/
def noiseArrives (s : State) (l : List Bool) : State :=
  let s1 := noiseBlock s l
  match s1.helm.boot with
  | some r => if r.wait = .noise && s1.hashu.ready then romGo s1 r true else s1
  | none => s1

/-! ### Steps 5 to 7: the loader -/

/-- Load an item once its digest holds (step 6): the firmware, the microcode, the ingress store, the egress store. -/
def loadItem (s : State) (b : Bytes) (i : Nat) : State :=
  let x := itemBytes b i
  let d := Config.sha384 x
  if i = 0 then extendMeas s 3 d
  else if i = 1 then extendMeas { loadAstr (powerUp s 3) x with helm.ucCopy := x } 4 d
  else
    let s1 := [17, 5, 6, 7, 8, 9, 10, 11, 12].foldl powerUp s
    let ks := (List.range 8).map (· + 8 * (i - 2))
    let s2 := ks.foldl (fun y k => loadPipe y k x) s1
    extendMeas (if i = 2 then { s2 with helm.csInCopy := x } else { s2 with helm.csOutCopy := x }) 5 d

/-- Step 6 in order: the first item that differs from its entry ends it. -/
def loadItems (s : State) (b : Bytes) (fast : Bool) : List Nat → Bool × State
  | [] => (true, s)
  | i :: r => if !fast && Config.sha384 (itemBytes b i) ≠ itemDigest (manifestOf b) i then (false, s) else loadItems (loadItem s b i) b fast r

/-- The event of `MEAS_REG7` (Table 16.6). -/
def fuseEvent (s : State) : BitVec 384 :=
  Config.sha384 (ascii "ORPV-M7L" ++ ([0, 3, 7, 8, 9].map (fun r => leBytes 8 (fuse s r (regLen r - 1)))).flatten
    ++ ((List.range 4).map (fun c => leBytes 2 (counter s c))).flatten ++ leBytes 1 (revoked s 0) ++ leBytes 1 (revoked s 1) ++ leBytes 1 s.logb.marginal.toNat)

/-- Step 7: the settings are read, and the second verdict is awaited. -/
def settingsStep (s : State) (r : BootRun) (store slot : Bytes) : State :=
  let m := manifestOf slot
  let x := settingsOf store slot
  let s1 := match x with
    | some (area, b) => { s with helm.area := area, helm.noSettings := false, helm.settings := b, helm.setSeq := leAt b 16 8, helm.setInUse := leAt b 8 2 }
    | none => { s with helm.noSettings := true, helm.settings := [], helm.setSeq := 0, helm.setInUse := 0 }
  let s2 := extendMeas (extendMeas s1 6 (settingsDigest x)) 7 (fuseEvent s)
  { s2 with
    helm.fw := leAt m 24 2, helm.uc := leAt m 26 2, helm.policyFmt := leAt m 28 2, helm.setVer := leAt m 30 2, helm.setMin := leAt m 32 2
    helm.digests := imageDigests store slot, helm.certs := slice store certOffset 65536
    helm.boot := some { r with wait := .firmware, checks := .ok } }

/-- The trial watchdog is armed at step 4 (R469). -/
def armTrial (s : State) (r : BootRun) : State :=
  if r.trial then { s with helm.wdog := some ((s.mrd.wall + 1000000 * (recEntry s.helm.record r.slot).wdog) % 2 ^ 64) } else s

/-- The manifest and the items (steps 5 and 6): where none fails, step 7. -/
def manifestStep (s : State) (r : BootRun) (store slot : Bytes) : State :=
  let j := judgeManifest s slot
  let l := judgeLoader s slot
  let d := Config.sha384 (manifestOf slot)
  if !r.fast && j.st ≠ .ok then slotFails s r j.st
  else if s.helm.hasRecord && d ≠ (recEntry s.helm.record r.slot).digest then slotFails s r .sigFail
  else
    let signer := if r.fast then leAt slot (64 + loaderLen slot) 1 else l.signer
    let pairs := if r.fast then 0 else l.pairs ||| j.pairs
    match loadItems (extendMeas { s with helm.signer := signer, helm.pairs := pairs } 2 d) slot r.fast [0, 1, 2, 3] with
    | (false, s1) => slotFails s1 r .sigFail
    | (true, s1) => settingsStep s1 r store slot

/-- The first verdict opens: control passes to the loader, unless the loader's own checks have failed (step 4; R14). -/
def loaderOpen (s : State) (r : BootRun) : State :=
  match r.checks, r.inp.store with
  | .ok, some store =>
    manifestStep (armTrial { s with helm.stage := .loader, helm.slot := r.slot, helm.trial := r.trial, helm.fastWake := r.fast } r) r store (slotBytes store r.slot)
  | .ok, none => slotFails s r .busError
  | st, _ => slotFails s r st

/-! ### Steps 8 and 9: the firmware -/

/-- The firmware migrates an older settings record into the other area (R486). -/
def migrate (s : State) : State :=
  if s.helm.noSettings || s.helm.setVer ≤ s.helm.setInUse then s
  else
    let body := Config.migrateSettings s.helm.setInUse s.helm.setVer (setBody s.helm.settings)
    let new := setRecord body s.helm.setVer 2 ((s.helm.setSeq + 1) % 2 ^ 64)
    let s1 := s.emit (.mem (bootBase s + areaOffset (!s.helm.area)) new)
    { s1 with helm.setOld := s.helm.settings, helm.settings := new, helm.setPending := true, helm.area := !s.helm.area
              helm.setSeq := (s.helm.setSeq + 1) % 2 ^ 64, helm.setInUse := s.helm.setVer }

/-- RW and RWL registers that settings may write (R485). -/
def settingsMay (p off : Nat) : Bool :=
  if p = 0x04 then [0x20, 0x30, 0x40, 0x68].contains off
  else if p = 0x08 then [0x20, 0x30, 0x48].contains off
  else if p = 0x30 then [0x20, 0x30, 0x40, 0x50, 0x58].contains off || (0x60 ≤ off && off < 0xA0 && off % 8 = 0)
  else if p = 0x56 then [0x20, 0x30, 0x40, 0xB0].contains off
  else if p = 0x60 then [0x20, 0x30, 0x40, 0x90, 0x98, 0xD0].contains off || (0x48 ≤ off && off ≤ 0x80 && off % 8 = 0)
  else p = 0xC0 && (off = 0x20 || off = 0x30)

/-- A write by Helm of a register that settings may name. -/
def settingWrite (s : State) (p off : Nat) (v : Word) : State :=
  if p = 0x30 ∧ off = 0x40 then gctrlWrite s helmAccess v
  else if p = 0x30 ∧ off = 0x58 then semWrite s helmAccess v
  else if p = 0x30 ∧ 0x60 ≤ off then mgmtRegionWrite s helmAccess ((off - 0x60) / 16) (decide (off % 16 = 8)) v
  else if p = 0x60 ∧ off = 0xD0 then stationWrite s helmAccess v
  else if p = 0x60 ∧ 0x48 ≤ off ∧ off ≤ 0x80 then grpDescWrite s helmAccess ((off - 0x48) / 8) v
  else plainWrite s helmAccess (regAt p off) v

/-- One entry of a settings record: written, or skipped and counted (R485). -/
def settingEntry (s : State) (e : Bytes) : State :=
  let a := leAt e 0 8 % 2 ^ 20
  if settingsMay (a / 4096) (a % 4096) then settingWrite s (a / 4096) (a % 4096) (BitVec.ofNat 64 (leAt e 8 8))
  else { s with helm.skipped := (s.helm.skipped + 1) % 4096 }

/-- The settings in use are applied in entry order, by Helm, whose own writes do not wait for `READY` (step 9). -/
def applySettings (s : State) : State :=
  if s.helm.noSettings then s
  else
    let b := s.helm.settings
    let s1 := (List.range (setCount b)).foldl (fun x i => settingEntry x (slice b (32 + 16 * i) 16)) { s with blk.ready := true }
    { s1 with blk.ready := false, bus.resp := s.bus.resp }

/-- The identity layers at step 9: formed, or restored by a fast wake whose alias record verifies (R490, R497, R499, 01 R31). -/
def identityStep (s : State) (r : BootRun) : State :=
  let s1 := noteBad (formRoot s false) 0
  match (if r.fast && aliasHolds s1.retained then slotKey s1 0 else none) with
  | some dev =>
    let pair := aliasPair s1.retained
    { s1 with
      spdm.idA := formA s1, spdm.aliasEc := pair.1, spdm.aliasMl := pair.2, spdm.certOk := leAt s1.retained.freeArea 12 1 % 2 = 1
      spdm.devEc := ecPublic dev, spdm.devMl := mlPublic dev }
  | none =>
    let s2 := deriveBlock { s1 with spdm.idA := formA s1 }
    let s3 := formIdentity s2 s2.helm.certs
    (List.range 32).foldl (fun x p =>
      match x.chrt.root with
      | some root => if (x.part p).st = .owned then
          putSlot { x with chrt.derives := bump x.chrt.derives 1 } (32 + 4 * p) .active (partAlias x root p) (mkAttr 0 p 1 (usageOf 1) 0 (2 ^ 16) 0 0 false) none
        else x
      | none => x) s3

/-- Registers 8 to 10 as a fast wake restores them (R490). -/
def restoreMeas (s : State) (r : BootRun) : State :=
  if r.fast then (List.range 3).foldl (fun x i => setMeas x (8 + i) (digestOf (slice s.retained.digest (80 + 48 * i) 48))) s else s

/-- The booted slot is `CONFIRMED` in the record in force. -/
def bootedConfirmed (s : State) : Bool := s.helm.hasRecord && (recEntry s.helm.record s.helm.slot).st = 3

/-- Step 9 up to `READY`. -/
def readyStep (s : State) (r : BootRun) : State :=
  let s1 := restoreMeas (identityStep s r) r
  let s3 := applySettings (migrate s1)
  let s4 := if bootedConfirmed s3 then advanceCounters s3 else s3
  readyOrWait (seedDrbg s4 1) r

/-- The second verdict opens: registers 0 to 7 are locked, and the firmware runs (step 8). -/
def firmwareOpen (s : State) (r : BootRun) : State := readyStep (loadWaiting { s with meas.locked := true, helm.stage := .firmware }) r

/-- What waits for a program goes on once none runs: a start (15 R448) and a `CONFIRM` (R480). -/
def afterProgram (s : State) : State :=
  if !secRuns s then s
  else
    let s1 := confirmEnd s
    match s1.helm.boot with
    | some r => if r.wait = .program && !programRuns s1 then readyRise s1 else s1
    | none => s1

/-! ### The boot verdict (01 R11 to R14) -/

/-- How a verdict pair is judged (R11, R12). -/
inductive Judged where
  | opens | denies | faults
  deriving DecidableEq, Repr

/-- A boot verdict: a fault sends the block to recovery, a deny fails the slot, and the gate of the awaited step opens. With no start
that waits for a verdict there is no action to gate (R11, R13, R14). -/
def bootVerdict (s : State) (j : Judged) : State :=
  match j with
  | .faults => if s.blk.recovery then s else enterRecovery s
  | .denies =>
    (match s.helm.boot with
     | some r => if r.wait = .loader || r.wait = .firmware then slotFails s r (if r.checks = .ok then .sigFail else r.checks) else s
     | none => s)
  | .opens =>
    (match s.helm.boot with
     | some r => if r.wait = .loader then loaderOpen s r else if r.wait = .firmware then firmwareOpen s r else s
     | none => s)

/-! ### Resets (02 R67, R68; 16 R467) -/

/-- A start of whatever kind: none while the block is held, with its hold lifted, tampered or asleep; without the security loop's lock it
waits (01 R25); scrapping goes first (15 R450); the noise source tests belong to a start after a power-up (R467). -/
def startBlock (s : State) (inp : BootIn) (wake : Bool) : State :=
  if s.blk.held || s.blk.tamper || s.pwr.asleep || s.logb.lifted then s
  else if !s.clkr.secLock then { s with helm.boot := some (newRun inp .clock wake) }
  else if s.life.scrapping then scrapResume s
  else romStart s inp (!s.hashu.ready) wake

/-- A start along the soft-reset path with a cause (R467). -/
def softStart (s : State) (cause : Nat) (inp : BootIn) : State := startBlock { softState s with blk.resetCause := cause } inp false

/-! ### The meanings -/

/-- `NOISE_SAMPLE_BLOCK` (R383). -/
def execNoiseSampleBlock (samples : List Bool) (s : State) : Host.Outcome State Fault Refusal := .next (whenSec s (fun x => noiseArrives x samples))

/-- `BLK_SOFT_RESET` (R68): the write is answered, then the block resets. -/
def execBlkSoftReset (a : Access) (v : Word) (boot : BootIn) (s : State) : Host.Outcome State Fault Refusal :=
  .next (regWrite s a (regAt 0x00 0x60) none (refuseIf (decide (v ≠ 0xA5)) .badArg) (fun x => softStart x 2 boot))

/-- `TRIAL_WATCHDOG_EXPIRE` (R469): time passes, and a watchdog that has run out resets the block. -/
def execTrialWatchdogExpire (us : Nat) (boot : BootIn) (s : State) : Host.Outcome State Fault Refusal :=
  .next (afterTime s us (fun s1 =>
    match s1.helm.wdog with
    | some t => if t ≤ s1.mrd.wall then softStart s1 8 boot else s1
    | none => s1))

/-- `ACTIVATE` (R479); in recovery the ROM then takes a soft reset (R474). -/
def execActivate (a : Access) (v : Word) (st : StoreIn) (boot : BootIn) (s : State) : Host.Outcome State Fault Refusal :=
  .next (helmCmd s a v true (fun x =>
    let r := activateCore x st.backOk
    let y := helmDone r.2 a 5 r.1 0
    if x.blk.recovery && r.1 = .ok then softStart y 2 boot else y))

end Sys2Proof.Machine
end

