-- ==== Sys2Proof/Machine/Phlox.lean ====
section
/-! DEFINITION. The window commands of page 0x51 (Tables 5.29 and 5.30): each acts at once and stays `BUSY` until its end
writes `PHLX_WIN_RESULT` (R184). -/

namespace Sys2Proof.Machine

/-- The address of `PHLX_WIN_CMD`. -/
def winCmdAddr : Nat := regAt 0x51 0x58

/-- A window command refused with a status (R171). -/
def winRefused (st : Status) (w : Nat) : WinResult := { status := stCode st, win := w, detail := 0 }

/-- The window is in use by a ticket (R171). -/
def winInUse (w : Win) : Bool := w.st = .opened || w.st = .releasing

/-- `FREE` (R169, R171). -/
def freeCmd (s : State) (wi : Nat) : WinResult × State :=
  let w := s.win wi
  if winInUse w then (winRefused .wrongState wi, s)
  else if w.kind = .free then (winRefused .badArg wi, s)
  else ({ win := wi }, freeWindowNow s wi)

/-- `OPEN` (R169, R171); the ticket stands in `PHLX_WIN_ARG`. -/
def openCmd (s : State) (wi : Nat) (efix : Option Nat) : WinResult × State :=
  let w := s.win wi
  if winInUse w then (winRefused .wrongState wi, s)
  else if w.kind ≠ .working then (winRefused .badArg wi, s)
  else ({ win := wi }, openWindow s wi s.phlx.winArg efix)

/-- `INVALIDATE` (R169, R171). -/
def invalidateCmd (s : State) (wi : Nat) : WinResult × State :=
  let w := s.win wi
  if w.kind ≠ .shadow then (winRefused .badArg wi, s) else ({ win := wi }, s.setWin wi { w with shadowValid := false })

/-- What a window command does, and what it will report (R169 to R171). -/
def winWork (s : State) (op : WinOp) (v : Word) : WinResult × State :=
  match op with
  | .alloc => allocWindow s (fld v 59 55) (fld v 54 43) (fld v 28 14) (bitOf v 42)
  | .free => freeCmd s (fld v 41 29)
  | .bind => openCmd s (fld v 41 29) (if bitOf v 5 then some (fld v 13 6) else none)
  | .invalidate => invalidateCmd s (fld v 41 29)

/-- A window command starts; what it will report stands until its end (R184). -/
def winStart (s : State) (a : Access) (op : WinOp) (v : Word) : State :=
  let r := winWork s op v
  let s2 := { r.2 with phlx.running := some r.1, phlx.waiting := none }
  if r.1.status = 0 then s2 else pageErrorCode s2 a true winCmdAddr r.1.status

/-- The bus checks of a write of `PHLX_WIN_CMD`, then the command. Phlox stands on the arithmetic loop's clocks: while that loop has no
lock an accepted command is `BUSY` and starts at the lock (01 R25). -/
def winCmd (s : State) (a : Access) (op : WinOp) (v : Word) (arg : Option Status) : State :=
  regWrite s a winCmdAddr (refuseIf s.phlx.running.isSome .wrongState) (orElse (mbz v (maskBits 4 0)) arg) (fun s1 =>
    if arithRuns s1 then winStart s1 a op v else { s1 with phlx.running := some {}, phlx.waiting := some (op, a, v) })

/-- `ALLOC` names 1 to 32,640 tiles (R170). -/
def phlxAlloc (s : State) (a : Access) (v : Word) : State :=
  winCmd s a .alloc v (refuseIf (!(1 ≤ fld v 28 14 && fld v 28 14 ≤ 32640)) .badArg)

def phlxFree (s : State) (a : Access) (v : Word) : State := winCmd s a .free v none

def phlxOpen (s : State) (a : Access) (v : Word) : State := winCmd s a .bind v none

def phlxInvalidate (s : State) (a : Access) (v : Word) : State := winCmd s a .invalidate v none

/-- A command that waited for the arithmetic loop starts (01 R25). -/
def winResume (s : State) : State :=
  match s.phlx.waiting with
  | some c => winStart s c.2.1 c.1 c.2.2
  | none => s

/-- A window command ends (R183, R184). -/
def winCmdDone (s : State) : State :=
  match s.phlx.running, s.phlx.waiting with
  | some r, none => winDone { s with phlx.running := none } r
  | _, _ => s

/-! ### The meanings -/

/-- `PHLX_ALLOC` (R170). -/
def execPhlxAlloc (a : Access) (v : Word) (s : State) : Host.Outcome State Fault Refusal :=
  .next (phlxAlloc s a v)

/-- `PHLX_FREE` (R169). -/
def execPhlxFree (a : Access) (v : Word) (s : State) : Host.Outcome State Fault Refusal :=
  .next (phlxFree s a v)

/-- `PHLX_OPEN` (R169). -/
def execPhlxOpen (a : Access) (v : Word) (s : State) : Host.Outcome State Fault Refusal :=
  .next (phlxOpen s a v)

/-- `PHLX_INVALIDATE` (R171). -/
def execPhlxInvalidate (a : Access) (v : Word) (s : State) : Host.Outcome State Fault Refusal :=
  .next (phlxInvalidate s a v)

/-- `PHLX_WIN_CMD_DONE` (R184). -/
def execPhlxWinCmdDone (s : State) : Host.Outcome State Fault Refusal :=
  .next (whenArith s winCmdDone)

end Sys2Proof.Machine
end

