-- ==== Sys2Proof/Machine/Pins.lean ====
section
/-! DEFINITION. Events on the block's pins and in its verdict comparator: `PORST_N`, `TAMPER_N`, `OTP_VPP`, the loops, the TAP, and the
verdict registers (chapters 1, 14, 15 and 18), with the end of a Logbook program. -/

namespace Sys2Proof.Machine

/-! ### The verdict comparator (01 R11 to R15) -/

/-- Path A's accept code (Table 1.2). -/
def acceptCode : VerdictKind → Nat
  | .boot => 0x3CA55AC3
  | .lifecycle => 0x69D22D96
  | .keyRelease => 0x5AF00FA5

/-- The first register of a pair. -/
def verdictReg (s : State) : VerdictKind → Option Nat
  | .boot => s.verdict.boot
  | .lifecycle => s.verdict.lifecycle
  | .keyRelease => s.verdict.keyRelease

def setVerdictReg (s : State) (k : VerdictKind) (v : Option Nat) : State :=
  match k with
  | .boot => { s with verdict.boot := v }
  | .lifecycle => { s with verdict.lifecycle := v }
  | .keyRelease => { s with verdict.keyRelease := v }

/-- How a completed pair is judged: path A's word, path B's word, and the cycles between them (R11, R12). Complements that are the pair's
own accept codes the wrong way round are a verdict fault; DEDUCED: an accept code is one of the pair's own kind (log 116). -/
def judgePair (k : VerdictKind) (a b gap : Nat) : Judged :=
  if 65536 < gap then .faults
  else if a + b = 0xFFFFFFFF then (if a = acceptCode k then .opens else if b = acceptCode k then .faults else .denies)
  else .faults

/-- A key-release verdict: only a delivery that still waits for it is concerned (R13, R14, 12 R378, R379). -/
def keyVerdict (s : State) (j : Judged) : State :=
  match s.chrt.delivery with
  | some d =>
    if d.sent then s
    else if j ≠ .opens then deliverDenied s
    else match deliverAgain s d with
      | some st => deliveryEnd (noteBad s d.slot) st
      | none => deliverBeats s
  | none => s

/-- The comparator has judged: the pair is cleared, a fault is counted, and the gated action follows or not (R13 to R15). -/
def judged (s : State) (k : VerdictKind) (j : Judged) : State :=
  let s1 := setVerdictReg s k none
  let s2 := if j = .faults then { s1 with verdict.faults := satInc 0xFFFFFFFF s1.verdict.faults } else s1
  match k with
  | .boot => bootVerdict s2 j
  | .lifecycle => afterProgram (lifeVerdict s2 (decide (j = .opens)))
  | .keyRelease => keyVerdict s2 j

/-- A write of a verdict register: path B judges, and a write out of order is a fault (R11, R12). DESIGN CHOICE (log 153): a second write of
path A before path B has written is judged a fault at once; the spec does not say whether it would replace the word. -/
def verdictWrite (s : State) (k : VerdictKind) (pathB : Bool) (w gap : Nat) : State :=
  if !helmRuns s then s
  else match pathB, verdictReg s k with
    | false, none => setVerdictReg s k (some w)
    | false, some _ => judged s k .faults
    | true, none => judged s k .faults
    | true, some a => judged s k (judgePair k a w gap)

/-- The window of a half-written pair runs out (R12). -/
def verdictExpire (s : State) (k : VerdictKind) : State :=
  if helmRuns s && (verdictReg s k).isSome then judged s k .faults else s

/-! ### Power-on reset (18 R531, R534; 14 R424, R428; 15 R443) -/

/-- Scrapping is pending, or the state is `SCRAPPED`: the findings of region 8 are disregarded (15 R444). -/
def pastUse (s : State) : Bool := s.life.scrapping || s.life.st = 5

/-- The straps hold the block in reset: a bad profile, one that Logbook excludes, or a boot store beyond 2^48 (01 R35, 14 R417, 18 R534). -/
def strapsBad (s : State) : Bool :=
  s.blk.profile = 0 || s.blk.profile = 3
    || (!pastUse s && (let permit := fuse s 8 0 / 2 ^ 46 % 4; (permit = 1 && s.blk.profile ≠ 1) || (permit = 2 && s.blk.profile ≠ 2) || permit = 3))
    || 2 ^ 48 < bootBase s + 0x240000

/-- The critical regions a start judges: of those read where scrapping is pending and in `SCRAPPED`, region 5 alone (14 R424, 15 R444; DEDUCED, log 181). -/
def judgedRegions (s : State) : List Nat := if pastUse s then [5] else (List.range 16).filter critical

/-- A finding of Table 14.3 against a critical region. -/
def criticalFails (s : State) : Bool := (judgedRegions s).any (regionFails s s.logb.sensed)

/-- The state at the rise of `PORST_N`: everything at its reset value but the array and its fuses, which are then read. -/
def porstState (s0 : State) (profile base : Nat) : State :=
  let l := s0.logb
  let x := startReading l.array
  { pending := s0.pending, free := s0.free, out := s0.out
    blk := { profile := profile, tamper := s0.blk.tamper }
    pins := { kdpZeroise := false, bootBase := base }
    clkr := { arithLock := true, secLock := true }
    logb := { array := l.array, spread := x.1, sensed := x.2, seen := x.2, wFuse := l.wFuse, rFuse := l.rFuse, done := true, corrected := reg (correctedCount x.2) } }

/-- What start-up decides from the sensed image (14 R428, 15 R443, R455). -/
def porstDecide (s0 : State) : State :=
  let d := lifeDecide s0.logb.sensed
  let s := { s0 with life := { st := d.st, torn := d.torn, tornTarget := d.tornTarget, scrapping := d.scrapping, pwLeft := fuse s0 10 6 / 2 ^ 56 % 256 } }
  let hold := d.hold || criticalFails s
  let marginal := (judgedRegions s).any (marginalRegion s.logb.sensed)
  { s with
    logb.hold := hold, logb.marginal := marginal
    blk.torn := d.torn, blk.fuseMarginal := marginal
    blk.held := hold || strapsBad s || (!d.scrapping && d.st = 5)
    chrt.modes := fuse s 8 0 / 2 ^ 48 % 65536 }

/-- The domains that a cold start powers (Table 18.10; log 42). -/
def mainDomains (s : State) : State := [1, 2, 4, 17, 18, 19].foldl setLive s

/-- `PORST`: a program under way is cut as by a power loss, everything resets, and the block starts (R531). -/
def porstOp (s : State) (profile base : Nat) (cut : ProgCut) (inp : BootIn) : State :=
  startBlock (mainDomains (porstDecide (porstState (progCut s cut) profile base))) inp false

/-! ### Tamper (18 R532) -/

/-- A transition under way ends wherever it stands (15 Table 15.4); scrapping stays pending where its intent has been programmed. -/
def cutLife (s : State) : State :=
  { s with life.running := none, life.ended := none, life.scrapping := s.life.scrapping && decide (eventCond s.logb.sensed 4 ≠ .blank) }

/-- A Logbook program is stopped at its pulse boundary and ends there: its words are read, and an event word left torn or complete shows
at the next start (14 R434, 15 Table 15.4). -/
def tamperProg (s : State) (c : ProgCut) : State :=
  match s.logb.running with
  | none => cutLife { s with logb.queue := [] }
  | some p =>
    let s1 := progCut s { c with loose := 0, nominal := 0, wide := [] }
    let s2 := ((p.words.map (fun w => copiesOf w.1 w.2)).flatten).foldl senseWord s1
    match p.kind, s.life.running with
    | .event, some (.word t) =>
      let e := eventCond s2.logb.sensed (t - 2)
      let y := cutLife s2
      if e = .torn then { y with life.torn := true, life.tornTarget := t, blk.torn := true }
      else if e = .complete then { y with life.pending := t } else y
    | .wipe, _ => cutLife { s2 with logb.sensed := arrayNow s2 }
    | _, _ => cutLife s2

/-- `TAMPER_N` falls: keys, engine memory, retained RAM and wake key go, a program stops, `STATION_LIVE` falls, and the block is held. -/
def tamperAssert (s : State) (c : ProgCut) : State :=
  if s.blk.tamper then s
  else
    let s1 := stopBoundary (tamperProg (cancelDelivery (zeroAllSlots s)) c)
    { zeroKeyCaches s1 with
      chrt.root := none, chrt.testRoot := false, pins.kdpZeroise := true, pins.stationLive := false, astr.mem := [], astr.slots := []
      retained := {}, blk.tamper := true, blk.ready := false, verdict := { faults := s1.verdict.faults } }

/-- `TAMPER_N` rises: the soft-reset path, with every tenant wiped before `READY` (R532). -/
def tamperRelease (s : State) (inp : BootIn) : State :=
  if !s.blk.tamper then s
  else
    let s1 := wipeTenants (softState { s with blk.tamper := false })
    let s2 := if s1.blk.held then s1 else mainDomains { s1 with pwr.asleep := false }
    startBlock { s2 with blk.resetCause := 4 } inp false

/-! ### Clocks (01 R25, 18 R539) -/

/-- A loop loses lock: its parts stop, collectives with a frame in a stopped pipe abort, and `STATION_LIVE` falls (R25, R208). -/
def lockLoss (s : State) (arith : Bool) : State :=
  if s.pwr.asleep || !(if arith then s.clkr.arithLock else s.clkr.secLock) then s
  else
    let s1 := raise { s with clkr.losses := bump s.clkr.losses 1 } 0xC1 (if arith then 0 else 1)
    let s2 := if arith then { s1 with clkr.arithLock := false } else { s1 with clkr.secLock := false }
    let hit := (admittedAll s2).filter (fun x => arith && (List.range 16).any (fun k => usesPipe s2 k x.1 x.2))
    { abortEach { st := .aborted } hit s2 with pins.stationLive := false }

/-- What waited for the arithmetic loop goes on: control stores, a window command, and the frames a boundary let return. -/
def arithResume (s : State) : State := returnEpoch (fab noStepIn) (winResume (loadWaiting s))

/-- `LIFT_HOLD`'s effect once Helm runs: the event of 15 R453 and the noise source (R429). -/
def liftRun (s : State) (inp : BootIn) : State := inp.noise.foldl noiseBlock (extendGate s)

/-- The wipes that have begun and could not run while Helm had no clock (18 R532: before `READY`). -/
def wipeStarted (s : State) : State := (List.range 32).foldl wipeDone s

/-- What waited for the security loop goes on: a start or a lifted hold, the gate's next step, scrapping, control stores, and what waits for
Logbook. -/
def secResume (s : State) : State :=
  let s1 := match s.helm.boot with
    | some r =>
      if r.wait = .clock then
        (if s.logb.lifted then liftRun { s with helm.boot := none } r.inp else startBlock (wipeStarted { s with helm.boot := none }) r.inp r.fast)
      else s
    | none => s
  afterProgram (afterLogb (loadWaiting (scrapResume (gateResume s1))))

/-- A loop locks again: what it had stopped goes on (R25), unless the block stands in reset. -/
def lockRegain (s : State) (arith : Bool) : State :=
  if s.pwr.asleep then s
  else
    let s1 := if arith then { s with clkr.arithLock := true } else { s with clkr.secLock := true }
    if inReset s1 then s1 else updateLive (if arith then arithResume s1 else secResume s1)

/-- A frequency within 1.0 GHz to 1.6 GHz. -/
def portInRange (mhz : Nat) : Bool := 1000 ≤ mhz && mhz ≤ 1600

/-- A measurement of `CLK_PORT`, where the port has power and the block stands out of reset (R512); the cause is set when it leaves its
range (R539). -/
def portMeasure (s : State) (mhz : Nat) : State :=
  let s1 := { s with clkr.portMhz := mhz }
  if dead s then s
  else if !portInRange mhz && (portInRange s.clkr.portMhz || s.clkr.portMhz = 0) then raise s1 0xC1 2 else s1

/-! ### `OTP_VPP` (18 R533, 14 R434, 15 R450) -/

/-- `VPP_OK` follows the supply: a loss stops a program's pulses, a rise lets pending scrapping go on. -/
def vppChange (s : State) (ok : Bool) (c : ProgCut) : State :=
  if ok then (if s.blk.held || s.blk.tamper || s.pwr.asleep then { s with logb.vpp := true } else scrapResume { s with logb.vpp := true })
  else if s.logb.vpp then { progStop s c with logb.vpp := false } else s

/-! ### The TAP (15 R429, R458, R459) -/

/-- The TAP may lift the hold: a reset hold in `MAKER` or `RETURNED`, region 5 itself good, and the domain Helm runs in powered (R429). -/
def liftable (s : State) : Bool :=
  s.logb.hold && !s.logb.lifted && (s.life.st = 1 || s.life.st = 4) && !s.life.scrapping && !s.blk.tamper && !s.pwr.asleep && domLive s 1
    && !regionFails s s.logb.sensed 5 && !(lifeDecide s.logb.sensed).hold

/-- The data registers that the TAP's instructions select (R458, Table 15.8). -/
inductive TapReg where
  | idcode | boundary | lcStatus | liftHold | mbox | halt | scan | bypass
  deriving DecidableEq, Repr

/-- The register an instruction code selects: the bypass register for one whose right is not open or that the state excludes, and for a code
of no instruction (R458; the last PRESUMED from IEEE 1149.1, log 177). -/
def tapSelect (s : State) (code : Nat) : TapReg :=
  if code = 0x01 then .idcode
  else if code = 0x02 then .boundary
  else if code = 0x03 && (s.life.st = 1 || !s.blk.ready) then .boundary
  else if code = 0x10 then .lcStatus
  else if code = 0x11 && liftable s then .liftHold
  else if code = 0x12 && helmRuns s then .mbox
  else if code = 0x20 && (s.life.rights.testBit 0 || s.life.rights.testBit 1) then .halt
  else if code = 0x21 && s.life.rights.testBit 3 then .scan
  else .bypass

/-- The register selected now. -/
def tapNow (s : State) : TapReg := tapSelect s s.life.tapIr

/-- `IDCODE` (Table 15.8). -/
def tapIdcode : Nat := 0x14F52567

/-- `LC_STATUS`, 16 bits (Table 15.8): the state, `TORN`, scrapping pending, `SCRAP_WAIT`, reset hold, hold lifted. -/
def lcStatus (s : State) : Nat :=
  (pack [(2, 0, s.life.st), (3, 3, s.life.torn.toNat), (4, 4, s.life.scrapping.toNat), (5, 5, (scrapWait s).toNat), (6, 6, s.logb.hold.toNat),
    (7, 7, s.logb.lifted.toNat)]).toNat

/-- `LIFT_HOLD` with a 1: the block then runs from ROM without a root (R429); what Helm does at once waits where its clock is stopped. -/
def liftHold (s0 : State) (inp : BootIn) : State :=
  let s := { s0 with life.tapIr := 0x11 }
  if tapNow s ≠ .liftHold then s
  else
    let s1 := { s with logb.lifted := true, blk.held := strapsBad s }
    if s1.clkr.secLock then liftRun s1 inp else { s1 with helm.boot := some (newRun inp .clock false) }

/-- `MBOX`: 64 bits are exchanged with Helm, where Helm runs; what Helm holds for the next exchange is its firmware's, and in a lifted block
what its ROM has read (Table 15.8, R459; log 161). -/
def tapMbox (s0 : State) (w : Word) : State :=
  let s := { s0 with life.tapIr := 0x12 }
  if tapNow s ≠ .mbox then s
  else
    let d := freeDraw s
    { d.2.emit (.tap s.life.mboxOut) with life.mboxIn := w, life.mboxOut := BitVec.ofNat 64 d.1 }

/-! ### The meanings -/

/-- `PORST` (R531). -/
def execPorst (profile : BitVec 2) (base : BitVec 32) (cut : ProgCut) (boot : BootIn) (s : State) : Host.Outcome State Fault Refusal :=
  .next (porstOp s profile.toNat base.toNat cut boot)

/-- `TAMPER_ASSERT` (R532). -/
def execTamperAssert (cut : ProgCut) (s : State) : Host.Outcome State Fault Refusal := .next (tamperAssert s cut)

/-- `TAMPER_RELEASE` (R532). -/
def execTamperRelease (boot : BootIn) (s : State) : Host.Outcome State Fault Refusal := .next (tamperRelease s boot)

/-- `LOOP_LOCK_LOSS` (R25). -/
def execLoopLockLoss (arith : Bool) (s : State) : Host.Outcome State Fault Refusal := .next (lockLoss s arith)

/-- `PORT_RANGE` (R539). -/
def execPortRange (mhz : BitVec 12) (s : State) : Host.Outcome State Fault Refusal := .next (portMeasure s mhz.toNat)

/-- `VPP_CHANGE` (R533). -/
def execVppChange (inRange : Bool) (cut : ProgCut) (s : State) : Host.Outcome State Fault Refusal := .next (vppChange s inRange cut)

/-- `VERDICT_WRITE` (R11). -/
def execVerdictWrite (kind : VerdictKind) (pathB : Bool) (w : BitVec 32) (gap : Nat) (s : State) : Host.Outcome State Fault Refusal :=
  .next (verdictWrite s kind pathB w.toNat gap)

/-- `VERDICT_WINDOW_EXPIRE` (R12). -/
def execVerdictWindowExpire (kind : VerdictKind) (s : State) : Host.Outcome State Fault Refusal := .next (verdictExpire s kind)

/-- `TAP_LIFT_HOLD` (R429): a 0 lifts nothing. -/
def execTapLiftHold (lift : Bool) (boot : BootIn) (s : State) : Host.Outcome State Fault Refusal :=
  .next (if lift then liftHold s boot else { s with life.tapIr := 0x11 })

/-- `TAP_MBOX` (R459). -/
def execTapMbox (w : Word) (s : State) : Host.Outcome State Fault Refusal := .next (tapMbox s w)

/-- `LOGB_CMD_DONE` (R433): the running program ends, and a start that waited for it goes on. -/
def execLogbCmdDone (out : ProgOut) (s : State) : Host.Outcome State Fault Refusal := .next (afterProgram (progEnd s out))

end Sys2Proof.Machine
end

