-- ==== Sys2Proof/Machine/Power.lean ====
section
/-! DEFINITION. The power domains (chapter 18): `PWR_CMD`, the handshakes, unrequested losses, deep sleep and wake. -/

namespace Sys2Proof.Machine


/-- A command refused before it starts: the access is refused and `PWR_RESULT` holds the status (R538, R542). -/
def pwrRefused (s : State) (a : Access) (d : Nat) (st : Status) : State :=
  refuse { s with pwr.status := stCode st, pwr.domain := d } a true pwrCmdAddr st

/-- The bus checks and `BUSY` of a write of `PWR_CMD`, the command's own refusal, the must-be-zero bits, then the command. -/
def pwrCmd (s : State) (a : Access) (v : Word) (bad : State → Option Status) (k : State → State) : State :=
  regWrite s a pwrCmdAddr (refuseIf s.pwr.running.isSome .wrongState) none (fun x =>
    match orElse (bad x) (mbz v (maskBits 54 0)) with
    | some st => pwrRefused x a (fld v 59 55) st
    | none => k x)

/-- Raise the request of a domain; while its acknowledge is still high from an earlier service it waits for the fall (R528). -/
def raiseReq (s : State) (d : Nat) : State :=
  if s.pwr.ack.testBit d && !s.pwr.req.testBit d then { s with pwr.again := setBit s.pwr.again d }
  else { s with pwr.req := setBit s.pwr.req d, pwr.rising := setBit s.pwr.rising d }

/-- `ON` of a domain that does not exist is refused (Table 18.16). -/
def onRefusal (d : Nat) : Option Status := refuseIf (d = 0 || 20 ≤ d) .badArg

/-- `ON`: the request rises, and `PD17` comes up with the first pipe pair; a domain in service ends at once (R538). -/
def pwrOnOp (s : State) (a : Access) (d : Nat) : State :=
  if domLive s d then pwrDone s a d .ok
  else
    let s1 := if 5 ≤ d ∧ d ≤ 12 then powerUp s 17 else s
    let s2 := raiseReq s1 d
    { s2 with pwr.running := some (true, d), pwr.acc := a }

/-- Domains that may never be switched off (R538). -/
def alwaysOn (d : Nat) : Bool := d = 0 || d = 1 || d = 2 || d = 4 || d = 18 || 20 ≤ d

/-- `OFF` is refused for what the domain holds or runs (R26, R540), then for a domain that stays on (R538), in the order of R542. -/
def offRefusal (s : State) (d : Nat) : Option Status :=
  orElse (refuseIf (domLive s d && (domainNeeded s d || domainBusy s d)) .wrongState) (refuseIf (alwaysOn d) .badArg)

/-- `OFF`: the domain's request falls (R529, R538). -/
def pwrOffOp (s : State) (a : Access) (d : Nat) : State :=
  if !domLive s d then pwrDone s a d .ok
  else
    let s1 := dropDomain s d
    { s1 with pwr.running := some (false, d), pwr.acc := a }

/-- `PWR_ACK` rises for a domain whose request has risen (R528, R537). -/
def ackRise (s : State) (d us : Nat) : State :=
  if !s.pwr.rising.testBit d then s
  else
    let s1 := { s with pwr.waitMax := max s.pwr.waitMax (min us 0xFFFF) }
    let s2 := domainUp (setLive (if 50 < us then raise s1 0xC0 2 else s1) d) d
    if s2.pwr.running = some (true, d) then pwrDone s2 s2.pwr.acc d .ok else s2

/-- A request that waited for the fall of its acknowledge starts afresh (R528). -/
def riseAgain (s : State) (d : Nat) : State :=
  if s.pwr.again.testBit d then raiseReq { s with pwr.again := clrBit s.pwr.again d } d else s

/-- `PWR_ACK` falls after its request fell (R528). -/
def ackFall (s : State) (d : Nat) : State :=
  if s.pwr.req.testBit d || !s.pwr.ack.testBit d then s
  else
    let s1 := riseAgain { s with pwr.ack := clrBit s.pwr.ack d } d
    if s1.pwr.running = some (false, d) then pwrDone s1 s1.pwr.acc d .ok else s1

/-! ### Unrequested loss (R530) -/

/-- The collectives with a frame or stream in either pipe of a pair abort, and the pair's frames leave. -/
def losePair (s : State) (n : Nat) : State :=
  let hit := (admittedAll s).filter (fun x => usesPipe s n x.1 x.2 || usesPipe s (n + 8) x.1 x.2)
  let s1 := (s.pipe n).buf.foldl (fun y f => leaveBuffer y n f.id) s
  abortEach { st := .aborted } hit s1

/-- A collective has a window: one `OPEN` for its ticket, or the allocated one its descriptor names. -/
def hasWindow (s : State) (p : Nat) (e : Entry) : Bool :=
  (openWin s p e.group e.ticket).isSome
    || (match entryDesc s p e with | some (d, _) => (match descWindow d with | some w => decide ((s.win w).kind ≠ .free) | none => false) | none => false)

/-- The collectives with a window abort, and no shadow window stays valid. -/
def losePhlox (s : State) : State :=
  let s1 := abortWhere (hasWindow s) { st := .aborted } s
  { s1 with phlx.wins := tmap {} (fun _ (w : Win) => { w with shadowValid := false }) s1.phlx.wins }

/-- A loss the block cannot run without: every request falls, a boundary is stopped, and the block stays in reset until `PORST_N` (R530,
09 R548). Keys go before the requests do (R529). -/
def loseMain (s : State) : State :=
  let s0 := ((List.range 19).map (· + 1)).foldl (fun x d => if domLive x d then dropDomain x d else x) (cancelDelivery s)
  let s1 := stopBoundary s0
  { s1 with
    pins.stationLive := false, blk.held := true, blk.ready := false, pwr.req := 1, pwr.live := 1, pwr.rising := 0, pwr.again := 0
    life := keptLife s1.life, bus.resp := {} }

/-- A pipe pair is lost: its collectives abort, and where the last pipe of a direction goes `STATION_LIVE` falls at once, an unplanned
fall (Table 18.8). -/
def losePairNow (s : State) (d : Nat) : State :=
  let s1 := dropDomain (losePair s (d - 5)) d
  updateLive (if liveCond s1 then s1 else { s1 with pins.stationLive := false })

/-- A fall of `PWR_ACK` while its request is high. -/
def powerLoss (s : State) (d : Nat) : State :=
  if d = 0 || !s.pwr.req.testBit d || !s.pwr.ack.testBit d then s
  else
    let s1 := raise { s with pwr.lost := setBit s.pwr.lost d, pwr.ack := clrBit s.pwr.ack d } 0xC0 1
    if d = 3 then zinResume (dropDomain (if s1.astr.st = .running then astrAbortNow s1 else s1) d)
    else if 5 ≤ d ∧ d ≤ 12 then losePairNow s1 d
    else if 13 ≤ d ∧ d ≤ 16 then dropDomain (losePhlox s1) d
    else loseMain (dropDomain s1 d)

/-! ### Wake (R527, 16 R490) -/

/-- `WAKE_REQ` ends deep sleep: the domains of a start come up, the loops lock, and the block starts. -/
def wakeUp (s : State) (inp : BootIn) : State :=
  if !s.pwr.asleep || s.blk.tamper || s.blk.held then s
  else startBlock (mainDomains { s with pwr.asleep := false, clkr.arithLock := true, clkr.secLock := true }) inp true

/-! ### The meanings -/

/-- `PWR_ON` (R538). -/
def execPwrOn (a : Access) (v : Word) (s : State) : Host.Outcome State Fault Refusal := .next (pwrCmd s a v (fun _ => onRefusal (fld v 59 55)) (fun x => pwrOnOp x a (fld v 59 55)))

/-- `PWR_OFF` (R538). -/
def execPwrOff (a : Access) (v : Word) (s : State) : Host.Outcome State Fault Refusal := .next (pwrCmd s a v (fun x => offRefusal x (fld v 59 55)) (fun x => pwrOffOp x a (fld v 59 55)))

/-- `PWR_SLEEP` (R29, R32, 16 R479). -/
def execPwrSleep (a : Access) (v : Word) (s : State) : Host.Outcome State Fault Refusal := .next (pwrCmd s a v sleepRefusal enterSleep)

/-- `PWR_ACK_FALL` (R528). -/
def execPwrAckFall (d : BitVec 5) (s : State) : Host.Outcome State Fault Refusal := .next (ackFall s d.toNat)

/-- `POWER_LOSS` (R530). -/
def execPowerLoss (d : BitVec 5) (s : State) : Host.Outcome State Fault Refusal := .next (powerLoss s d.toNat)

/-- `WAKE_REQ` (R527). -/
def execWakeReq (boot : BootIn) (s : State) : Host.Outcome State Fault Refusal := .next (wakeUp s boot)

end Sys2Proof.Machine
end

