-- ==== Sys2Proof/Machine/Bus.lean ====
section
/-! DEFINITION. The whole register space (chapters 2 and 18): any write and any read of a register, through the one operation each
command register has, and the header commands. A write that starts a command brings no memory of its own: what the command reads from the
host die is free (log 49). -/

namespace Sys2Proof.Machine

/-! ### What a bare register write brings a command -/

/-- Bytes that host-die memory returns: free. -/
def freeMem (s : State) : Option Bytes × State := (Config.freeBytes s.free, { s with free := s.free + 1 })

/-- How an operation ends that Helm runs in the engine for such a command: free (log 49). -/
def freeFault (s : State) : Option OpFault × State :=
  (match Config.freeFault s.free % 4 with | 0 => none | 1 => some .arith | 2 => some .ecc | _ => some .aborted, { s with free := s.free + 1 })

/-- A read of the update slot, and whether read-backs hold: free. -/
def freeStore (s : State) : StoreIn × State :=
  let m := freeMem s
  let d := freeDraw m.2
  ({ slot := m.1, backOk := d.1.testBit 0 }, d.2)

/-- What a boundary's commands bring. -/
def freeStep (s : State) : StepIn × State := let x := freeStore s; ({ noStepIn with st := x.1 }, x.2)

/-- What a start reads. -/
def freeBoot (s : State) : BootIn × State := let x := freeStore s; ({ store := x.1.slot, backOk := x.1.backOk, noise := [] }, x.2)

/-- The next state of a meaning that always has one. -/
def nextOf (s : State) (o : Host.Outcome State Fault Refusal) : State :=
  match o with
  | .next x => x
  | _ => s

/-- A command register whose code is none of its table's: the state refusal of the page, then `ST_BAD_ARG`. -/
def badCode (s : State) (a : Access) (addr : Nat) (busy : Bool) : State := regWrite s a addr (refuseIf busy .wrongState) (some .badArg) id

/-! ### Command registers by page -/

/-- `HELM_CMD` (Table 16.14). -/
def helmOp (s0 : State) (a : Access) (v : Word) : State :=
  let op := fld v 63 60
  let x := freeStore s0
  let s := x.2
  let m := freeMem s
  let m2 := freeMem m.2
  let b := freeBoot s
  if op = 1 then nextOf s (execUpdBegin a v x.1 s)
  else if op = 2 then nextOf s (execUpdBlock a v x.1 s)
  else if op = 3 then nextOf s (execUpdFinish a v x.1 s)
  else if op = 4 then nextOf s (execUpdAbort a v s)
  else if op = 5 then nextOf s (execActivate a v x.1 b.1 b.2)
  else if op = 6 then nextOf s (execHelmConfirm a v x.1 s)
  else if op = 7 then nextOf s (execHelmRevoke a v m.1 m.2)
  else if op = 8 then nextOf s (execForward a v x.1 s)
  else if op = 9 then nextOf s (execSettings a v x.1 s)
  else if op = 10 then nextOf s (execVerifyHost a v m.1 m2.1 m2.2)
  else badCode s a helmCmdAddr (s.blk.recovery || s.helm.confirming.isSome)

/-- `CHRT_CMD` (Table 12.7). -/
def chrtOp (s0 : State) (a : Access) (v : Word) : State :=
  let op := fld v 63 60
  let m := freeMem s0
  let p := freeMem m.2
  let s := p.2
  if op = 1 then nextOf s (execChrtImport a v m.1 p.1 s)
  else if op = 2 then nextOf s (execChrtConfirm a v s)
  else if op = 3 then nextOf s (execChrtCommit a v s)
  else if op = 4 then nextOf s (execChrtDiscard a v s)
  else if op = 5 then nextOf s (execChrtDelete a v s)
  else if op = 6 then nextOf s (execChrtGenerate a v s)
  else if op = 7 then nextOf s (execChrtDeliver a v s)
  else badCode s a chrtCmdAddr s.chrt.deleting.isSome

/-- `ASTR_CMD` (Table 13.11). -/
def astrOp (s : State) (a : Access) (v : Word) : State :=
  let op := fld v 63 60
  if op = 1 then nextOf s (execAstrRun a v s) else if op = 2 then nextOf s (execAstrAbort a v s) else astrBadOp s a v

/-- `LOGB_CMD` (Table 14.7). -/
def logbOp (s : State) (a : Access) (v : Word) : State :=
  let op := fld v 63 60
  if op = 1 then nextOf s (execLogbProgram a v s)
  else if op = 2 then nextOf s (execLogbReinforce a v s)
  else if op = 3 then nextOf s (execLockWrite a v s)
  else if op = 4 then nextOf s (execLockRead a v s)
  else if op = 5 then nextOf s (execAdvance a v s)
  else if op = 6 then nextOf s (execLogbRevoke a v s)
  else if op = 7 then nextOf s (execGenDus a v s)
  else if op = 8 then nextOf s (execMarginScan a v s)
  else badCode s a logbCmdAddr s.logb.running.isSome

/-- `LIFE_CMD` (Table 15.11). -/
def lifeOp (s0 : State) (a : Access) (v : Word) : State :=
  let op := fld v 63 60
  let m := freeMem s0
  let s := m.2
  if op = 1 then nextOf s (execTransition a v m.1 s)
  else if op = 2 then nextOf s (execLifeChallenge a v s)
  else if op = 3 then nextOf s (execUnlockPw a v s)
  else if op = 4 then nextOf s (execUnlockGrant a v m.1 s)
  else badCode s a lifeCmdAddr (s.life.running.isSome || s.life.pending ≠ 0)

/-- `RHMB_CH_CMD` of a channel (Table 11.3). -/
def chanOp (s : State) (a : Access) (k : Nat) (v : Word) : State :=
  let op := fld v 63 60
  if op = 1 then chanStart s a k v
  else if op = 2 then chanPause s a k v
  else if op = 3 then chanResume s a k v
  else if op = 4 then chanStop s a k v
  else badCode s a (chanCmdAddr k) false

/-- `PHLX_WIN_CMD` (Table 5.29). -/
def phlxOp (s : State) (a : Access) (v : Word) : State :=
  let op := fld v 63 60
  if op = 1 then nextOf s (execPhlxAlloc a v s)
  else if op = 2 then nextOf s (execPhlxFree a v s)
  else if op = 3 then nextOf s (execPhlxOpen a v s)
  else if op = 4 then nextOf s (execPhlxInvalidate a v s)
  else badCode s a winCmdAddr s.phlx.running.isSome

/-- `GRP_CMD` (Table 6.14); a code that only a tag may use is refused to management accesses first (R302). -/
def grpOp (s : State) (a : Access) (v : Word) : State :=
  let op := fld v 63 60
  if op = 1 then nextOf s (execGrpCommit a v s)
  else if op = 2 then nextOf s (execGrpClear a v s)
  else if op = 3 then nextOf s (execLaunch a v s)
  else if op = 4 then nextOf s (execGrpAbort a v s)
  else if op = 5 then nextOf s (execResyncSend a v s)
  else if op = 6 then nextOf s (execResyncRecv a v s)
  else if op = 7 then nextOf s (execSetEpoch a v s)
  else badCode s a grpCmdAddr (grpBusy s a)

/-- `PART_CMD` (Table 10.7). -/
def partOp (s : State) (a : Access) (p : Nat) (v : Word) : State :=
  let op := fld v 63 60
  let m := freeMem s
  let f := freeFault m.2
  if op = 1 then partAssign f.2 a p v { bytes := m.1, fail := f.1 }
  else if op = 2 then partRelease s a p v
  else badCode s a (partCmdAddr p) (partBusy s p)

/-- `PWR_CMD` (Table 18.16). -/
def pwrOp (s : State) (a : Access) (v : Word) : State :=
  let op := fld v 63 60
  if op = 1 then nextOf s (execPwrOn a v s)
  else if op = 2 then nextOf s (execPwrOff a v s)
  else if op = 3 then nextOf s (execPwrSleep a v s)
  else badCode s a pwrCmdAddr s.pwr.running.isSome

/-! ### Writes -/

/-- Pages 0x00 to 0x30: the command registers, else a plain register. -/
def writeLow (s : State) (a : Access) (p off : Nat) (v : Word) : State :=
  if p = 0x00 ∧ off = 0x60 then (let b := freeBoot s; nextOf s (execBlkSoftReset a v b.1 b.2))
  else if p = 0x02 ∧ off = 0x40 then helmOp s a v
  else if p = 0x03 ∧ off = 0x48 then stageAccess s a true v
  else if p = 0x04 ∧ off = 0x58 then (let x := freeStep s; nextOf s (execMrdAdvance a v x.1 x.2))
  else if p = 0x04 ∧ off = 0x60 then mrdStepSet s a v
  else if p = 0x05 ∧ 0x100 ≤ off ∧ off < 0x500 ∧ off % 16 = 0 then schedWrite s a ((off - 0x100) / 16) v
  else if p = 0x0A ∧ off = 0x40 then chrtOp s a v
  else if p = 0x0C ∧ off = 0x50 then astrCsData s a v
  else if p = 0x0C ∧ off = 0x58 then astrCsCommit s a v
  else if p = 0x0C ∧ off = 0x60 then astrOp s a v
  else if p = 0x0D ∧ off = 0x48 then astrSlotDesc s a v
  else if p = 0x0D ∧ off = 0x58 then astrData s a true v
  else if p = 0x0D ∧ off = 0x60 then astrZero s a v
  else if p = 0x10 ∧ off = 0x50 then logbOp s a v
  else if p = 0x12 ∧ off = 0x48 then lifeOp s a v
  else if p = 0x15 ∧ off = 0x40 then
    (if fld v 63 60 = 1 then nextOf s (execExtend a v s) else badCode s a (regAt 0x15 0x40) false)
  else if 0x20 ≤ p ∧ p ≤ 0x2F ∧ off = 0x58 then chanOp s a (p - 0x20) v
  else if 0x20 ≤ p ∧ p ≤ 0x2F ∧ off = 0xA0 then chanBell s a (p - 0x20) v
  else if p = 0x30 ∧ off = 0x40 then gctrlWrite s a v
  else if p = 0x30 ∧ off = 0x58 then semWrite s a v
  else if p = 0x30 ∧ 0x60 ≤ off ∧ off < 0xA0 then mgmtRegionWrite s a ((off - 0x60) / 16) (decide (off % 16 = 8)) v
  else plainWrite s a (regAt p off) v

/-- Pages 0x40 to 0x62. -/
def writeMid (s : State) (a : Access) (p off : Nat) (v : Word) : State :=
  if p < 0x50 ∧ off = 0x40 then bindWrite s a (p - 0x40) v
  else if p < 0x50 ∧ off = 0x58 then csDataWrite s a (p - 0x40) v
  else if p < 0x50 ∧ off = 0x60 then csCommit s a (p - 0x40) v
  else if p < 0x50 ∧ off = 0x78 then kcFlushWrite s a (p - 0x40) v
  else if p = 0x51 ∧ off = 0x58 then phlxOp s a v
  else if p = 0x55 ∧ off = 0x80 then (let m := freeMem s; let q := freeMem m.2; zinCmd q.2 a v m.1 q.1)
  else if p = 0x56 ∧ off = 0xC0 then sndStCmd s a v
  else if p = 0x56 ∧ off = 0xC8 then ctxCmd s a v none
  else if p = 0x60 ∧ 0x48 ≤ off ∧ off ≤ 0x80 then grpDescWrite s a ((off - 0x48) / 8) v
  else if p = 0x60 ∧ off = 0x88 then grpOp s a v
  else if p = 0x60 ∧ off = 0xD0 then stationWrite s a v
  else if p = 0x61 ∧ off = 0x50 then mbrWrite s a v
  else if p = 0x62 ∧ off = 0x58 then trackWrite s a v
  else if p = 0x62 ∧ off = 0x78 then strgClearWrite s a v
  else plainWrite s a (regAt p off) v

/-- Pages from 0x80. -/
def writeHigh (s : State) (a : Access) (p off : Nat) (v : Word) : State :=
  if p < 0xA0 ∧ off = 0x88 then partOp s a (p - 0x80) v
  else if p < 0xA0 ∧ (off = 0x98 ∨ off = 0xA0) then quotaWrite s a (p - 0x80) (decide (off = 0xA0)) v
  else if p < 0xA0 ∧ off = 0xA8 then mbrRangeWrite s a (p - 0x80) v
  else if p < 0xA0 ∧ off = 0xB0 then channelsWrite s a (p - 0x80) v
  else if p < 0xA0 ∧ 0x100 ≤ off ∧ off < 0x180 then regionWrite s a (p - 0x80) ((off - 0x100) / 16) (decide (off % 16 = 8)) v
  else if p = 0xC0 ∧ off = 0x48 then pwrOp s a v
  else plainWrite s a (regAt p off) v

/-- A write that has passed the bus: a command register, or a plain one. -/
def writeAt (s : State) (a : Access) (p off : Nat) (v : Word) : State :=
  if p < 0x40 then writeLow s a p off v else if p < 0x80 then writeMid s a p off v else writeHigh s a p off v

/-- A register write with its byte enables (R39, R42 to R47, R514). -/
def busWrite (s : State) (a : Access) (addr be : Nat) (v : Word) : State :=
  match gate s a addr be true with
  | .dead => s
  | .decode st => decodeError s a true addr st
  | .refuse st => refuse s a true addr st
  | .pass => writeAt s a (addr / 4096) (addr % 4096) v

/-! ### Reads -/

/-- A read that has passed the bus: a data port moves on, any other register is shown (R41, R53 to R55).
An open test page shows a free value: its registers are not published (log 48). -/
def readAt (s : State) (a : Access) (addr : Nat) : State :=
  let p := addr / 4096
  let off := addr % 4096
  if p = 0x03 ∧ off = 0x48 then stageAccess s a false 0
  else if p = 0x0D ∧ off = 0x58 then astrData s a false 0
  else if p = 0x61 ∧ off = 0x50 then mbrRead s a
  else if pageClassNow s p = .test ∧ 0x40 ≤ off then regRead s a addr none (BitVec.ofNat 64 (freeDraw s).1) (fun x => { x with free := x.free + 1 })
  else
    let r := readReg s a p off
    match r.1 with
    | .val w => regRead s a addr none w (fun x => { x with bus.latch := r.2.bus.latch })
    | .wo => regRead s a addr (some .badArg) 0 id
    | .refused st => regRead s a addr (some st) 0 id

/-- A register read with its byte enables (R39, R42 to R47, R514). -/
def busRead (s : State) (a : Access) (addr be : Nat) : State :=
  match gate s a addr be false with
  | .dead => s
  | .decode st => decodeError s a false addr st
  | .refuse st => refuse s a false addr st
  | .pass => readAt s a addr

/-- A register access of a channel (11 R341). -/
def busFn : State → Access → Bool → Nat → Word → State :=
  fun s a write addr v => if write then busWrite s a addr 0xFF v else busRead s a addr 0xFF

/-- A write of this register lets a channel go on: a channel command, or a context command, which starts one (11 Table 11.3, 08 R278). -/
def movesChan (addr : Nat) : Bool :=
  (0x20 ≤ addr / 4096 && addr / 4096 ≤ 0x2F && addr % 4096 = 0x58) || addr = regAt 0x56 0xC8

/-- What the channels do in their turns once a write that reached its register has acted (11 R346); one that did not moves none. -/
def pumpReached (s : State) (a : Access) (addr be : Nat) (t : State) : State :=
  match gate s a addr be true with
  | .pass => pumpAll busFn t
  | _ => t

/-- A write of the host or of Helm, and what the channels it lets go on then do. -/
def hostWrite (s : State) (a : Access) (addr be : Nat) (v : Word) : State :=
  let s1 := busWrite s a addr be v
  if movesChan addr then pumpReached s a addr be s1 else s1

/-- The access reaches a maker test page past its header while the right is open: the spec gives those registers nowhere (02 R46). -/
def hitsTest (s : State) (a : Access) (addr be : Nat) (write : Bool) : Bool :=
  pageClassNow s (addr / 4096) = .test && 0x40 ≤ addr % 4096 && decide (gate s a addr be write = .pass)

/-! ### The meanings -/

/-- `REGISTER_WRITE` (R546). -/
def execRegisterWrite (a : Access) (addr : BitVec 20) (be : BitVec 8) (v : Word) (s : State) : Host.Outcome State Fault Refusal :=
  if hitsTest s a addr.toNat be.toNat true then .refused (.testPage addr.toNat) else .next (hostWrite s a addr.toNat be.toNat v)

/-- `REGISTER_READ` (R44). -/
def execRegisterRead (a : Access) (addr : BitVec 20) (be : BitVec 8) (s : State) : Host.Outcome State Fault Refusal :=
  if hitsTest s a addr.toNat be.toNat false then .refused (.testPage addr.toNat) else .next (busRead s a addr.toNat be.toNat)

/-- `WIDE_READ_LATCH` (R41): a read of the first register of a wide value. -/
def execWideReadLatch (a : Access) (addr : BitVec 20) (s : State) : Host.Outcome State Fault Refusal :=
  if hitsTest s a addr.toNat 0xFF false then .refused (.testPage addr.toNat) else .next (busRead s a addr.toNat 0xFF)

/-- `INT_SET_WRITE` (R50). -/
def execIntSetWrite (a : Access) (page : BitVec 8) (v : Word) (s : State) : Host.Outcome State Fault Refusal :=
  .next (regWrite s a (regAt page.toNat 0x28) none none (fun x => intSet x page.toNat v))

/-- `PAGE_LOCK_WRITE` (R51). -/
def execPageLockWrite (a : Access) (page : BitVec 8) (v : Word) (s : State) : Host.Outcome State Fault Refusal :=
  .next (regWrite s a (regAt page.toNat 0x30) none none (fun x => lockPage x page.toNat v))

end Sys2Proof.Machine
end

