-- ==== Sys2Proof/Machine/Dma.lean ====
section
/-! DEFINITION. The meanings of the Rhumb, partition and context commands (chapters 8, 10 and 11): each runs its shared
operation, and then every channel goes on as far as it can. -/

namespace Sys2Proof.Machine

/-! ### What lets the channels go on -/

/-- `LOOP_LOCK_REGAIN` (R208, 01 R25): the channels' answers and beats go on with what else the loop stopped. -/
def execLoopLockRegain (arith : Bool) (s : State) : Host.Outcome State Fault Refusal := .next (pumpAll busFn (lockRegain s arith))

/-- `PWR_ACK_RISE` (R528): the channels' beats go on with the port's domain (R512). -/
def execPwrAckRise (d : BitVec 5) (us : Nat) (s : State) : Host.Outcome State Fault Refusal := .next (pumpAll busFn (ackRise s d.toNat us))

/-! ### Context commands -/

/-- `SND_CTX_SAVE` (R278 to R280). -/
def execSndCtxSave (a : Access) (v : Word) (e : EccIn × Option (BitVec 15 × TileFault)) (s : State) : Host.Outcome State Fault Refusal :=
  .next (pumpReached s a ctxCmdAddr 0xFF (eccContext s (ctxCmd s a v (e.2.map (fun f => (f.1.toNat, f.2)))) e.1))

/-- `SND_CTX_RESTORE` (R281, R282). -/
def execSndCtxRestore (a : Access) (v : Word) (e : EccIn × Option (BitVec 15 × TileFault)) (s : State) : Host.Outcome State Fault Refusal :=
  .next (pumpReached s a ctxCmdAddr 0xFF (eccContext s (ctxCmd s a v (e.2.map (fun f => (f.1.toNat, f.2)))) e.1))

/-! ### Partitions -/

/-- `ASSIGN` (R307). -/
def execAssign (a : Access) (part : BitVec 5) (v : Word) (mem : AssignIn) (s : State) : Host.Outcome State Fault Refusal :=
  .next (partAssign s a part.toNat v mem)

/-- `PART_CMD_RELEASE` (R309). -/
def execPartCmdRelease (a : Access) (part : BitVec 5) (v : Word) (s : State) : Host.Outcome State Fault Refusal :=
  .next (partRelease s a part.toNat v)

/-- `WIPE_DONE` (R310). -/
def execWipeDone (part : BitVec 5) (s : State) : Host.Outcome State Fault Refusal := .next (pumpAll busFn (wipeDone s part.toNat))

/-- `PART_REGION_WRITE` (R312 to R315). -/
def execPartRegionWrite (a : Access) (part : BitVec 5) (w : BitVec 3) (limit : Bool) (v : Word) (s : State) : Host.Outcome State Fault Refusal :=
  .next (regionWrite s a part.toNat w.toNat limit v)

/-- `REGION_DISABLE_DONE` (R315). -/
def execRegionDisableDone (part : BitVec 5) (w : BitVec 3) (s : State) : Host.Outcome State Fault Refusal :=
  .next (whenSec s (fun x => regionDisableDone x part.toNat w.toNat))

/-- `PART_MBR_RANGE_WRITE` (R319). -/
def execPartMbrRangeWrite (a : Access) (part : BitVec 5) (v : Word) (s : State) : Host.Outcome State Fault Refusal :=
  .next (mbrRangeWrite s a part.toNat v)

/-- `PART_CHANNELS_WRITE` (R320). -/
def execPartChannelsWrite (a : Access) (part : BitVec 5) (v : Word) (s : State) : Host.Outcome State Fault Refusal :=
  .next (channelsWrite s a part.toNat v)

/-- `PART_QUOTA_WRITE` (R317). -/
def execPartQuotaWrite (a : Access) (part : BitVec 5) (second : Bool) (v : Word) (s : State) : Host.Outcome State Fault Refusal :=
  .next (quotaWrite s a part.toNat second v)

/-! ### Channel commands -/

/-- `RHMB_START` (R325). -/
def execRhmbStart (a : Access) (ch : BitVec 4) (v : Word) (s : State) : Host.Outcome State Fault Refusal :=
  .next (pumpReached s a (chanCmdAddr ch.toNat) 0xFF (chanStart s a ch.toNat v))

/-- `RHMB_PAUSE` (R348). -/
def execRhmbPause (a : Access) (ch : BitVec 4) (v : Word) (s : State) : Host.Outcome State Fault Refusal := .next (chanPause s a ch.toNat v)

/-- `PAUSE_DRAINED` (R348). -/
def execPauseDrained (ch : BitVec 4) (s : State) : Host.Outcome State Fault Refusal := .next (whenSec s (fun x => pauseDrained busFn x ch.toNat))

/-- `RHMB_RESUME` (R348). -/
def execRhmbResume (a : Access) (ch : BitVec 4) (v : Word) (s : State) : Host.Outcome State Fault Refusal :=
  .next (pumpReached s a (chanCmdAddr ch.toNat) 0xFF (chanResume s a ch.toNat v))

/-- `RHMB_STOP` (R351). -/
def execRhmbStop (a : Access) (ch : BitVec 4) (v : Word) (s : State) : Host.Outcome State Fault Refusal :=
  .next (pumpReached s a (chanCmdAddr ch.toNat) 0xFF (chanStop s a ch.toNat v))

/-- `RHMB_CH_DOORBELL` (R343). -/
def execRhmbChDoorbell (a : Access) (ch : BitVec 4) (v : Word) (s : State) : Host.Outcome State Fault Refusal := .next (chanBell s a ch.toNat v)

/-- `RHMB_GCTRL_WRITE` (R353). -/
def execRhmbGctrlWrite (a : Access) (v : Word) (s : State) : Host.Outcome State Fault Refusal := .next (gctrlWrite s a v)

/-- `RHMB_SEM_WRITE` (R353). -/
def execRhmbSemWrite (a : Access) (v : Word) (s : State) : Host.Outcome State Fault Refusal := .next (semWrite s a v)

/-! ### Instructions -/

/-- `MOVE` (R338, R339). -/
def execMove (ch : BitVec 4) (s : State) : Host.Outcome State Fault Refusal := .next (runIns busFn s ch.toNat 1 (fun x i => insMove x i ch.toNat))

/-- `MOVE_SG` (R331). -/
def execMoveSg (ch : BitVec 4) (s : State) : Host.Outcome State Fault Refusal := .next (runIns busFn s ch.toNat 2 (fun x i => insMoveSg x i ch.toNat))

/-- `FILL` (R333). -/
def execFill (ch : BitVec 4) (s : State) : Host.Outcome State Fault Refusal := .next (runIns busFn s ch.toNat 3 (fun x i => insFill x i ch.toNat))

/-- `COMPARE` (R333). -/
def execCompare (ch : BitVec 4) (s : State) : Host.Outcome State Fault Refusal := .next (runIns busFn s ch.toNat 4 (fun x i => insCompare x i ch.toNat))

/-- `SHUFFLE` (R335). -/
def execShuffle (ch : BitVec 4) (s : State) : Host.Outcome State Fault Refusal := .next (runIns busFn s ch.toNat 5 (fun x i => insShuffle x i ch.toNat))

/-- `LOOP` (R334). -/
def execLoop (ch : BitVec 4) (s : State) : Host.Outcome State Fault Refusal := .next (runIns busFn s ch.toNat 6 (fun x i => insLoop x i ch.toNat))

/-- `WAIT` (R343). -/
def execWait (ch : BitVec 4) (s : State) : Host.Outcome State Fault Refusal := .next (runIns busFn s ch.toNat 7 (fun x i => insWait x i ch.toNat))

/-- `WAIT_SATISFIED` (R343, R345). -/
def execWaitSatisfied (s : State) : Host.Outcome State Fault Refusal := .next (whenSec s (judgeWaits busFn))

/-- `SIGNAL` (R343, R344). -/
def execSignal (ch : BitVec 4) (s : State) : Host.Outcome State Fault Refusal := .next (runIns busFn s ch.toNat 8 (fun x i => insSignal x i ch.toNat))

/-- `LIST` (R332). -/
def execList (ch : BitVec 4) (s : State) : Host.Outcome State Fault Refusal := .next (runIns busFn s ch.toNat 9 (fun x i => insList x i ch.toNat))

/-- `END` (R352). -/
def execEndRun (ch : BitVec 4) (s : State) : Host.Outcome State Fault Refusal := .next (runIns busFn s ch.toNat 15 (fun x i => insEnd x i ch.toNat))

/-! ### The memory master port -/

/-- `MMP_READ_RESPONSE` (R515). -/
def execMmpReadResponse (id : BitVec 8) (data : Option Bytes) (s : State) : Host.Outcome State Fault Refusal :=
  .next (answerReq busFn s id.toNat false data)

/-- `MMP_WRITE_RESPONSE` (R515). -/
def execMmpWriteResponse (id : BitVec 8) (ok : Bool) (s : State) : Host.Outcome State Fault Refusal :=
  .next (answerReq busFn s id.toNat true (if ok then some [] else none))

/-- `MMP_TIMEOUT` (R515). -/
def execMmpTimeout (id : BitVec 8) (us : Nat) (s : State) : Host.Outcome State Fault Refusal := .next (timeoutReq busFn s id.toNat us)

end Sys2Proof.Machine
end

