-- ==== Sys2Proof/Machine/Spdm.lean ====
section
/-! DEFINITION. The SPDM responder and the Epenox report (chapter 17): the mailbox, the messages, the sessions and the report.
Message layouts are those of DSP0274 1.2 and DSP0277, which the spec names (log 54). -/

namespace Sys2Proof.Machine

/-! ### The mailbox (R502, R503) -/

/-- The base of the mailbox while a request waits in it and Helm may take it: between two step boundaries, for what a report holds is one
snapshot there (R510). DESIGN CHOICE (log 162): for any request. -/
def mailOpen (s : State) : Option Nat :=
  let w : Region := tget {} s.rhmb.mgmt 3
  let req : Sem := tget {} s.rhmb.sems 31
  let rsp : Sem := tget {} s.rhmb.sems 30
  if helmRuns s && s.mrd.running.isNone && domLive s 18 && s.blk.ready && !s.blk.recovery && w.en && !w.closing && w.rd && w.wr && w.base + 32768 ≤ w.limit
      && !req.owned && !rsp.owned && req.value ≠ 0 && rsp.value = 0
  then some w.base else none

/-- The head of a request area is as R502 has it. -/
def headOk (m : Bytes) : Bool := leAt m 0 4 ≤ 16368 && leAt m 8 1 ≤ 1 && (slice m 9 7).all (· = 0)

/-- Set a semaphore's value. -/
def semSet (s : State) (i n : Nat) : State :=
  let x : Sem := tget {} s.rhmb.sems i
  { s with rhmb.sems := tset {} s.rhmb.sems i { x with value := n } }

/-- Write a response and raise semaphore 30 (R503 steps 3 and 4). -/
def mailAnswer (s : State) (base seq : Nat) (secured : Bool) (msg : Bytes) : State :=
  let head := leBytes 4 msg.length ++ leBytes 4 seq ++ leBytes 1 secured.toNat ++ zeros 7
  semSet ((semSet s 31 0).emit (.mem (base + 16384) (head ++ msg))) 30 1

/-! ### Sessions -/

/-- Session 0 or 1. -/
def sessOf (s : State) (i : Nat) : SpdmSession := if i = 0 then s.spdm.s0 else s.spdm.s1
def setSess (s : State) (i : Nat) (x : SpdmSession) : State := if i = 0 then { s with spdm.s0 := x } else { s with spdm.s1 := x }

/-- The slot of a session's secret (R495): 0 and 1 the handshake secrets of the requester and of the block, 2 and 3 the application ones. -/
def sessSlot (i which : Nat) : Nat := 4 + 4 * i + which

/-- The secret in force for a direction of a session. -/
def sessKey (s : State) (i : Nat) (rsp : Bool) : Option Key :=
  slotKey s (sessSlot i ((if (sessOf s i).finished then 2 else 0) + rsp.toNat))

/-- Put a session secret in its slot. -/
def putSecret (s : State) (i which : Nat) (k : Key) : State :=
  putSlot s (sessSlot i which) .active k (mkAttr 0 0 10 (usageOf 10) 0 (2 ^ 17) 0 0 true) none

/-- A session ends: its slots are zeroed. -/
def closeSess (s : State) (i : Nat) : State :=
  setSess ((List.range 4).foldl (fun (x : State) w => zeroSlot x (sessSlot i w)) s) i {}

/-- The open session of an identifier. -/
def sessById (s : State) (id : Nat) : Option Nat :=
  if s.spdm.s0.isOpen && s.spdm.s0.id = id then some 0 else if s.spdm.s1.isOpen && s.spdm.s1.id = id then some 1 else none

/-! ### Requests and responses -/

/-- `ERROR` (R504). -/
def errorMsg (code data : Nat) : Bytes := [0x12, 0x7F, BitVec.ofNat 8 code, BitVec.ofNat 8 data]

/-- What a request leads to: the response, the state before it is sent, and what follows its sending. -/
structure Reply where
  msg : Bytes
  st : State
  close : Option Nat := none
  finish : Option (Nat × Bytes) := none

/-- An answer that does nothing more. -/
def answers (s : State) (msg : Bytes) : Reply := { msg := msg, st := s }

/-- An `ERROR` answer: `InvalidRequest` 0x01, `Busy` 0x03, `UnexpectedRequest` 0x04, `Unspecified` 0x05. -/
def fails (s : State) (code : Nat) : Reply := answers s (errorMsg code 0)

/-- The check of the slot a session's message is read or sent under is made (12 R363). -/
def noteSess (s : State) (i : Nat) (rsp : Bool) : State := noteBad s (sessSlot i ((if (sessOf s i).finished then 2 else 0) + rsp.toNat))

/-- The check of the slot the waiting request is opened under, where it names an open session. -/
def noteRequest (s : State) (m : Bytes) : State :=
  if leAt m 8 1 = 0 then s else match sessById s (leAt (slice m 16 (leAt m 0 4)) 0 4) with | some i => noteSess s i false | none => s

/-- The request in the mailbox: the state after its taking, the session it came in, and its bytes; or an error code. -/
def openRequest (s : State) (m : Bytes) : Except Nat (State × Option Nat × Bytes) :=
  let msg := slice m 16 (leAt m 0 4)
  if leAt m 8 1 = 0 then .ok (s, none, msg)
  else match sessById s (leAt msg 0 4) with
    | none => .error 0x02
    | some i => match sessKey s i false with
      | none => .error 0x02
      | some k =>
        let x := sessOf s i
        match Config.spdmOpen k x.seqReq (msg.drop 4) with
        | none => .error 0x06
        | some b => .ok (setSess s i { x with seqReq := x.seqReq + 1 }, some i, b)

/-- What follows a response: a session closes, or its application secrets come into force (`FINISH`). -/
def afterReply (s : State) (r : Reply) : State :=
  match r.close, r.finish with
  | some i, _ => closeSess s i
  | none, some (i, t) =>
    let x := sessOf s i
    let s1 := putSecret (putSecret s i 2 (Config.spdmSecret x.dhe t 2)) i 3 (Config.spdmSecret x.dhe t 3)
    setSess (zeroSlot (zeroSlot s1 (sessSlot i 0)) (sessSlot i 1)) i { x with finished := true, seqReq := 0, seqRsp := 0, trans := t }
  | none, none => s

/-- The most bytes of a message (R502). -/
def mailMax : Nat := 16368

/-- A message in the form a secured response has in the area: the session, then the record. -/
def sealedMsg (k : Key) (x : SpdmSession) (msg : Bytes) : Bytes := leBytes 4 x.id ++ Config.spdmSeal k x.seqRsp msg

/-- A message that passes the area is answered in its place with the error `ResponseTooLarge` (R502; DESIGN CHOICE, log 163). -/
def fitted (wrap : Bytes → Bytes) (msg : Bytes) : Bytes :=
  if (wrap msg).length ≤ mailMax then wrap msg else (wrap (errorMsg 0x0D 0)).take mailMax

/-- Send a response, in a session under its record layer. -/
def sendReply (base seq : Nat) (sess : Option Nat) (r : Reply) : State :=
  match sess with
  | none => afterReply (mailAnswer r.st base seq false (fitted id r.msg)) r
  | some i =>
    let s := noteSess r.st i true
    let x := sessOf s i
    match sessKey s i true with
    | none => afterReply (mailAnswer s base seq false (errorMsg 0x05 0)) r
    | some k => afterReply (mailAnswer (setSess s i { x with seqRsp := x.seqRsp + 1 }) base seq true (fitted (sealedMsg k x) r.msg)) r

/-- Serve the waiting request, where its code is one the command names (R503, R504); a request too short for a header is malformed. -/
def spdmOp (s0 : State) (m : Bytes) (named : Nat → Bool) (body : State → Option Nat → Bytes → Reply) : State :=
  match mailOpen s0 with
  | none => s0
  | some base =>
    let seq := leAt m 4 4
    if !headOk m then mailAnswer s0 base seq false []
    else
      let s := noteRequest s0 m
      match openRequest s m with
      | .error e => mailAnswer s base seq false (errorMsg e 0)
      | .ok x =>
        if x.2.2.length < 4 then sendReply base seq x.2.1 (fails x.1 0x01)
        else if named (leAt x.2.2 1 1) then sendReply base seq x.2.1 (body x.1 x.2.1 x.2.2) else s

/-! ### Negotiation (Tables 17.4 and 17.5) -/

/-- The request has its version and length; a wrong version is answered `VersionMismatch`. -/
def formedReq (s : State) (b : Bytes) (ver len : Nat) (k : Reply) : Reply :=
  if leAt b 0 1 ≠ ver then fails s 0x41 else if b.length < len then fails s 0x01 else k

/-- `VERSION` lists 1.2 alone. -/
def versionMsg : Bytes := [0x10, 0x04, 0, 0, 0, 1, 0x00, 0x12]

/-- `GET_VERSION` resets the connection state. -/
def versionBody (s : State) (sess : Option Nat) (b : Bytes) : Reply :=
  if sess.isSome then fails s 0x04
  else formedReq s b 0x10 4 (
    let s1 := closeSess (closeSess s 0) 1
    answers { s1 with spdm.conn := 1, spdm.dhe := false, spdm.negotiated := b.take 4 ++ versionMsg, spdm.measured := [], spdm.certMsgs := [] } versionMsg)

/-- `CAPABILITIES` (R504). -/
def capabilitiesMsg : Bytes :=
  [0x12, 0x61, 0, 0, 0, 13, 0, 0] ++ leBytes 4 (2 ^ 1 + 2 ^ 2 + 2 ^ 4 + 2 ^ 6 + 2 ^ 7 + 2 ^ 9 + 2 ^ 14) ++ leBytes 4 16368 ++ leBytes 4 16368

/-- `GET_CAPABILITIES` follows `GET_VERSION`. -/
def capabilitiesBody (s : State) (sess : Option Nat) (b : Bytes) : Reply :=
  if sess.isSome || s.spdm.conn ≠ 1 then fails s 0x04
  else formedReq s b 0x12 20 (
    let n := s.spdm.negotiated ++ b ++ capabilitiesMsg
    answers { s with spdm.conn := 2, spdm.negotiated := n } capabilitiesMsg)

/-- The algorithm structures of a request: type and the first 16 supported bits. -/
def algStructs : Nat → Bytes → Option (List (Nat × Nat))
  | 0, _ => some []
  | n + 1, b =>
    if b.length < 4 then none
    else
      let ext := 4 * (leAt b 1 1 % 16)
      (algStructs n (b.drop (4 + ext))).map (fun l => (leAt b 0 1, leAt b 2 2) :: l)

/-- The bit the block selects in a structure of a type: secp384r1, AES-256-GCM, none, the SPDM key schedule. -/
def algBit (t : Nat) : Nat := if t = 2 then 2 ^ 4 else if t = 3 then 2 ^ 1 else if t = 5 then 2 ^ 0 else 0

/-- A structure's selection. -/
def algPick (x : Nat × Nat) : Nat := x.2 &&& algBit x.1

/-- `ALGORITHMS` for the structures of a request. -/
def algorithmsMsg (l : List (Nat × Nat)) : Bytes :=
  [0x12, 0x63, BitVec.ofNat 8 l.length, 0] ++ leBytes 2 (36 + 4 * l.length) ++ [1, 0] ++ leBytes 4 (2 ^ 2) ++ leBytes 4 (2 ^ 7) ++ leBytes 4 (2 ^ 1)
    ++ zeros 12 ++ zeros 4 ++ (l.map (fun x => [BitVec.ofNat 8 x.1, 0x20] ++ leBytes 2 (algPick x))).flatten

/-- `NEGOTIATE_ALGORITHMS` (Table 17.5). -/
def algorithmsBody (s : State) (sess : Option Nat) (b : Bytes) : Reply :=
  if sess.isSome || s.spdm.conn ≠ 2 then fails s 0x04
  else formedReq s b 0x12 32 (
    match algStructs (leAt b 2 1) (b.drop (32 + 4 * (leAt b 28 1 + leAt b 29 1))) with
    | none => fails s 0x01
    | some l =>
      if !(leAt b 6 1).testBit 0 || !(leAt b 8 4).testBit 7 || !(leAt b 12 4).testBit 1 then fails s 0x01
      else
        let r := algorithmsMsg l
        let picks (t : Nat) : Bool := l.any (fun x => x.1 = t && algPick x ≠ 0)
        let n := s.spdm.negotiated ++ b ++ r
        answers { s with spdm.conn := 3, spdm.dhe := picks 2 && picks 3 && picks 5, spdm.negotiated := n } r)

/-! ### Certificates (R505) -/

/-- The slot 0 chain from the certificate area and the issued certificate; none where the slot is empty. -/
def chainOf (s : State) (area : Option Bytes) : Option Bytes :=
  match area.bind areaEntries with
  | none => none
  | some es =>
    let cas := ((List.range 256).map (fun d => es.filter (fun e => e.kind = 1 && e.depth = d))).flatten
    match cas, es.find? (fun e => e.kind = 3) with
    | root :: rest, some dev =>
      if s.spdm.aliasEc = [] then none
      else
        let body := digestBytes (Config.sha384 root.der) ++ ((root :: rest).map (·.der)).flatten ++ dev.der ++ s.spdm.aliasEc
        some (leBytes 2 (body.length + 4) ++ zeros 2 ++ body)
    | _, _ => none

/-- `GET_DIGESTS`: slot 0 only. -/
def digestsBody (area : Option Bytes) (s : State) (_ : Option Nat) (b : Bytes) : Reply :=
  if s.spdm.conn ≠ 3 then fails s 0x04
  else formedReq s b 0x12 4 (
    let r : Bytes := match chainOf s area with
      | some c => [0x12, 0x01, 0, 1] ++ digestBytes (Config.sha384 c)
      | none => [0x12, 0x01, 0, 0]
    answers { s with spdm.certMsgs := s.spdm.certMsgs ++ b ++ r } r)

/-- The most bytes of a chain in one response: what the area leaves beside the 8 bytes of the message's head, and in a session beside the
session, the two lengths and the tag of its record too (R502, DSP0277). -/
def portionMax (sess : Option Nat) : Nat := if sess.isSome then mailMax - 32 else mailMax - 8

/-- `GET_CERTIFICATE`: slot 0, at any offset and length. -/
def certificateBody (area : Option Bytes) (s : State) (sess : Option Nat) (b : Bytes) : Reply :=
  if s.spdm.conn ≠ 3 then fails s 0x04
  else formedReq s b 0x12 8 (
    match chainOf s area with
    | none => fails s 0x01
    | some c =>
      let off := leAt b 4 2
      if leAt b 2 1 % 16 ≠ 0 || c.length ≤ off then fails s 0x01
      else
        let n := min (min (leAt b 6 2) (portionMax sess)) (c.length - off)
        let r := [0x12, 0x02, 0, 0] ++ leBytes 2 n ++ leBytes 2 (c.length - off - n) ++ slice c off n
        answers { s with spdm.certMsgs := s.spdm.certMsgs ++ b ++ r } r)

/-! ### Measurement blocks (Table 17.6) -/

/-- The DMTF value type of index 1 to 24. -/
def measType (i : Nat) : Nat := ([0, 1, 1, 1, 1, 1, 3, 2, 1, 1, 1, 2, 3] : List Nat).getD (i - 1) 1

/-- A measurement block (DSP0274). -/
def measBlock (i ty : Nat) (v : Bytes) : Bytes := leBytes 1 i ++ [1] ++ leBytes 2 (v.length + 3) ++ leBytes 1 ty ++ leBytes 2 v.length ++ v

/-- The block of a measurement register. -/
def regBlock (s : State) (i : Nat) : Bytes := measBlock i (measType i) (digestBytes (tget 0 s.meas.regs (i - 1)))

/-- The blocks of indices 1 to 24. -/
def allBlocks (s : State) : Bytes := ((List.range 24).map (fun i => regBlock s (i + 1))).flatten

/-- The measurement summary hash of a type (DSP0274): none, of the trusted computing base, which the spec does not name and
is free, or of all blocks. -/
def summary (s : State) (ty : Nat) : Bytes × State :=
  if ty = 0 then ([], s)
  else if ty = 0xFF then (digestBytes (Config.sha384 (allBlocks s)), s)
  else let d := freeDraw s; (leBytes 48 d.1, d.2)

/-! ### The report (R508 to R510) -/

/-- The group-table digest (R509): word 1 of a copy holds the copy's `EPOCH` (06 Table 6.1). -/
def groupTable (s : State) (p : Nat) : BitVec 384 :=
  let one (e : Nat × Desc) : Bytes :=
    let d := withEpoch s false e.2
    if bitOf d.w0 63 && fld d.w0 62 58 = p then
      leBytes 2 e.1 ++ (([d.w0, d.w1, d.w2, d.w3, d.w4, d.w5] : List Word).flatMap wordBytes) ++ leBytes 32 d.ld.toNat
    else []
  Config.sha384 (ascii "ORPV-GT1" ++ leBytes 2 s.grp.epA ++ (s.grp.descA.map one).flatten)

/-- The integrity record (08 R277, Table 8.6): the registers and the totals Helm keeps. -/
def integrityRecord (s : State) : Bytes :=
  let cls : Word := reg ((List.range 16).foldl (fun m k => m + classCode (s.sndPipe k).cls * 2 ^ (3 * k) + (if (s.sndPipe k).cls = .retired then 2 ^ (48 + k) else 0)) 0)
  let sum (off : Nat) : Word := tget 0 s.snd.ctr off + tget 0 s.snd.totals off
  (([cls] : List Word) ++ ([0x50, 0x58, 0x60, 0x68, 0x70, 0x78, 0x80] : List Nat).map sum).flatMap wordBytes

/-- Bytes 24 to 71 of a report: the block's and the partition's state (Table 17.7). -/
def reportState (s : State) (p : Option Nat) : Bytes :=
  let q : Part := match p with | some n => s.part n | none => {}
  let flags := s.life.torn.toNat + 2 * s.blk.fuseMarginal.toNat + 4 * (decide (s.life.rights ≠ 0)).toNat + 8 * s.spdm.certOk.toNat + 16 * s.logb.lifted.toNat
  leBytes 1 (p.getD 0xFF) ++ leBytes 1 s.life.st ++ leBytes 1 flags ++ leBytes 1 (partCode q.st) ++ leBytes 1 q.owners ++ zeros 1
    ++ leBytes 2 (if s.blk.fuseMarginal then 0x0603 else 0) ++ leBytes 4 s.life.rights ++ zeros 4 ++ leBytes 8 (low 48 s.mrd.step) ++ leBytes 8 s.mrd.wall
    ++ leBytes 2 (counter s 0) ++ leBytes 2 (counter s 1) ++ leBytes 2 (counter s 2) ++ leBytes 2 (counter s 3)
    ++ leBytes 1 (revoked s 0) ++ leBytes 1 (revoked s 1) ++ leBytes 2 (regionMask (unusable s s.logb.sensed)) ++ leBytes 2 (regionMask (marginalRegion s.logb.seen))
    ++ leBytes 2 s.grp.epA

/-- The `BUDGET` field. -/
def reportBudget (b : Budget) : Bytes :=
  leBytes 8 b.total ++ leBytes 8 b.spent ++ leBytes 8 b.grant ++ leBytes 4 b.minCharge ++ leBytes 2 b.noiseMult2 ++ leBytes 1 b.privRequired.toNat ++ zeros 1 ++ leBytes 8 b.seq

/-- The body of a report (Table 17.7), of a partition or of the block. -/
def reportBody (s : State) (p : Option Nat) (nonce : Bytes) (imp : Key) : Bytes :=
  ascii "ORPV-AR1" ++ blockId s ++ reportState s p ++ slice nonce 0 32 ++ digestBytes (Config.sha384 (measBytes s (List.range 24)))
    ++ (match p with | some n => digestBytes (s.part n).policy ++ digestBytes (groupTable s n) ++ reportBudget (s.budget n) | none => zeros 136)
    ++ integrityRecord s ++ leBytes 4 s.verdict.faults ++ zeros 4 ++ ecPublic imp ++ zeros 23 ++ slice (kemPublic imp) 0 1568

/-- The slot of the alias seed a report is signed with; the import seed follows it (R495). -/
def aliasSlot (p : Option Nat) : Nat := match p with | some n => 32 + 4 * n | none => 1

/-- The checks of the two slots a report reads are made (12 R363). -/
def noteReport (s : State) (p : Option Nat) : State := noteBad (noteBad s (aliasSlot p)) (aliasSlot p + 1)

/-- A report with its signature (R508); none where a key is missing, the generator cannot serve, or a signing operation fails (R511). -/
def report (s : State) (p : Option Nat) (nonce : Bytes) (fail : Bool) : Option (Bytes × State) :=
  match slotKey s (aliasSlot p), slotKey s (aliasSlot p + 1) with
  | some a, some i =>
    if fail || !drbgServesAll s 0 signDraws then none
    else
      let b := reportBody s p nonce i
      let g := hybridSign (engineUp s) a b
      some (b ++ g.1, g.2)
  | _, _ => none

/-! ### Signatures (R505) -/

/-- What an SPDM 1.2 signature covers: the prefix with its context, and the hash of the transcript (DSP0274). -/
def signedBy (context : String) (t : Bytes) : BitVec 384 :=
  let p := ascii "dmtf-spdm-v1.2.*"
  Config.sha384 (p ++ p ++ p ++ p ++ zeros (36 - context.length) ++ ascii context ++ digestBytes (Config.sha384 t))

/-- Sign with the block alias P-384 key; none where it cannot, or the operation fails. -/
def spdmSign (s : State) (context : String) (t : Bytes) (fail : Bool) : Option (Bytes × State) :=
  match slotKey s 1 with
  | some k => if !fail && drbgServesAll s 0 (programDraws 0x12 false) then some (ecSign (engineUp s) k (signedBy context t)) else none
  | none => none

/-- The pair of a partition, issued where it is not yet (R497, R499), unless the operation that would fail then fails (R511). -/
def pairOrFail (s : State) (p : Nat) (fail : Bool) : State := if fail then s else needPart s p

/-- The block of a measurement index (R506): the number of blocks and their bytes; none for an index that has no value, and
`Unspecified` where a report cannot be signed. -/
def measRecord (s : State) (i : Nat) (nonce : Bytes) (fail : Bool) : Except Nat (Nat × Bytes × State) :=
  let own (p : Nat) : Bool := (s.part p).st = .owned
  let rep (p : Option Nat) (x : State) : Except Nat (Nat × Bytes × State) :=
    match report x p nonce fail with
    | some r => .ok (1, measBlock i 0x84 r.1, r.2)
    | none => .error 0x05
  let pair (p : Nat) (x : State) : Except Nat (Nat × Bytes × State) :=
    if tget [] x.spdm.partEc p = [] then .error 0x05 else .ok (1, measBlock i 0x84 (tget [] x.spdm.partEc p ++ tget [] x.spdm.partMl p), x)
  if i = 0xFF then .ok (24, allBlocks s, s)
  else if 1 ≤ i ∧ i ≤ 24 then .ok (1, regBlock s i, s)
  else if i = 0x7D then .ok (1, measBlock i 0x82 (slice s.spdm.devEc 0 97 ++ zeros 31 ++ slice s.spdm.devMl 0 2592), s)
  else if i = 0x7E then .ok (1, measBlock i 0x84 s.spdm.aliasMl, s)
  else if i = 0x7F then rep none s
  else if 0x80 ≤ i ∧ i < 0xA0 then (if own (i - 0x80) then rep (some (i - 0x80)) (pairOrFail s (i - 0x80) fail) else .error 0x01)
  else if 0xA0 ≤ i ∧ i < 0xC0 then
    (if own (i - 0xA0) then pair (i - 0xA0) (pairOrFail s (i - 0xA0) fail) else .error 0x01)
  else .error 0x01

/-- The checks of the slots that the report of a measurement index reads are made (12 R363). -/
def noteMeas (s : State) (i : Nat) : State :=
  if i = 0x7F then noteReport s none
  else if 0x80 ≤ i ∧ i < 0xA0 ∧ (s.part (i - 0x80)).st = .owned then noteReport s (some (i - 0x80))
  else s

/-- `GET_MEASUREMENTS` (R506, R507). A nonce that cannot be drawn ends it as a signature that fails does (R511, 12 R383). -/
def measurementsBody (fail : Bool) (s0 : State) (_ : Option Nat) (b : Bytes) : Reply :=
  let sign := (leAt b 2 1).testBit 0
  if s0.spdm.conn ≠ 3 then fails s0 0x04
  else formedReq s0 b 0x12 (if sign then 37 else 4) (
    if sign && leAt b 36 1 % 16 ≠ 0 then fails s0 0x01
    else if !drbgServes s0 0 then fails s0 0x05
    else
      let s := noteMeas s0 (leAt b 3 1)
      match measRecord s (leAt b 3 1) (if sign then slice b 4 32 else zeros 32) fail with
      | .error e => fails s e
      | .ok (n, blocks, s1) =>
        let d := drbgDraw s1 0
        let r := [0x12, 0x60, 0, 0] ++ leBytes 1 n ++ leBytes 3 blocks.length ++ blocks ++ leBytes 32 d.1 ++ zeros 2
        let t := d.2.spdm.measured ++ b ++ r
        if !sign then answers { d.2 with spdm.measured := t } r
        else match spdmSign (noteBad d.2 1) "responder-measurements signing" (d.2.spdm.negotiated ++ t) fail with
          | none => fails (noteBad s 1) 0x05
          | some g => answers { g.2 with spdm.measured := [] } (r ++ g.1))

/-- `CHALLENGE`. -/
def challengeBody (area : Option Bytes) (fail : Bool) (s0 : State) (sess : Option Nat) (b : Bytes) : Reply :=
  let ty := leAt b 3 1
  if sess.isSome || s0.spdm.conn ≠ 3 then fails s0 0x04
  else formedReq s0 b 0x12 36 (
    match chainOf s0 area with
    | none => fails s0 0x01
    | some c =>
      if leAt b 2 1 ≠ 0 || (ty ≠ 0 && ty ≠ 1 && ty ≠ 0xFF) then fails s0 0x01
      else if !drbgServes s0 0 then fails s0 0x05
      else
        let s := noteBad s0 1
        let h := summary s ty
        let d := drbgDraw h.2 0
        let r := [0x12, 0x03, 0, 1] ++ digestBytes (Config.sha384 c) ++ leBytes 32 d.1 ++ h.1 ++ zeros 2
        match spdmSign d.2 "responder-challenge_auth signing" (d.2.spdm.negotiated ++ d.2.spdm.certMsgs ++ b ++ r) fail with
        | none => fails s 0x05
        | some g => answers { g.2 with spdm.certMsgs := [] } (r ++ g.1))

/-! ### Sessions (R504) -/

/-- Draws of a key exchange before its signature: `EC_KEYGEN` with `EPHEM`, `ECDH`, and the nonce (13 R399). -/
def exchangeDraws : Nat := programDraws 0x10 true + programDraws 0x11 false + 1

/-- Open a session on a key exchange that has passed its checks: the ephemeral scalar and the nonce draw from DRBG instance 0. -/
def exchange (s0 : State) (i ty : Nat) (c b : Bytes) (q : Nat × Nat) (fail : Bool) : Reply :=
  if fail || !drbgServesAll s0 0 (exchangeDraws + programDraws 0x12 false) || !canPutAll s0 [10, 10] then fails (noteBad s0 1) 0x05
  else
  let s := noteBad s0 1
  let h := summary s ty
  let n := drbgDraws (engineUp h.2) 0 exchangeDraws
  let d := n.1.getD 0 0 % (p384.n - 1) + 1
  let shared := (pointBytes (ecMul p384 d (some q))).drop 1
  let x := beBytes 48 (beAt shared 0 48)
  let opq := Config.spdmOpaque (slice b 138 (leAt b 136 2))
  let r := [0x12, 0x64, 0, 0] ++ leBytes 2 (i + 1) ++ [0, 0] ++ leBytes 32 (n.1.getD 5 0) ++ (pointBytes (ecMul p384 d (baseG p384))).drop 1 ++ h.1
    ++ leBytes 2 opq.length ++ opq
  let t := n.2.spdm.negotiated ++ digestBytes (Config.sha384 c) ++ b ++ r
  match spdmSign n.2 "responder-key_exchange_rsp signing" t false with
  | none => fails s 0x05
  | some g =>
    let t1 := t ++ g.1
    let kq := Config.spdmSecret x t1 0
    let kr := Config.spdmSecret x t1 1
    let v := (Config.spdmVerify kr t1).take 48
    let y : SpdmSession := { isOpen := true, id := leAt b 4 2 + 65536 * (i + 1), trans := t1 ++ v, dhe := x }
    answers (setSess (putSecret (putSecret g.2 i 0 kq) i 1 kr) i y) (r ++ g.1 ++ v)

/-- `KEY_EXCHANGE`: two sessions at most; a third receives `Busy`. -/
def exchangeBody (area : Option Bytes) (fail : Bool) (s : State) (sess : Option Nat) (b : Bytes) : Reply :=
  let ty := leAt b 2 1
  if sess.isSome || s.spdm.conn ≠ 3 || !s.spdm.dhe then fails s 0x04
  else formedReq s b 0x12 138 (
    match chainOf s area, pointOf (4 :: slice b 40 96) with
    | some c, some q =>
      if leAt b 3 1 ≠ 0 || (ty ≠ 0 && ty ≠ 1 && ty ≠ 0xFF) || b.length < 138 + leAt b 136 2 then fails s 0x01
      else if !s.spdm.s0.isOpen then exchange s 0 ty c b q fail
      else if !s.spdm.s1.isOpen then exchange s 1 ty c b q fail
      else fails s 0x03
    | _, _ => fails s 0x01)

/-- `FINISH`, in the handshake of its session; wrong verify data ends the session. -/
def finishBody (s : State) (sess : Option Nat) (b : Bytes) : Reply :=
  match sess with
  | none => fails s 0x04
  | some i =>
    let x := sessOf s i
    if x.finished then fails s 0x04
    else formedReq s b 0x12 52 (
      let r : Bytes := [0x12, 0x65, 0, 0]
      match (if canPutAll s [10, 10] then slotKey s (sessSlot i 0) else none) with
      | none => fails s 0x05
      | some k =>
        if leAt b 2 1 ≠ 0 || slice b 4 48 ≠ (Config.spdmVerify k (x.trans ++ b.take 4)).take 48 then
          { msg := errorMsg 0x06 0, st := s, close := some i }
        else { msg := r, st := s, finish := some (i, x.trans ++ b.take 52 ++ r) })

/-- Move a direction's secret on; its sequence numbers start again. -/
def updateDir (s0 : State) (i : Nat) (rsp : Bool) : State :=
  let s := noteBad s0 (sessSlot i (2 + rsp.toNat))
  match slotKey s (sessSlot i (2 + rsp.toNat)) with
  | none => s
  | some k =>
    let s1 := putSecret s i (2 + rsp.toNat) (Config.spdmUpdate k)
    let x := sessOf s1 i
    setSess s1 i (if rsp then { x with updRsp := x.updRsp + 1, seqRsp := 0 } else { x with updReq := x.updReq + 1, seqReq := 0 })

/-- `KEY_UPDATE` within a session: the requester's key (1), both keys (2), or the check of a new one (3). -/
def updateBody (s : State) (sess : Option Nat) (b : Bytes) : Reply :=
  match sess with
  | none => fails s 0x04
  | some i =>
    let op := leAt b 2 1
    if !(sessOf s i).finished then fails s 0x04
    else if !canPutAll s (if op = 2 then [10, 10] else [10]) then fails s 0x05
    else formedReq s b 0x12 4 (
      let r : Bytes := [0x12, 0x69, BitVec.ofNat 8 op, BitVec.ofNat 8 (leAt b 3 1)]
      if op = 1 then answers (updateDir s i false) r
      else if op = 2 then answers (updateDir (updateDir s i false) i true) r
      else if op = 3 then answers s r
      else fails s 0x01)

/-- `END_SESSION` within a session. -/
def endBody (s : State) (sess : Option Nat) (b : Bytes) : Reply :=
  match sess with
  | none => fails s 0x04
  | some i =>
    if !(sessOf s i).finished then fails s 0x04
    else formedReq s b 0x12 4 { msg := [0x12, 0x6C, 0, 0], st := s, close := some i }

/-- A request of Table 17.4. -/
def supported (code : Nat) : Bool := ([0x81, 0x82, 0x83, 0x84, 0xE0, 0xE1, 0xE3, 0xE4, 0xE5, 0xE9, 0xEC] : List Nat).contains code

/-! ### The meanings -/

/-- `GET_VERSION` (R504). -/
def execGetVersion (m : Bytes) (s : State) : Host.Outcome State Fault Refusal := .next (spdmOp s m (· = 0x84) versionBody)

/-- `GET_CAPABILITIES` (R504). -/
def execGetCapabilities (m : Bytes) (s : State) : Host.Outcome State Fault Refusal := .next (spdmOp s m (· = 0xE1) capabilitiesBody)

/-- `NEGOTIATE_ALGORITHMS` (Table 17.5). -/
def execNegotiateAlgorithms (m : Bytes) (s : State) : Host.Outcome State Fault Refusal := .next (spdmOp s m (· = 0xE3) algorithmsBody)

/-- `GET_DIGESTS` (R505). -/
def execGetDigests (m : Bytes) (area : Option Bytes) (s : State) : Host.Outcome State Fault Refusal := .next (spdmOp s m (· = 0x81) (digestsBody area))

/-- `GET_CERTIFICATE` (R505). -/
def execGetCertificate (m : Bytes) (area : Option Bytes) (s : State) : Host.Outcome State Fault Refusal :=
  .next (spdmOp s m (· = 0x82) (certificateBody area))

/-- `CHALLENGE` (R505). -/
def execSpdmChallenge (m : MailReq) (area : Option Bytes) (s : State) : Host.Outcome State Fault Refusal :=
  .next (spdmOp s m.bytes (· = 0x83) (challengeBody area m.fail.isSome))

/-- `GET_MEASUREMENTS` (R506). -/
def execGetMeasurements (m : MailReq) (s : State) : Host.Outcome State Fault Refusal :=
  .next (spdmOp s m.bytes (· = 0xE0) (measurementsBody m.fail.isSome))

/-- `KEY_EXCHANGE` (R504). -/
def execKeyExchange (m : MailReq) (area : Option Bytes) (s : State) : Host.Outcome State Fault Refusal :=
  .next (spdmOp s m.bytes (· = 0xE4) (exchangeBody area m.fail.isSome))

/-- `FINISH` (R504). -/
def execFinish (m : Bytes) (s : State) : Host.Outcome State Fault Refusal := .next (spdmOp s m (· = 0xE5) finishBody)

/-- `KEY_UPDATE` (R504). -/
def execKeyUpdate (m : Bytes) (s : State) : Host.Outcome State Fault Refusal := .next (spdmOp s m (· = 0xE9) updateBody)

/-- `END_SESSION` (R504). -/
def execEndSession (m : Bytes) (s : State) : Host.Outcome State Fault Refusal := .next (spdmOp s m (· = 0xEC) endBody)

/-- Every other request is answered `UnsupportedRequest` (R504). -/
def execUnsupportedRequest (m : Bytes) (s : State) : Host.Outcome State Fault Refusal :=
  .next (spdmOp s m (fun c => !supported c) (fun x _ b => answers x (errorMsg 0x07 (leAt b 1 1))))

end Sys2Proof.Machine
end

