-- ==== Sys2Proof/Machine/Dispatch.lean ====
section
/-! DEFINITION. One arm for each command: the call of its meaning. -/

namespace Sys2Proof.Machine

def exec (i : Instr) (s : State) : Host.Outcome State Fault Refusal :=
  match i with
  | .porst profile base cut boot => Sys2Proof.Machine.execPorst profile base cut boot s
  | .tamperAssert cut => Sys2Proof.Machine.execTamperAssert cut s
  | .tamperRelease boot => Sys2Proof.Machine.execTamperRelease boot s
  | .blkSoftReset a v boot => Sys2Proof.Machine.execBlkSoftReset a v boot s
  | .loopLockLoss arith => Sys2Proof.Machine.execLoopLockLoss arith s
  | .portRange mhz => Sys2Proof.Machine.execPortRange mhz s
  | .vppChange inRange cut => Sys2Proof.Machine.execVppChange inRange cut s
  | .verdictWrite kind pathB w gap => Sys2Proof.Machine.execVerdictWrite kind pathB w gap s
  | .verdictWindowExpire kind => Sys2Proof.Machine.execVerdictWindowExpire kind s
  | .registerWrite a addr be v => Sys2Proof.Machine.execRegisterWrite a addr be v s
  | .wideReadLatch a addr => Sys2Proof.Machine.execWideReadLatch a addr s
  | .intSetWrite a page v => Sys2Proof.Machine.execIntSetWrite a page v s
  | .pageLockWrite a page v => Sys2Proof.Machine.execPageLockWrite a page v s
  | .dataFrameReceive f e => Sys2Proof.Machine.execDataFrameReceive f e s
  | .scaleFrameReceive f => Sys2Proof.Machine.execScaleFrameReceive f s
  | .resultFrameReceive f => Sys2Proof.Machine.execResultFrameReceive f s
  | .abortFrameReceive f => Sys2Proof.Machine.execAbortFrameReceive f s
  | .stepFrameReceive f x => Sys2Proof.Machine.execStepFrameReceive f x s
  | .probeFrameReceive f => Sys2Proof.Machine.execProbeFrameReceive f s
  | .mgmtFrameReceive f => Sys2Proof.Machine.execMgmtFrameReceive f s
  | .updateFrameReceive f x => Sys2Proof.Machine.execUpdateFrameReceive f x s
  | .creditGrantReceive port vc n => Sys2Proof.Machine.execCreditGrantReceive port vc n s
  | .egressFrameBuild pipe e => Sys2Proof.Machine.execEgressFrameBuild pipe e s
  | .frameSend pipe => Sys2Proof.Machine.execFrameSend pipe s
  | .csDataWrite a pipe v => Sys2Proof.Machine.execCsDataWrite a pipe v s
  | .csCommit a pipe v => Sys2Proof.Machine.execCsCommit a pipe v s
  | .bindWrite a pipe v => Sys2Proof.Machine.execBindWrite a pipe v s
  | .drainEnd pipe port => Sys2Proof.Machine.execDrainEnd pipe port s
  | .kcFlush a pipe v => Sys2Proof.Machine.execKcFlush a pipe v s
  | .keyRequestServe x => Sys2Proof.Machine.execKeyRequestServe x s
  | .csParityError pipe x => Sys2Proof.Machine.execCsParityError pipe x s
  | .phlxAlloc a v => Sys2Proof.Machine.execPhlxAlloc a v s
  | .phlxFree a v => Sys2Proof.Machine.execPhlxFree a v s
  | .phlxOpen a v => Sys2Proof.Machine.execPhlxOpen a v s
  | .phlxInvalidate a v => Sys2Proof.Machine.execPhlxInvalidate a v s
  | .phlxWinCmdDone => Sys2Proof.Machine.execPhlxWinCmdDone s
  | .soundingCheckDone pipe fault => Sys2Proof.Machine.execSoundingCheckDone pipe fault s
  | .ingressReplay pipe e => Sys2Proof.Machine.execIngressReplay pipe e s
  | .egressReplay pipe e => Sys2Proof.Machine.execEgressReplay pipe e s
  | .sndStCmd a v => Sys2Proof.Machine.execSndStCmd a v s
  | .selfTestUnit fault => Sys2Proof.Machine.execSelfTestUnit fault s
  | .sndCtxSave a v e => Sys2Proof.Machine.execSndCtxSave a v e s
  | .sndCtxRestore a v e => Sys2Proof.Machine.execSndCtxRestore a v e s
  | .grpDescWrite a word v => Sys2Proof.Machine.execGrpDescWrite a word v s
  | .mbrDataAccess a write v => Sys2Proof.Machine.execMbrDataAccess a write v s
  | .grpCommit a v => Sys2Proof.Machine.execGrpCommit a v s
  | .grpClear a v => Sys2Proof.Machine.execGrpClear a v s
  | .launch a v => Sys2Proof.Machine.execLaunch a v s
  | .grpAbort a v => Sys2Proof.Machine.execGrpAbort a v s
  | .resyncSend a v => Sys2Proof.Machine.execResyncSend a v s
  | .resyncRecv a v => Sys2Proof.Machine.execResyncRecv a v s
  | .setEpoch a v => Sys2Proof.Machine.execSetEpoch a v s
  | .grpStationWrite a v => Sys2Proof.Machine.execGrpStationWrite a v s
  | .entryActivate x => Sys2Proof.Machine.execEntryActivate x s
  | .deadlineExpire us => Sys2Proof.Machine.execDeadlineExpire us s
  | .absenceCut x => Sys2Proof.Machine.execAbsenceCut x s
  | .refillDone => Sys2Proof.Machine.execRefillDone s
  | .strgTrackWrite a v => Sys2Proof.Machine.execStrgTrackWrite a v s
  | .strgClear a v => Sys2Proof.Machine.execStrgClear a v s
  | .zinBudget a v mem policy => Sys2Proof.Machine.execZinBudget a v mem policy s
  | .mrdAdvance a v x => Sys2Proof.Machine.execMrdAdvance a v x s
  | .mrdStepSet a v => Sys2Proof.Machine.execMrdStepSet a v s
  | .stepMarkPulse x => Sys2Proof.Machine.execStepMarkPulse x s
  | .pendingBoundary x => Sys2Proof.Machine.execPendingBoundary x s
  | .scheduleEntryWrite a idx v => Sys2Proof.Machine.execScheduleEntryWrite a idx v s
  | .stepTimeout us => Sys2Proof.Machine.execStepTimeout us s
  | .remaskFloor us => Sys2Proof.Machine.execRemaskFloor us s
  | .assign a part v mem => Sys2Proof.Machine.execAssign a part v mem s
  | .wipeDone part => Sys2Proof.Machine.execWipeDone part s
  | .partRegionWrite a part w limit v => Sys2Proof.Machine.execPartRegionWrite a part w limit v s
  | .regionDisableDone part w => Sys2Proof.Machine.execRegionDisableDone part w s
  | .partMbrRangeWrite a part v => Sys2Proof.Machine.execPartMbrRangeWrite a part v s
  | .partChannelsWrite a part v => Sys2Proof.Machine.execPartChannelsWrite a part v s
  | .partQuotaWrite a part second v => Sys2Proof.Machine.execPartQuotaWrite a part second v s
  | .rhmbStart a ch v => Sys2Proof.Machine.execRhmbStart a ch v s
  | .rhmbPause a ch v => Sys2Proof.Machine.execRhmbPause a ch v s
  | .pauseDrained ch => Sys2Proof.Machine.execPauseDrained ch s
  | .rhmbResume a ch v => Sys2Proof.Machine.execRhmbResume a ch v s
  | .rhmbStop a ch v => Sys2Proof.Machine.execRhmbStop a ch v s
  | .rhmbChDoorbell a ch v => Sys2Proof.Machine.execRhmbChDoorbell a ch v s
  | .move ch => Sys2Proof.Machine.execMove ch s
  | .moveSg ch => Sys2Proof.Machine.execMoveSg ch s
  | .fill ch => Sys2Proof.Machine.execFill ch s
  | .compare ch => Sys2Proof.Machine.execCompare ch s
  | .shuffle ch => Sys2Proof.Machine.execShuffle ch s
  | .loop ch => Sys2Proof.Machine.execLoop ch s
  | .wait ch => Sys2Proof.Machine.execWait ch s
  | .waitSatisfied => Sys2Proof.Machine.execWaitSatisfied s
  | .signal ch => Sys2Proof.Machine.execSignal ch s
  | .list ch => Sys2Proof.Machine.execList ch s
  | .endRun ch => Sys2Proof.Machine.execEndRun ch s
  | .mmpReadResponse id data => Sys2Proof.Machine.execMmpReadResponse id data s
  | .mmpWriteResponse id ok => Sys2Proof.Machine.execMmpWriteResponse id ok s
  | .mmpTimeout id us => Sys2Proof.Machine.execMmpTimeout id us s
  | .rhmbGctrlWrite a v => Sys2Proof.Machine.execRhmbGctrlWrite a v s
  | .rhmbSemWrite a v => Sys2Proof.Machine.execRhmbSemWrite a v s
  | .chrtImport a v pkg policy => Sys2Proof.Machine.execChrtImport a v pkg policy s
  | .chrtConfirm a v => Sys2Proof.Machine.execChrtConfirm a v s
  | .chrtCommit a v => Sys2Proof.Machine.execChrtCommit a v s
  | .chrtDiscard a v => Sys2Proof.Machine.execChrtDiscard a v s
  | .chrtDelete a v => Sys2Proof.Machine.execChrtDelete a v s
  | .chrtGenerate a v => Sys2Proof.Machine.execChrtGenerate a v s
  | .chrtDeliver a v => Sys2Proof.Machine.execChrtDeliver a v s
  | .kdpAnswer ack nack dest cycle => Sys2Proof.Machine.execKdpAnswer ack nack dest cycle s
  | .kdpAckTimeout cycle => Sys2Proof.Machine.execKdpAckTimeout cycle s
  | .noiseSampleBlock samples => Sys2Proof.Machine.execNoiseSampleBlock samples s
  | .astrCsDataWrite a v => Sys2Proof.Machine.execAstrCsDataWrite a v s
  | .astrCsCommit a v => Sys2Proof.Machine.execAstrCsCommit a v s
  | .astrSlotDescWrite a v => Sys2Proof.Machine.execAstrSlotDescWrite a v s
  | .astrDataAccess a write v => Sys2Proof.Machine.execAstrDataAccess a write v s
  | .astrZero a v => Sys2Proof.Machine.execAstrZero a v s
  | .astrRun a v => Sys2Proof.Machine.execAstrRun a v s
  | .astrAbort a v => Sys2Proof.Machine.execAstrAbort a v s
  | .astrOpEnd how => Sys2Proof.Machine.execAstrOpEnd how s
  | .logbProgram a v => Sys2Proof.Machine.execLogbProgram a v s
  | .logbReinforce a v => Sys2Proof.Machine.execLogbReinforce a v s
  | .lockWrite a v => Sys2Proof.Machine.execLockWrite a v s
  | .lockRead a v => Sys2Proof.Machine.execLockRead a v s
  | .advance a v => Sys2Proof.Machine.execAdvance a v s
  | .logbRevoke a v => Sys2Proof.Machine.execLogbRevoke a v s
  | .genDus a v => Sys2Proof.Machine.execGenDus a v s
  | .marginScan a v => Sys2Proof.Machine.execMarginScan a v s
  | .logbCmdDone out => Sys2Proof.Machine.execLogbCmdDone out s
  | .transition a v grant => Sys2Proof.Machine.execTransition a v grant s
  | .lifeChallenge a v => Sys2Proof.Machine.execLifeChallenge a v s
  | .unlockPw a v => Sys2Proof.Machine.execUnlockPw a v s
  | .unlockGrant a v grant => Sys2Proof.Machine.execUnlockGrant a v grant s
  | .tapLiftHold lift boot => Sys2Proof.Machine.execTapLiftHold lift boot s
  | .tapMbox w => Sys2Proof.Machine.execTapMbox w s
  | .updBegin a v st => Sys2Proof.Machine.execUpdBegin a v st s
  | .updBlock a v st => Sys2Proof.Machine.execUpdBlock a v st s
  | .updFinish a v st => Sys2Proof.Machine.execUpdFinish a v st s
  | .updAbort a v => Sys2Proof.Machine.execUpdAbort a v s
  | .updSessionTimeout us => Sys2Proof.Machine.execUpdSessionTimeout us s
  | .activate a v st boot => Sys2Proof.Machine.execActivate a v st boot s
  | .helmConfirm a v st => Sys2Proof.Machine.execHelmConfirm a v st s
  | .trialWatchdogExpire us boot => Sys2Proof.Machine.execTrialWatchdogExpire us boot s
  | .helmRevoke a v mem => Sys2Proof.Machine.execHelmRevoke a v mem s
  | .forward a v st => Sys2Proof.Machine.execForward a v st s
  | .settings a v st => Sys2Proof.Machine.execSettings a v st s
  | .verifyHost a v mem body => Sys2Proof.Machine.execVerifyHost a v mem body s
  | .helmStageDataAccess a write v => Sys2Proof.Machine.execHelmStageDataAccess a write v s
  | .extend a v => Sys2Proof.Machine.execExtend a v s
  | .getVersion m => Sys2Proof.Machine.execGetVersion m s
  | .getCapabilities m => Sys2Proof.Machine.execGetCapabilities m s
  | .negotiateAlgorithms m => Sys2Proof.Machine.execNegotiateAlgorithms m s
  | .getDigests m area => Sys2Proof.Machine.execGetDigests m area s
  | .getCertificate m area => Sys2Proof.Machine.execGetCertificate m area s
  | .spdmChallenge m area => Sys2Proof.Machine.execSpdmChallenge m area s
  | .getMeasurements m => Sys2Proof.Machine.execGetMeasurements m s
  | .keyExchange m area => Sys2Proof.Machine.execKeyExchange m area s
  | .finish m => Sys2Proof.Machine.execFinish m s
  | .keyUpdate m => Sys2Proof.Machine.execKeyUpdate m s
  | .endSession m => Sys2Proof.Machine.execEndSession m s
  | .pwrOn a v => Sys2Proof.Machine.execPwrOn a v s
  | .pwrOff a v => Sys2Proof.Machine.execPwrOff a v s
  | .pwrSleep a v => Sys2Proof.Machine.execPwrSleep a v s
  | .pwrAckRise d us => Sys2Proof.Machine.execPwrAckRise d us s
  | .pwrAckFall d => Sys2Proof.Machine.execPwrAckFall d s
  | .powerLoss d => Sys2Proof.Machine.execPowerLoss d s
  | .wakeReq boot => Sys2Proof.Machine.execWakeReq boot s
  | .partCmdRelease a part v => Sys2Proof.Machine.execPartCmdRelease a part v s
  | .registerRead a addr be => Sys2Proof.Machine.execRegisterRead a addr be s
  | .unsupportedRequest m => Sys2Proof.Machine.execUnsupportedRequest m s
  | .loopLockRegain arith => Sys2Proof.Machine.execLoopLockRegain arith s

end Sys2Proof.Machine
end

