-- ==== Sys2Proof/Machine/Time.lean ====
section
/-! DEFINITION. The passing of time where no command runs (log 2). -/

namespace Sys2Proof.Machine

/-- `KDP_CANCEL` and `KDP_ZEROISE` fall once they have been high long enough (18 R523); the second stays high while the block is held in reset. -/
def levelsFall (s : State) : State := { s with pins.kdpCancel := false, pins.kdpZeroise := s.pins.kdpZeroise && s.blk.held }

/-- One idle microsecond: `MRD_WALL_US` counts (09 R297), levels fall, and closing management windows go off once nothing uses them (11 R353). -/
def idleTick (s : State) : State := closeMgmt (levelsFall (passTime s 1))

end Sys2Proof.Machine
end

