-- ==== Sys2Proof/WellFormed.lean ====
section
/-! DEFINITION. Which commands are well formed: a command of a register with several operation codes carries its own code, a frame
comes in on a port that exists and is of its command's class, and what a command brings has the size the spec gives it. -/

namespace Sys2Proof

/-- `OP` in bits 63:60 of a command register. -/
def opIs (n : Nat) (v : Word) : Bool := v.toNat / 2 ^ 60 = n

/-- A frame on an ingress port (Table 18.3) whose header is of one of some classes (Table 3.2); a frame too short for a header
has none, and a frame of an undefined class (R73) comes as a `DATA` one. -/
def arrivalOk (cls : List Nat) (f : Arrival) : Bool :=
  f.port.toNat < 12 && (match f.bytes[7]? with | some b => cls.contains (b.toNat % 16) | none => true)

/-- A request area holds its head and its message (17 R502). -/
def areaOk (m : Bytes) : Bool := m.length = 16384

/-- A word that the Logbook's pulses missed is one of its physical words (14 R433). -/
def progOk (o : ProgOut) : Bool := o.pulses.toNat ≤ 4 && decide ((o.misses.map (·.phys)).Nodup)

/-- The well-formed commands. -/
def Instr.wf : Instr → Bool
  | .dataFrameReceive f _ => arrivalOk [1, 0, 9, 10, 11, 12, 13, 14, 15] f
  | .scaleFrameReceive f => arrivalOk [2] f.1
  | .resultFrameReceive f => arrivalOk [3] f
  | .abortFrameReceive f => arrivalOk [4] f
  | .stepFrameReceive f _ => arrivalOk [5] f
  | .mgmtFrameReceive f => arrivalOk [6] f
  | .probeFrameReceive f => arrivalOk [8] f
  | .updateFrameReceive f _ => arrivalOk [7] f
  | .creditGrantReceive port _ n => port.toNat < 12 && 1 ≤ n.toNat
  | .drainEnd _ port => port.toNat < 12
  | .phlxAlloc _ v => opIs 1 v
  | .phlxFree _ v => opIs 2 v
  | .phlxOpen _ v => opIs 3 v
  | .phlxInvalidate _ v => opIs 4 v
  | .sndCtxSave _ v _ => opIs 1 v
  | .sndCtxRestore _ v _ => opIs 2 v
  | .grpCommit _ v => opIs 1 v
  | .grpClear _ v => opIs 2 v
  | .launch _ v => opIs 3 v
  | .grpAbort _ v => opIs 4 v
  | .resyncSend _ v => opIs 5 v
  | .resyncRecv _ v => opIs 6 v
  | .setEpoch _ v => opIs 7 v
  | .zinBudget _ v _ _ => opIs 1 v
  | .assign _ _ v _ => opIs 1 v
  | .partCmdRelease _ _ v => opIs 2 v
  | .rhmbStart _ _ v => opIs 1 v
  | .rhmbPause _ _ v => opIs 2 v
  | .rhmbResume _ _ v => opIs 3 v
  | .rhmbStop _ _ v => opIs 4 v
  | .mmpReadResponse _ data => (data.map (fun b => decide (b.length = 64))).getD true
  | .chrtImport _ v _ _ => opIs 1 v
  | .chrtConfirm _ v => opIs 2 v
  | .chrtCommit _ v => opIs 3 v
  | .chrtDiscard _ v => opIs 4 v
  | .chrtDelete _ v => opIs 5 v
  | .chrtGenerate _ v => opIs 6 v
  | .chrtDeliver _ v => opIs 7 v
  | .kdpAnswer ack nack _ _ => ack || nack
  | .noiseSampleBlock l => l.length = 1024
  | .astrRun _ v => opIs 1 v
  | .astrAbort _ v => opIs 2 v
  | .logbProgram _ v => opIs 1 v
  | .logbReinforce _ v => opIs 2 v
  | .lockWrite _ v => opIs 3 v
  | .lockRead _ v => opIs 4 v
  | .advance _ v => opIs 5 v
  | .logbRevoke _ v => opIs 6 v
  | .genDus _ v => opIs 7 v
  | .marginScan _ v => opIs 8 v
  | .logbCmdDone out => progOk out
  | .transition _ v _ => opIs 1 v
  | .lifeChallenge _ v => opIs 2 v
  | .unlockPw _ v => opIs 3 v
  | .unlockGrant _ v _ => opIs 4 v
  | .updBegin _ v _ => opIs 1 v
  | .updBlock _ v _ => opIs 2 v
  | .updFinish _ v _ => opIs 3 v
  | .updAbort _ v => opIs 4 v
  | .activate _ v _ _ => opIs 5 v
  | .helmConfirm _ v _ => opIs 6 v
  | .helmRevoke _ v _ => opIs 7 v
  | .forward _ v _ => opIs 8 v
  | .settings _ v _ => opIs 9 v
  | .verifyHost _ v _ _ => opIs 10 v
  | .extend _ v => opIs 1 v
  | .pwrOn _ v => opIs 1 v
  | .pwrOff _ v => opIs 2 v
  | .pwrSleep _ v => opIs 3 v
  | .pwrAckRise d _ => d.toNat < 20
  | .pwrAckFall d => d.toNat < 20
  | .powerLoss d => d.toNat < 20
  | .getVersion m => areaOk m
  | .getCapabilities m => areaOk m
  | .negotiateAlgorithms m => areaOk m
  | .getDigests m _ => areaOk m
  | .getCertificate m _ => areaOk m
  | .spdmChallenge m _ => areaOk m.bytes
  | .getMeasurements m => areaOk m.bytes
  | .keyExchange m _ => areaOk m.bytes
  | .finish m => areaOk m
  | .keyUpdate m => areaOk m
  | .endSession m => areaOk m
  | .unsupportedRequest m => areaOk m
  | .porst _ _ _ _ => true
  | .tamperAssert _ => true
  | .tamperRelease _ => true
  | .blkSoftReset _ _ _ => true
  | .loopLockLoss _ => true
  | .portRange _ => true
  | .vppChange _ _ => true
  | .verdictWrite _ _ _ _ => true
  | .verdictWindowExpire _ => true
  | .registerWrite _ _ _ _ => true
  | .wideReadLatch _ _ => true
  | .intSetWrite _ _ _ => true
  | .pageLockWrite _ _ _ => true
  | .egressFrameBuild _ _ => true
  | .frameSend _ => true
  | .csDataWrite _ _ _ => true
  | .csCommit _ _ _ => true
  | .bindWrite _ _ _ => true
  | .kcFlush _ _ _ => true
  | .keyRequestServe _ => true
  | .csParityError _ _ => true
  | .phlxWinCmdDone => true
  | .soundingCheckDone _ _ => true
  | .ingressReplay _ _ => true
  | .egressReplay _ _ => true
  | .sndStCmd _ _ => true
  | .selfTestUnit _ => true
  | .grpDescWrite _ _ _ => true
  | .mbrDataAccess _ _ _ => true
  | .grpStationWrite _ _ => true
  | .entryActivate _ => true
  | .deadlineExpire _ => true
  | .absenceCut _ => true
  | .refillDone => true
  | .strgTrackWrite _ _ => true
  | .strgClear _ _ => true
  | .mrdAdvance _ _ _ => true
  | .mrdStepSet _ _ => true
  | .stepMarkPulse _ => true
  | .pendingBoundary _ => true
  | .scheduleEntryWrite _ _ _ => true
  | .stepTimeout _ => true
  | .remaskFloor _ => true
  | .wipeDone _ => true
  | .partRegionWrite _ _ _ _ _ => true
  | .regionDisableDone _ _ => true
  | .partMbrRangeWrite _ _ _ => true
  | .partChannelsWrite _ _ _ => true
  | .partQuotaWrite _ _ _ _ => true
  | .pauseDrained _ => true
  | .rhmbChDoorbell _ _ _ => true
  | .move _ => true
  | .moveSg _ => true
  | .fill _ => true
  | .compare _ => true
  | .shuffle _ => true
  | .loop _ => true
  | .wait _ => true
  | .waitSatisfied => true
  | .signal _ => true
  | .list _ => true
  | .endRun _ => true
  | .mmpWriteResponse _ _ => true
  | .mmpTimeout _ _ => true
  | .rhmbGctrlWrite _ _ => true
  | .rhmbSemWrite _ _ => true
  | .kdpAckTimeout _ => true
  | .astrCsDataWrite _ _ => true
  | .astrCsCommit _ _ => true
  | .astrSlotDescWrite _ _ => true
  | .astrDataAccess _ _ _ => true
  | .astrZero _ _ => true
  | .astrOpEnd _ => true
  | .tapLiftHold _ _ => true
  | .tapMbox _ => true
  | .updSessionTimeout _ => true
  | .trialWatchdogExpire _ _ => true
  | .helmStageDataAccess _ _ _ => true
  | .wakeReq _ => true
  | .registerRead _ _ _ => true
  | .loopLockRegain _ => true
end Sys2Proof
end

