-- ==== Sys2Proof/Safety.lean ====
section
/-! DEFINITION. The terms the statements use: what an access reaches, which register a command accesses, and what a legal state is. -/

namespace Sys2Proof.Machine

/-- A write of a register passes the checks of the control bus (R39, R42, R44 to R47, R69) and reaches the register. -/
def WriteReaches (s : State) (a : Access) (p off : Nat) : Prop := gate s a (regAt p off) 0xFF true = .pass

/-- A read of a register passes the checks of the control bus and reaches the register. -/
def ReadReaches (s : State) (a : Access) (p off : Nat) : Prop := gate s a (regAt p off) 0xFF false = .pass

/-- A frame enters the empty buffer of the ingress pipe that serves its port, which may start it: its sender holds the credits, and the
pipe's clock and the port's domain are on (01 R25, R144, R512, R518, R521, R525; 12 R366). -/
def FrameEnters (s : State) (f : Arrival) (k : Nat) : Prop :=
  arithRuns s = true ∧ domLive s 18 = true ∧ covered s f = true ∧ f.port.toNat < 12
    ∧ (8 ≤ f.port.toNat → s.blk.profile ≠ 2 ∧ s.rhmb.lspSrc.testBit (f.port.toNat - 8) = false)
    ∧ (f.port.toNat < 8 → s.pins.stationLive = true) ∧ ingressOf s f.port.toNat = some k ∧ (s.pipe k).buf = [] ∧ missesOf s k < 4

/-- A frame enters, passes checks 1 to 9 with its keys in the pipe's cache, and opens to a plaintext (Table 3.10). -/
def FrameOpens (s : State) (f : Arrival) (k : Nat) (plain : Bytes) : Prop :=
  FrameEnters s f k ∧ tableWf {} (s.pipe k).kc = true
    ∧ headerFailure s f (hdrOf f.bytes) = none ∧ epochCheck s (hdrOf f.bytes) = .ok
    ∧ (∀ r ∈ keyNeeds s k (hdrOf f.bytes), (kcFind (s.pipe k) r.use r.part r.sel r.epoch).isSome = true)
    ∧ (∃ i, kcFind (s.pipe k) (keyUse (hdrOf f.bytes)) (if isCollective (hdrOf f.bytes).cls then (hdrOf f.bytes).part else 0)
        (keySel (hdrOf f.bytes)) (hdrOf f.bytes).kEpoch = some i ∧ openFrame (tget {} (s.pipe k).kc i).key f.bytes = some plain)
    ∧ check9 s (hdrOf f.bytes) = true

/-- A frame passes check 10 onto an active entry of its ticket (Table 6.7). -/
def FrameIsActive (s : State) (h : Hdr) (d : Desc) (c : Bool) (e : Entry) : Prop :=
  descAt s h.part h.group h.step = some (d, c)
    ∧ (routeKind s h d c = .hop0 ∨ routeKind s h d c = .reduce ∨ routeKind s h d c = .dist)
    ∧ findEntry s h.part h.group h.ticket = some e ∧ e.group = h.group ∧ e.st = .active ∧ e.step ≠ none
    ∧ h.rank ∉ e.flow.silent ∧ ticketPast s h = false
    ∧ (e.launched = true → h.digest = e.digest ∧ h.gEpoch = e.gEpoch) ∧ flagElastic h = dElastic d

/-- A legal state: the straps and the lifecycle state have the codes the spec gives them (01 R3, 15 R443, 18 R534), the wall time is
64 bits (09 R297), and the pages and the fuse array are in canonical form. -/
def Legal (s : State) : Prop :=
  s.blk.profile < 4 ∧ s.pins.bootBase < 2 ^ 32 ∧ s.life.st ≤ 5 ∧ s.mrd.wall < 2 ^ 64
    ∧ tableWf {} s.bus.pages = true ∧ tableWf {} s.logb.array = true

/-- A response has left for the mailbox at a base, and the semaphores say so (17 R502, R503). -/
def Answered (s t : State) (base seq : Nat) (secured : Bool) (msg : Bytes) : Prop :=
  t.out = s.out ++ [.mem (base + 16384) (leBytes 4 msg.length ++ leBytes 4 seq ++ leBytes 1 secured.toNat ++ zeros 7 ++ msg)]
    ∧ (tget {} t.rhmb.sems 31 : Sem) = { (tget {} s.rhmb.sems 31 : Sem) with value := 0 }
    ∧ (tget {} t.rhmb.sems 30 : Sem) = { (tget {} s.rhmb.sems 30 : Sem) with value := 1 }
    ∧ ∀ i, i ≠ 30 → i ≠ 31 → (tget {} t.rhmb.sems i : Sem) = tget {} s.rhmb.sems i

/-- The lanes of a tile after values are added to it: an operation on the stored lanes, the values themselves where the tile is
fresh, and nothing past the live elements (R131, R132, R169). -/
def addedLanes (op live : Nat) (fresh : Bool) (old vs : List Int) : List Int :=
  (List.range 256).map (fun e => if live ≤ e then old.getD e 0 else if fresh then vs.getD e 0 else (combineLane op (old.getD e 0) (vs.getD e 0)).1)

/-- The access, the direction (true: a write), the register and the byte enables of a command that is an access of one register. -/
def accessOf : Instr → Option (Access × Bool × Nat × Nat)
  | .blkSoftReset a _ _ => some (a, true, regAt 0x00 0x60, 0xFF)
  | .intSetWrite a p _ => some (a, true, regAt p.toNat 0x28, 0xFF)
  | .pageLockWrite a p _ => some (a, true, regAt p.toNat 0x30, 0xFF)
  | .csDataWrite a k _ => some (a, true, regAt (0x40 + k.toNat) 0x58, 0xFF)
  | .csCommit a k _ => some (a, true, regAt (0x40 + k.toNat) 0x60, 0xFF)
  | .bindWrite a k _ => some (a, true, regAt (0x40 + k.toNat) 0x40, 0xFF)
  | .kcFlush a k _ => some (a, true, regAt (0x40 + k.toNat) 0x78, 0xFF)
  | .phlxAlloc a _ => some (a, true, regAt 0x51 0x58, 0xFF)
  | .phlxFree a _ => some (a, true, regAt 0x51 0x58, 0xFF)
  | .phlxOpen a _ => some (a, true, regAt 0x51 0x58, 0xFF)
  | .phlxInvalidate a _ => some (a, true, regAt 0x51 0x58, 0xFF)
  | .sndStCmd a _ => some (a, true, regAt 0x56 0xC0, 0xFF)
  | .grpDescWrite a w _ => some (a, true, regAt 0x60 (0x48 + 8 * w.toNat), 0xFF)
  | .mbrDataAccess a w _ => some (a, w, regAt 0x61 0x50, 0xFF)
  | .grpCommit a _ => some (a, true, regAt 0x60 0x88, 0xFF)
  | .grpClear a _ => some (a, true, regAt 0x60 0x88, 0xFF)
  | .launch a _ => some (a, true, regAt 0x60 0x88, 0xFF)
  | .grpAbort a _ => some (a, true, regAt 0x60 0x88, 0xFF)
  | .resyncSend a _ => some (a, true, regAt 0x60 0x88, 0xFF)
  | .resyncRecv a _ => some (a, true, regAt 0x60 0x88, 0xFF)
  | .setEpoch a _ => some (a, true, regAt 0x60 0x88, 0xFF)
  | .grpStationWrite a _ => some (a, true, regAt 0x60 0xD0, 0xFF)
  | .strgTrackWrite a _ => some (a, true, regAt 0x62 0x58, 0xFF)
  | .strgClear a _ => some (a, true, regAt 0x62 0x78, 0xFF)
  | .zinBudget a _ _ _ => some (a, true, regAt 0x55 0x80, 0xFF)
  | .mrdAdvance a _ _ => some (a, true, regAt 0x04 0x58, 0xFF)
  | .mrdStepSet a _ => some (a, true, regAt 0x04 0x60, 0xFF)
  | .scheduleEntryWrite a i _ => some (a, true, regAt 0x05 (0x100 + 16 * i.toNat), 0xFF)
  | .assign a n _ _ => some (a, true, regAt (0x80 + n.toNat) 0x88, 0xFF)
  | .partCmdRelease a n _ => some (a, true, regAt (0x80 + n.toNat) 0x88, 0xFF)
  | .partRegionWrite a n w l _ => some (a, true, regAt (0x80 + n.toNat) (0x100 + 16 * w.toNat + (if l then 8 else 0)), 0xFF)
  | .partMbrRangeWrite a n _ => some (a, true, regAt (0x80 + n.toNat) 0xA8, 0xFF)
  | .partChannelsWrite a n _ => some (a, true, regAt (0x80 + n.toNat) 0xB0, 0xFF)
  | .partQuotaWrite a n second _ => some (a, true, regAt (0x80 + n.toNat) (if second then 0xA0 else 0x98), 0xFF)
  | .registerRead a addr be => some (a, false, addr.toNat, be.toNat)
  | .registerWrite a addr be _ => some (a, true, addr.toNat, be.toNat)
  | .wideReadLatch a addr => some (a, false, addr.toNat, 0xFF)
  | .sndCtxSave a _ _ => some (a, true, regAt 0x56 0xC8, 0xFF)
  | .sndCtxRestore a _ _ => some (a, true, regAt 0x56 0xC8, 0xFF)
  | .rhmbStart a k _ => some (a, true, regAt (0x20 + k.toNat) 0x58, 0xFF)
  | .rhmbResume a k _ => some (a, true, regAt (0x20 + k.toNat) 0x58, 0xFF)
  | .rhmbStop a k _ => some (a, true, regAt (0x20 + k.toNat) 0x58, 0xFF)
  | .rhmbPause a k _ => some (a, true, regAt (0x20 + k.toNat) 0x58, 0xFF)
  | .rhmbChDoorbell a k _ => some (a, true, regAt (0x20 + k.toNat) 0xA0, 0xFF)
  | .rhmbGctrlWrite a _ => some (a, true, regAt 0x30 0x40, 0xFF)
  | .rhmbSemWrite a _ => some (a, true, regAt 0x30 0x58, 0xFF)
  | .chrtImport a _ _ _ => some (a, true, regAt 0x0A 0x40, 0xFF)
  | .chrtConfirm a _ => some (a, true, regAt 0x0A 0x40, 0xFF)
  | .chrtCommit a _ => some (a, true, regAt 0x0A 0x40, 0xFF)
  | .chrtDiscard a _ => some (a, true, regAt 0x0A 0x40, 0xFF)
  | .chrtDelete a _ => some (a, true, regAt 0x0A 0x40, 0xFF)
  | .chrtGenerate a _ => some (a, true, regAt 0x0A 0x40, 0xFF)
  | .chrtDeliver a _ => some (a, true, regAt 0x0A 0x40, 0xFF)
  | .astrCsDataWrite a _ => some (a, true, regAt 0x0C 0x50, 0xFF)
  | .astrCsCommit a _ => some (a, true, regAt 0x0C 0x58, 0xFF)
  | .astrRun a _ => some (a, true, regAt 0x0C 0x60, 0xFF)
  | .astrAbort a _ => some (a, true, regAt 0x0C 0x60, 0xFF)
  | .astrSlotDescWrite a _ => some (a, true, regAt 0x0D 0x48, 0xFF)
  | .astrDataAccess a w _ => some (a, w, regAt 0x0D 0x58, 0xFF)
  | .astrZero a _ => some (a, true, regAt 0x0D 0x60, 0xFF)
  | .logbProgram a _ => some (a, true, regAt 0x10 0x50, 0xFF)
  | .logbReinforce a _ => some (a, true, regAt 0x10 0x50, 0xFF)
  | .lockWrite a _ => some (a, true, regAt 0x10 0x50, 0xFF)
  | .lockRead a _ => some (a, true, regAt 0x10 0x50, 0xFF)
  | .advance a _ => some (a, true, regAt 0x10 0x50, 0xFF)
  | .logbRevoke a _ => some (a, true, regAt 0x10 0x50, 0xFF)
  | .genDus a _ => some (a, true, regAt 0x10 0x50, 0xFF)
  | .marginScan a _ => some (a, true, regAt 0x10 0x50, 0xFF)
  | .transition a _ _ => some (a, true, regAt 0x12 0x48, 0xFF)
  | .lifeChallenge a _ => some (a, true, regAt 0x12 0x48, 0xFF)
  | .unlockPw a _ => some (a, true, regAt 0x12 0x48, 0xFF)
  | .unlockGrant a _ _ => some (a, true, regAt 0x12 0x48, 0xFF)
  | .updBegin a _ _ => some (a, true, regAt 0x02 0x40, 0xFF)
  | .updBlock a _ _ => some (a, true, regAt 0x02 0x40, 0xFF)
  | .updFinish a _ _ => some (a, true, regAt 0x02 0x40, 0xFF)
  | .updAbort a _ => some (a, true, regAt 0x02 0x40, 0xFF)
  | .activate a _ _ _ => some (a, true, regAt 0x02 0x40, 0xFF)
  | .helmConfirm a _ _ => some (a, true, regAt 0x02 0x40, 0xFF)
  | .helmRevoke a _ _ => some (a, true, regAt 0x02 0x40, 0xFF)
  | .forward a _ _ => some (a, true, regAt 0x02 0x40, 0xFF)
  | .settings a _ _ => some (a, true, regAt 0x02 0x40, 0xFF)
  | .verifyHost a _ _ _ => some (a, true, regAt 0x02 0x40, 0xFF)
  | .helmStageDataAccess a w _ => some (a, w, regAt 0x03 0x48, 0xFF)
  | .extend a _ => some (a, true, regAt 0x15 0x40, 0xFF)
  | .pwrOn a _ => some (a, true, regAt 0xC0 0x48, 0xFF)
  | .pwrOff a _ => some (a, true, regAt 0xC0 0x48, 0xFF)
  | .pwrSleep a _ => some (a, true, regAt 0xC0 0x48, 0xFF)
  | _ => none

/-- A command is a request of the host register port (18 Table 18.1). -/
def fromHost (c : Instr) : Bool :=
  match accessOf c with
  | some x => decide (x.1.src = .host)
  | none => false

/-- The accepted requests of the host register port that wait for their answers, at most 8 (18 R513); further ones stand at the port. -/
def hrpHeld (s : State) : Nat := min 8 (s.pending.filter fromHost).length

/-- `HRP_RDY`: the block can accept a request (18 R513). -/
def hrpReady (s : State) : Bool := domLive s 18 && decide (hrpHeld s < 8)

end Sys2Proof.Machine
end

