-- ==== Sys2Proof/Certificates/Slice0/Obligations.lean ====
section
/-! DEFINITION. The statements for the provers: what the commands do, by the rules of the spec, and what every step keeps. -/

open Sys2Proof Sys2Proof.Machine

/-- A step at a state with a command in front of its queue runs that command on the state with the rest of the queue. -/
def Obligations.StepRunsTheFrontCommand : Prop :=
  ∀ (c : Instr) (rest : List Instr) (s : State),
    step { s with pending := c :: rest } = exec c { s with pending := rest }

/-- On an empty queue the block idles for one microsecond, the model's choice of a tick (log 2): `MRD_WALL_US` counts (R297), the
levels of the key port fall (R523), closing management windows may go off, and nothing else changes. -/
def Obligations.EmptyQueueCountsAMicrosecond : Prop :=
  ∀ s : State, s.pending = [] → ∃ t, step s = .next t ∧
    t = { s with mrd := { s.mrd with wall := (s.mrd.wall + 1) % 2 ^ 64 },
                 pins := { s.pins with kdpCancel := false, kdpZeroise := s.pins.kdpZeroise && s.blk.held },
                 rhmb := { s.rhmb with mgmt := t.rhmb.mgmt } }

/-- Every command that is an access of one register leaves the block alone where the bus does not pass the access: a dead block does
not answer, a refused access writes the error record of its page (R59), one that no page takes writes `BLK_DECODE_ERR` (R46, R47,
R65), and the port answers with the status and zero data (R514). That a first record leaves `OVER` as it stood (log 114) and that the
cause of `BLK_DECODE_ERR` rises with a first record only (log 115) are the model's choices. -/
def Obligations.TheBusDecidesBeforeTheRegister : Prop :=
  ∀ (c : Instr) (s : State) (a : Access) (w : Bool) (addr be : Nat), accessOf c = some (a, w, addr, be) →
    (gate s a addr be w = .dead → exec c s = .next s)
    ∧ (∀ st, gate s a addr be w = .refuse st → ∃ t, exec c s = .next t
        ∧ t = { s with bus := { s.bus with pages := t.bus.pages, resp := { refused := true, stat := stCode st, rdata := 0 } } }
        ∧ t.page (addr / 4096) = { s.page (addr / 4096) with
            cause := (s.page (addr / 4096)).cause ||| bitWord 63,
            err := if (s.page (addr / 4096)).err.valid then { (s.page (addr / 4096)).err with again := true }
              else { valid := true, again := (s.page (addr / 4096)).err.again, dir := w, mgmt := isMgmt a,
                     ptag := if a.tagged then a.ptag.toNat else 0, addr := addr % 4096, status := stCode st } }
        ∧ ∀ p, p ≠ addr / 4096 → t.page p = s.page p)
    ∧ (∀ st, gate s a addr be w = .decode st → ∃ t, exec c s = .next t
        ∧ t = { s with bus := { s.bus with pages := t.bus.pages, decode := t.bus.decode, resp := { refused := true, stat := stCode st, rdata := 0 } } }
        ∧ t.bus.decode = (if s.bus.decode.valid then { s.bus.decode with again := true }
            else { valid := true, again := s.bus.decode.again, dir := w, mgmt := isMgmt a,
                   ptag := if a.tagged then a.ptag.toNat else 0, addr := addr, status := stCode st })
        ∧ t.page 0 = { s.page 0 with cause := if s.bus.decode.valid then (s.page 0).cause else (s.page 0).cause ||| bitWord 62 }
        ∧ ∀ p, p ≠ 0 → t.page p = s.page p)

/-- A write without the management bit, on a page that responds, is refused with `ST_PARTITION` where the page is of the management
class, where the access is untagged (R42), or where its tag's partition is not `OWNED` (chapter 10); the state but for the bus is kept
(R17). -/
def Obligations.ManagementPagesRefuseOthers : Prop :=
  ∀ (c : Instr) (s : State) (a : Access) (addr be : Nat), accessOf c = some (a, true, addr, be) →
    dead s = false → s.clkr.secLock = true → s.logb.lifted = false → pageUp s (addr / 4096) = true → pageClassNow s (addr / 4096) ≠ .unmapped →
    isMgmt a = false →
    (pageClassNow s (addr / 4096) = .mgmt ∨ a.tagged = false ∨ (s.part a.ptag.toNat).st ≠ .owned) →
    ∃ t, exec c s = .next t ∧ t = { s with bus := t.bus } ∧ t.bus.resp = { refused := true, stat := 0x0401, rdata := 0 }

/-- Writes of the header's registers that reach them: `INT_SET`, `PAGE_LOCK`, `INT_CAUSE`, `INT_ENABLE` and `PAGE_ERR` do what their
access types say, and a write of `PAGE_ID`, which has no writable field, ends with `ST_BAD_ARG` (R54). Nothing else changes. -/
def Obligations.HeaderWritesAct : Prop :=
  ∀ (s : State) (a : Access) (p : BitVec 8) (v : Word),
    (WriteReaches s a p.toNat 0x28 → exec (.intSetWrite a p v) s = .next ((answer s 0).setPage p.toNat
      { s.page p.toNat with cause := (s.page p.toNat).cause ||| (v &&& BitVec.ofNat 64 (causeMask p.toNat)) }))
    ∧ (WriteReaches s a p.toNat 0x30 → exec (.pageLockWrite a p v) s = .next (if bitOf v 0
        then (answer s 0).setPage p.toNat { s.page p.toNat with lock := true } else answer s 0))
    ∧ (∀ addr : BitVec 20, addr.toNat = regAt p.toNat 0x18 → WriteReaches s a p.toNat 0x18 →
        exec (.registerWrite a addr 0xFF v) s = .next ((answer s 0).setPage p.toNat
          { s.page p.toNat with cause := (s.page p.toNat).cause &&& ~~~v }))
    ∧ (∀ addr : BitVec 20, addr.toNat = regAt p.toNat 0x20 → WriteReaches s a p.toNat 0x20 →
        exec (.registerWrite a addr 0xFF v) s = .next ((answer s 0).setPage p.toNat { s.page p.toNat with enable := v }))
    ∧ (∀ addr : BitVec 20, addr.toNat = regAt p.toNat 0x38 → WriteReaches s a p.toNat 0x38 →
        exec (.registerWrite a addr 0xFF v) s = .next ((answer s 0).setPage p.toNat
          { s.page p.toNat with err := { (s.page p.toNat).err with
              valid := (s.page p.toNat).err.valid && !bitOf v 63, again := (s.page p.toNat).err.again && !bitOf v 62 } }))
    ∧ (∀ addr : BitVec 20, addr.toNat = regAt p.toNat 0x00 → WriteReaches s a p.toNat 0x00 →
        ∃ t, exec (.registerWrite a addr 0xFF v) s = .next t ∧ t = { s with bus := t.bus }
          ∧ t.bus.resp = { refused := true, stat := 0x0101, rdata := 0 })

/-- A read that reaches `PAGE_ID` or `INT_CAUSE` answers it and changes nothing else. A read of the lowest register of a measurement
register latches its six words in the reader's bank, a read of one of its other words answers that bank's latched copy, and no other
bank's latch changes (R41). -/
def Obligations.ReadsAnswerAndWideReadsLatch : Prop :=
  ∀ (s : State) (a : Access) (addr : BitVec 20),
    (∀ p : BitVec 8, addr.toNat = regAt p.toNat 0x18 → ReadReaches s a p.toNat 0x18 →
      exec (.registerRead a addr 0xFF) s = .next (answer s (s.page p.toNat).cause))
    ∧ (∀ p : BitVec 8, addr.toNat = regAt p.toNat 0x00 → ReadReaches s a p.toNat 0x00 →
      exec (.registerRead a addr 0xFF) s = .next (answer s
        (pack [(31, 24, (pageType p.toNat).1), (23, 16, (pageType p.toNat).2), (15, 8, p.toNat)])))
    ∧ (∀ k, k < 24 → addr.toNat = regAt 0x14 (0x100 + 48 * k) → ReadReaches s a 0x14 (0x100 + 48 * k) →
      ∃ t, exec (.wideReadLatch a addr) s = .next t ∧ exec (.registerRead a addr 0xFF) s = .next t
        ∧ t = { s with bus := { s.bus with latch := t.bus.latch, resp := { refused := false, stat := 0, rdata := BitVec.ofNat 64 (tget 0 s.meas.regs k).toNat } } }
        ∧ (∀ i, i < 6 → (tget [] t.bus.latch (bankOf a)).getD i 0 = BitVec.ofNat 64 ((tget 0 s.meas.regs k).toNat / 2 ^ (64 * i)))
        ∧ ∀ b, b ≠ bankOf a → tget [] t.bus.latch b = tget [] s.bus.latch b)
    ∧ (∀ k i, k < 24 → 1 ≤ i → i < 6 → addr.toNat = regAt 0x14 (0x100 + 48 * k + 8 * i) → ReadReaches s a 0x14 (0x100 + 48 * k + 8 * i) →
      exec (.registerRead a addr 0xFF) s = .next (answer s ((tget [] s.bus.latch (bankOf a)).getD i 0)))

/-- `LARK_CS_DATA` and `LARK_CS_COMMIT` (R141): a `LOADING` pipe stores the words and becomes `IDLE` through a commit with the right
CRC-32C over its 2,048 words; a failed commit is recorded and leaves the pipe; in any other state both are refused. `LARK_KC_FLUSH` (R153): bit 9 flushes every entry, bit 8 the fabric's, bit 5 those of the partition in bits 4:0; an entry that a
frame holds is marked, any other one is zeroed, and nothing else changes. -/
def Obligations.PipesAreLoadedAndFlushed : Prop :=
  (
    ∀ (s : State) (a : Access) (k : BitVec 4) (v : Word),
      (WriteReaches s a (0x40 + k.toNat) 0x58 → (s.pipe k.toNat).st = .loading →
        exec (.csDataWrite a k v) s = .next ((answer s 0).setPipe k.toNat { s.pipe k.toNat with
          cs := tset 0 (s.pipe k.toNat).cs (s.pipe k.toNat).csAddr v, csAddr := ((s.pipe k.toNat).csAddr + 1) % 2048 }))
      ∧ (WriteReaches s a (0x40 + k.toNat) 0x60 → (s.pipe k.toNat).st = .loading → v.toNat < 2 ^ 32 →
        crc32c (csBytes (s.pipe k.toNat).cs) = v.toNat →
        ∃ t, exec (.csCommit a k v) s = .next t
          ∧ t = { s with bus := t.bus, lark := { s.lark with pipes := t.lark.pipes } }
          ∧ t.pipe k.toNat = { s.pipe k.toNat with csValid := true, st := .idle }
          ∧ (∀ j, j ≠ k.toNat → t.pipe j = s.pipe j)
          ∧ t.page (0x40 + k.toNat) = { s.page (0x40 + k.toNat) with cause := (s.page (0x40 + k.toNat)).cause ||| bitWord 0 }
          ∧ t.bus.resp = { refused := false, stat := 0, rdata := 0 })
      ∧ (WriteReaches s a (0x40 + k.toNat) 0x60 → (s.pipe k.toNat).st = .loading → v.toNat < 2 ^ 32 →
        crc32c (csBytes (s.pipe k.toNat).cs) ≠ v.toNat →
        ∃ t, exec (.csCommit a k v) s = .next t ∧ t = { s with bus := t.bus }
          ∧ ((s.page (0x40 + k.toNat)).err.valid = false → (t.page (0x40 + k.toNat)).err.status = 0x0102 ∧ (t.page (0x40 + k.toNat)).err.valid = true))
      ∧ ((s.pipe k.toNat).st ≠ .loading →
        (WriteReaches s a (0x40 + k.toNat) 0x58 → ∃ t, exec (.csDataWrite a k v) s = .next t ∧ t = { s with bus := t.bus }
          ∧ t.bus.resp = { refused := true, stat := 0x0301, rdata := 0 })
        ∧ (WriteReaches s a (0x40 + k.toNat) 0x60 → ∃ t, exec (.csCommit a k v) s = .next t ∧ t = { s with bus := t.bus }
          ∧ t.bus.resp = { refused := true, stat := 0x0301, rdata := 0 })))
  ∧ (
    ∀ (s : State) (a : Access) (k : BitVec 4) (v : Word), WriteReaches s a (0x40 + k.toNat) 0x78 →
      (v.toNat &&& (maskBits 63 10 + maskBits 7 6) = 0 →
        ∃ t, exec (.kcFlush a k v) s = .next t
          ∧ t = { s with bus := { s.bus with resp := { refused := false, stat := 0, rdata := 0 } }, lark := { s.lark with pipes := t.lark.pipes } }
          ∧ t.pipe k.toNat = { s.pipe k.toNat with kc := (t.pipe k.toNat).kc }
          ∧ (tableWf {} (s.pipe k.toNat).kc = true → ∀ i, tget {} (t.pipe k.toNat).kc i =
              (let e : KcEntry := tget {} (s.pipe k.toNat).kc i
               if e.valid = true ∧ (bitOf v 9 = true ∨ (bitOf v 8 = true ∧ e.use = 4) ∨ (bitOf v 5 = true ∧ e.use ≠ 4 ∧ e.part = fld v 4 0))
               then (if e.holders = 0 then {} else { e with flush := true }) else e))
          ∧ ∀ j, j ≠ k.toNat → t.pipe j = s.pipe j)
      ∧ (v.toNat &&& (maskBits 63 10 + maskBits 7 6) ≠ 0 →
        ∃ t, exec (.kcFlush a k v) s = .next t ∧ t = { s with bus := t.bus } ∧ t.bus.resp = { refused := true, stat := 0x0101, rdata := 0 }))

/-- `BIND` (R142, R144, R146) and the end of a drain (R144), while `LIVE_EN` is 0, `STATION_LIVE` low and no frame waits
for an egress pipe (the cases in which neither starts or ends live service): the ports move, a removed ingress port drains while its frames stand in the buffer, the pipe's state
follows its ports, and a refused write changes nothing but the bus. -/
def Obligations.BindingsMovePorts : Prop :=
  ∀ (s : State) (a : Access), s.grp.liveEn = false → s.pins.stationLive = false → s.lark.unsent = [] →
    (∀ (k : BitVec 4) (v : Word), WriteReaches s a (0x40 + k.toNat) 0x40 →
      bindStateRefused s k.toNat (fld v 11 0) = false → bindArgRefused s k.toNat (fld v 11 0) = false →
      ∃ t, exec (.bindWrite a k v) s = .next t
        ∧ t = { s with bus := t.bus, lark := { s.lark with pipes := t.lark.pipes, inCr := t.lark.inCr }, rhmb := { s.rhmb with srcCr := t.rhmb.srcCr }, out := t.out }
        ∧ t.pipe k.toNat = { s.pipe k.toNat with bind := fld v 11 0, drain := (t.pipe k.toNat).drain, st := (t.pipe k.toNat).st }
        ∧ (∀ b, (t.pipe k.toNat).drain.testBit b = ((s.pipe k.toNat).drain.testBit b
            || (decide (k.toNat < 8 ∧ b < 12) && (s.pipe k.toNat).bind.testBit b && !(fld v 11 0).testBit b && portHeld (s.pipe k.toNat) b)))
        ∧ (t.pipe k.toNat).st = (if (t.pipe k.toNat).drain ≠ 0 then .draining else if fld v 11 0 ≠ 0 then .bound else .idle)
        ∧ ∀ j, j ≠ k.toNat → t.pipe j = s.pipe j)
    ∧ (∀ (k : BitVec 4) (v : Word), WriteReaches s a (0x40 + k.toNat) 0x40 →
      (bindStateRefused s k.toNat (fld v 11 0) = true → ∃ t, exec (.bindWrite a k v) s = .next t ∧ t = { s with bus := t.bus }
        ∧ t.bus.resp = { refused := true, stat := 0x0301, rdata := 0 })
      ∧ (bindStateRefused s k.toNat (fld v 11 0) = false → bindArgRefused s k.toNat (fld v 11 0) = true →
        ∃ t, exec (.bindWrite a k v) s = .next t ∧ t = { s with bus := t.bus } ∧ t.bus.resp = { refused := true, stat := 0x0101, rdata := 0 }))
    ∧ (∀ (k : BitVec 3) (port : BitVec 4), (s.pipe k.toNat).drain.testBit port.toNat = true → (s.pipe k.toNat).st = .draining →
      portHeld (s.pipe k.toNat) port.toNat = false → s.snd.moved = [] → arithRuns s = true →
      ∃ t, exec (.drainEnd k port) s = .next t
        ∧ t = { s with bus := { s.bus with pages := t.bus.pages }, lark := { s.lark with pipes := t.lark.pipes } }
        ∧ t.pipe k.toNat = { s.pipe k.toNat with drain := (s.pipe k.toNat).drain - 2 ^ port.toNat, st := (t.pipe k.toNat).st }
        ∧ (t.pipe k.toNat).st = (if (t.pipe k.toNat).drain ≠ 0 then .draining else if (s.pipe k.toNat).bind ≠ 0 then .bound else .idle)
        ∧ ∀ j, j ≠ k.toNat → t.pipe j = s.pipe j)

/-- `OPEN`, `INVALIDATE` and `FREE` on the window of bits 41:29 (R169, R171, R322), once the bus passes the write, no window command runs,
the must-be-zero bits are 0 and the arithmetic loop's clock runs; without it the command waits (01 R25). That the partner of a freed window
stays without a partner is the model's choice (log 125). The end of a window command writes `PHLX_WIN_RESULT` and sets `CMD_DONE`, and
while one runs each of the four commands is refused with `ST_WRONG_STATE` (R184). -/
def Obligations.WindowCommandsAct : Prop :=
  (
    ∀ (s : State) (a : Access) (v : Word), WriteReaches s a 0x51 0x58 → s.phlx.running = none → fld v 4 0 = 0 → arithRuns s = true →
      ((s.win (fld v 41 29)).kind = .working → (s.win (fld v 41 29)).st ≠ .opened → (s.win (fld v 41 29)).st ≠ .releasing →
        ∃ t, exec (.phlxOpen a v) s = .next t
          ∧ t = { s with bus := t.bus, phlx := { s.phlx with wins := t.phlx.wins, recs := t.phlx.recs, running := some { win := fld v 41 29 }, waiting := none } }
          ∧ t.win (fld v 41 29) = { s.win (fld v 41 29) with st := .opened, frontier := 0, ticket := s.phlx.winArg }
          ∧ (∀ i, i < (s.win (fld v 41 29)).tiles → tileRec t (fld v 41 29) i =
              { scale := if bitOf v 5 then fld v 13 6 else 0x81, fresh := true, flags := 0, hop := 0 })
          ∧ (∀ q, (∀ i, i < (s.win (fld v 41 29)).tiles → q ≠ recKey s (s.win (fld v 41 29)) i) →
              (tget {} t.phlx.recs q : TileRec) = tget {} s.phlx.recs q)
          ∧ ∀ j, j ≠ fld v 41 29 → t.win j = s.win j)
      ∧ ((s.win (fld v 41 29)).kind = .shadow →
        ∃ t, exec (.phlxInvalidate a v) s = .next t
          ∧ t = { s with bus := t.bus, phlx := { s.phlx with wins := t.phlx.wins, running := some { win := fld v 41 29 }, waiting := none } }
          ∧ t.win (fld v 41 29) = { s.win (fld v 41 29) with shadowValid := false }
          ∧ ∀ j, j ≠ fld v 41 29 → t.win j = s.win j)
      ∧ ((s.win (fld v 41 29)).kind ≠ .free → (s.win (fld v 41 29)).st ≠ .opened → (s.win (fld v 41 29)).st ≠ .releasing →
        ∃ t, exec (.phlxFree a v) s = .next t
          ∧ t = { s with bus := t.bus, grp := { s.grp with descA := t.grp.descA, descS := t.grp.descS },
                         phlx := { s.phlx with wins := t.phlx.wins, lanes := t.phlx.lanes, recs := t.phlx.recs, gmap := t.phlx.gmap,
                                               running := some { win := fld v 41 29 }, waiting := none } }
          ∧ t.win (fld v 41 29) = {}
          ∧ (∀ j, j ≠ fld v 41 29 → t.win j = { s.win j with
              partner := if (s.win (fld v 41 29)).partner = some j then none else (s.win j).partner })
          ∧ (∀ i, tget 0 t.phlx.gmap i = if (s.win (fld v 41 29)).base ≤ i ∧ i < (s.win (fld v 41 29)).base + granulesFor (s.win (fld v 41 29)).tiles
              then 0 else tget 0 s.phlx.gmap i)
          ∧ (∀ i, i < (s.win (fld v 41 29)).tiles → tget zeroLanes t.phlx.lanes (laneKey s (s.win (fld v 41 29)) i) = zeroLanes
              ∧ (tget {} t.phlx.recs (recKey s (s.win (fld v 41 29)) i) : TileRec) = {})
          ∧ (∀ q, (∀ i, i < granulesFor (s.win (fld v 41 29)).tiles → q / 2 ≠ granuleAt s ((s.win (fld v 41 29)).base + i)) →
              tget zeroLanes t.phlx.lanes q = tget zeroLanes s.phlx.lanes q)
          ∧ (∀ q, (∀ i, i < granulesFor (s.win (fld v 41 29)).tiles → q / 512 ≠ granuleAt s ((s.win (fld v 41 29)).base + i)) →
              (tget {} t.phlx.recs q : TileRec) = tget {} s.phlx.recs q)
          ∧ (∀ sh g, descWindow (t.desc sh g) ≠ some (fld v 41 29))
          ∧ (tableWf {} s.grp.descA = true → tableWf {} s.grp.descS = true → ∀ sh g, t.desc sh g =
              if descWindow (s.desc sh g) = some (fld v 41 29) then { s.desc sh g with w7 := (s.desc sh g).w7 &&& BitVec.ofNat 64 (2 ^ 64 - 1 - 2 ^ 35) }
              else s.desc sh g))
      ∧ ((s.win (fld v 41 29)).st = .opened ∨ (s.win (fld v 41 29)).st = .releasing →
        (∃ t, exec (.phlxOpen a v) s = .next t
          ∧ t = { s with bus := t.bus, phlx := { s.phlx with running := some { status := 0x0301, win := fld v 41 29 }, waiting := none } })
        ∧ ∃ t, exec (.phlxFree a v) s = .next t
          ∧ t = { s with bus := t.bus, phlx := { s.phlx with running := some { status := 0x0301, win := fld v 41 29 }, waiting := none } })
      ∧ (∀ c, (c = .phlxOpen a v ∧ (s.win (fld v 41 29)).kind ≠ .working ∧ winInUse (s.win (fld v 41 29)) = false)
            ∨ (c = .phlxFree a v ∧ (s.win (fld v 41 29)).kind = .free ∧ winInUse (s.win (fld v 41 29)) = false)
            ∨ (c = .phlxInvalidate a v ∧ (s.win (fld v 41 29)).kind ≠ .shadow) →
        ∃ t, exec c s = .next t
          ∧ t = { s with bus := t.bus, phlx := { s.phlx with running := some { status := 0x0101, win := fld v 41 29 }, waiting := none } }))
  ∧ (
    ∀ s : State,
      (∀ (a : Access) (v : Word) (c : Instr) (op : WinOp), WriteReaches s a 0x51 0x58 → s.phlx.running = none → fld v 4 0 = 0 → arithRuns s = false →
          (c, op) ∈ [(.phlxFree a v, .free), (.phlxOpen a v, .bind), (.phlxInvalidate a v, .invalidate)] →
          exec c s = .next { s with bus := { s.bus with resp := { refused := false, stat := 0, rdata := 0 } },
                                    phlx := { s.phlx with running := some {}, waiting := some (op, a, v) } })
      ∧ (∀ r, s.phlx.running = some r → s.phlx.waiting = none → arithRuns s = true → ∃ t, exec .phlxWinCmdDone s = .next t
          ∧ t = { s with bus := { s.bus with pages := t.bus.pages }, phlx := { s.phlx with running := none, result := r } }
          ∧ t.page 0x51 = { s.page 0x51 with cause := (s.page 0x51).cause ||| bitWord 0 }
          ∧ ∀ p, p ≠ 0x51 → t.page p = s.page p)
      ∧ (s.phlx.running = none ∨ s.phlx.waiting.isSome = true ∨ arithRuns s = false → exec .phlxWinCmdDone s = .next s)
      ∧ (∀ (a : Access) (v : Word) (c : Instr), s.phlx.running.isSome = true → WriteReaches s a 0x51 0x58 →
          c ∈ [.phlxAlloc a v, .phlxFree a v, .phlxOpen a v, .phlxInvalidate a v] →
          ∃ t, exec c s = .next t ∧ t = { s with bus := t.bus } ∧ t.bus.resp = { refused := true, stat := 0x0301, rdata := 0 }))

/-- `ALLOC` (R167, R169, R170, R316, R322), with and without a shadow. The model's choices: the lowest index, run and granules (log 123), the
order of the failures (log 124), each copy of the descriptor judged by itself (log 135), and the slices powered with a window (log 42). -/
def Obligations.WindowsAreAllocated : Prop :=
  ∀ (s : State) (a : Access) (v : Word) (p g n k : Nat), WriteReaches s a 0x51 0x58 → s.phlx.running = none → fld v 4 0 = 0 →
    p = fld v 59 55 → g = fld v 54 43 → n = fld v 28 14 → k = (if bitOf v 42 = true then 2 else 1) →
    (1 ≤ n → n ≤ 32640 → arithRuns s = true →
      (partGranules s p + k * granulesFor n ≤ (s.part p).qGran → partWindows s p + k ≤ (s.part p).qWins → k * granulesFor n ≤ poolFree s →
       ∀ w, freeWindow s (bitOf v 42) = some w →
        (∃ t, exec (.phlxAlloc a v) s = .next t ∧ t.phlx.running = some { status := 0, win := w, detail := 0 }
          ∧ t = { s with bus := t.bus, pwr := t.pwr, grp := { s.grp with descA := t.grp.descA, descS := t.grp.descS },
                         phlx := { s.phlx with wins := t.phlx.wins, gmap := t.phlx.gmap, running := t.phlx.running, waiting := none } }
          ∧ (∀ d, d ∈ [13, 14, 15, 16] → domLive t d = true)
          ∧ (∀ sh, t.desc sh g = if descWindow (s.desc sh g) = none
              then { s.desc sh g with w7 := ((s.desc sh g).w7 &&& BitVec.ofNat 64 (2 ^ 64 - 1 - maskBits 48 35)) ||| pack [(48, 36, w), (35, 35, 1)] }
              else s.desc sh g)
          ∧ (∀ sh h, h ≠ g → t.desc sh h = s.desc sh h)
          ∧ (tableWf {} s.phlx.wins = true → ∀ j, j ≠ w → (bitOf v 42 = true → j ≠ w + 1) → t.win j = { s.win j with base := (t.win j).base })
          ∧ (bitOf v 42 = false → ∀ b, freeRun (granulesFor n) (s.phlx.gmap.map (·.1)) 0 = some b →
              t.win w = { kind := .working, part := p, group := g, tiles := n, base := b }
              ∧ (∀ j, j ≠ w → t.win j = s.win j)
              ∧ (∀ i, i < granulesFor n → ∃ q, q < 16384 ∧ tget 0 t.phlx.gmap (b + i) = q + 1 ∧ ∀ e ∈ s.phlx.gmap, e.2 - 1 ≠ q)
              ∧ (∀ i j, i < granulesFor n → j < granulesFor n → i ≠ j → tget 0 t.phlx.gmap (b + i) ≠ tget 0 t.phlx.gmap (b + j))
              ∧ (∀ i, (i < b ∨ b + granulesFor n ≤ i) → tget 0 t.phlx.gmap i = tget 0 s.phlx.gmap i))
          ∧ (bitOf v 42 = true → ∀ b x c, freeRun (granulesFor n) (s.phlx.gmap.map (·.1)) 0 = some b →
              x = placeWindow s w b { kind := .working, part := p, group := g, tiles := n, partner := some (w + 1) } →
              freeRun (granulesFor n) (x.phlx.gmap.map (·.1)) 0 = some c →
              t.win w = { kind := .working, part := p, group := g, tiles := n, base := b, partner := some (w + 1) }
              ∧ t.win (w + 1) = { kind := .shadow, part := p, group := g, tiles := n, base := c, partner := some w }
              ∧ (∀ j, j ≠ w → j ≠ w + 1 → t.win j = s.win j)
              ∧ t.phlx.gmap = (placeWindow x (w + 1) c { kind := .shadow, part := p, group := g, tiles := n, partner := some w }).phlx.gmap)))
      ∧ ((s.part p).qGran < partGranules s p + k * granulesFor n ∨ (s.part p).qWins < partWindows s p + k →
        ∃ t, exec (.phlxAlloc a v) s = .next t
          ∧ t = { s with bus := t.bus, phlx := { s.phlx with running := some { status := 0x0202, win := 0, detail := 0 }, waiting := none } }
          ∧ bitOf (t.page (0x80 + p)).cause 4 = true)
      ∧ (partGranules s p + k * granulesFor n ≤ (s.part p).qGran → partWindows s p + k ≤ (s.part p).qWins →
        (poolFree s < k * granulesFor n → ∃ t, exec (.phlxAlloc a v) s = .next t
          ∧ t = { s with bus := t.bus, phlx := { s.phlx with running := some { status := 0x0202, win := 0, detail := 1 }, waiting := none } })
        ∧ (k * granulesFor n ≤ poolFree s → freeWindow s (bitOf v 42) = none → ∃ t, exec (.phlxAlloc a v) s = .next t
          ∧ t = { s with bus := t.bus, phlx := { s.phlx with running := some { status := 0x0202, win := 0, detail := 2 }, waiting := none } })))
    ∧ (1 ≤ n → n ≤ 32640 → arithRuns s = false → exec (.phlxAlloc a v) s = .next { s with
        bus := { s.bus with resp := { refused := false, stat := 0, rdata := 0 } }, phlx := { s.phlx with running := some {}, waiting := some (.alloc, a, v) } })
    ∧ (n = 0 ∨ 32640 < n →
      ∃ t, exec (.phlxAlloc a v) s = .next t ∧ t = { s with bus := t.bus } ∧ t.bus.resp = { refused := true, stat := 0x0101, rdata := 0 })

/-- Checks finish (R259, R260, R264, R266, R267): each is counted, a failing one is also counted and latched in `SND_LAST` while no earlier
record stands, and the frame of a failed tile is kept for its replay. That the difference latched for a band is the magnitude beyond it is
the model's choice (log 98). -/
def Obligations.ChecksAreCounted : Prop :=
  (∀ (s : State) (k : BitVec 4), arithRuns s = true →
    (∀ c, k.toNat < 8 → s.snd.checks.find? (fun x => x.pipe = k.toNat) = some c → c.replay = none →
      (∃ t, exec (.soundingCheckDone k none) s = .next t
        ∧ t.snd = { s.snd with checks := s.snd.checks.erase c, ctr := tset 0 s.snd.ctr 0x50 (tget 0 s.snd.ctr 0x50 + 1) }
        ∧ t.chrt = s.chrt ∧ t.mrd = s.mrd ∧ t.logb = s.logb ∧ t.life = s.life ∧ t.helm = s.helm ∧ t.astr = s.astr)
      ∧ (∀ (f : TileFault) x r, (c.job.run f).fails = x :: r → (∀ y ∈ x :: r, y.point ≠ 4) → atBound (c.job.run f).w = false →
        bitOf s.snd.last0 63 = false → ∀ u z, u = unitsOf (hdrOf c.arr.bytes).payLen → z = failTile c ((x :: r).any (·.internal)) (c.job.run f).w →
        (s.park.reserve.find? (fun y => y.pipe = c.pipe && y.src = c.frame) = none → reserveUsed s + u ≤ 256) →
        ∃ t, exec (.soundingCheckDone k (some f)) s = .next t
          ∧ t.snd = { s.snd with
              checks := s.snd.checks.erase c
              ctr := (x :: r).foldl (fun m _ => tset 0 m 0x60 (tget 0 m 0x60 + 1)) (tset 0 s.snd.ctr 0x50 (tget 0 s.snd.ctr 0x50 + 1))
              last0 := (s.snd.last0 &&& bitWord 62) ||| pack [(63, 63, 1), (61, 61, 0), (60, 58, k.toNat), (57, 54, x.point),
                (53, 49, c.part), (48, 37, c.group), (36, 22, c.tile), (0, 0, x.internal.toNat)] ||| (if r = [] then 0 else bitWord 62)
              last1 := pack [(63, 48, x.rowMask), (47, 32, x.colMask), (31, 0, c.ticket)]
              last2 := pack [(47, 0, uNat 48 x.delta)] }
          ∧ t.park.reserve = (match s.park.reserve.find? (fun y => y.pipe = c.pipe && y.src = c.frame) with
            | none => s.park.reserve ++ [{ units := u, pipe := k.toNat, part := c.part, group := c.group, ticket := c.ticket, no := s.lark.nextId, src := c.frame, arr := c.arr, seen := s.mrd.wall, tiles := [z] }]
            | some o => s.park.reserve.map (fun y => if y.no = o.no then
                { y with tiles := y.tiles.filter (fun w => w.tile ≠ c.tile) ++ [z], pipe := k.toNat, src := c.frame, taken := false } else y))))
    ∧ (∀ f, 8 ≤ k.toNat → (s.pipe k.toNat).outs.find? (fun x => 0 < x.waits && !x.failed) = some f → f.redone = none →
      (∃ t, exec (.soundingCheckDone k none) s = .next t
        ∧ t.snd = { s.snd with ctr := tset 0 s.snd.ctr 0x58 (tget 0 s.snd.ctr 0x58 + 1) })
      ∧ (∀ (b : TileFault) x r, outFails f b = x :: r → bitOf s.snd.last0 63 = false →
        ∃ t, exec (.soundingCheckDone k (some b)) s = .next t
          ∧ t.snd = { s.snd with
              ctr := (x :: r).foldl (fun m _ => tset 0 m 0x60 (tget 0 m 0x60 + 1)) (tset 0 s.snd.ctr 0x58 (tget 0 s.snd.ctr 0x58 + 1))
              last0 := (s.snd.last0 &&& bitWord 62) ||| pack [(63, 63, 1), (61, 61, 1), (60, 58, k.toNat - 8), (57, 54, x.point),
                (53, 49, f.part), (48, 37, f.group), (36, 22, outTile f), (0, 0, x.internal.toNat)] ||| (if r = [] then 0 else bitWord 62)
              last1 := pack [(63, 48, x.rowMask), (47, 32, x.colMask), (31, 0, f.ticket)]
              last2 := pack [(47, 0, uNat 48 x.delta)] }
          ∧ (t.pipe k.toNat).outs = (s.pipe k.toNat).outs.map (fun y => if y = f then
              { f with failed := true, internal := (x :: r).any (·.internal), bad := outTile f } else y))))
  ∧ (∀ (s : State) (k : BitVec 4) f,
      (k.toNat < 8 → s.snd.checks.find? (fun x => x.pipe = k.toNat) = none → exec (.soundingCheckDone k f) s = .next s)
      ∧ (8 ≤ k.toNat → (s.pipe k.toNat).outs.find? (fun x => 0 < x.waits && !x.failed) = none → exec (.soundingCheckDone k f) s = .next s)
      ∧ (arithRuns s = false → exec (.soundingCheckDone k f) s = .next s))
  ∧ (∀ c : Compare, let row i := 2 ^ c.scale * (c.found.map (fun o => rowSum o.2 i)).sum
        - ((c.expected.map (fun o => rowSum o.2 i)).sum - (c.off.map (fun l => rowSum l i)).sum)
      let col i := 2 ^ c.scale * (c.found.map (fun o => colSum o.2 i)).sum
        - ((c.expected.map (fun o => colSum o.2 i)).sum - (c.off.map (fun l => colSum l i)).sum)
      (c.judge [] [] = none ↔ ∀ i < 16, c.breaks (row i) = false ∧ c.breaks (col i) = false)
      ∧ (∀ f, c.judge [] [] = some f → f.point = c.point ∧ f.internal = false ∧ f.rowMask < 2 ^ 16 ∧ f.colMask < 2 ^ 16
        ∧ (∀ i < 16, f.rowMask.testBit i = c.breaks (row i) ∧ f.colMask.testBit i = c.breaks (col i))
        ∧ ∀ i < 16, c.breaks (row i) = true → (∀ j < i, c.breaks (row j) = false) → f.delta = c.excess (row i))
      ∧ (∀ (o : Operand) (e : SumErr), o ∈ c.found ++ c.expected ++ c.others → o.1 = e.tap → e.err ≠ 0 →
        (∃ f, c.judge [e] [] = some f ∧ f.internal = true) ∧ ∃ f, c.judge [] [e] = some f ∧ f.internal = true))

/-- The replay of a failed tile runs and passes its check (R267, R268, R270, R271): the reading of Table 8.2 on the pipe's record, for ingress
and egress pipes alike. -/
def Obligations.ReplaysClassifyPipes : Prop :=
  (∀ (s : State) (c : Instr) (k off : Nat) (internal : Bool), arithRuns s = true →
    ((∃ q ck no r, q.toNat < 8 ∧ s.snd.checks.find? (fun x => x.pipe = q.toNat) = some ck ∧ ck.replay = some no
        ∧ s.park.reserve.find? (fun r => r.no = no) = some r ∧ atBound ck.job.o = false ∧ r.pipe = k
        ∧ r.tiles.any (fun y => y.tile = ck.tile && y.internal) = internal
        ∧ off = 0x50 ∧ c = .soundingCheckDone q none)
      ∨ (∃ q f j, 8 ≤ q.toNat ∧ (s.pipe q.toNat).outs.find? (fun x => 0 < x.waits && !x.failed) = some f ∧ f.waits = 1 ∧ f.redone = some j
        ∧ q.toNat = k ∧ f.internal = internal ∧ off = 0x58 ∧ c = .soundingCheckDone q none)) →
    (internal = true → ∃ t, exec c s = .next t ∧ t.snd.pipes = s.snd.pipes
      ∧ t.snd.ctr = tset 0 (tset 0 s.snd.ctr off (tget 0 s.snd.ctr off + 1)) 0x70 (tget 0 s.snd.ctr 0x70 + 1))
    ∧ (internal = false → ∃ t, exec c s = .next t
      ∧ t.snd.ctr = tset 0 (tset 0 s.snd.ctr off (tget 0 s.snd.ctr off + 1)) 0x68 (tget 0 s.snd.ctr 0x68 + 1)
      ∧ (t.sndPipe k).strikes = min 0xFF ((s.sndPipe k).strikes + 1)
      ∧ (t.sndPipe k).life = min 0xFFFF ((s.sndPipe k).life + 1)
      ∧ (∀ j, j ≠ k → t.sndPipe j = s.sndPipe j)
      ∧ (min 0xFFFF ((s.sndPipe k).life + 1) < s.snd.limit →
          ((s.sndPipe k).cls = .healthy → (t.sndPipe k).cls = .suspect)
          ∧ ((s.sndPipe k).cls = .suspect → (t.sndPipe k).cls = .suspended))
      ∧ (s.snd.limit ≤ min 0xFFFF ((s.sndPipe k).life + 1) → (s.pipe k).st ≠ .retired → (t.sndPipe k).cls = .retired ∧ (t.pipe k).st = .retired)))
  ∧ (∀ (s : State) (k : BitVec 4) (e : EccIn), arithRuns s = true →
    (∀ r, s.park.reserve.find? (fun r => r.pipe = k.toNat && replayReady s r) = some r →
      ∃ t, exec (.ingressReplay k e) s = .next (eccAdded s t e) ∧ (∀ x ∈ t.park.reserve, x.no = r.no → x.taken = true)
        ∧ (∀ x ∈ t.park.reserve, x.no ≠ r.no → x ∈ s.park.reserve) ∧ t.snd.pipes = s.snd.pipes ∧ t.snd.ctr = s.snd.ctr)
    ∧ (∀ f, (s.pipe k.toNat).outs.find? (fun f => f.failed) = some f → outAtBound s f = false →
      ∃ t, exec (.egressReplay k e) s = .next (eccReplayed s t k.toNat e) ∧ t.snd = s.snd
        ∧ t.pipe k.toNat = { s.pipe k.toNat with outs := (s.pipe k.toNat).outs.map (fun y => if y = f then
            { f with failed := false, waits := f.count, redone := some (replayPipe s k.toNat) } else y) }
        ∧ (f.stored = false → t.phlx = s.phlx) ∧ t.park = s.park ∧ t.grp = s.grp))

/-- A replay that fails (R267 to R270, Table 8.2). -/
def Obligations.FailedReplaysAbort : Prop :=
  (∀ (s : State) (c : Instr) (k q : Nat), arithRuns s = true →
    ((∃ d ck no r f, d.toNat < 8 ∧ s.snd.checks.find? (fun x => x.pipe = d.toNat) = some ck ∧ ck.replay = some no
        ∧ s.park.reserve.find? (fun r => r.no = no) = some r ∧ r.pipe = k ∧ d.toNat = q ∧ (ck.job.run f).fails ≠ []
        ∧ c = .soundingCheckDone d (some f))
      ∨ (∃ d o f, 8 ≤ d.toNat ∧ (s.pipe d.toNat).outs.find? (fun x => 0 < x.waits && !x.failed) = some o ∧ o.redone = some q
        ∧ d.toNat = k ∧ outFails o f ≠ [] ∧ c = .soundingCheckDone d (some f))) →
      ∃ t, exec c s = .next t ∧ tget 0 t.snd.ctr 0x70 = tget 0 s.snd.ctr 0x70 + 1
        ∧ ∀ j, t.sndPipe j = (if (j = k ∨ j = q) ∧ (s.sndPipe j).cls = .healthy
            then { s.sndPipe j with cls := .suspect } else s.sndPipe j))
  ∧ (∀ (s : State) (k : BitVec 4) (e : EccIn),
    (∀ f, arithRuns s = true → (s.pipe k.toNat).outs.find? (fun f => f.failed) = some f → outAtBound s f = true →
      ∃ t, exec (.egressReplay k e) s = .next (eccReplayed s t k.toNat e) ∧ t.snd.ctr = tset 0 s.snd.ctr 0x70 (tget 0 s.snd.ctr 0x70 + 1)
        ∧ ∀ j, t.sndPipe j = (if j = k.toNat ∧ (s.sndPipe j).cls = .healthy then { s.sndPipe j with cls := .suspect } else s.sndPipe j))
    ∧ (s.park.reserve.find? (fun r => r.pipe = k.toNat && replayReady s r) = none → exec (.ingressReplay k e) s = .next s)
    ∧ ((s.pipe k.toNat).outs.find? (fun f => f.failed) = none → exec (.egressReplay k e) s = .next s))

/-- Self-tests (R273 to R275, R283): the start of a round by `SND_ST_CMD`, and its units, whose operands are free numbers of the draw (the
model's choice, log 133). `CS_PARITY_ERROR` (R272): the pipe faults, is suspended with 64 units to pass, and loses its ports, or is retired where the store does not take. -/
def Obligations.UnitsAreTested : Prop :=
  (
    ∀ s : State,
      (∀ (a : Access) (v : Word), WriteReaches s a 0x56 0xC0 → v.toNat < 2 ^ 16 →
        (roundRuns s = false → drbgServes s 1 = true → ∃ t, exec (.sndStCmd a v) s = .next t
          ∧ t = { s with bus := t.bus, snd := { s.snd with round := t.snd.round } }
          ∧ t.snd.round = s.snd.round ++ ((roundOrder s v.toNat).filter (fun k => !(s.snd.round.any (fun u => u.pipe = k)))).map
              (fun k => { pipe := k, left := s.snd.stTiles, confirm := false })
          ∧ bitOf (t.page 0x56).cause 6 = (bitOf (s.page 0x56).cause 6 || !(roundRuns t)))
        ∧ (roundRuns s = true ∨ drbgServes s 1 = false → ∃ t, exec (.sndStCmd a v) s = .next t ∧ t = { s with bus := t.bus }
          ∧ t.bus.resp = { refused := true, stat := 0x0301, rdata := 0 }))
      ∧ (∀ u q, arithRuns s = true → drbgServes s 1 = true → s.snd.round.find? (takesUnit s) = some u →
        nextLive s u.pipe u.pipe = some q → pipeEmpty (s.pipe q) = true →
        (∀ x : UnitFault, sameUnit x.tested x.reference = true → 1 < u.left → exec (.selfTestUnit x) s = .next { s with
          free := s.free + 1
          hashu := { s.hashu with drbgs := tset {} s.hashu.drbgs 1 { (tget {} s.hashu.drbgs 1 : Drbg) with
            requests := if (tget {} s.hashu.drbgs 1 : Drbg).requests < 2 ^ 20 then (tget {} s.hashu.drbgs 1 : Drbg).requests + 1 else 1 } }
          snd := { s.snd with
            pipes := tset {} s.snd.pipes u.pipe { s.sndPipe u.pipe with
              units := min 0xFFFF ((s.sndPipe u.pipe).units + 1), cls := if u.confirm then .testing else (s.sndPipe u.pipe).cls }
            ctr := tset 0 s.snd.ctr 0x78 (tget 0 s.snd.ctr 0x78 + 1)
            scratch := [unitBytes (Config.freeNat s.free) u.pipe x.tested, unitBytes (Config.freeNat s.free) q x.reference]
            round := s.snd.round.map (fun y => if y = u then { u with left := u.left - 1 } else y) } })
        ∧ (∀ (x : UnitFault) z, sameUnit x.tested x.reference = false → nextLive s q u.pipe = some z → pipeEmpty (s.pipe z) = true →
          (sameUnit x.third x.reference = true → (s.pipe u.pipe).st ≠ .retired → ∃ t, exec (.selfTestUnit x) s = .next t
            ∧ (t.sndPipe u.pipe).cls = .retired ∧ (t.sndPipe u.pipe).unitsFailed = min 0xFFFF ((s.sndPipe u.pipe).unitsFailed + 1)
            ∧ ∀ j, j ≠ u.pipe → t.sndPipe j = s.sndPipe j)
          ∧ (sameUnit x.third x.reference = false → sameUnit x.third x.tested = true → (s.pipe q).st ≠ .retired → 1 < u.left →
            ∃ t, exec (.selfTestUnit x) s = .next t
            ∧ (t.sndPipe q).cls = .retired ∧ (t.sndPipe q).unitsFailed = min 0xFFFF ((s.sndPipe q).unitsFailed + 1)
            ∧ (t.sndPipe u.pipe).units = min 0xFFFF ((s.sndPipe u.pipe).units + 1)
            ∧ ∀ j, j ≠ u.pipe → j ≠ q → t.sndPipe j = s.sndPipe j)))
      ∧ (arithRuns s = false ∨ s.snd.round.find? (takesUnit s) = none → ∀ x, exec (.selfTestUnit x) s = .next s))
  ∧ (
    ∀ (s : State) (k : BitVec 4) (stuck : List (BitVec 11 × Word)) (x : StepIn),
      ((s.pipe k.toNat).st = .idle ∨ (s.pipe k.toNat).st = .bound ∨ (s.pipe k.toNat).st = .draining → arithRuns s = true →
        (8 ≤ k.toNat ∨ (s.snd.checks = [] ∧ ∀ j, (s.pipe j).buf = [])) →
        (stuck = [] → ∃ t, exec (.csParityError k (stuck, x)) s = .next t
          ∧ (t.pipe k.toNat).st = .fault ∧ (t.pipe k.toNat).bind = 0 ∧ (t.pipe k.toNat).drain = 0
          ∧ (t.sndPipe k.toNat) = { s.sndPipe k.toNat with cls := .suspended }
          ∧ (∀ j, j ≠ k.toNat → t.sndPipe j = s.sndPipe j)
          ∧ t.snd.round = { pipe := k.toNat, left := 64, confirm := true } :: s.snd.round.filter (fun u => u.pipe ≠ k.toNat))
        ∧ (crc32c (csBytes (stuck.foldl (fun m y => tset 0 m y.1.toNat y.2) (s.pipe k.toNat).cs)) ≠ crc32c (csBytes (s.pipe k.toNat).cs) →
          ∃ t, exec (.csParityError k (stuck, x)) s = .next t ∧ (t.pipe k.toNat).st = .retired ∧ (t.sndPipe k.toNat).cls = .retired))
      ∧ ((s.pipe k.toNat).st = .offline ∨ (s.pipe k.toNat).st = .loading ∨ (s.pipe k.toNat).st = .retired ∨ (s.pipe k.toNat).st = .fault →
        exec (.csParityError k (stuck, x)) s = .next s))

/-- The channel commands (Table 11.3, R325, R343, R348, R351) in the states that allow them. Where a command may let the DMA move on, its
own effect is stated and the engine's work (`pumpAll`) follows. The doorbell (R343), the semaphores and the stream roles (R353). -/
def Obligations.ChannelRegistersAct : Prop :=
  (
    ∀ (s : State) (a : Access) (k : BitVec 4) (v : Word), WriteReaches s a (0x20 + k.toNat) 0x58 → fld v 59 0 = 0 →
      (fld v 63 60 = 1 → (s.chan k.toNat).st = .idle → startDenied s a k.toNat = false →
        exec (.rhmbStart a k v) s = .next (pumpAll busFn ((answer s 0).setChan k.toNat { s.chan k.toNat with
          st := .running, cmpEnd := false, mgmtStart := isMgmt a, loop0 := { (s.chan k.toNat).loop0 with armed := false }
          loop1 := { (s.chan k.toNat).loop1 with armed := false }, offSrc := 0, offDst := 0, instr := none, job := none, wait := none })))
      ∧ (fld v 63 60 = 2 →
        ((s.chan k.toNat).st = .running → exec (.rhmbPause a k v) s = .next ((answer s 0).setChan k.toNat { s.chan k.toNat with st := .pausing }))
        ∧ ((s.chan k.toNat).st = .waiting → ∃ t, exec (.rhmbPause a k v) s = .next t
          ∧ t = { s with bus := t.bus, rhmb := { s.rhmb with chans := t.rhmb.chans, reqs := t.rhmb.reqs } }
          ∧ t.rhmb.reqs = (s.rhmb.reqs.filter (fun r => !(r.ch = k.toNat && !isWrite r.kind && r.ans.isSome))).map
              (fun r => if r.ch = k.toNat ∧ isWrite r.kind = false then { r with ch := 16 } else r)
          ∧ t.chan k.toNat = { s.chan k.toNat with st := .paused, status := 0x0702 } ∧ bitOf (t.page (0x20 + k.toNat)).cause 3 = true
          ∧ ∀ j, j ≠ k.toNat → t.chan j = s.chan j))
      ∧ (fld v 63 60 = 3 → (s.chan k.toNat).st = .paused ∨ (s.chan k.toNat).st = .halted → (s.chan k.toNat).job = none →
        ((s.chan k.toNat).wait = none → exec (.rhmbResume a k v) s = .next (pumpAll busFn
          ((answer s 0).setChan k.toNat { s.chan k.toNat with st := .running, instr := none })))
        ∧ (∀ w, (s.chan k.toNat).wait = some w → w ≠ .stream → exec (.rhmbResume a k v) s = .next (pumpAll busFn
          ((answer s 0).setChan k.toNat { s.chan k.toNat with st := .waiting }))))
      ∧ (fld v 63 60 = 4 → frameBegun s k.toNat = true → exec (.rhmbStop a k v) s = .next (pumpAll busFn ((answer s 0).setChan k.toNat
          { s.chan k.toNat with
            stopping := true, st := if (s.chan k.toNat).st = .waiting then .running else (s.chan k.toNat).st
            wait := if (s.chan k.toNat).st = .waiting then none else (s.chan k.toNat).wait })))
      ∧ (fld v 63 60 = 4 → (s.chan k.toNat).st ≠ .idle → frameBegun s k.toNat = false → ∃ u, exec (.rhmbStop a k v) s = .next (pumpAll busFn u)
          ∧ u.chan k.toNat = { s.chan k.toNat with
              st := .idle, status := 0x0504, job := none, instr := none, wait := none, stopping := false, offSrc := 0, offDst := 0
              loop0 := { (s.chan k.toNat).loop0 with armed := false }, loop1 := { (s.chan k.toNat).loop1 with armed := false }
              lastOwner := some (ownerCode (chanOwner s k.toNat)) }
          ∧ (∀ j, j ≠ k.toNat → u.chan j = s.chan j)
          ∧ (∀ e ∈ u.rhmb.claims, e.2 ≠ k.toNat + 1)
          ∧ (∀ r ∈ u.rhmb.reqs, k.toNat < 16 → r.ch ≠ k.toNat)
          ∧ bitOf (u.page (0x20 + k.toNat)).cause 5 = true))
  ∧ (∀ (s : State) (k id : Nat), canFetch s k = true → freeId s = some id → (s.chan k).stopping = false →
      portBeat busFn s k = some (fetchIns s k)
      ∧ (chanInside s k (s.chan k).pc 32 false = true →
          (fetchIns s k).chan k = { s.chan k with serial := (s.chan k).serial + 1, used := windowsOver s k [((s.chan k).pc, 32)] }
          ∧ (fetchIns s k).rhmb.reqs = s.rhmb.reqs ++ [{ id := id, ch := k, by_ := k, kind := .fetch, addr := (s.chan k).pc - (s.chan k).pc % 64, off := (s.chan k).pc % 64, n := 32, wall := s.mrd.wall }])
      ∧ (chanInside s k (s.chan k).pc 32 false = false →
          ((fetchIns s k).chan k).st = .halted ∧ ((fetchIns s k).chan k).status = 0x0201 ∧ (fetchIns s k).rhmb.reqs = s.rhmb.reqs)
      ∧ ∀ j, j ≠ k → (fetchIns s k).chan j = s.chan j)
  ∧ (
    ∀ (s : State) (a : Access) (k : BitVec 4) (v : Word),
      (WriteReaches s a (0x20 + k.toNat) 0xA0 → v = 1 → exec (.rhmbChDoorbell a k v) s = .next ((answer s 0).setChan k.toNat
        { s.chan k.toNat with bells := if (s.chan k.toNat).bells < 0xFFFF then (s.chan k.toNat).bells + 1 else 0xFFFF }))
      ∧ (WriteReaches s a (0x20 + k.toNat) 0xA0 → v = 0 → exec (.rhmbChDoorbell a k v) s = .next (answer s 0))
      ∧ (WriteReaches s a 0x30 0x58 →
        ((∀ j n, (s.chan j).wait ≠ some (.sem s.rhmb.semSel n)) ∨ ((tget {} s.rhmb.sems s.rhmb.semSel : Sem).owned = false ∧ bitOf v 63 = false) → exec (.rhmbSemWrite a v) s = .next { answer s 0 with
          rhmb := { s.rhmb with sems := tset {} s.rhmb.sems s.rhmb.semSel { owned := bitOf v 63, part := fld v 62 58, value := fld v 31 0 } } })
        ∧ (∀ j n, j < 16 → (s.chan j).wait = some (.sem s.rhmb.semSel n) → (tget {} s.rhmb.sems s.rhmb.semSel : Sem).owned ≠ bitOf v 63 →
          ∃ t, exec (.rhmbSemWrite a v) s = .next t ∧ t = { s with bus := t.bus } ∧ t.bus.resp = { refused := true, stat := 0x0301, rdata := 0 }))
      ∧ (WriteReaches s a 0x30 0x40 → (s.page 0x30).lock = false → s.rhmb.claims = [] →
        (s.blk.profile = 1 → exec (.rhmbGctrlWrite a v) s = .next { answer s 0 with
          rhmb := { s.rhmb with lspSrc := fld v 3 0, lspSink := fld v 7 4 } })
        ∧ (s.blk.profile ≠ 1 → ∃ t, exec (.rhmbGctrlWrite a v) s = .next t ∧ t = { s with bus := t.bus }
          ∧ t.bus.resp = { refused := true, stat := 0x0101, rdata := 0 })))

/-- The data instructions on a channel that runs them, `LEN` not zero and every field in form (R327, R329 to R335): each starts its
transfer, and then the engine's work goes on. -/
def Obligations.DataInstructionsStart : Prop :=
  ∀ (s : State) (k : BitVec 4) (l : List Word), (s.chan k.toNat).st = .running → (s.chan k.toNat).job = none → (s.chan k.toNat).instr = some l →
    secRuns s = true → (s.chan k.toNat).stopping = false → (insOf l).rest = 0 → (insOf l).mgmt = false → (insOf l).ssp = 0 → (insOf l).dsp = 0 → (insOf l).len ≠ 0 →
    fld (insOf l).w1 63 48 = 0 → (fld (insOf l).w2 63 48 = 0) → ∀ (a b : Nat),
    (a : Int) = (insOf l).w1.toNat + (s.chan k.toNat).offSrc → (b : Int) = (insOf l).w2.toNat + (s.chan k.toNat).offDst →
    ((insOf l).op = 1 → (insOf l).sub = 0 → (insOf l).w3 = 0 → chanInside s k.toNat a (insOf l).len false = true →
        chanInside s k.toNat b (insOf l).len true = true →
      exec (.move k) s = .next (pumpAll busFn (s.setChan k.toNat { s.chan k.toNat with
        wait := none, remain := (insOf l).len, src := (0, a), dst := (0, b)
        used := (s.chan k.toNat).used ++ windowsOver s k.toNat [(a, (insOf l).len), (b, (insOf l).len)]
        job := some { kind := .move false, len := (insOf l).len, rd := .list [⟨0, a, (insOf l).len⟩], ws := .list [⟨0, a, (insOf l).len⟩], wd := .list [⟨0, b, (insOf l).len⟩], ad := .list [⟨0, b, (insOf l).len⟩] } })))
    ∧ ((insOf l).op = 2 → (insOf l).sub = 0 → fld (insOf l).w3 31 0 = 0 → 1 ≤ fld (insOf l).w3 63 48 → fld (insOf l).w3 63 48 ≤ 64 →
        1 ≤ fld (insOf l).w3 47 32 → fld (insOf l).w3 47 32 ≤ 64 →
        chanInside s k.toNat (insOf l).w1.toNat (16 * fld (insOf l).w3 63 48) false = true →
        chanInside s k.toNat (insOf l).w2.toNat (16 * fld (insOf l).w3 47 32) false = true →
      ∃ u, exec (.moveSg k) s = .next (pumpAll busFn u) ∧ u = { s with rhmb := { s.rhmb with chans := u.rhmb.chans } }
        ∧ (∀ j, j ≠ k.toNat → u.chan j = s.chan j)
        ∧ (u.chan k.toNat).job = some { kind := .pairs (fld (insOf l).w3 63 48) (fld (insOf l).w3 47 32), len := (insOf l).len, rd := .list [⟨0, (insOf l).w1.toNat, 16 * fld (insOf l).w3 63 48⟩, ⟨0, (insOf l).w2.toNat, 16 * fld (insOf l).w3 47 32⟩], ws := .list [⟨0, (insOf l).w1.toNat, 16 * fld (insOf l).w3 63 48⟩, ⟨0, (insOf l).w2.toNat, 16 * fld (insOf l).w3 47 32⟩], wd := .list [], ad := .list [] })
    ∧ ((insOf l).op = 3 → (insOf l).sub = 0 → (insOf l).w1 = 0 → 12 ≤ k.toNat → chanInside s k.toNat b (insOf l).len true = true →
      exec (.fill k) s = .next (pumpAll busFn (s.setChan k.toNat { s.chan k.toNat with
        wait := none, remain := (insOf l).len, dst := (0, b)
        used := (s.chan k.toNat).used ++ windowsOver s k.toNat [(b, (insOf l).len)]
        job := some { kind := .fill (insOf l).w3, len := (insOf l).len, rd := .list [], ws := .list [], wd := .list [⟨0, b, (insOf l).len⟩], ad := .list [⟨0, b, (insOf l).len⟩] } })))
    ∧ ((insOf l).op = 4 → (insOf l).sub ≤ 1 → (insOf l).w3 = 0 → 12 ≤ k.toNat → chanInside s k.toNat a (insOf l).len false = true →
        chanInside s k.toNat b (insOf l).len false = true →
      exec (.compare k) s = .next (pumpAll busFn (s.setChan k.toNat { s.chan k.toNat with
        wait := none, remain := (insOf l).len, src := (0, a), dst := (0, b)
        used := (s.chan k.toNat).used ++ windowsOver s k.toNat [(a, (insOf l).len), (b, (insOf l).len)]
        job := some { kind := .compare (decide ((insOf l).sub = 1)), len := (insOf l).len, rd := .list [⟨0, a, (insOf l).len⟩], ws := .list [⟨0, a, (insOf l).len⟩], wd := .list [⟨0, b, (insOf l).len⟩], ad := .list [⟨0, b, (insOf l).len⟩] } })))
    ∧ ((insOf l).op = 5 → (insOf l).sub = 1 → k.toNat < 12 → fld (insOf l).w3 63 61 = 1 → fld (insOf l).w3 60 48 = 0 →
        1 ≤ fld (insOf l).w3 47 32 → 16 * fld (insOf l).w3 47 32 ≤ fld (insOf l).w3 31 0 →
        chanInside s k.toNat a ((16 * ceilDiv (insOf l).len (fld (insOf l).w3 47 32) - 1) * fld (insOf l).w3 31 0 + 16 * fld (insOf l).w3 47 32) false = true →
        chanInside s k.toNat b ((insOf l).len * 264) true = true →
      ∃ u, exec (.shuffle k) s = .next (pumpAll busFn u) ∧ u = { s with rhmb := { s.rhmb with chans := u.rhmb.chans } }
        ∧ (∀ j, j ≠ k.toNat → u.chan j = s.chan j) ∧ (u.chan k.toNat).remain = (insOf l).len
        ∧ (u.chan k.toNat).src = (0, a) ∧ (u.chan k.toNat).dst = (0, b + 8)
        ∧ (u.chan k.toNat).job.map (fun j => (j.kind, j.len)) = some (.shuffle 0, (insOf l).len * 256))
    ∧ ((insOf l).op = 9 → (insOf l).sub = 0 → (insOf l).w2 = 0 → (insOf l).w3 = 0 → (insOf l).w1.toNat % 32 = 0 →
        chanInside s k.toNat (insOf l).w1.toNat 32 false = true →
      ∃ u, exec (.list k) s = .next (pumpAll busFn u) ∧ u = { s with rhmb := { s.rhmb with chans := u.rhmb.chans } }
        ∧ (∀ j, j ≠ k.toNat → u.chan j = s.chan j) ∧ (u.chan k.toNat).remain = (insOf l).len
        ∧ (u.chan k.toNat).job = some { kind := .desc (insOf l).len, len := 32, rd := .list [⟨0, (insOf l).w1.toNat, 32⟩], ws := .list [⟨0, (insOf l).w1.toNat, 32⟩], wd := .list [], ad := .list [] })

/-- `LOOP`, `WAIT`, `SIGNAL` and `END` on a channel that runs them, every field in form (R334, R343, R344, R352). -/
def Obligations.ControlInstructionsRun : Prop :=
  ∀ (s : State) (k : BitVec 4),
    (∀ l : List Word, secRuns s = true → (s.chan k.toNat).stopping = false → (s.chan k.toNat).st = .running → (s.chan k.toNat).job = none → (s.chan k.toNat).instr = some l →
      (insOf l).rest = 0 → (insOf l).mgmt = false → (insOf l).ssp = 0 → (insOf l).dsp = 0 →
      ((insOf l).op = 6 → (insOf l).sub = 0 → fld (insOf l).w3 63 16 = 0 → fld (insOf l).w3 15 0 ≠ 0 →
        incOk (insOf l).w1.toInt = true → incOk (insOf l).w2.toInt = true → (insOf l).irq = false →
        ((s.chan k.toNat).loop0.armed = true → (s.chan k.toNat).loop0.owner = (s.chan k.toNat).pc) →
        ∀ n, n = (if (s.chan k.toNat).loop0.armed then (s.chan k.toNat).loop0.count else (insOf l).len) →
        ((n ≠ 0 → exec (.loop k) s = .next (pumpAll busFn (s.setChan k.toNat { s.chan k.toNat with
            loop0 := { armed := true, count := n - 1, owner := (s.chan k.toNat).pc }
            offSrc := wrapOff ((s.chan k.toNat).offSrc + (insOf l).w1.toInt), offDst := wrapOff ((s.chan k.toNat).offDst + (insOf l).w2.toInt)
            pc := pcBack (s.chan k.toNat).pc (fld (insOf l).w3 15 0), instr := none })))
        ∧ (n = 0 → ∃ u, exec (.loop k) s = .next (pumpAll busFn u) ∧ (∀ j, j ≠ k.toNat → u.chan j = s.chan j)
            ∧ u.chan k.toNat = { s.chan k.toNat with
              loop0 := { armed := false, count := 0, owner := (s.chan k.toNat).pc }
              offSrc := wrapOff ((s.chan k.toNat).offSrc - (insOf l).len * (insOf l).w1.toInt)
              offDst := wrapOff ((s.chan k.toNat).offDst - (insOf l).len * (insOf l).w2.toInt)
              pc := ((s.chan k.toNat).pc + 32) % 2 ^ 48, instr := none, wait := none })))
      ∧ ((insOf l).op = 7 → (insOf l).len = 0 → (insOf l).w1 = 0 → (insOf l).w2 = 0 →
        ((insOf l).sub = 1 → fld (insOf l).w3 63 48 = 0 → exec (.wait k) s = .next (pumpAll busFn (s.setChan k.toNat
          { s.chan k.toNat with st := .waiting, wait := some (.step (fld (insOf l).w3 47 0) false) })))
        ∧ ((insOf l).sub = 2 → fld (insOf l).w3 58 32 = 0 → semOwn s k.toNat (fld (insOf l).w3 63 59) = true →
          exec (.wait k) s = .next (pumpAll busFn (s.setChan k.toNat
            { s.chan k.toNat with st := .waiting, wait := some (.sem (fld (insOf l).w3 63 59) (fld (insOf l).w3 31 0)) })))
        ∧ ((insOf l).sub = 3 → (insOf l).w3 = 0 → exec (.wait k) s = .next (pumpAll busFn (s.setChan k.toNat
          { s.chan k.toNat with st := .waiting, wait := some .bell }))))
      ∧ ((insOf l).op = 8 → (insOf l).len = 0 → (insOf l).w1 = 0 → (insOf l).w2 = 0 → (insOf l).sub = 1 → fld (insOf l).w3 58 32 = 0 →
        (semOwn s k.toNat (fld (insOf l).w3 63 59) = true → (insOf l).irq = false →
          ∃ u, exec (.signal k) s = .next (pumpAll busFn u)
            ∧ u = { s with rhmb := { s.rhmb with chans := u.rhmb.chans, claims := u.rhmb.claims, sems := u.rhmb.sems } }
            ∧ u.chan k.toNat = { s.chan k.toNat with pc := ((s.chan k.toNat).pc + 32) % 2 ^ 48, instr := none, wait := none }
            ∧ tget {} u.rhmb.sems (fld (insOf l).w3 63 59) = { (tget {} s.rhmb.sems (fld (insOf l).w3 63 59) : Sem) with
                value := min (2 ^ 32 - 1) ((tget {} s.rhmb.sems (fld (insOf l).w3 63 59) : Sem).value + fld (insOf l).w3 31 0) }
            ∧ (∀ j, j ≠ k.toNat → u.chan j = s.chan j)
            ∧ ∀ i, i ≠ fld (insOf l).w3 63 59 → tget {} u.rhmb.sems i = (tget {} s.rhmb.sems i : Sem))
        ∧ (semOwn s k.toNat (fld (insOf l).w3 63 59) = false →
          ∃ u, exec (.signal k) s = .next (pumpAll busFn u) ∧ (u.chan k.toNat).st = .halted ∧ (u.chan k.toNat).status = 0x0401
            ∧ u.rhmb.sems = s.rhmb.sems))
      ∧ ((insOf l).op = 15 → (insOf l).len = 0 → (insOf l).w1 = 0 → (insOf l).w2 = 0 → (insOf l).w3 = 0 → (insOf l).sub = 0 →
        ∃ u, exec (.endRun k) s = .next (pumpAll busFn u) ∧ (∀ j, j ≠ k.toNat → u.chan j = s.chan j)
          ∧ u.chan k.toNat = { s.chan k.toNat with st := .idle, status := 0, instr := none, wait := none, stopping := false, lastOwner := some (ownerCode (chanOwner s k.toNat)) }
          ∧ bitOf (u.page (0x20 + k.toNat)).cause 0 = true))
    ∧ (∀ (c : Instr) (op : Nat), (c, op) ∈ [(.move k, 1), (.moveSg k, 2), (.fill k, 3), (.compare k, 4), (.shuffle k, 5), (.loop k, 6), (.wait k, 7),
          (.signal k, 8), (.list k, 9), (.endRun k, 15)] →
        secRuns s = false ∨ (s.chan k.toNat).stopping = true ∨ (s.chan k.toNat).st ≠ .running ∨ (s.chan k.toNat).instr = none ∨ (chanIns s k.toNat).op ≠ op → exec c s = .next s)

/-- Answers, errors and timeouts of the memory master port (R349, R515), the end of a semaphore wait (R343) and of a pause (R348).
Log 175 (the number of a timed-out request) is the model's choice. -/
def Obligations.TheMemoryPortAnswers : Prop :=
  ∀ (s : State),
    (∀ (r : Req) (id : BitVec 8), s.rhmb.reqs.find? (fun x => x.id = id.toNat && x.ans.isNone && isWrite x.kind = false) = some r → r.kind = .fetch →
        r.ch < 16 → reqsOf s r.ch = [r] → secRuns s = true → (∀ x ∈ s.rhmb.reqs, x.ans = none ∧ (x.id = id.toNat → x = r)) →
        domLive s 18 = true → s.rhmb.late.contains id.toNat = false → (s.chan r.ch).stopping = false →
      (∀ b : Bytes, (insOf ((List.range 4).map (fun i => bytesWord (slice (slice b r.off r.n) (8 * i) 8)))).op ∈ [1, 2, 3, 4, 5, 6, 7, 8, 9, 15] →
        ∃ u, exec (.mmpReadResponse id (some b)) s = .next (pumpAll busFn u)
          ∧ u = { s with rhmb := { s.rhmb with chans := u.rhmb.chans, reqs := u.rhmb.reqs } }
          ∧ u.chan r.ch = { s.chan r.ch with instr := some ((List.range 4).map (fun i => bytesWord (slice (slice b r.off r.n) (8 * i) 8))), serial := (s.chan r.ch).serial + 1, used := [] }
          ∧ (∀ j, j ≠ r.ch → u.chan j = s.chan j) ∧ ∀ x ∈ u.rhmb.reqs, x.id ≠ id.toNat)
      ∧ (∃ u, exec (.mmpReadResponse id none) s = .next (pumpAll busFn u)
          ∧ (u.chan r.ch).st = .halted ∧ (u.chan r.ch).status = 0x0701 ∧ (u.chan r.ch).err = (true, false, 0, r.addr + r.off)
          ∧ ∀ j, j ≠ r.ch → u.chan j = s.chan j)
      ∧ (∀ us, r.wall + 1000 ≤ (s.mrd.wall + us) % 2 ^ 64 → s.rhmb.reqs.find? (fun x => x.id = id.toNat && x.ans.isNone) = some r →
          ∃ u, exec (.mmpTimeout id us) s = .next (pumpAll busFn u) ∧ (u.chan r.ch).st = .halted ∧ (u.chan r.ch).status = 0x0701
            ∧ u.rhmb.late = s.rhmb.late ++ [id.toNat])
      ∧ (∀ us, (s.mrd.wall + us) % 2 ^ 64 < r.wall + 1000 → s.rhmb.reqs.find? (fun x => x.id = id.toNat && x.ans.isNone) = some r →
          exec (.mmpTimeout id us) s = .next { s with mrd := { s.mrd with wall := (s.mrd.wall + us) % 2 ^ 64 } }))
    ∧ (∀ (r : Req) (id : BitVec 8) (n : Nat) (j : Job) (g : Seg) (c : Bool),
        s.rhmb.reqs.find? (fun x => x.id = id.toNat && x.ans.isNone && isWrite x.kind = true) = some r → r.kind = .write n → r.ch < 16 →
        reqsOf s r.ch = [r] → secRuns s = true → (∀ x ∈ s.rhmb.reqs, x.ans = none ∧ (x.id = id.toNat → x = r)) →
        domLive s 18 = true → s.rhmb.late.contains id.toNat = false → (s.chan r.ch).job = some j → j.kind = .move c → segHead false j.ws = some g → g.sp = 0 →
        ∃ u, exec (.mmpWriteResponse id true) s = .next (pumpAll busFn u)
          ∧ (u.chan r.ch).bytes = (s.chan r.ch).bytes + BitVec.ofNat 64 n ∧ (u.chan r.ch).remain = j.len - (j.done + n)
          ∧ (u.chan r.ch).job = some { j with done := j.done + n, ws := segAdv n j.ws, ad := segAdv n j.ad }
          ∧ ∀ i, i ≠ r.ch → u.chan i = s.chan i)
    ∧ (∀ id : BitVec 8, domLive s 18 = true → s.rhmb.late.contains id.toNat = true → ∀ d ok,
        exec (.mmpReadResponse id d) s = .next { s with rhmb := { s.rhmb with late := s.rhmb.late.erase id.toNat } }
        ∧ exec (.mmpWriteResponse id ok) s = .next { s with rhmb := { s.rhmb with late := s.rhmb.late.erase id.toNat } })
    ∧ (∀ id : BitVec 8, domLive s 18 = false ∨ ((∀ r ∈ s.rhmb.reqs, r.id ≠ id.toNat) ∧ s.rhmb.late.contains id.toNat = false) →
        (∀ d, exec (.mmpReadResponse id d) s = .next s) ∧ ∀ ok, exec (.mmpWriteResponse id ok) s = .next s)
    ∧ (∀ (k : BitVec 4) (i n : Nat), secRuns s = true → (s.chan k.toNat).st = .waiting → (s.chan k.toNat).wait = some (.sem i n) →
        n ≤ (tget {} s.rhmb.sems i : Sem).value → (∀ j, j ≠ k.toNat → (s.chan j).st ≠ .waiting) →
        ∃ u, exec .waitSatisfied s = .next (pumpAll busFn u)
          ∧ (u.chan k.toNat).st = .running ∧ (u.chan k.toNat).wait = none ∧ (u.chan k.toNat).pc = ((s.chan k.toNat).pc + 32) % 2 ^ 48
          ∧ (tget {} u.rhmb.sems i : Sem).value = (tget {} s.rhmb.sems i : Sem).value - n
          ∧ ∀ j, j ≠ k.toNat → u.chan j = s.chan j)
    ∧ (∀ k : BitVec 4,
        ((s.chan k.toNat).st ≠ .pausing → exec (.pauseDrained k) s = .next s)
        ∧ ((s.chan k.toNat).st = .pausing → secRuns s = true → reqsOf s k.toNat = [] → (∀ r ∈ s.rhmb.reqs, r.ans = none) →
          (∀ j, (s.chan j).job = none ∧ (s.chan j).st ≠ .running ∧ (s.chan j).wait ≠ some .stream) →
          ∃ t, exec (.pauseDrained k) s = .next t ∧ t = { s with bus := t.bus, rhmb := { s.rhmb with chans := t.rhmb.chans } }
            ∧ t.chan k.toNat = { s.chan k.toNat with st := .paused, status := 0x0702 }
            ∧ bitOf (t.page (0x20 + k.toNat)).cause 3 = true ∧ ∀ j, j ≠ k.toNat → t.chan j = s.chan j))

/-- `SAVE` and `RESTORE` (R278, R280, R281): the command stands, its channel starts, and then the codewords read and the engine's work are
taken into account. That a missing context key is `ST_TAG_FAIL` is the model's reading (log 94). -/
def Obligations.ContextCommandsRunOnAChannel : Prop :=
  ∀ (s : State) (a : Access) (v : Word) (e : EccIn) (x : Option (BitVec 15 × TileFault)) (wi ch part epoch : Nat),
    WriteReaches s a 0x56 0xC8 → fld v 42 0 = 0 → wi = fld v 59 47 → ch = fld v 46 43 → part = (s.win wi).part →
    epoch = atEpoch (s.slot (34 + 4 * part)).attr → ch < 12 → (s.win wi).kind ≠ .free → chanOwner s ch = some part →
    (ctxBusy s wi ch = false →
      (fld v 63 60 = 1 → drbgServes s 0 = true →
        (∀ i ck, activeSlot s 7 part 0 epoch = some i → slotKey (noteBad s i) i = some ck →
          ((atMask ((noteBad s i).slot i).attr).testBit ((ctxPipe s).getD 8) = true →
            ∃ u y, exec (.sndCtxSave a v (e, x)) s = .next (pumpAll busFn (eccContext s u e))
              ∧ u.snd = { s.snd with ctx := some y } ∧ y.save = true ∧ y.win = wi ∧ y.ch = ch ∧ y.passed = 0 ∧ y.chunks = 0
              ∧ ctxPipe s = some y.pipe ∧ y.key = saveKey ck y.salt part (s.win wi).group ∧ y.salt = BitVec.ofNat 128 (Config.freeNat s.free)
              ∧ u.free = s.free + 1 ∧ (u.chan ch).st = .running ∧ ∀ j, j ≠ ch → u.chan j = s.chan j)
          ∧ ((atMask ((noteBad s i).slot i).attr).testBit ((ctxPipe s).getD 8) = false →
            ∃ u, exec (.sndCtxSave a v (e, x)) s = .next (pumpAll busFn (eccContext s u e))
              ∧ u.snd = { s.snd with ctx := none, ctxResult := pack [(63, 48, 0x0402), (47, 36, 0)] } ∧ u.rhmb = s.rhmb))
        ∧ (activeSlot s 7 part 0 epoch = none ∨ (∃ i, activeSlot s 7 part 0 epoch = some i ∧ slotKey (noteBad s i) i = none) →
          ∃ u, exec (.sndCtxSave a v (e, x)) s = .next (pumpAll busFn (eccContext s u e))
            ∧ u.snd = { s.snd with ctx := none, ctxResult := pack [(63, 48, 0x0405), (47, 36, 0)] } ∧ u.rhmb = s.rhmb ∧ bitOf (u.page 0x56).cause 5 = true))
      ∧ (fld v 63 60 = 2 →
        ∃ u y, exec (.sndCtxRestore a v (e, x)) s = .next (pumpAll busFn (eccContext s u e))
          ∧ u.snd = { s.snd with ctx := some y } ∧ y.save = false ∧ y.win = wi ∧ y.ch = ch ∧ y.headed = false ∧ y.buf = []
          ∧ (u.chan ch).st = .running ∧ ∀ j, j ≠ ch → u.chan j = s.chan j))
    ∧ (ctxBusy s wi ch = true → s.snd.ctx = none →
      ∃ u, exec (.sndCtxSave a v (e, x)) s = .next (pumpAll busFn u) ∧ exec (.sndCtxRestore a v (e, x)) s = .next (pumpAll busFn u)
        ∧ u = { s with bus := u.bus } ∧ u.bus.resp = { refused := true, stat := 0x0301, rdata := 0 })

/-- Edits (R189, R190, Tables 6.1, 6.2 and 6.22): descriptor words 0 to 7 and member entries of the shadow copy. `STRG_TRACK` and `STRG_CLEAR` (R214, Table 6.24). -/
def Obligations.GroupTablesAreEdited : Prop :=
  (
    ∀ (s : State) (a : Access) (v : Word),
      (∀ n : BitVec 3, WriteReaches s a 0x60 (0x48 + 8 * n.toNat) →
        ((selected s a 0x60).2 = true → editable s = true → (n = 0 → isMgmt a = true) →
          (n = 0 → bitOf v 12 = true → descOwner (s.desc true (selected s a 0x60).1) ≠ some (fld v 62 58) →
            partDescs s (fld v 62 58) + 1 ≤ (s.part (fld v 62 58)).qDescs) →
          ∃ d, exec (.grpDescWrite a n v) s = .next ((answer s 0).setDesc true (selected s a 0x60).1 d)
            ∧ d.ld = (s.desc true (selected s a 0x60).1).ld
            ∧ descWord d n.toNat = (if n = 0 then v &&& 0x7FFFFFFFFFFFFFFF else if n = 1 then v &&& 0xFFFFFFFFFFFF
                else if n = 7 then ((s.desc true (selected s a 0x60).1).w7 &&& 0x1FFF800000000) ||| (v &&& 0xFFFE0007FFFFFFFF) else v)
            ∧ (n ≠ 0 → d.w0 = (s.desc true (selected s a 0x60).1).w0 &&& 0x7FFFFFFFFFFFFFFF)
            ∧ ∀ m : BitVec 3, m ≠ n → m ≠ 0 → descWord d m.toNat = descWord (s.desc true (selected s a 0x60).1) m.toNat)
        ∧ ((selected s a 0x60).2 = false ∨ editable s = false → (n = 0 → isMgmt a = true) →
          ∃ t, exec (.grpDescWrite a n v) s = .next t ∧ t = { s with bus := t.bus } ∧ t.bus.resp = { refused := true, stat := 0x0301, rdata := 0 })
        ∧ (n = 0 → isMgmt a = false →
          ∃ t, exec (.grpDescWrite a n v) s = .next t ∧ t = { s with bus := t.bus } ∧ t.bus.resp = { refused := true, stat := 0x0401, rdata := 0 })
        ∧ (n = 0 → isMgmt a = true → (selected s a 0x60).2 = true → editable s = true → bitOf v 12 = true →
          descOwner (s.desc true (selected s a 0x60).1) ≠ some (fld v 62 58) → (s.part (fld v 62 58)).qDescs < partDescs s (fld v 62 58) + 1 →
          ∃ t, exec (.grpDescWrite a n v) s = .next t ∧ t = { s with bus := t.bus } ∧ t.bus.resp = { refused := true, stat := 0x0202, rdata := 0 }
            ∧ bitOf (t.page (0x80 + fld v 62 58)).cause 4 = true))
      ∧ (WriteReaches s a 0x61 0x50 → mbrInRange s a (tget 0 s.grp.mbrAddr (bankOf a)) = true →
        ((selected s a 0x61).2 = true → editable s = true →
          ∃ t, exec (.mbrDataAccess a true v) s = .next t
            ∧ t = { answer s 0 with grp := { s.grp with descS := t.grp.descS, mbrS := tset 0 s.grp.mbrS (tget 0 s.grp.mbrAddr (bankOf a)) (fld v 31 0), mbrAddr := tset 0 s.grp.mbrAddr (bankOf a) ((tget 0 s.grp.mbrAddr (bankOf a) + 1) % 2 ^ 18) } }
            ∧ (tableWf {} s.grp.descS = true → ∀ g, t.desc true g = (let d := s.desc true g
                if (dMbrBase d ≤ tget 0 s.grp.mbrAddr (bankOf a) ∧ tget 0 s.grp.mbrAddr (bankOf a) < dMbrBase d + dMembers d)
                  ∨ (fld d.w6 60 43 ≤ tget 0 s.grp.mbrAddr (bankOf a) ∧ tget 0 s.grp.mbrAddr (bankOf a) < fld d.w6 60 43 + fld d.w6 42 36)
                then { d with w0 := d.w0 &&& 0x7FFFFFFFFFFFFFFF } else d)))
        ∧ ((selected s a 0x61).2 = false ∨ editable s = false →
          ∃ t, exec (.mbrDataAccess a true v) s = .next t ∧ t = { s with bus := t.bus } ∧ t.bus.resp = { refused := true, stat := 0x0301, rdata := 0 }))
      ∧ (ReadReaches s a 0x61 0x50 → mbrInRange s a (tget 0 s.grp.mbrAddr (bankOf a)) = true →
        exec (.mbrDataAccess a false v) s = .next { answer s (BitVec.ofNat 64 (mbrEntry s (selected s a 0x61).2 (tget 0 s.grp.mbrAddr (bankOf a)))) with
          grp := { s.grp with mbrAddr := tset 0 s.grp.mbrAddr (bankOf a) ((tget 0 s.grp.mbrAddr (bankOf a) + 1) % 2 ^ 18) } }))
  ∧ (
    ∀ (s : State) (a : Access) (v : Word) (g : Nat), g = (selected s a 0x62).1 →
      (WriteReaches s a 0x62 0x58 →
        (bitOf v 63 = true → (s.grpRec g).slot = none → ∀ k, k < 256 → k ∉ slotsUsed s → (∀ j, j < k → j ∈ slotsUsed s) →
          exec (.strgTrackWrite a v) s = .next ((answer s 0).setGrpRec g { s.grpRec g with slot := some k, hist := [] }))
        ∧ (bitOf v 63 = true → (s.grpRec g).slot ≠ none → exec (.strgTrackWrite a v) s = .next (answer s 0))
        ∧ (bitOf v 63 = true → (s.grpRec g).slot = none → (∀ j, j < 256 → j ∈ slotsUsed s) → ∃ t, exec (.strgTrackWrite a v) s = .next t
            ∧ t = { s with bus := t.bus } ∧ t.bus.resp = { refused := true, stat := 0x0202, rdata := 0 })
        ∧ (bitOf v 63 = false → exec (.strgTrackWrite a v) s = .next ((answer s 0).setGrpRec g { s.grpRec g with slot := none, hist := [] })))
      ∧ (WriteReaches s a 0x62 0x78 →
        (v = 1 → exec (.strgClear a v) s = .next ((answer s 0).setGrpRec g { s.grpRec g with hist := [] }))
        ∧ (v = 0 → exec (.strgClear a v) s = .next (answer s 0))
        ∧ (v.toNat / 2 ≠ 0 → ∃ t, exec (.strgClear a v) s = .next t ∧ t = { s with bus := t.bus } ∧ t.bus.resp = { refused := true, stat := 0x0101, rdata := 0 })))

/-- `COMMIT` and `CLEAR` (R190, Tables 6.4 and 6.14). -/
def Obligations.CommitsAreJudged : Prop :=
  ∀ (s : State) (a : Access) (v : Word), WriteReaches s a 0x60 0x88 →
    (ownsShadow s a = true → grpBusy s a = false → editable s = true → fld v 59 0 = 0 →
      (commitFailure s (s.desc true (selected s a 0x60).1) = none →
        ∃ t, exec (.grpCommit a v) s = .next t
          ∧ t = { s with bus := { s.bus with pages := t.bus.pages, resp := { refused := false, stat := 0, rdata := 0 } }, grp := { s.grp with descS := t.grp.descS, result := t.grp.result } }
          ∧ t.desc true (selected s a 0x60).1 = { s.desc true (selected s a 0x60).1 with
              w0 := (s.desc true (selected s a 0x60).1).w0 ||| 0x8000000000000000, ld := listDigest s true (s.desc true (selected s a 0x60).1) }
          ∧ (∀ g, g ≠ (selected s a 0x60).1 → t.desc true g = s.desc true g)
          ∧ tget 0 t.grp.result (bankOf a) = 0 ∧ bitOf (t.page 0x60).cause 0 = true)
      ∧ (∀ n st, commitFailure s (s.desc true (selected s a 0x60).1) = some (n, st) →
        ∃ t, exec (.grpCommit a v) s = .next t
          ∧ t = { s with bus := { s.bus with pages := t.bus.pages, resp := { refused := false, stat := 0, rdata := 0 } }, grp := { s.grp with descS := t.grp.descS, result := t.grp.result } }
          ∧ t.desc true (selected s a 0x60).1 = { s.desc true (selected s a 0x60).1 with w0 := (s.desc true (selected s a 0x60).1).w0 &&& 0x7FFFFFFFFFFFFFFF }
          ∧ (∀ g, g ≠ (selected s a 0x60).1 → t.desc true g = s.desc true g)
          ∧ tget 0 t.grp.result (bankOf a) = pack [(63, 48, stCode st), (47, 40, n)] ∧ bitOf (t.page 0x60).cause 0 = true)
      ∧ (∃ t, exec (.grpClear a v) s = .next t
          ∧ t = { s with bus := { s.bus with pages := t.bus.pages, resp := { refused := false, stat := 0, rdata := 0 } }, grp := { s.grp with descS := t.grp.descS, result := t.grp.result } }
          ∧ t.desc true (selected s a 0x60).1 = { s.desc true (selected s a 0x60).1 with
              w0 := (s.desc true (selected s a 0x60).1).w0 &&& 0x7FFFFFFFFFFFFFFF, w7 := (s.desc true (selected s a 0x60).1).w7 &&& 0xFFFFFFF7FFFFFFFF }
          ∧ (∀ g, g ≠ (selected s a 0x60).1 → t.desc true g = s.desc true g) ∧ tget 0 t.grp.result (bankOf a) = 0))
    ∧ (ownsShadow s a = false → ∀ c ∈ [Instr.grpCommit a v, Instr.grpClear a v],
        ∃ t, exec c s = .next t ∧ t = { s with bus := t.bus } ∧ t.bus.resp = { refused := true, stat := 0x0401, rdata := 0 })
    ∧ (ownsShadow s a = true → grpBusy s a = true ∨ editable s = false → ∀ c ∈ [Instr.grpCommit a v, Instr.grpClear a v],
        ∃ t, exec c s = .next t ∧ t = { s with bus := t.bus } ∧ t.bus.resp = { refused := true, stat := 0x0301, rdata := 0 })

/-- The launch commands (R191, R221, R292, R302): `k` is the command, with its role. -/
def Obligations.LaunchesAreAdmitted : Prop :=
  ∀ (s : State) (a : Access) (v : Word) (k : Instr × HeldCmd × (Nat → EntryRole)),
    k ∈ [(.launch a v, .launch a v, fun _ => .normal), (.resyncSend a v, .resyncSend a v, fun _ => .resyncSend), (.resyncRecv a v, .resyncRecv a v, fun r => .resyncRecv r)] →
    WriteReaches s a 0x60 0x88 →
    (isMgmt a = true → ∃ t, exec k.1 s = .next t ∧ t = { s with bus := t.bus } ∧ t.bus.resp = { refused := true, stat := 0x0401, rdata := 0 })
    ∧ (isMgmt a = false → grpBusy s a = false → fld v 59 0 = 0 →
      (s.mrd.running.isSome = true → exec k.1 s = .next { answer s 0 with mrd := { s.mrd with heldCmds := s.mrd.heldCmds ++ [k.2.1] } })
      ∧ (s.mrd.running = none →
        (∀ st, launchStep1 s (launchArgs s a k.2.2) = some st → ∃ t, exec k.1 s = .next t
            ∧ t = { s with bus := { s.bus with pages := t.bus.pages, resp := { refused := false, stat := 0, rdata := 0 } }, grp := { s.grp with result := t.grp.result } }
            ∧ tget 0 t.grp.result (bankOf a) = pack [(63, 48, stCode st), (47, 40, 1)])
        ∧ (launchStep1 s (launchArgs s a k.2.2) = none → launchStep2 s (launchArgs s a k.2.2) = none → ∃ t, exec k.1 s = .next t
            ∧ t = { s with bus := { s.bus with pages := t.bus.pages, resp := { refused := false, stat := 0, rdata := 0 } }, grp := { s.grp with result := t.grp.result } }
            ∧ tget 0 t.grp.result (bankOf a) = pack [(63, 48, 0x0301), (47, 40, 2)])
        ∧ (∀ (l : LaunchArgs) (d : Desc) (c : Bool), l = launchArgs s a k.2.2 → launchStep1 s l = none → launchStep2 s l = some (d, c) →
          (∀ e, findEntry s l.p l.g l.ticket = some e → e.st = .waiting ∨ e.st = .active → launchStep3 s l = .fail .wrongState false)
          ∧ (∀ e, findEntry s l.p l.g l.ticket = some e → e.st = .done ∨ e.st = .aborted → e.launched = false ∨ e.kEpoch = l.ke →
              launchStep3 s l = .fail .aborted true)
          ∧ (∀ m, findEntry s l.p l.g l.ticket = none → l.first = false → (s.part l.p).overflow = some m → l.ticket ≤ m →
              launchStep3 s l = .fail .orderTimeout false)
          ∧ (findEntry s l.p l.g l.ticket = none → (l.first = true ∨ ∀ m, (s.part l.p).overflow = some m → m < l.ticket) → 64 ≤ listCount s l.p →
              launchStep3 s l = .fail .quota false)
          ∧ (∀ st lv, launchStep3 s l = .fail st lv → ∃ t, exec k.1 s = .next t
            ∧ t = { s with
                bus := { s.bus with pages := t.bus.pages, resp := { refused := false, stat := 0, rdata := 0 } }
                grp := { s.grp with lists := t.grp.lists, result := t.grp.result } }
            ∧ tget 0 t.grp.result (bankOf a) = pack [(63, 48, stCode st), (47, 40, 3)]
            ∧ (lv = false → t.grp.lists = s.grp.lists) ∧ (lv = true → findEntry t l.p l.g l.ticket = none)
            ∧ ∀ q, q ≠ l.p → t.entries q = s.entries q)
          ∧ (∀ e st, launchStep3 s l = .go (some e) false → e.dropped = some st → ∃ t, exec k.1 s = .next t
            ∧ tget 0 t.grp.result (bankOf a) = pack [(63, 48, 0x0504), (47, 40, 3)] ∧ findEntry t l.p l.g l.ticket = none)
          ∧ (∀ (old : Option Entry) (lv : Bool) (base e : Entry) (ch : Nat), launchStep3 s l = .go old lv → old.bind (·.dropped) = none →
            ch = (if l.role = .normal ∧ dNoise d = true ∧ atRelease s d = true then dCharge d else 0) →
            base = old.getD { ticket := l.ticket, group := l.g, st := .known, madeAt := s.mrd.wall, passed := [(s.mrd.step, s.mrd.wall)] } →
            e = { base with
              group := l.g, st := .waiting, launched := true, prev := l.prev, first := l.first, step := some l.step, digest := descDigest s l.p c d
              gEpoch := if c then s.grp.epS else s.grp.epA, kEpoch := epochAt s l.p l.step
              stepAt := (base.passed.find? (fun x => l.step ≤ x.1)).map (·.2), passed := [], role := l.role, charge := ch } →
            (descWindow d = none → (allocWindow s l.p l.g (dTiles d) (dRetain d)).1.status ≠ 0 → ∃ t, exec k.1 s = .next t
              ∧ t = { s with
                  bus := { s.bus with pages := t.bus.pages, resp := { refused := false, stat := 0, rdata := 0 } }
                  grp := { s.grp with result := t.grp.result }, phlx := { s.phlx with result := (allocWindow s l.p l.g (dTiles d) (dRetain d)).1 } }
              ∧ tget 0 t.grp.result (bankOf a) = pack [(63, 48, 0x0202), (47, 40, 4)])
            ∧ (descWindow d ≠ none → l.role = .normal → floorsHold s d = false → ∃ t, exec k.1 s = .next t
              ∧ t = { s with bus := { s.bus with pages := t.bus.pages, resp := { refused := false, stat := 0, rdata := 0 } }, grp := { s.grp with result := t.grp.result } }
              ∧ tget 0 t.grp.result (bankOf a) = pack [(63, 48, 0x0101), (47, 40, 6)])
            ∧ (descWindow d ≠ none → l.role = .normal → floorsHold s d = true → dNoise d = true → atRelease s d = true →
                (s.budget l.p).total < (s.budget l.p).spent + dCharge d → ∃ t, exec k.1 s = .next t
              ∧ t = { s with bus := { s.bus with pages := t.bus.pages, resp := { refused := false, stat := 0, rdata := 0 } }, grp := { s.grp with result := t.grp.result } }
              ∧ tget 0 t.grp.result (bankOf a) = pack [(63, 48, 0x0203), (47, 40, 6)]
              ∧ bitOf (t.page 0x55).cause 1 = true ∧ bitOf (t.page (0x80 + l.p)).cause 1 = true)
            ∧ ((descWindow d = none → (allocWindow s l.p l.g (dTiles d) (dRetain d)).1.status = 0) → (l.role = .normal → floorsHold s d = true) →
              (l.role = .normal → dNoise d = true → atRelease s d = true → (s.budget l.p).spent + dCharge d ≤ (s.budget l.p).total) →
              ((∀ f ∈ s.park.frames, f.part = l.p → f.group = l.g → f.ticket = l.ticket →
                  (hdrOf f.arr.bytes).digest = e.digest ∧ (hdrOf f.arr.bytes).gEpoch = e.gEpoch) →
                ∃ t, exec k.1 s = .next t
                ∧ t = { s with
                    bus := { s.bus with pages := t.bus.pages, resp := { refused := false, stat := 0, rdata := 0 } }, parts := t.parts
                    grp := { s.grp with lists := t.grp.lists, recs := t.grp.recs, result := t.grp.result, descA := t.grp.descA, descS := t.grp.descS }
                    zin := { s.zin with budgets := t.zin.budgets }, phlx := t.phlx, pwr := t.pwr }
                ∧ (descWindow d ≠ none → t.phlx = s.phlx ∧ t.pwr = s.pwr ∧ t.grp.descA = s.grp.descA ∧ t.grp.descS = s.grp.descS)
                ∧ (descWindow d = none → t.phlx = { (allocWindow s l.p l.g (dTiles d) (dRetain d)).2.phlx with
                    result := (allocWindow s l.p l.g (dTiles d) (dRetain d)).1 } ∧ bitOf (t.page 0x51).cause 0 = true)
                ∧ findEntry t l.p l.g l.ticket = some e
                ∧ (t.grpRec l.g) = { s.grpRec l.g with launched := noteLaunch l.ticket l.ke (s.grpRec l.g).launched }
                ∧ t.budget l.p = { s.budget l.p with spent := (s.budget l.p).spent + ch }
                ∧ (∀ q, q ≠ l.p → t.entries q = s.entries q ∧ t.budget q = s.budget q ∧ t.part q = s.part q)
                ∧ (∀ g, g ≠ l.g → t.grpRec g = s.grpRec g)
                ∧ tget 0 t.grp.result (bankOf a) = 0 ∧ bitOf (t.page 0x60).cause 0 = true)
              ∧ ((∃ f ∈ s.park.frames, f.part = l.p ∧ f.group = l.g ∧ f.ticket = l.ticket ∧
                  ((hdrOf f.arr.bytes).digest ≠ e.digest ∨ (hdrOf f.arr.bytes).gEpoch ≠ e.gEpoch)) →
                ∃ t, exec k.1 s = .next t ∧ tget 0 t.grp.result (bankOf a) = pack [(63, 48, 0x0501), (47, 40, 7)]
                  ∧ (findEntry t l.p l.g l.ticket).map (fun y => (y.st, y.fin, y.charge)) = some (.aborted, true, 0)
                  ∧ ((s.grpRec l.g).abValid = false → l.g < 4096 → (t.grpRec l.g).abStatus = 0x0501 ∧ bitOf (t.page 0x60).cause 3 = true)))))))

/-- `ABORT` (Table 6.14, R203). -/
def Obligations.TicketsAreAborted : Prop :=
  ∀ (s : State) (a : Access) (v : Word) (p g k : Nat), WriteReaches s a 0x60 0x88 → isMgmt a = false → grpBusy s a = false → fld v 59 0 = 0 →
    p = a.ptag.toNat → g = (selected s a 0x60).1 → k = fld (tget 0 s.grp.arg0 (bankOf a)) 63 32 →
    ((∀ e, findEntry s p g k = some e → isLive e = true) → g < 4096 →
      (findEntry s p g k = none → (∀ m, (s.part p).overflow = some m → m < k) ∧ listCount s p < 64) →
      ∃ t, exec (.grpAbort a v) s = .next t
        ∧ t = { s with
            bus := { s.bus with pages := t.bus.pages, resp := { refused := false, stat := 0, rdata := 0 } }, grp := { s.grp with lists := t.grp.lists, recs := t.grp.recs, result := t.grp.result }
            lark := t.lark, park := t.park, phlx := t.phlx, zin := t.zin, snd := t.snd, rhmb := t.rhmb, chrt := t.chrt, out := t.out }
        ∧ (findEntry t p g k).map (fun e => (e.st, e.fin, e.charge)) = some (.aborted, true, 0)
        ∧ (∀ q, q ≠ p → t.entries q = s.entries q)
        ∧ ((s.grpRec g).abValid = false → (t.grpRec g).abValid = true ∧ (t.grpRec g).abStatus = 0x0504 ∧ (t.grpRec g).abOrigin = s.grp.rank ∧ (t.grpRec g).abDetail = p)
        ∧ t.park.aborts = s.park.aborts + 1
        ∧ bitOf (t.page 0x60).cause 1 = true ∧ bitOf (t.page (0x80 + p)).cause 0 = true ∧ tget 0 t.grp.result (bankOf a) = 0)
    ∧ (∀ e, findEntry s p g k = some e → e.st = .done → ∃ t, exec (.grpAbort a v) s = .next t
        ∧ t = { s with bus := t.bus, grp := { s.grp with result := t.grp.result } } ∧ tget 0 t.grp.result (bankOf a) = pack [(63, 48, 0x0301), (47, 40, 0)])
    ∧ (∀ e, findEntry s p g k = some e → e.st = .aborted → e.launched = true → ∃ t, exec (.grpAbort a v) s = .next t
        ∧ t = { s with bus := t.bus, grp := { s.grp with result := t.grp.result } } ∧ tget 0 t.grp.result (bankOf a) = 0)

/-- `SET_EPOCH` (R220), `GRP_STATION` (R208, R223) and the end of the refill (R217). Log 99 (a refusal in the result register) is the
model's reading. -/
def Obligations.EpochsAndStationsAreSet : Prop :=
  ∀ (s : State) (a : Access) (v : Word),
    (WriteReaches s a 0x60 0x88 → isMgmt a = true → grpBusy s a = false → setEpochBusy s = false → fld v 59 0 = 0 → fld (tget 0 s.grp.arg0 32) 63 16 = 0 →
      ∃ t, exec (.setEpoch a v) s = .next t
        ∧ t = { s with bus := { s.bus with pages := t.bus.pages, resp := { refused := false, stat := 0, rdata := 0 } }, grp := { s.grp with epA := fld (tget 0 s.grp.arg0 32) 15 0, epS := (fld (tget 0 s.grp.arg0 32) 15 0 + 1) % 2 ^ 16, since := none, result := t.grp.result } }
        ∧ tget 0 t.grp.result 32 = 0 ∧ bitOf (t.page 0x60).cause 0 = true)
    ∧ (WriteReaches s a 0x60 0x88 → isMgmt a = true → setEpochBusy s = true → ∃ t, exec (.setEpoch a v) s = .next t
        ∧ t = { s with bus := t.bus, grp := { s.grp with result := t.grp.result } } ∧ t.bus.resp = { refused := true, stat := 0x0301, rdata := 0 }
        ∧ (grpBusy s a = false → tget 0 t.grp.result 32 = pack [(63, 48, 0x0301)]))
    ∧ (WriteReaches s a 0x60 0xD0 →
      (bitOf v 39 = s.grp.rankValid ∧ fld v 38 24 = s.grp.rank ∨ s.grp.liveEn = false ∧ anyAdmitted s = false ∧ badRank s v = false →
        (s.grp.liveEn = false → s.pins.stationLive = false → bitOf v 8 = false →
          exec (.grpStationWrite a v) s = .next { answer s 0 with grp := { s.grp with rankValid := bitOf v 39, rank := fld v 38 24, mgmtPorts := fld v 23 16, liveEn := false } })
        ∧ (∀ u, u = { answer s 0 with grp := { s.grp with rankValid := bitOf v 39, rank := fld v 38 24, mgmtPorts := fld v 23 16, liveEn := true } } →
          s.grp.liveEn = false → s.pins.stationLive = false → bitOf v 8 = true →
          (liveCond u = true → ∃ t, exec (.grpStationWrite a v) s = .next t
            ∧ t = { u with pins := { s.pins with stationLive := true, liveSeen := true }, lark := { s.lark with inCr := t.lark.inCr }, rhmb := { s.rhmb with srcCr := t.rhmb.srcCr }, out := t.out })
          ∧ (liveCond u = false → exec (.grpStationWrite a v) s = .next u))
        ∧ (s.grp.liveEn = true → anyAdmitted s = false → bitOf v 8 = false → ∃ t, exec (.grpStationWrite a v) s = .next t
            ∧ t = { answer s 0 with
                grp := { s.grp with rankValid := bitOf v 39, rank := fld v 38 24, mgmtPorts := fld v 23 16, liveEn := false }
                pins := { s.pins with stationLive := false }, lark := t.lark, rhmb := { s.rhmb with sink := t.rhmb.sink }, out := t.out }))
      ∧ (bitOf v 39 ≠ s.grp.rankValid ∨ fld v 38 24 ≠ s.grp.rank → s.grp.liveEn = true ∨ anyAdmitted s = true →
        ∃ t, exec (.grpStationWrite a v) s = .next t ∧ t = { s with bus := t.bus } ∧ t.bus.resp = { refused := true, stat := 0x0301, rdata := 0 }))
    ∧ (s.grp.refill = true → arithRuns s = true → exec .refillDone s = .next { s with
        grp := { s.grp with refill := false, descS := s.grp.descA, mbrS := s.grp.mbrA, epS := (s.grp.epA + 1) % 2 ^ 16 } })
    ∧ (s.grp.refill = false ∨ arithRuns s = false → exec .refillDone s = .next s)

/-- Activation (R194, R169), deadlines (R201, R205) and the absence cut (R209, R211). Where frames may go on from where they waited, the
command's own effect is stated on `u` and the streams follow. The return of frames that waited only for a bound pipe (log 141) and
the cut of a resynchronisation's entry (log 173) are the model's choices. -/
def Obligations.TicketsActivateAndExpire : Prop :=
  ∀ (s : State),
    (∀ (p : BitVec 5) (x : EccIn), secRuns s = false ∨ arithRuns s = false ∨ (activatable s p.toNat = none ∧ s.park.frames = []) →
      exec (.entryActivate (p, x)) s = .next s)
    ∧ (∀ (p : BitVec 5) (x : EccIn), secRuns s = true → arithRuns s = true → activatable s p.toNat = none →
      exec (.entryActivate (p, x)) s = .next (eccAdded s (returnAllScaled noStepIn (returnParked (fab noStepIn) (overdue s p.toNat) s)) x))
    ∧ (∀ (p : BitVec 5) (x : EccIn) (e : Entry) (d : Desc) (c : Bool) (w : Nat), secRuns s = true → arithRuns s = true → activatable s p.toNat = some e → e.group < 4096 → entryDesc s p.toNat e = some (d, c) → descWindow d = some w →
      ∃ u v, exec (.entryActivate (p, x)) s = .next (eccAdded s (returnAllScaled noStepIn (returnParked (fab noStepIn) (overdue v p.toNat) v)) x)
        ∧ v = returnAllScaled noStepIn (returnParked (fab noStepIn)
            (fun y => y.why = .ticket && y.part = p.toNat && y.group = e.group && y.ticket = e.ticket) (progress u p.toNat e.group e.ticket))
        ∧ (s.park.frames = [] → exec (.entryActivate (p, x)) s = .next (progress u p.toNat e.group e.ticket))
        ∧ u = { s with
            bus := { s.bus with pages := u.bus.pages }, grp := { s.grp with lists := u.grp.lists }
            phlx := { s.phlx with wins := u.phlx.wins, recs := u.phlx.recs, result := { status := 0, win := w, detail := 0 } } }
        ∧ bitOf (u.page 0x51).cause 0 = true
        ∧ findEntry u p.toNat e.group e.ticket = some { e with st := .active }
        ∧ (∀ q, q ≠ p.toNat → u.entries q = s.entries q)
        ∧ u.win w = { s.win w with st := .opened, frontier := 0, ticket := e.ticket }
        ∧ (∀ j, j ≠ w → u.win j = s.win j)
        ∧ ∀ i, i < (s.win w).tiles → tileRec u w i = { scale := if dFixed d then dEfix d else 0x81, fresh := true, flags := 0, hop := 0 })
    ∧ (∀ us, (∀ p, ∀ e ∈ s.entries p, isLive e = true → ∀ x, deadlineOf s p e = some x → (s.mrd.wall + us) % 2 ^ 64 < x) →
        exec (.deadlineExpire us) s = .next { s with mrd := { s.mrd with wall := (s.mrd.wall + us) % 2 ^ 64 } })
    ∧ (∀ us p e x u, secRuns s = true → s.grp.lists = [(p, [e])] → e.group < 4096 → isLive e = true → deadlineOf s p e = some x → x ≤ (s.mrd.wall + us) % 2 ^ 64 →
        u = { s with mrd := { s.mrd with wall := (s.mrd.wall + us) % 2 ^ 64 } } →
        ∃ t, exec (.deadlineExpire us) s = .next t
          ∧ t.grp.lists = [(p, [{ e with st := .aborted, charge := 0, fin := true, flow := {} }])]
          ∧ ((s.grpRec e.group).abValid = false → (t.grpRec e.group).abValid = true ∧ (t.grpRec e.group).abStatus = stCode (deadlineInfo s.free u p e).st
            ∧ (t.grpRec e.group).abDetail = (deadlineInfo s.free u p e).detail)
          ∧ t = { s with
              bus := { s.bus with pages := t.bus.pages }, mrd := u.mrd, grp := { s.grp with lists := t.grp.lists, recs := t.grp.recs }
              lark := t.lark, park := t.park, phlx := t.phlx, zin := t.zin, snd := t.snd, rhmb := t.rhmb, chrt := t.chrt, out := t.out, free := s.free + 1 }
          ∧ bitOf (t.page 0x60).cause 1 = true ∧ bitOf (t.page (0x80 + p)).cause 0 = true)
    ∧ (∀ us x p e b d c, secRuns s = true → s.grp.lists = [(p, [e])] → e.group < 4096 → isLive e = true → baseOf e = some b → entryDesc s p e = some (d, c) →
        e.flow.heard = [] → e.flow.silent = [] → e.flow.absent = [] → sourcesOf s c d ≠ [] → (∀ y ∈ sourcesOf s c d, y.gap = false ∧ y.rank < 24576) →
        b + dCut d ≤ (s.mrd.wall + us) % 2 ^ 64 →
        ∃ u, exec (.absenceCut (us, x)) s = .next (eccAdded s (returnAllScaled noStepIn (progressAll u)) x)
          ∧ (dElastic d = true → (sourcesOf s c d).length ≤ dMembers d - dQuorum d → (sourcesOf s c d).length ≤ 4096 →
            u = { s with mrd := { s.mrd with wall := (s.mrd.wall + us) % 2 ^ 64 }, grp := { s.grp with lists := u.grp.lists } }
            ∧ ∃ f, u.grp.lists = [(p, [{ e with flow := f }])] ∧ f = { e.flow with absent := f.absent, silent := f.absent }
              ∧ ∀ r, r ∈ f.absent ↔ r ∈ (sourcesOf s c d).map (·.rank))
          ∧ (dElastic d = false → u.grp.lists = [(p, [{ e with st := .aborted, charge := 0, fin := true, flow := {} }])]
            ∧ ((s.grpRec e.group).abValid = false → (u.grpRec e.group).abStatus = 0x0505)))

/-- What every received frame meets first (R144, R512, R518, R521, R525; checks 1 to 5 of Table 3.10 with R104 and R107). -/
def Obligations.PortsTakeFramesInService : Prop :=
  ∀ (s : State) (f : Arrival) (e : EccIn) (x : StepIn) (c : Instr) (back : List OutEvent),
    c ∈ [Instr.dataFrameReceive f e, .scaleFrameReceive (f, e), .resultFrameReceive f, .abortFrameReceive f, .stepFrameReceive f x, .probeFrameReceive f, .mgmtFrameReceive f, .updateFrameReceive f x] →
    back = (if beatsIn s f = 0 then [] else [.credit f.port.toNat f.vc (beatsIn s f)]) →
    (domLive s 18 = false ∨ 12 ≤ f.port.toNat
      ∨ (8 ≤ f.port.toNat ∧ (s.blk.profile = 2 ∨ s.rhmb.lspSrc.testBit (f.port.toNat - 8) = true)) → exec c s = .next s)
    ∧ (domLive s 18 = true → f.port.toNat < 12 → (8 ≤ f.port.toNat → s.blk.profile ≠ 2 ∧ s.rhmb.lspSrc.testBit (f.port.toNat - 8) = false) → beatsIn s f ≤ 255 →
      (arithRuns s = false ∨ (s.park.frames = [] ∧ f.port.toNat < 8 ∧ s.pins.stationLive = false)
          ∨ (s.park.frames = [] ∧ ingressOf s f.port.toNat = none ∧ (covered s f = true ∨ namesAborted s (hdrOf f.bytes) = true)) →
        ∃ t, exec c s = .next t ∧ t = { s with lark := { s.lark with inCr := t.lark.inCr }, out := s.out ++ back }
          ∧ roomAt t f.port.toNat f.vc = min 65535 (roomAt s f.port.toNat f.vc) ∧ (∀ j, j ≠ f.port.toNat → tget {} t.lark.inCr j = (tget {} s.lark.inCr j : PortCr)))
      ∧ (∀ y, arithRuns s = true → s.park.frames = [] → (f.port.toNat < 8 → s.pins.stationLive = true) → ingressOf s f.port.toNat = none → covered s f = false →
          namesAborted s (hdrOf f.bytes) = false → (hdrOf f.bytes).cls ≠ 4 → findEntry s (hdrOf f.bytes).part (hdrOf f.bytes).group (hdrOf f.bytes).ticket = some y → isAdmitted y = true → isLive y = true →
        ∃ t, exec c s = .next t
          ∧ (findEntry t (hdrOf f.bytes).part (hdrOf f.bytes).group (hdrOf f.bytes).ticket).map (fun z => (z.st, z.fin, z.charge)) = some (.aborted, true, 0)
          ∧ ((s.grpRec (hdrOf f.bytes).group).abValid = false → (t.grpRec (hdrOf f.bytes).group).abStatus = 0x0102)
          ∧ (∀ p, p ≠ (hdrOf f.bytes).part → t.entries p = s.entries p) ∧ ∀ k, (t.pipe k).hdr = (s.pipe k).hdr))
    ∧ (∀ k, FrameEnters s f k → headerFailure s f (hdrOf f.bytes) = some (.badFormat, true) → s.park.frames = [] →
      0 < f.bytes.length → creditsOf f.bytes.length ≤ 255 →
      (namesAborted s (hdrOf f.bytes) = true → ∃ t, exec c s = .next t
        ∧ t = { s with lark := { s.lark with pipes := t.lark.pipes, inCr := t.lark.inCr, nextId := s.lark.nextId + 1 }, out := s.out ++ [.credit f.port.toNat f.vc (creditsOf f.bytes.length)] }
        ∧ (t.pipe k).buf = [] ∧ tget 0 (t.pipe k).ctr 0xF8 = tget 0 (s.pipe k).ctr 0xF8 + 1)
      ∧ (namesAborted s (hdrOf f.bytes) = false → (hdrOf f.bytes).cls ≠ 4 → findEntry s (hdrOf f.bytes).part (hdrOf f.bytes).group (hdrOf f.bytes).ticket = none →
      ∃ t, exec c s = .next t
        ∧ t = { s with
            bus := { s.bus with pages := t.bus.pages }, lark := { s.lark with pipes := t.lark.pipes, inCr := t.lark.inCr, nextId := s.lark.nextId + 1 }
            out := s.out ++ [.credit f.port.toNat f.vc (creditsOf f.bytes.length)] }
        ∧ roomAt t f.port.toNat f.vc = min 65535 (roomAt s f.port.toNat f.vc)
        ∧ (t.pipe k).buf = [] ∧ tget 0 (t.pipe k).ctr 0xD0 = tget 0 (s.pipe k).ctr 0xD0 + 1
        ∧ (∀ j, j ≠ k → t.pipe j = s.pipe j)
        ∧ ((s.page (0x40 + k)).err.valid = false → (t.page (0x40 + k)).err.valid = true ∧ (t.page (0x40 + k)).err.status = 0x0102)
        ∧ bitOf (t.page (0x40 + k)).cause 63 = true))

/-- Check 10 on the first frame of a ticket (Table 6.7, R197, R201, R224). -/
def Obligations.FirstFramesMakeEntriesAndPark : Prop :=
  ∀ (s : State) (f : Arrival) (v : EccIn) (k : Nat) (plain : Bytes) (h : Hdr) (d : Desc) (w : Bool) (c : Instr),
    c ∈ [Instr.dataFrameReceive f v, .scaleFrameReceive (f, v), .resultFrameReceive f] → h = hdrOf f.bytes → FrameOpens s f k plain →
    isCollective h.cls = true → descAt s h.part h.group h.step = some (d, w) →
    (routeKind s h d w = .hop0 ∨ routeKind s h d w = .reduce ∨ routeKind s h d w = .dist) →
    findEntry s h.part h.group h.ticket = none → ticketPast s h = false → listCount s h.part < 64 →
    (∀ m, (s.part h.part).overflow = some m → m < h.ticket) → flagElastic h = dElastic d →
    canPark s h.part (unitsOf h.payLen) = true → openWin s h.part h.group h.ticket = none →
    ∃ t, exec c s = .next t
      ∧ findEntry t h.part h.group h.ticket = some { ticket := h.ticket, group := h.group, st := .known, step := some h.step, madeAt := s.mrd.wall, stepAt := if h.step ≤ s.mrd.step then some s.mrd.wall else none, passed := [(s.mrd.step, s.mrd.wall)], flow := { heard := [h.rank] } }
      ∧ t.park.frames = s.park.frames ++ [{ part := h.part, group := h.group, ticket := h.ticket, pipe := k, why := .ticket, units := unitsOf h.payLen, arr := f, plain := some plain, seen := s.mrd.wall }]
      ∧ (t.pipe k).buf = [] ∧ (streamRec t (streamKey h)).map (·.seq) = some h.seq
      ∧ (∀ p, p ≠ h.part → t.entries p = s.entries p) ∧ t.phlx = s.phlx ∧ t.snd = s.snd

/-- One tile onto an active entry (Table 4.4, R131, R132, R169, R173, R264, R550): the effect on the window is that of `u`, and then the
entry's frontier, exponents and parked frames follow. -/
def Obligations.DataAndResultTilesReachTheWindow : Prop :=
  ∀ (s : State) (f : Arrival) (v : EccIn) (k : Nat) (plain : Bytes) (h : Hdr) (d : Desc) (c : Bool) (e : Entry) (w : Nat) (b : Tile),
    h = hdrOf f.bytes → FrameOpens s f k plain → FrameIsActive s h d c e → openWin s h.part h.group h.ticket = some w → flagAbsent h = false →
    readTiles h.fmt (flagSparse h) h.tiles true h.first plain = ([b], []) → (flagSparse h = true ∨ plain.length = h.tiles * denseSize h.fmt) →
    lacksScale s h d w [b] = false → sparseFails h d b = false → tilesValid (streamNext s h (if h.cls = 3 then 3 else 0)) h d (resyncFrame s h) [b] = true → expsValid s h d w [b] = true →
    (h.cls = 1 →
      ∃ u, exec (.dataFrameReceive f v) s = .next (eccAdded s (returnScaled (fab noStepIn) (progress u h.part h.group h.ticket) h.part h.group h.ticket) v)
        ∧ u.phlx = { s.phlx with lanes := u.phlx.lanes, recs := u.phlx.recs }
        ∧ (1 ≤ h.hop → rawLanes u w b.idx = addedLanes (dOp d) (liveElems (dElems d) b.idx) (tileRec s w b.idx).fresh (readLanes s w b.idx) b.vals
            ∧ (tileRec u w b.idx).hop = max (tileRec s w b.idx).hop h.hop)
        ∧ (h.hop = 0 → dClip d = false → dStoch d = false →
            rawLanes u w b.idx = addedLanes (dOp d) (liveElems (dElems d) b.idx) (tileRec s w b.idx).fresh (readLanes s w b.idx)
              (stage4 d b 0x8000 (stage3 d (stage2 d h 0 (agreedOf s w b.idx) b)).1))
        ∧ (tileRec u w b.idx).fresh = false ∧ (tileRec u w b.idx).scale = (tileRec s w b.idx).scale
        ∧ (∀ i, (tileRec s w b.idx).flags.testBit i = true → (tileRec u w b.idx).flags.testBit i = true)
        ∧ (∀ j, j ≠ laneKey s (s.win w) b.idx → tget zeroLanes u.phlx.lanes j = tget zeroLanes s.phlx.lanes j)
        ∧ ∃ ck, u.snd = { s.snd with checks := s.snd.checks ++ [ck] } ∧ ck.pipe = k ∧ ck.part = h.part ∧ ck.group = h.group ∧ ck.ticket = h.ticket
          ∧ ck.tile = b.idx ∧ ck.frame = s.lark.nextId ∧ ck.arr = f ∧ ck.replay = none ∧ ck.job.write = false ∧ ck.job.op = dOp d
          ∧ ck.job.fresh = (tileRec s w b.idx).fresh ∧ ck.job.o = readLanes s w b.idx ∧ ck.job.dep = [] ∧ (h.hop = 0 ↔ ck.job.shift ≠ none)
          ∧ (1 ≤ h.hop → ck.job.a = padZero (liveElems (dElems d) b.idx) b.vals))
    ∧ (h.cls = 3 →
      ∃ u, exec (.resultFrameReceive f) s = .next (returnScaled (fab noStepIn) (progress u h.part h.group h.ticket) h.part h.group h.ticket)
        ∧ u.phlx = { s.phlx with wins := u.phlx.wins, lanes := u.phlx.lanes, recs := u.phlx.recs }
        ∧ rawLanes u w b.idx = padZero (liveElems (dElems d) b.idx) b.vals ∧ tileRec u w b.idx = { scale := b.exp, fresh := false, flags := b.flags, hop := h.hop }
        ∧ u.win w = { s.win w with st := .releasing } ∧ (∀ j, j ≠ w → u.win j = s.win j)
        ∧ (∀ j, j ≠ laneKey s (s.win w) b.idx → tget zeroLanes u.phlx.lanes j = tget zeroLanes s.phlx.lanes j)
        ∧ (relayPorts d e ≠ 0 → (findEntry u h.part h.group h.ticket).map (fun y => y.flow.relay)
            = some (e.flow.relay ++ [(k, s.lark.nextId, (List.range 8).map (hdrWord f.bytes), plain)]))
        ∧ ∃ ck, u.snd = { s.snd with checks := s.snd.checks ++ [ck] } ∧ ck.pipe = k ∧ ck.part = h.part ∧ ck.group = h.group ∧ ck.ticket = h.ticket
          ∧ ck.tile = b.idx ∧ ck.frame = s.lark.nextId ∧ ck.arr = f ∧ ck.replay = none ∧ ck.job.write = true
          ∧ ck.job.a = padZero (liveElems (dElems d) b.idx) b.vals)

/-- A one-byte `SCALE` frame onto an active entry (R118 to R122). -/
def Obligations.ScaleFramesAgreeExponents : Prop :=
  ∀ (s : State) (f : Arrival) (v : EccIn) (k : Nat) (x : Byte) (h : Hdr) (d : Desc) (c : Bool) (e : Entry) (w : Nat),
    h = hdrOf f.bytes → FrameOpens s f k [x] → FrameIsActive s h d c e → openWin s h.part h.group h.ticket = some w →
    h.cls = 2 → h.tiles = 1 → dFixed d = false → h.fmt = dInFmt d → h.op = dOp d → x ≠ 0x81 → h.first + 1 ≤ dTiles d →
    flagLast h = decide (h.first + 1 = dTiles d) →
    (scaleIsDist s h = false → h.first = tget 0 e.flow.scaleMarks h.rank →
      ∃ u y, exec (.scaleFrameReceive (f, v)) s = .next (eccAdded s (returnScaled (fab noStepIn) (progress u h.part h.group h.ticket) h.part h.group h.ticket) v)
        ∧ findEntry u h.part h.group h.ticket = some y
        ∧ y = { e with flow := { e.flow with heard := y.flow.heard, scaleMax := y.flow.scaleMax, scaleMarks := y.flow.scaleMarks, scaleRuns := e.flow.scaleRuns ++ [(h.first, 1, h.hop)] } }
        ∧ tget 0 y.flow.scaleMarks h.rank = h.first + 1
        ∧ sInt 8 (tget 0x80 y.flow.scaleMax h.first) = max (sInt 8 (tget 0x80 e.flow.scaleMax h.first)) (sInt 8 x.toNat)
        ∧ (∀ j, j ≠ h.first → tget 0x80 y.flow.scaleMax j = tget 0x80 e.flow.scaleMax j)
        ∧ u.phlx = s.phlx ∧ (u.pipe k).buf = [])
    ∧ (scaleIsDist s h = true → h.first = e.flow.agreed → x ≠ 0x80 →
      ∃ u y, exec (.scaleFrameReceive (f, v)) s = .next (eccAdded s (returnScaled (fab noStepIn) (progress u h.part h.group h.ticket) h.part h.group h.ticket) v)
        ∧ findEntry u h.part h.group h.ticket = some y ∧ y = { e with flow := { e.flow with heard := y.flow.heard, agreed := h.first + 1, distRuns := e.flow.distRuns ++ [(h.first, 1, h.hop)] } }
        ∧ u.phlx = { s.phlx with recs := u.phlx.recs } ∧ tileRec u w h.first = { tileRec s w h.first with scale := x.toNat }
        ∧ (∀ j, j ≠ recKey s (s.win w) h.first → tget {} u.phlx.recs j = (tget {} s.phlx.recs j : TileRec)) ∧ (u.pipe k).buf = [])

/-- The fabric classes (R82, R83, R204, R215, R289, R291) on frames that open. That a query which may not be answered is dropped uncounted is the
model's choice (logs 95 and 174). -/
def Obligations.FabricFramesAct : Prop :=
  ∀ (s : State) (f : Arrival) (k : Nat) (plain : Bytes) (h : Hdr), h = hdrOf f.bytes → FrameOpens s f k plain → s.park.frames = [] →
    (h.cls = 4 →
      ∀ e, findEntry s h.part h.group (leAt plain 12 4) = some e → isLive e = true →
        ∃ t, exec (.abortFrameReceive f) s = .next t
          ∧ (findEntry t h.part h.group (leAt plain 12 4)).map (fun y => (y.st, y.fin, y.charge)) = some (.aborted, true, 0)
          ∧ ((s.grpRec h.group).abValid = false → (t.grpRec h.group).abValid = true
            ∧ (t.grpRec h.group).abOrigin = fld (BitVec.ofNat 64 (leAt plain 0 8)) 47 33 ∧ (t.grpRec h.group).abStatus = fld (BitVec.ofNat 64 (leAt plain 0 8)) 63 48
            ∧ (t.grpRec h.group).abDetail = leAt plain 8 4)
          ∧ (∀ p, p ≠ h.part → t.entries p = s.entries p) ∧ bitOf (t.page 0x60).cause 1 = true ∧ bitOf (t.page (0x80 + h.part)).cause 0 = true)
    ∧ (h.cls = 8 →
      (∀ j i, leAt plain 8 1 % 2 = 0 → s.lark.unsent = [] → fabricReady (noteFabric s) 8 (2 ^ f.port.toNat) = true → outPipe s (2 ^ f.port.toNat) = some j →
        kcFind (s.pipe j) 4 0 8 (epochAt s 32 s.mrd.step) = some i →
        ∃ t b, exec (.probeFrameReceive f) s = .next t
          ∧ (t.pipe j).outs = (s.pipe j).outs ++ [b] ∧ b.cls = 8 ∧ b.ports = boundPorts s (2 ^ f.port.toNat) ∧ b.waits = 0
          ∧ (∀ m, m ≠ j → (t.pipe m).outs = (s.pipe m).outs) ∧ t.park.unanswered = s.park.unanswered)
      ∧ (∀ j, leAt plain 8 1 % 2 = 0 → s.lark.unsent = [] → fabricReady (noteFabric s) 8 (2 ^ f.port.toNat) = true → outPipe s (2 ^ f.port.toNat) = some j →
        kcFind (s.pipe j) 4 0 8 (epochAt s 32 s.mrd.step) = none → { pipe := j, use := 4, part := 0, sel := 8, epoch := epochAt s 32 s.mrd.step } ∉ s.chrt.queue →
        ∃ t w, exec (.probeFrameReceive f) s = .next t ∧ t.lark.unsent = [w] ∧ w.asked = true ∧ w.cls = 8 ∧ w.ports = 2 ^ f.port.toNat ∧ t.chrt.queue = s.chrt.queue ++ [{ pipe := j, use := 4, part := 0, sel := 8, epoch := epochAt s 32 s.mrd.step }]
          ∧ (∀ i, (t.pipe i).outs = (s.pipe i).outs) ∧ t.park.unanswered = s.park.unanswered)
      ∧ (leAt plain 8 1 % 2 = 0 → s.mrd.seen = false ∨ fabricReady (noteFabric s) 8 (2 ^ f.port.toNat) = false →
        ∃ t, exec (.probeFrameReceive f) s = .next t ∧ t.park = { s.park with unanswered := s.park.unanswered + 1 } ∧ ∀ i, (t.pipe i).outs = (s.pipe i).outs)
      ∧ (leAt plain 8 1 % 2 = 1 → ∃ t, exec (.probeFrameReceive f) s = .next t ∧ t = { s with lark := t.lark, out := t.out } ∧ ∀ i, (t.pipe i).outs = (s.pipe i).outs))
    ∧ (h.cls = 6 →
      (fld (BitVec.ofNat 64 (leAt plain 0 8)) 63 48 ≠ 1 → fld (BitVec.ofNat 64 (leAt plain 0 8)) 63 48 ≠ 0x8001 →
        ∃ t, exec (.mgmtFrameReceive f) s = .next t ∧ t.park = { s.park with mgmtUnknown := s.park.mgmtUnknown + 1 })
      ∧ (∀ j i, fld (BitVec.ofNat 64 (leAt plain 0 8)) 63 48 = 1 → fld (BitVec.ofNat 64 (leAt plain 0 8)) 47 32 = 8 → leAt plain 8 8 = 0 → plain.length = 32 →
        leAt plain 16 8 < 2 ^ 12 → s.grp.mgmtPorts.testBit f.port.toNat = true → mayQuery s (leAt plain 16 8) h.rank = true →
        s.lark.unsent = [] → fabricReady (noteFabric s) 6 (2 ^ f.port.toNat) = true → outPipe s (2 ^ f.port.toNat) = some j →
        kcFind (s.pipe j) 4 0 6 (epochAt s 32 s.mrd.step) = some i →
        ∃ t b, exec (.mgmtFrameReceive f) s = .next t ∧ (t.pipe j).outs = (s.pipe j).outs ++ [b] ∧ b.cls = 6 ∧ b.ports = boundPorts s (2 ^ f.port.toNat)
          ∧ ∀ m, m ≠ j → (t.pipe m).outs = (s.pipe m).outs)
      ∧ (fld (BitVec.ofNat 64 (leAt plain 0 8)) 63 48 = 1 →
        fld (BitVec.ofNat 64 (leAt plain 0 8)) 47 32 ≠ 8 ∨ leAt plain 8 8 ≠ 0 ∨ plain.length ≠ 32 ∨ 2 ^ 12 ≤ leAt plain 16 8
          ∨ s.grp.mgmtPorts.testBit f.port.toNat = false ∨ mayQuery s (leAt plain 16 8) h.rank = false →
        ∃ t, exec (.mgmtFrameReceive f) s = .next t ∧ t = { s with lark := t.lark, out := t.out } ∧ (∀ i, (t.pipe i).outs = (s.pipe i).outs) ∧ t.lark.unsent = s.lark.unsent))
    ∧ (h.cls = 5 → ∀ (x : StepIn) (b : Nat), stepOf h plain = some b →
      (s.mrd.mode = .followFrame → mrdRuns s = true → topStep s < b → s.mrd.running = none → s.mrd.pendingStep = none → s.mrd.heldCmds = [] → s.mrd.sched = [] →
        ∃ t, exec (.stepFrameReceive f x) s = .next t
          ∧ t.mrd = { s.mrd with
              step := b, seen := true, running := none, lastBoundary := s.mrd.wall, lateDone := false
              jumps := if s.mrd.step + 1 < b then s.mrd.jumps + 1 else s.mrd.jumps
              drops := (dropRelays s b).mrd.drops }
          ∧ bitOf (t.page 0x04).cause 0 = true ∧ (s.mrd.step + 1 < b → bitOf (t.page 0x04).cause 1 = true))
      ∧ (s.mrd.mode ≠ .followFrame ∨ b ≤ topStep s →
        ∃ t, exec (.stepFrameReceive f x) s = .next t ∧ t.mrd = { s.mrd with drops := s.mrd.drops + 1 }))

/-- Building (Table 5.5, R151, R159, R161, R162, R264, R321); then the codewords read are taken into account (`eccBuilt`). -/
def Obligations.EgressFramesAreBuilt : Prop :=
  ∀ (s : State) (k : BitVec 3) (v : EccIn) (j : Nat) (may : Nat → Option Entry), j = k.toNat + 8 →
    may = (fun p => (s.entries p).find? (fun e => buildsFor s j e && readyOn s j p e)) →
    (arithRuns s = false ∨ s.grp.rankValid = false ∨ (s.pipe j).waitKey ≠ none ∨ 2 ≤ heldFrames (s.pipe j) → exec (.egressFrameBuild k v) s = .next s)
    ∧ ((∀ p, p < 32 → may p = none) →
      ∃ t, exec (.egressFrameBuild k v) s = .next t ∧ t = { s with lark := { s.lark with pipes := t.lark.pipes } } ∧ (∀ i, i ≠ j → t.pipe i = s.pipe i)
        ∧ t.pipe j = { s.pipe j with allow := (t.pipe j).allow }
        ∧ (arithRuns s = true → s.grp.rankValid = true → (s.pipe j).waitKey = none → heldFrames (s.pipe j) < 2 →
          ∀ p, p < 32 → tget 0 (t.pipe j).allow p = min (tget 0 (s.pipe j).allow p) ((s.part p).weight * 16 : Nat)))
    ∧ (∀ p s1 e d c, arithRuns s = true → s.grp.rankValid = true → (s.pipe j).waitKey = none → heldFrames (s.pipe j) < 2 →
      servePipe s j (fun p => (may p).isSome) = (some p, s1) → may p = some e → entryDesc s p e = some (d, c) → e.flow.counter ≤ 0x1FFFFF → e.group < 4096 →
      (kcFind (s.pipe j) 1 p e.group e.kEpoch = none →
        ∃ t, exec (.egressFrameBuild k v) s = .next t
          ∧ (t.pipe j).waitKey = some (p, e.group, e.ticket) ∧ tget 0 (t.pipe j).ctr 0x108 = tget 0 (s.pipe j).ctr 0x108 + 1
          ∧ t.chrt = { s.chrt with queue := s.chrt.queue ++ [{ pipe := j, use := 1, part := p, sel := e.group, epoch := e.kEpoch }] }
          ∧ (∀ i, i ≠ j → t.pipe i = s.pipe i) ∧ t.grp = s.grp ∧ t.phlx = s.phlx)
      ∧ (∀ kind first n, nextOut s1 p e = .tiles kind first n → kind ≠ 1 ∨ dNoise d = false → (kcFind (s.pipe j) 1 p e.group e.kEpoch).isSome = true →
          (buildTiles s1 j p e d ((openWin s p e.group e.ticket).getD 0) kind first n none).hdr.hop ≤ 255 →
        ∃ u b, exec (.egressFrameBuild k v) s = .next (eccBuilt s u j v)
          ∧ (u.pipe j).outs = (s.pipe j).outs ++ [b] ∧ b.part = p ∧ b.group = e.group ∧ b.ticket = e.ticket ∧ b.first = first ∧ b.count = n ∧ b.waits = n
          ∧ b.cls = (if kind = 0 then 1 else 3) ∧ b.failed = false ∧ b.release = decide (kind = 1) ∧ b.taps.length = n
          ∧ (findEntry u p e.group e.ticket).map (fun y => (y.flow.counter, y.flow.dataNext, y.flow.pipe)) = some (e.flow.counter + 1, first + n, some j)
          ∧ (∀ i, i ≠ j → u.pipe i = s.pipe i) ∧ u.phlx = s.phlx)
      ∧ (∀ dist first n, nextOut s1 p e = .scale dist first n → (kcFind (s.pipe j) 1 p e.group e.kEpoch).isSome = true →
          hopOver (if dist && !atRelease s d then e.flow.distRuns else e.flow.scaleRuns) first n < 255 →
        ∃ u b, exec (.egressFrameBuild k v) s = .next (eccBuilt s u j v)
          ∧ (u.pipe j).outs = (s.pipe j).outs ++ [b] ∧ b.part = p ∧ b.group = e.group ∧ b.ticket = e.ticket ∧ b.cls = 2 ∧ b.first = first ∧ b.count = n ∧ b.waits = 0
          ∧ (∀ i, i ≠ j → u.pipe i = s.pipe i) ∧ u.phlx = s.phlx))

/-- Sending (R97, R160), the sideband of the first beat (R517) and the host die's credits (R519, R521). Logs 11, 17 and 26 are the model's choices. -/
def Obligations.FramesAndCreditsCross : Prop :=
  ∀ (s : State),
    (∀ (k : BitVec 3) (b : OutFrame) (l : List OutFrame) (port : Nat), (s.pipe (k.toNat + 8)).outs = b :: l → (∀ x ∈ b :: l, classVc x.cls = false) →
      (canSend s b = true → b.ports = 2 ^ port → port < 8 →
        ∃ u, exec (.frameSend k) s = .next (bindBackAll (afterSend u b))
          ∧ u = { s with lark := { s.lark with pipes := u.lark.pipes, outCr := u.lark.outCr }, out := s.out ++ [.frame port (sidebandOf false b.bytes) b.bytes] }
          ∧ u.pipe (k.toNat + 8) = { s.pipe (k.toNat + 8) with outs := l, ctr := (u.pipe (k.toNat + 8)).ctr }
          ∧ tget 0 (u.pipe (k.toNat + 8)).ctr 0xC0 = tget 0 (s.pipe (k.toNat + 8)).ctr 0xC0 + 1
          ∧ tget 0 (u.pipe (k.toNat + 8)).ctr 0xC8 = tget 0 (s.pipe (k.toNat + 8)).ctr 0xC8 + BitVec.ofNat 64 b.bytes.length
          ∧ (∀ j, j ≠ k.toNat + 8 → u.pipe j = s.pipe j)
          ∧ tget {} u.lark.outCr port = { (tget {} s.lark.outCr port : PortCr) with vc0 := (tget {} s.lark.outCr port : PortCr).vc0 - creditsOf b.bytes.length }
          ∧ ∀ j, j ≠ port → tget {} u.lark.outCr j = (tget {} s.lark.outCr j : PortCr))
      ∧ (arithRuns s = true → canSend s b = false → b.waits = 0 → b.failed = false →
        ∃ t, exec (.frameSend k) s = .next t ∧ t = { s with lark := { s.lark with pipes := t.lark.pipes } }
          ∧ t.pipe (k.toNat + 8) = { s.pipe (k.toNat + 8) with ctr := (t.pipe (k.toNat + 8)).ctr }
          ∧ tget 0 (t.pipe (k.toNat + 8)).ctr 0xD8 = tget 0 (s.pipe (k.toNat + 8)).ctr 0xD8 + 1
          ∧ ∀ j, j ≠ k.toNat + 8 → t.pipe j = s.pipe j)
      ∧ (0 < b.waits ∨ arithRuns s = false → exec (.frameSend k) s = .next s))
    ∧ (∀ k : BitVec 3, (s.pipe (k.toNat + 8)).outs = [] → exec (.frameSend k) s = .next s)
    ∧ (∀ (port : BitVec 4) (vc : Bool) (n : BitVec 8),
      (dead s = false → port.toNat < 12 → (8 ≤ port.toNat → s.blk.profile ≠ 2 ∧ s.rhmb.lspSink.testBit (port.toNat - 8) = false) →
        ∃ t, exec (.creditGrantReceive port vc n) s = .next t ∧ t = { s with lark := { s.lark with outCr := t.lark.outCr } }
          ∧ (∀ j, j ≠ port.toNat → tget {} t.lark.outCr j = (tget {} s.lark.outCr j : PortCr))
          ∧ creditsAt t port.toNat vc = min 65535 (creditsAt s port.toNat vc + n.toNat) ∧ creditsAt t port.toNat (!vc) = creditsAt s port.toNat (!vc))
      ∧ (dead s = true ∨ 12 ≤ port.toNat ∨ (8 ≤ port.toNat ∧ (s.blk.profile = 2 ∨ s.rhmb.lspSink.testBit (port.toNat - 8) = true)) →
        exec (.creditGrantReceive port vc n) s = .next s))

/-- The service of key requests (R366, R151, R152), and a push cut short (R20). Logs 35 (a full cache) and 139 (a cut push) are the model's choices. -/
def Obligations.ChartroomServesRequests : Prop :=
  ∀ (s : State) (x : StepIn),
    (∀ cut ask, (s.chrt.queue = [] ∧ ask = none) ∨ secRuns s = false ∨ arithRuns s = false → exec (.keyRequestServe { step := x, cut := cut, ask := ask }) s = .next s)
    ∧ (∀ (r : KeyReq) (l : List KeyReq), s.chrt.queue = r :: l → secRuns s = true → arithRuns s = true → r.pipe < 16 →
      (s.grp.lists = [] → (s.pipe r.pipe).buf = [] → (s.pipe r.pipe).waitKey = none → s.lark.unsent = [] →
      tableWf {} (s.pipe r.pipe).kc = true → (∀ i, baseSlot s r = some i → slotSound s i = true ∧ (s.slot i).ecc ≠ .single) →
      kcFind (s.pipe r.pipe) r.use r.part r.sel r.epoch = none →
      (∀ key derived i, kcVictim (s.pipe r.pipe) ≠ none → lookupKey s r = .ok (key, derived, i) →
        ∃ t j, exec (.keyRequestServe { step := x, cut := false, ask := none }) s = .next t
          ∧ kcFind (t.pipe r.pipe) r.use r.part r.sel r.epoch = some j ∧ (tget {} (t.pipe r.pipe).kc j : KcEntry).key = key
          ∧ t.chrt = { s.chrt with queue := l, pushes := s.chrt.pushes + 1, cache := t.chrt.cache, derives := if derived then s.chrt.derives + 1 else s.chrt.derives }
          ∧ (∀ m, m ≠ r.pipe → t.pipe m = s.pipe m))
      ∧ (∀ st, kcVictim (s.pipe r.pipe) ≠ none → lookupKey s r = .error st →
        ∃ t, exec (.keyRequestServe { step := x, cut := false, ask := none }) s = .next t
          ∧ t = { s with chrt := { s.chrt with queue := l, refusals := s.chrt.refusals + 1 }, lark := { s.lark with pipes := t.lark.pipes } } ∧ ∀ m, t.pipe m = s.pipe m)
      ∧ (kcVictim (s.pipe r.pipe) = none → exec (.keyRequestServe { step := x, cut := false, ask := none }) s = .next s))
      ∧ (∀ i, kcVictim (s.pipe r.pipe) = some i →
        exec (.keyRequestServe { step := x, cut := true, ask := none }) s = .next (s.setPipe r.pipe { s.pipe r.pipe with kc := tset {} (s.pipe r.pipe).kc i {} })))

/-- `PART_CMD` (R307, R309, R323, Table 10.7), with log 69. -/
def Obligations.PartitionsAreAssignedAndReleased : Prop :=
  ∀ (s : State) (a : Access) (n : BitVec 5) (v : Word) (mem : AssignIn), WriteReaches s a (0x80 + n.toNat) 0x88 → fld v 59 0 = 0 →
    (partBusy s n.toNat = true → ∀ c ∈ [Instr.assign a n v mem, Instr.partCmdRelease a n v],
      ∃ t, exec c s = .next t ∧ t = { s with bus := t.bus } ∧ t.bus.resp = { refused := true, stat := 0x0301, rdata := 0 })
    ∧ (partBusy s n.toNat = false →
      (∀ k st, assignChecks s n.toNat mem = .error (k, st) → ∃ t, exec (.assign a n v mem) s = .next t
        ∧ t = { s with bus := t.bus, parts := t.parts, chrt := t.chrt, helm := { s.helm with copyFault := t.helm.copyFault }, pwr := t.pwr, astr := t.astr } ∧ t.part n.toNat = { s.part n.toNat with status := stCode st, stepFailed := k }
        ∧ (k ≠ 6 → t.chrt = s.chrt ∧ t.helm = s.helm ∧ t.pwr = s.pwr ∧ t.astr = s.astr) ∧ (∀ i, i ≠ 1 → t.slot i = s.slot i) ∧ ∀ q, q ≠ n.toNat → t.part q = s.part q)
      ∧ (∀ k rec f, assignChecks s n.toNat { mem with fail := none } = .ok (k, rec) → mem.fail = some f → ∃ t, exec (.assign a n v mem) s = .next t
        ∧ (t.part n.toNat).st = .free ∧ (t.part n.toNat).stepFailed = 6
        ∧ (t.part n.toNat).status = (match f with | .arith => 0x0601 | .ecc => 0x0604 | .aborted => 0x0504))
      ∧ (∀ k rec root, assignChecks s n.toNat mem = .ok (k, rec) → s.chrt.root = some root → ∃ t, exec (.assign a n v mem) s = .next t
        ∧ t = { s with bus := t.bus, parts := t.parts, chrt := t.chrt, hashu := t.hashu, spdm := t.spdm, helm := { s.helm with copyFault := t.helm.copyFault }, pwr := t.pwr, astr := t.astr, free := t.free }
        ∧ t.part n.toNat = { s.part n.toNat with st := .owned, owners := 2 ^ k - 1, policy := Config.sha384 rec, status := 0, stepFailed := 0 }
        ∧ (∀ q, q ≠ n.toNat → t.part q = s.part q)
        ∧ (t.slot (34 + 4 * n.toNat)).st = .active ∧ (t.slot (34 + 4 * n.toNat)).key ^^^ (t.slot (34 + 4 * n.toNat)).mask = contextKey root n.toNat (Config.sha384 rec) 0
        ∧ (t.slot (33 + 4 * n.toNat)).st = .active ∧ (t.slot (32 + 4 * n.toNat)).st = .active ∧ t.slot (35 + 4 * n.toNat) = {}
        ∧ (∀ i, i < 32 + 4 * n.toNat ∨ 35 + 4 * n.toNat < i → t.slot i = { s.slot i with ecc := (t.slot i).ecc } ∧ (i ≠ 1 → t.slot i = s.slot i))
        ∧ bitOf (t.page (0x80 + n.toNat)).cause 3 = true)
      ∧ ((s.part n.toNat).st = .owned → ∃ t, exec (.partCmdRelease a n v) s = .next t
        ∧ t = { s with bus := t.bus, parts := t.parts }
        ∧ t.part n.toNat = { s.part n.toNat with st := .wiping, wipeTag := if a.tagged then a.ptag.toNat else 0, status := 0, stepFailed := 0 }
        ∧ (∀ q, q ≠ n.toNat → t.part q = s.part q) ∧ bitOf (t.page (0x80 + n.toNat)).cause 3 = true)
      ∧ ((s.part n.toNat).st = .free → ∃ t, exec (.partCmdRelease a n v) s = .next t
        ∧ t = { s with bus := t.bus, parts := t.parts } ∧ t.part n.toNat = { s.part n.toNat with status := 0x0301, stepFailed := 0 } ∧ t.bus.resp = { refused := true, stat := 0x0301, rdata := 0 }))

/-- The wipe of Table 10.4 (R310). -/
def Obligations.WipesFreeThePartition : Prop :=
  ∀ (s : State) (n : BitVec 5),
    ((s.part n.toNat).st ≠ .wiping ∨ secRuns s = false ∨ launchHeld s n.toNat = true → exec (.wipeDone n) s = .next (pumpAll busFn s))
    ∧ ((s.part n.toNat).st = .wiping → secRuns s = true → launchHeld s n.toNat = false → chansStopped (wipeTraffic s n.toNat) n.toNat = false →
      exec (.wipeDone n) s = .next (pumpAll busFn (wipeTraffic s n.toNat)) ∧ ((wipeTraffic s n.toNat).part n.toNat).st = .wiping)
    ∧ ((s.part n.toNat).st = .wiping → secRuns s = true → launchHeld s n.toNat = false → chansStopped (wipeTraffic s n.toNat) n.toNat = true → ∃ t, exec (.wipeDone n) s = .next (pumpAll busFn t)
      ∧ t.part n.toNat = { s.part n.toNat with st := .free, owners := 0, policy := 0, wipeTag := 0, overflow := none }
      ∧ (∀ q, q ≠ n.toNat → t.part q = s.part q)
      ∧ t.entries n.toNat = [] ∧ t.budget n.toNat = {}
      ∧ (∀ w, (t.win w).kind ≠ .free → (t.win w).part ≠ n.toNat)
      ∧ (∀ f ∈ t.park.frames, f.part ≠ n.toNat)
      ∧ (∀ c g, descOwner (t.desc c g) ≠ some n.toNat)
      ∧ (tableWf {} s.chrt.slots = true → ∀ i, slotOfPart n.toNat i (s.slot i) = true → t.slot i = {})
      ∧ (∀ i, (tget {} t.rhmb.sems i : Sem).owned = true → (tget {} t.rhmb.sems i : Sem).part = n.toNat → (tget {} t.rhmb.sems i : Sem).value = 0)
      ∧ bitOf (t.page (0x80 + n.toNat)).cause 3 = true)

/-- The windows (R312 to R315), the range (R319), the mask (R320) and the quotas (R317). -/
def Obligations.PartitionRegistersAreWritten : Prop :=
  ∀ (s : State) (a : Access) (n : BitVec 5) (v : Word),
    (∀ (w : BitVec 3) (limit : Bool) (r : Region), r = tget {} (s.part n.toNat).regions w.toNat →
      WriteReaches s a (0x80 + n.toNat) (0x100 + 16 * w.toNat + (if limit then 8 else 0)) →
      (regionLocked r limit v = false → regionBad r limit v (meetsParts s (some n.toNat)) = false →
        exec (.partRegionWrite a n w limit v) s = .next ((answer s 0).setPart n.toNat { s.part n.toNat with
          regions := tset {} (s.part n.toNat).regions w.toNat (if limit then { r with limit := fld v 47 0 }
            else if r.closing then r
            else if r.en then (if windowUsers s (some n.toNat) w.toNat = [] then { r with en := false } else { r with closing := true, users := windowUsers s (some n.toNat) w.toNat })
            else { r with en := bitOf v 63, rd := bitOf v 62, wr := bitOf v 61, base := fld v 47 0 }) }))
      ∧ (regionLocked r limit v = true → ∃ t, exec (.partRegionWrite a n w limit v) s = .next t
        ∧ t = { s with bus := t.bus } ∧ t.bus.resp = { refused := true, stat := 0x0301, rdata := 0 })
      ∧ (regionLocked r limit v = false → regionBad r limit v (meetsParts s (some n.toNat)) = true → ∃ t, exec (.partRegionWrite a n w limit v) s = .next t
        ∧ t = { s with bus := t.bus } ∧ t.bus.resp = { refused := true, stat := 0x0101, rdata := 0 }))
    ∧ (∀ (w : BitVec 3) (r : Region), r = tget {} (s.part n.toNat).regions w.toNat →
      (secRuns s = false → exec (.regionDisableDone n w) s = .next s)
      ∧ (secRuns s = true → exec (.regionDisableDone n w) s = .next (s.setPart n.toNat { s.part n.toNat with
          regions := tset {} (s.part n.toNat).regions w.toNat (if r.closing = true ∧ regionUsed s r = false then { r with en := false, closing := false, users := [] } else r) })))
    ∧ (WriteReaches s a (0x80 + n.toNat) 0xA8 →
      ((s.part n.toNat).st = .free → fld v 63 46 + fld v 45 27 ≤ 262144 →
        (fld v 45 27 = 0 ∨ ∀ q, q < 32 → q ≠ n.toNat → (s.part q).mbrLen = 0 ∨ fld v 63 46 + fld v 45 27 ≤ (s.part q).mbrBase ∨ (s.part q).mbrBase + (s.part q).mbrLen ≤ fld v 63 46) →
        exec (.partMbrRangeWrite a n v) s = .next ((answer s 0).setPart n.toNat { s.part n.toNat with mbrBase := fld v 63 46, mbrLen := fld v 45 27 }))
      ∧ ((s.part n.toNat).st ≠ .free → ∃ t, exec (.partMbrRangeWrite a n v) s = .next t
        ∧ t = { s with bus := t.bus } ∧ t.bus.resp = { refused := true, stat := 0x0301, rdata := 0 })
      ∧ ((s.part n.toNat).st = .free → 262144 < fld v 63 46 + fld v 45 27 → ∃ t, exec (.partMbrRangeWrite a n v) s = .next t
        ∧ t = { s with bus := t.bus } ∧ t.bus.resp = { refused := true, stat := 0x0101, rdata := 0 }))
    ∧ (WriteReaches s a (0x80 + n.toNat) 0xB0 →
      ((∀ k, k < 16 → (s.part n.toNat).channels.testBit k ≠ v.toNat.testBit k → (s.chan k).st = .idle ∧ ∀ q, chanOwner s k = some q → q = n.toNat) →
        exec (.partChannelsWrite a n v) s = .next ((answer s 0).setPart n.toNat { s.part n.toNat with channels := fld v 15 0 }))
      ∧ (∀ k, k < 16 → (s.part n.toNat).channels.testBit k ≠ v.toNat.testBit k → (s.chan k).st ≠ .idle → ∃ t, exec (.partChannelsWrite a n v) s = .next t
        ∧ t = { s with bus := t.bus } ∧ t.bus.resp = { refused := true, stat := 0x0301, rdata := 0 }))
    ∧ (WriteReaches s a (0x80 + n.toNat) 0x98 →
      (fld v 53 44 ≤ 512 → fld v 43 31 ≤ 4096 → fld v 30 17 ≤ 8192 → exec (.partQuotaWrite a n false v) s = .next
        ((answer s 0).setPart n.toNat { s.part n.toNat with qSlots := fld v 53 44, qDescs := fld v 43 31, qWins := fld v 30 17 }))
      ∧ (512 < fld v 53 44 ∨ 4096 < fld v 43 31 ∨ 8192 < fld v 30 17 → ∃ t, exec (.partQuotaWrite a n false v) s = .next t
        ∧ t = { s with bus := t.bus } ∧ t.bus.resp = { refused := true, stat := 0x0101, rdata := 0 }))
    ∧ (WriteReaches s a (0x80 + n.toNat) 0xA0 → fld v 63 49 ≤ 16384 → fld v 48 37 ≤ 3584 → exec (.partQuotaWrite a n true v) s = .next
        ((answer s 0).setPart n.toNat { s.part n.toNat with qGran := fld v 63 49, qPark := fld v 48 37, weight := fld v 36 29 }))

/-- `ZIN_CMD` (Table 7.10, R254, R255, R258). That a request runs at once, or waits for the engine's operation, is log 129, the model's choice. -/
def Obligations.BudgetRequestsAreJudged : Prop :=
  ∀ (s : State) (a : Access) (v : Word) (mem policy : Option Bytes), WriteReaches s a 0x55 0x80 → v = 0x1000000000000000 →
    (s.zin.waiting.isSome = true → ∃ t, exec (.zinBudget a v mem policy) s = .next t ∧ t = { s with bus := t.bus } ∧ t.bus.resp = { refused := true, stat := 0x0301, rdata := 0 })
    ∧ (s.zin.waiting = none → s.astr.st = .running → exec (.zinBudget a v mem policy) s = .next { answer s 0 with zin := { s.zin with waiting := some (a, mem, policy) } })
    ∧ (∀ st stage signer, s.zin.waiting = none → s.astr.st ≠ .running → budgetStages (answer s 0) mem policy = .error (st, stage, signer) → ∃ t, exec (.zinBudget a v mem policy) s = .next t
      ∧ t = { s with bus := t.bus, zin := { s.zin with result := pack [(63, 48, stCode st), (47, 40, stage), (39, 32, signer)] }, helm := { s.helm with copyFault := t.helm.copyFault }, pwr := t.pwr, astr := t.astr }
      ∧ (stage < 5 → t.helm = s.helm ∧ t.pwr = s.pwr ∧ t.astr = s.astr)
      ∧ t.bus.resp = { refused := false, stat := 0, rdata := 0 } ∧ bitOf (t.page 0x55).cause 0 = true)
    ∧ (∀ u m, s.zin.waiting = none → s.astr.st ≠ .running → budgetStages (answer s 0) mem policy = .ok u → mem = some m → ∃ t, exec (.zinBudget a v mem policy) s = .next t
      ∧ t = { s with bus := t.bus, zin := { s.zin with budgets := t.zin.budgets, result := pack [(63, 48, 0), (47, 40, 0), (39, 32, 0xFF)] }, helm := { s.helm with copyFault := t.helm.copyFault }, pwr := t.pwr, astr := t.astr }
      ∧ t.budget (fld s.zin.cmdAddr 52 48) = { s.budget (fld s.zin.cmdAddr 52 48) with
          total := leAt m 40 8, grant := leAt m 48 8, minCharge := leAt m 56 4, noiseMult2 := leAt m 60 2, privRequired := decide (leAt m 62 1 = 1), seq := leAt m 32 8 }
      ∧ (∀ q, q ≠ fld s.zin.cmdAddr 52 48 → t.budget q = s.budget q)
      ∧ bitOf (t.page 0x55).cause 0 = true)

/-- What advances the step (R286, R290, R293) and the events of a boundary (R291, R296, Table 9.3). `ADVANCE` and the mark are stated of a
master and a follower in whose table nothing is due; the events of a master whose table holds one entry. A pulse
that pends without the security loop's lock is log 138. -/
def Obligations.StepsAdvance : Prop :=
  ∀ (s : State) (x : StepIn) (b : Nat), b = (s.mrd.step + 1) % 2 ^ 48 →
    (s.mrd.running = none → s.mrd.pendingStep = none →
      (∀ (a : Access) (v : Word), WriteReaches s a 0x04 0x58 → s.mrd.mode = .master → v = 1 → exec (.mrdAdvance a v x) s =
        .next (eccAdded s (runBoundary (fabInner x) (answer s 0) b (some (stepPayload s b, 0)) x.phases) x.ecc))
      ∧ (mrdRuns s = true → s.mrd.mode = .followMark ∨ (s.mrd.mode = .master ∧ s.mrd.masterMark = true) → exec (.stepMarkPulse x) s =
        .next (eccAdded s (runBoundary (fabInner x) s b (if s.mrd.mode = .master then some (stepPayload s b, 0) else none) x.phases) x.ecc)))
    ∧ (∀ y, mrdRuns s = true → s.mrd.running = none → s.mrd.pendingStep = some y → s.mrd.step < y → exec (.pendingBoundary x) s =
        .next (eccAdded s (runBoundary (fabInner x) { s with mrd := { s.mrd with pendingStep := none, pendingRelay := none, drops := if s.mrd.pendingRelay.isSome = true ∧ s.mrd.mode = .master then s.mrd.drops + 1 else s.mrd.drops } } y
          (if s.mrd.mode = .master then some (stepPayload s y, 0) else s.mrd.pendingRelay) x.phases) x.ecc))
    ∧ (s.mrd.heldCmds = [] → s.park.frames = [] →
    (∀ (a : Access) (v : Word), WriteReaches s a 0x04 0x58 →
      (s.mrd.mode ≠ .master → ∃ t, exec (.mrdAdvance a v x) s = .next t ∧ t = { s with bus := t.bus } ∧ t.bus.resp = { refused := true, stat := 0x0301, rdata := 0 })
      ∧ (s.mrd.mode = .master → v = 0 → exec (.mrdAdvance a v x) s = .next (answer s 0))
      ∧ (s.mrd.mode = .master → v = 1 → s.mrd.running.isSome = true ∨ s.mrd.pendingStep.isSome = true →
          exec (.mrdAdvance a v x) s = .next { answer s 0 with mrd := { s.mrd with pendingStep := some (low 48 (topStep s + 1)), pendingRelay := none, drops := if s.mrd.pendingRelay.isSome = true then s.mrd.drops + 1 else s.mrd.drops } })
      ∧ (s.mrd.mode = .master → v = 1 → s.mrd.running = none → s.mrd.pendingStep = none →
        (s.mrd.sched = [] → ∃ t, exec (.mrdAdvance a v x) s = .next t
          ∧ t.mrd = { s.mrd with step := b, seen := true, lastBoundary := s.mrd.wall, lateDone := false, drops := (dropRelays s b).mrd.drops } ∧ bitOf (t.page 0x04).cause 0 = true)
        ∧ (∀ i e, s.mrd.sched = [(i, e)] → x.phases = none → e.valid = true → e.phases = 0 → e.period = 0 →
          (e.typ = 4 → e.step ≤ b → ∃ t, exec (.mrdAdvance a v x) s = .next t
            ∧ t.budget e.part = { s.budget e.part with spent := (s.budget e.part).spent - (s.budget e.part).grant } ∧ (∀ q, q ≠ e.part → t.budget q = s.budget q)
            ∧ t.schedOf i = { w1 := e.w1 } ∧ t.mrd.step = b ∧ t.mrd.running = none)
          ∧ (e.typ = 2 → e.step = b → ∃ t, exec (.mrdAdvance a v x) s = .next t
            ∧ t.grp.descA = s.grp.descS ∧ t.grp.descS = s.grp.descA ∧ t.grp.mbrA = s.grp.mbrS ∧ t.grp.mbrS = s.grp.mbrA ∧ t.grp.epA = s.grp.epS ∧ t.grp.epS = s.grp.epA
            ∧ t.grp.frozen = false ∧ t.grp.oldHeld = true ∧ t.grp.since = some b ∧ bitOf (t.page 0x60).cause 2 = true
            ∧ t.schedOf i = { e with fired := true, phases := 2 } ∧ t.mrd.step = b ∧ t.mrd.running = none)
          ∧ (e.typ = 1 → e.step = b + 1 → ∃ t, exec (.mrdAdvance a v x) s = .next t
            ∧ t.clockOf (if e.fabric then 32 else e.part) = { s.clockOf (if e.fabric then 32 else e.part) with high := e.arg, pair := true }
            ∧ t.schedOf i = { e with fired := true, phases := 1 } ∧ t.mrd.step = b ∧ t.mrd.running = none))))
    ∧ (s.pwr.asleep = true → exec (.stepMarkPulse x) s = .next { s with mrd := { s.mrd with step := b } })
    ∧ (s.pwr.asleep = false → inReset s = true ∨ domLive s 1 = false ∨ (s.mrd.mode ≠ .followMark ∧ s.mrd.mode ≠ .master) → exec (.stepMarkPulse x) s = .next s)
    ∧ (mrdRuns s = true → s.mrd.mode = .followMark → s.mrd.running = none → s.mrd.pendingStep = none → s.mrd.sched = [] → ∃ t, exec (.stepMarkPulse x) s = .next t
          ∧ t.mrd = { s.mrd with step := b, seen := true, lastBoundary := s.mrd.wall, lateDone := false, drops := (dropRelays s b).mrd.drops } ∧ bitOf (t.page 0x04).cause 0 = true)
    ∧ (inReset s = false → domLive s 1 = true → s.clkr.secLock = false → s.mrd.mode = .followMark →
        exec (.stepMarkPulse x) s = .next { s with mrd := { s.mrd with pendingStep := some ((s.mrd.pendingStep.getD s.mrd.step + 1) % 2 ^ 48), pendingRelay := none, drops := if s.mrd.pendingRelay.isSome = true then s.mrd.drops + 1 else s.mrd.drops } })
    ∧ (mrdRuns s = false ∨ (s.mrd.running = none ∧ s.mrd.pendingStep = none) → exec (.pendingBoundary x) s = .next s)
    ∧ (∀ y, mrdRuns s = true → s.mrd.running = none → s.mrd.pendingStep = some y → y ≤ s.mrd.step →
        exec (.pendingBoundary x) s = .next { s with mrd := { s.mrd with pendingStep := none, pendingRelay := none, drops := if s.mrd.pendingRelay.isSome = true then s.mrd.drops + 1 else s.mrd.drops } })
    ∧ (∀ y, mrdRuns s = true → s.mrd.sched = [] → s.mrd.pendingStep = some y → s.mrd.step < y → ∃ t, exec (.pendingBoundary x) s = .next t
        ∧ t.mrd = { s.mrd with
            step := y, seen := true, running := none, pendingStep := none, pendingRelay := none, lastBoundary := s.mrd.wall, lateDone := false
            jumps := if s.mrd.step + 1 < y then s.mrd.jumps + 1 else s.mrd.jumps
            drops := (dropRelays s y).mrd.drops + (if s.mrd.pendingRelay.isSome = true ∧ s.mrd.mode = .master then 1 else 0) }
        ∧ bitOf (t.page 0x04).cause 0 = true))

/-- `MRD_STEP_SET` (R287), schedule writes (R295, R216), both held while a boundary runs (R292), the timeout (R299) and the floor (R361). -/
def Obligations.StepsAndSchedulesAreSet : Prop :=
  ∀ (s : State) (a : Access) (v : Word),
    (WriteReaches s a 0x04 0x60 → fld v 63 48 = 0 →
      (s.mrd.running = none → anyAdmitted s = false → (∀ e ∈ s.mrd.sched, e.2.valid = false) →
        exec (.mrdStepSet a v) s = .next { answer s 0 with
          mrd := { s.mrd with step := fld v 47 0, seen := false, drops := (dropRelays s (fld v 47 0)).mrd.drops }, lark := { (dropRelays s (fld v 47 0)).lark with fabSeq := [], fabStep := fld v 47 0 }
          grp := { s.grp with lists := tmap [] (fun _ l => l.map (placeEntry (fld v 47 0) s.mrd.wall)) s.grp.lists }, park := { s.park with abortsUnsent := s.park.abortsUnsent + BitVec.ofNat 64 s.park.holdQ.length, holdQ := [] } })
      ∧ (s.mrd.running = none → stepSetRefused s = true → ∃ t, exec (.mrdStepSet a v) s = .next t
        ∧ t = { s with bus := t.bus } ∧ t.bus.resp = { refused := true, stat := 0x0301, rdata := 0 })
      ∧ (s.mrd.running.isSome = true → exec (.mrdStepSet a v) s = .next { answer s 0 with mrd := { s.mrd with heldCmds := s.mrd.heldCmds ++ [.stepSet a v] } }))
    ∧ (∀ i : BitVec 6, WriteReaches s a 0x05 (0x100 + 16 * i.toNat) →
      (s.mrd.running = none → schedLocked s i.toNat = false → schedBad s i.toNat v = false → ∃ t, exec (.scheduleEntryWrite a i v) s = .next t
        ∧ t = { answer s 0 with mrd := { s.mrd with sched := t.mrd.sched }, grp := { s.grp with frozen := (pendingSwap t).isSome } }
        ∧ t.schedOf i.toNat = (if fld v 15 12 = 0 then { w1 := (s.schedOf i.toNat).w1 } else
            { step := fld v 63 16, typ := fld v 15 12, valid := true, fired := false, part := fld v 9 5, fabric := bitOf v 4, arg := fld (s.schedOf i.toNat).w1 63 48, period := fld (s.schedOf i.toNat).w1 47 28, w1 := (s.schedOf i.toNat).w1, phases := 0 })
        ∧ ∀ j, j ≠ i.toNat → t.schedOf j = s.schedOf j)
      ∧ (s.mrd.running = none → schedLocked s i.toNat = true → ∃ t, exec (.scheduleEntryWrite a i v) s = .next t
        ∧ t = { s with bus := t.bus } ∧ t.bus.resp = { refused := true, stat := 0x0301, rdata := 0 })
      ∧ (s.mrd.running = none → schedLocked s i.toNat = false → schedBad s i.toNat v = true → ∃ t, exec (.scheduleEntryWrite a i v) s = .next t
        ∧ t = { s with bus := t.bus } ∧ t.bus.resp = { refused := true, stat := 0x0101, rdata := 0 })
      ∧ (s.mrd.running.isSome = true → exec (.scheduleEntryWrite a i v) s = .next { answer s 0 with mrd := { s.mrd with heldCmds := s.mrd.heldCmds ++ [.sched a i.toNat false v] } }))
    ∧ (∀ us w, w = (s.mrd.wall + us) % 2 ^ 64 →
      (secRuns s = true → s.mrd.timeout ≠ 0 → s.mrd.lateDone = false → s.mrd.lastBoundary + s.mrd.timeout ≤ w → ∃ t, exec (.stepTimeout us) s = .next t
        ∧ t = { s with mrd := { s.mrd with wall := w, lateDone := true }, bus := { s.bus with pages := t.bus.pages } } ∧ bitOf (t.page 0x04).cause 2 = true
        ∧ ∀ p, p ≠ 0x04 → t.page p = s.page p)
      ∧ (secRuns s = false → exec (.remaskFloor us) s = .next { s with mrd := { s.mrd with wall := w } })
      ∧ (secRuns s = false ∨ s.mrd.timeout = 0 ∨ s.mrd.lateDone = true ∨ w < s.mrd.lastBoundary + s.mrd.timeout → exec (.stepTimeout us) s = .next { s with mrd := { s.mrd with wall := w } })
      ∧ (secRuns s = true → tableWf {} s.chrt.slots = true → (tget {} s.hashu.drbgs 34 : Drbg).st = 1 → s.hashu.failed = false → (∀ i, slotSound s i = true) → ∃ t, exec (.remaskFloor us) s = .next t
        ∧ t = { s with mrd := { s.mrd with wall := w }, chrt := { s.chrt with slots := t.chrt.slots, remasks := t.chrt.remasks }, hashu := t.hashu, free := t.free }
        ∧ ∀ i, (t.slot i).key ^^^ (t.slot i).mask = (s.slot i).key ^^^ (s.slot i).mask
          ∧ t.slot i = { s.slot i with ecc := (t.slot i).ecc, key := (t.slot i).key, mask := (t.slot i).mask, remaskAt := (t.slot i).remaskAt }
          ∧ (t.slot i).remaskAt = (if (s.slot i).st ≠ .empty ∧ (s.slot i).bad = false ∧ checkedClass s (atClass (s.slot i).attr) = false ∧ (s.slot i).remaskAt + 1000 * s.chrt.floorMs ≤ w
              then w else (s.slot i).remaskAt)))

/-- The commands of `CHRT_CMD` (R371 to R375, Table 12.7), with log 146. -/
def Obligations.KeyCommandsAct : Prop :=
  ∀ (s : State) (a : Access) (v : Word) (pkg policy : Option Bytes), WriteReaches s a 0x0A 0x40 → fld v 59 0 = 0 →
    (s.chrt.deleting.isSome = true → ∀ c ∈ [Instr.chrtImport a v pkg policy, .chrtConfirm a v, .chrtCommit a v, .chrtDiscard a v, .chrtDelete a v, .chrtGenerate a v],
      ∃ t, exec c s = .next t ∧ t = { s with bus := t.bus } ∧ t.bus.resp = { refused := true, stat := 0x0301, rdata := 0 })
    ∧ (s.chrt.deleting = none →
      (∀ b n u m, m = bitOf s.chrt.cmdAddr 53 →
        helmRead (if m then inMgmtWindows s (fld s.chrt.cmdAddr 47 0) 9296 false else inRegions s (fld s.chrt.cmdAddr 52 48) (fld s.chrt.cmdAddr 47 0) 6544 false) pkg (if m then 9296 else 6544) = .ok b →
        ((packageOf b).cls = 3 ↔ m = true) →
        (importStages (answer s 0) b policy = .ok (n, u) → ∃ t sh seed key, exec (.chrtImport a v pkg policy) s = .next t
          ∧ slotKey s (seedSlot (packageOf b)) = some seed ∧ unwrapKey seed b = some key ∧ (s.slot sh).st = .empty
          ∧ (t.slot sh).st = .shadow ∧ (t.slot sh).attr = packageAttr (packageOf b) ∧ (t.slot sh).key ^^^ (t.slot sh).mask = key
          ∧ (∀ i, i ≠ sh → i ≠ n → t.slot i = s.slot i) ∧ tget 0 t.chrt.seqs (seqIndex (packageOf b)) = (packageOf b).seq
          ∧ t.chrt.status = 0 ∧ t.chrt.resSlot = n ∧ bitOf (t.page 0x0A).cause 0 = true
          ∧ t = { s with bus := t.bus, chrt := t.chrt, hashu := t.hashu, helm := { s.helm with copyFault := t.helm.copyFault }, pwr := t.pwr, astr := t.astr, free := t.free })
        ∧ (∀ k st, importStages (answer s 0) b policy = .error (k, st) → ∃ t, exec (.chrtImport a v pkg policy) s = .next t
          ∧ t = { s with bus := t.bus, chrt := { (if k = 9 then noteBad s (seedSlot (packageOf b)) else s).chrt with status := stCode st, stage := k, resSlot := argSlot s }, hashu := t.hashu, helm := { s.helm with copyFault := t.helm.copyFault }, pwr := t.pwr, astr := t.astr, free := t.free }
          ∧ (k < 8 → t.hashu = s.hashu ∧ t.helm = s.helm ∧ t.pwr = s.pwr ∧ t.astr = s.astr ∧ t.free = s.free) ∧ bitOf (t.page 0x0A).cause 0 = true))
      ∧ (∀ i, shadowOf s (argSlot s) = some i → (s.slot i).bad = false → slotSound s i = true →
        ((s.slot i).st = .shadow → ∃ t, exec (.chrtConfirm a v) s = .next t
          ∧ t = { s with bus := t.bus, chrt := { s.chrt with slots := t.chrt.slots, confirm := t.chrt.confirm, status := 0, stage := 0, resSlot := argSlot s } }
          ∧ t.slot i = { s.slot i with st := .confirmed } ∧ (∀ j, j ≠ i → t.slot j = s.slot j) ∧ bitOf (t.page 0x0A).cause 0 = true)
        ∧ ((s.slot i).st = .confirmed → atClass (s.slot i).attr ≠ 5 → (s.slot (argSlot s)).bad = false → (s.slot (argSlot s)).st = .empty ∨ slotSound s (argSlot s) = true → ∃ t, exec (.chrtCommit a v) s = .next t
          ∧ t = { s with bus := t.bus, lark := t.lark, chrt := { s.chrt with slots := t.chrt.slots, cache := t.chrt.cache, status := 0, stage := 0, resSlot := argSlot s } }
          ∧ t.slot (argSlot s) = { s.slot i with st := .active, partner := none } ∧ (i ≠ argSlot s → t.slot i = {})
          ∧ (∀ j, j ≠ i → j ≠ argSlot s → t.slot j = s.slot j)))
      ∧ (∀ i, shadowOf s (argSlot s) = some i → (s.slot i).bad = true → ∃ t, exec (.chrtDiscard a v) s = .next t
          ∧ t = { s with bus := t.bus, chrt := { s.chrt with status := stCode .tagFail, stage := 0, resSlot := argSlot s } } ∧ bitOf (t.page 0x0A).cause 0 = true)
      ∧ (∀ i, shadowOf s (argSlot s) = some i → (s.slot i).bad = false → ∃ t, exec (.chrtDiscard a v) s = .next t
          ∧ t = { s with bus := t.bus, lark := t.lark, chrt := { s.chrt with slots := t.chrt.slots, cache := t.chrt.cache, status := 0, stage := 0, resSlot := argSlot s } }
          ∧ t.slot i = {} ∧ (∀ j, j ≠ i → j ≠ argSlot s → t.slot j = s.slot j))
      ∧ (shadowOf s (argSlot s) = none → ∀ c ∈ [Instr.chrtConfirm a v, .chrtCommit a v, .chrtDiscard a v], ∃ t, exec c s = .next t
          ∧ t = { s with bus := t.bus, chrt := { s.chrt with status := 0x0301, stage := 0, resSlot := argSlot s } } ∧ t.bus.resp = { refused := true, stat := 0x0301, rdata := 0 })
      ∧ ((s.slot (argSlot s)).st ≠ .empty → 160 ≤ argSlot s →
        (slotBusy s (argSlot s) = true → exec (.chrtDelete a v) s = .next { answer s 0 with chrt := { s.chrt with deleting := some (argSlot s) } })
        ∧ (slotBusy s (argSlot s) = false → (s.slot (argSlot s)).partner = none → ∃ t, exec (.chrtDelete a v) s = .next t
          ∧ t = { s with bus := t.bus, lark := t.lark, chrt := { s.chrt with slots := t.chrt.slots, cache := t.chrt.cache, status := 0, stage := 0, resSlot := argSlot s } }
          ∧ t.slot (argSlot s) = {} ∧ (∀ j, j ≠ argSlot s → t.slot j = s.slot j)
          ∧ ∀ k ∈ t.chrt.cache, k.slot ≠ argSlot s))
      ∧ (argAny s = false → 12 ≤ argSlot s → argSlot s ≤ 31 → (s.slot (argSlot s)).st = .empty → atBlock s.chrt.genAttr = true →
        atClass s.chrt.genAttr = 8 ∨ atClass s.chrt.genAttr = 9 → atMask s.chrt.genAttr = 0 → bitOf s.chrt.genAttr 1 = false → atOwner s.chrt.genAttr = 0 → atPart s.chrt.genAttr = 0 →
        s.life.st = 1 ∨ s.life.st = 2 ∨ s.life.st = 3 → drbgServes s 0 = true → canPut s (atClass s.chrt.genAttr) = true → usageAllowed (atClass s.chrt.genAttr) (fld s.chrt.genAttr 51 47) = true → ∃ t, exec (.chrtGenerate a v) s = .next t
          ∧ t = { s with bus := t.bus, chrt := { s.chrt with slots := t.chrt.slots, status := 0, stage := 0, resSlot := argSlot s }, hashu := t.hashu, free := t.free }
          ∧ (t.slot (argSlot s)).st = .active ∧ (t.slot (argSlot s)).attr = s.chrt.genAttr
          ∧ (t.slot (argSlot s)).key ^^^ (t.slot (argSlot s)).mask = BitVec.ofNat 256 (Config.freeNat s.free) ∧ ∀ j, j ≠ argSlot s → t.slot j = s.slot j))

/-- `DELIVER` and the key delivery port's answers (R378, R379, R522, R523), with log 149. -/
def Obligations.KeysAreDelivered : Prop :=
  ∀ (s : State),
    (∀ (a : Access) (v : Word), WriteReaches s a 0x0A 0x40 → fld v 59 0 = 0 →
      (s.chrt.delivery.isSome = true → ∃ t, exec (.chrtDeliver a v) s = .next t ∧ t = { s with bus := t.bus } ∧ t.bus.resp = { refused := true, stat := 0x0301, rdata := 0 })
      ∧ (s.chrt.delivery = none → s.chrt.deleting = none → (s.slot (argSlot s)).st = .active → (s.slot (argSlot s)).bad = false → slotSound s (argSlot s) = true →
        (atBank (s.slot (argSlot s)).attr = argDest s / 8 → (atDests (s.slot (argSlot s)).attr).testBit (argDest s % 8) = true →
          bitOf (destEntry s (argDest s)) 47 = true → fld (destEntry s (argDest s)) 43 32 ≠ 0 → (fld (destEntry s (argDest s)) 63 48).testBit (atClass (s.slot (argSlot s)).attr) = true →
          atBlock (s.slot (argSlot s)).attr = true ∨ bitOf (destEntry s (argDest s)) 46 = true →
          exec (.chrtDeliver a v) s = .next { answer s 0 with chrt := { s.chrt with slots := (noteBad s (argSlot s)).chrt.slots, delivery := some { acc := a, slot := argSlot s, dest := argDest s, sent := false } } })
        ∧ (atBank (s.slot (argSlot s)).attr ≠ argDest s / 8 ∨ (atDests (s.slot (argSlot s)).attr).testBit (argDest s % 8) = false →
          ∃ t, exec (.chrtDeliver a v) s = .next t ∧ t = { s with bus := t.bus, chrt := { s.chrt with status := 0x0402, stage := 0, resSlot := argSlot s, kdStatus := 0x0402, kdDest := argDest s, kdSlot := argSlot s } }
            ∧ bitOf (t.page 0x0B).cause 1 = true)))
    ∧ (∀ (d : Delivery) (cycle : Nat), s.chrt.delivery = some d → d.sent = true → s.chrt.deleting = none → secRuns s = true →
      (4 ≤ cycle → cycle < ackLimit s d →
        (∃ t, exec (.kdpAnswer true false (BitVec.ofNat 6 d.dest) cycle) s = .next t ∧ (d.dest < 64 →
          t = { s with bus := { s.bus with pages := t.bus.pages }, chrt := { s.chrt with deliveries := s.chrt.deliveries + 1, delivery := none, kdStatus := 0, kdDest := d.dest, kdSlot := d.slot, status := 0, stage := 0, resSlot := d.slot } }
          ∧ bitOf (t.page 0x0B).cause 0 = true))
        ∧ (∀ ack, ∃ t, exec (.kdpAnswer ack true (BitVec.ofNat 6 d.dest) cycle) s = .next t ∧ (d.dest < 64 →
          t = { s with bus := { s.bus with pages := t.bus.pages }, chrt := { s.chrt with delivery := none, kdStatus := 0x0402, kdDest := d.dest, kdSlot := d.slot, status := 0x0402, stage := 0, resSlot := d.slot } }
          ∧ bitOf (t.page 0x0B).cause 1 = true))
        ∧ exec (.kdpAckTimeout cycle) s = .next s)
      ∧ (ackLimit s d ≤ cycle → ∃ t, exec (.kdpAckTimeout cycle) s = .next t
        ∧ t = { s with
            bus := { s.bus with pages := t.bus.pages }, pins := { s.pins with kdpCancel := true, kdpCdest := d.dest }
            chrt := { s.chrt with delivery := none, kdStatus := 0x0503, kdDest := d.dest, kdSlot := d.slot, status := 0x0503, stage := 0, resSlot := d.slot } }
        ∧ bitOf (t.page 0x0B).cause 1 = true))
    ∧ (∀ ack nack (dest : BitVec 6) cycle,
      (secRuns s = false ∨ s.chrt.delivery = none ∨ (∃ d, s.chrt.delivery = some d ∧ (d.sent = false ∨ dest.toNat ≠ d.dest ∨ cycle < 4 ∨ ackLimit s d ≤ cycle)) →
        exec (.kdpAnswer ack nack dest cycle) s = .next s)
      ∧ (secRuns s = false ∨ s.chrt.delivery = none → exec (.kdpAckTimeout cycle) s = .next s))

/-- Pages 0x0C and 0x0D but for `ASTR_CMD` (R388 to R392). -/
def Obligations.AstrolabeIsLoadedAndFed : Prop :=
  ∀ (s : State) (a : Access) (v : Word) (i : Nat) (d : AstrSlot), i = s.astr.slotSel → d = s.astrSlot i →
    (WriteReaches s a 0x0C 0x50 →
      (s.astr.st = .loading → exec (.astrCsDataWrite a v) s = .next { answer s 0 with astr := { s.astr with cs := tset 0 s.astr.cs s.astr.csAddr v, csAddr := (s.astr.csAddr + 1) % 4096 } })
      ∧ (s.astr.st ≠ .loading → ∃ t, exec (.astrCsDataWrite a v) s = .next t ∧ t = { s with bus := t.bus } ∧ t.bus.resp = { refused := true, stat := 0x0301, rdata := 0 }))
    ∧ (WriteReaches s a 0x0C 0x58 → s.astr.st = .loading → fld v 63 32 = 0 →
      (crc32c (astrCsBytes s.astr.cs) = fld v 31 0 → exec (.astrCsCommit a v) s = .next { answer s 0 with astr := { s.astr with st := .ready, csVersion := fld (tget 0 s.astr.cs 0) 15 0 } })
      ∧ (crc32c (astrCsBytes s.astr.cs) ≠ fld v 31 0 → ∃ t, exec (.astrCsCommit a v) s = .next t ∧ t = { s with bus := t.bus } ∧ bitOf (t.page 0x0C).cause 2 = true))
    ∧ (WriteReaches s a 0x0D 0x48 →
      (d.key = false → d.secret = false → d.sealed = false → slotNamed s i = false → fld v 51 44 ≤ 128 → fld v 63 52 + fld v 51 44 ≤ 4096 →
        (∀ j, j < 256 → j ≠ i → 1 ≤ fld v 51 44 → 1 ≤ (s.astrSlot j).len → fld v 63 52 + fld v 51 44 ≤ (s.astrSlot j).base ∨ (s.astrSlot j).base + (s.astrSlot j).len ≤ fld v 63 52) →
        ∃ t, exec (.astrSlotDescWrite a v) s = .next t ∧ t = { answer s 0 with astr := { s.astr with slots := t.astr.slots, mem := t.astr.mem } }
          ∧ t.astrSlot i = { base := fld v 63 52, len := fld v 51 44 } ∧ (∀ j, j ≠ i → t.astrSlot j = s.astrSlot j)
          ∧ ∀ k, tget 0 t.astr.mem k = (if (d.base ≤ k ∧ k < d.base + d.len) ∨ (fld v 63 52 ≤ k ∧ k < fld v 63 52 + fld v 51 44) then 0 else tget 0 s.astr.mem k))
      ∧ (d.key = true ∨ d.secret = true ∨ d.sealed = true ∨ slotNamed s i = true → ∃ t, exec (.astrSlotDescWrite a v) s = .next t
          ∧ t = { s with bus := t.bus } ∧ t.bus.resp = { refused := true, stat := 0x0301, rdata := 0 }))
    ∧ (d.key = false → d.secret = false → d.sealed = false → slotNamed s i = false → s.astr.dataAddr < d.len →
      (WriteReaches s a 0x0D 0x58 → exec (.astrDataAccess a true v) s = .next { answer s 0 with
        astr := { s.astr with mem := tset 0 s.astr.mem (d.base + s.astr.dataAddr) v, dataAddr := if d.len ≤ s.astr.dataAddr + 1 then 0 else s.astr.dataAddr + 1 } })
      ∧ (ReadReaches s a 0x0D 0x58 → exec (.astrDataAccess a false v) s = .next { answer s (tget 0 s.astr.mem (d.base + s.astr.dataAddr)) with
        astr := { s.astr with dataAddr := if d.len ≤ s.astr.dataAddr + 1 then 0 else s.astr.dataAddr + 1 } }))
    ∧ (d.key = true ∨ d.secret = true ∨ d.sealed = true → ReadReaches s a 0x0D 0x58 → ∃ t, exec (.astrDataAccess a false v) s = .next t
        ∧ t = { s with bus := t.bus } ∧ t.bus.resp = { refused := true, stat := 0x0301, rdata := 0 })
    ∧ (WriteReaches s a 0x0D 0x60 → slotNamed s i = false →
      (v = 0 → exec (.astrZero a v) s = .next (answer s 0))
      ∧ (v = 1 → ∃ t, exec (.astrZero a v) s = .next t ∧ t = { answer s 0 with astr := { s.astr with slots := t.astr.slots, mem := t.astr.mem } }
          ∧ t.astrSlot i = { base := d.base, len := d.len } ∧ (∀ j, j ≠ i → t.astrSlot j = s.astrSlot j)
          ∧ ∀ k, tget 0 t.astr.mem k = (if d.base ≤ k ∧ k < d.base + d.len then 0 else tget 0 s.astr.mem k)))

/-- `ASTR_CMD` and the end of an operation (R394, R395, R399, R404, R405, Table 13.5). -/
def Obligations.AstrolabeRunsAndEnds : Prop :=
  ∀ (s : State),
    (∀ (a : Access) (v : Word), WriteReaches s a 0x0C 0x60 → fld v 51 0 = 0 →
      (runRefusal s (argsOf (fld v 59 52) s.astr.arg0 s.astr.arg1) = none → ∃ t, exec (.astrRun a v) s = .next t
        ∧ t = { answer s 0 with
            astr := { s.astr with st := .running, prog := fld v 59 52, run0 := s.astr.arg0, run1 := s.astr.arg1, acc := a, draws := t.astr.draws }
            hashu := t.hashu, free := t.free }
        ∧ t.astr.draws.length = programDraws (fld v 59 52) (bitOf s.astr.arg1 45)
        ∧ (programDraws (fld v 59 52) (bitOf s.astr.arg1 45) = 0 → t.hashu = s.hashu ∧ t.free = s.free))
      ∧ (∀ st, runRefusal s (argsOf (fld v 59 52) s.astr.arg0 s.astr.arg1) = some st → ∃ t, exec (.astrRun a v) s = .next t
        ∧ t = { s with bus := t.bus, astr := { s.astr with status := stCode st, resProg := fld v 59 52, attempts := 0 } } ∧ t.bus.resp = { refused := true, stat := stCode st, rdata := 0 }))
    ∧ (∀ (a : Access) (v : Word), WriteReaches s a 0x0C 0x60 → fld v 51 0 ≠ 0 → runRefusal s (argsOf (fld v 59 52) s.astr.arg0 s.astr.arg1) = none →
      ∃ t, exec (.astrRun a v) s = .next t
        ∧ t = { s with bus := t.bus, astr := { s.astr with status := 0x0101, resProg := fld v 59 52, attempts := 0 } } ∧ t.bus.resp = { refused := true, stat := 0x0101, rdata := 0 })
    ∧ (∀ (a : Access) (v : Word), WriteReaches s a 0x0C 0x60 → fld v 51 0 = 0 →
      (s.astr.st = .running → ∃ t, exec (.astrAbort a v) s = .next (zinResume t)
        ∧ t = { s with bus := t.bus, astr := t.astr, free := t.free } ∧ t.astr.st = .ready ∧ t.astr.status = 0x0504 ∧ t.astr.ops = s.astr.ops + 1
        ∧ (∀ i ∈ namedSlots s.astr.run0, (t.astrSlot i).key = false ∧ (t.astrSlot i).secret = false ∧ (t.astrSlot i).owner = none ∧ ∀ w ∈ slotWords t i, w = 0)
        ∧ (∀ i, i ∉ namedSlots s.astr.run0 → t.astrSlot i = s.astrSlot i) ∧ bitOf (t.page 0x0C).cause 0 = true)
      ∧ (s.astr.st ≠ .running → ∃ t, exec (.astrAbort a v) s = .next t
        ∧ t = { s with bus := t.bus, astr := { s.astr with status := 0x0301, resProg := fld v 59 52, attempts := 0 } } ∧ t.bus.resp = { refused := true, stat := 0x0301, rdata := 0 }))
    ∧ (∀ how, arithRuns s = false ∨ (s.astr.st ≠ .running ∧ s.zin.waiting = none) → exec (.astrOpEnd how) s = .next s)
    ∧ (∀ (g : Args) (y : Given) (taken : List (BitVec 8)), s.astr.st = .running → arithRuns s = true → g = argsOf s.astr.prog s.astr.run0 s.astr.run1 → y = runProgram s g →
      ∃ t, exec (.astrOpEnd (.sound taken)) s = .next (zinResume t)
        ∧ t = { s with bus := { s.bus with pages := t.bus.pages }, astr := t.astr, hashu := t.hashu, free := t.free }
        ∧ t.astr.st = .ready ∧ t.astr.status = stCode y.st ∧ t.astr.resProg = g.prog ∧ t.astr.attempts = y.attempts ∧ t.astr.ops = s.astr.ops + 1
        ∧ t.astr.rejects = (if y.st = .inputRejected then s.astr.rejects + 1 else s.astr.rejects)
        ∧ (∀ k, 4096 ≤ k → k < 8192 → tget 0 t.astr.mem k = 0) ∧ bitOf (t.page 0x0C).cause 0 = true
        ∧ (∀ i ∈ namedSlots s.astr.run0, (s.astrSlot i).key = true → (t.astrSlot i).key = false ∧ (t.astrSlot i).owner = none)
        ∧ ∀ i ∈ taken, (t.astrSlot i.toNat).secret = true → (t.astrSlot i.toNat).owner ≠ some g.owner)
    ∧ (∀ (g : Args) (r : Nat) (x y m : Nat), s.astr.st = .running → arithRuns s = true → g = argsOf s.astr.prog s.astr.run0 s.astr.run1 → g.prog = 1 → opndOf g.w0 4 = { slot := r, cnt := 1, used := true } →
      (s.astrSlot r).base + (s.astrSlot r).len ≤ 4096 → g.words ≤ (s.astrSlot r).len → (∀ i ∈ namedSlots g.w0, (s.astrSlot i).key = false) →
      x = wordsNum (opndWords s (opndOf g.w0 0)) g.words → y = wordsNum (opndWords s (opndOf g.w0 1)) g.words → m = wordsNum (opndWords s (opndOf g.w0 2)) g.words →
      m % 2 = 1 → 2 ^ (64 * (g.words - 1)) ≤ m → 0 < x → x < m →
      ∃ t, exec (.astrOpEnd (.sound [])) s = .next (zinResume t) ∧ t.astr.status = 0 ∧ wordsNum (opndWords t (opndOf g.w0 4)) g.words = x * y % m)

/-- The noise source (R383, R384, R386). -/
def Obligations.NoiseBlocksSeedTheUnit : Prop :=
  ∀ (s : State) (l : List Bool), s.helm.boot = none →
    (secRuns s = false ∨ domLive s 4 = false ∨ s.hashu.failed = true ∨ l.length ≠ 1024 → exec (.noiseSampleBlock l) s = .next s)
    ∧ (secRuns s = true → domLive s 4 = true → s.hashu.failed = false → l.length = 1024 →
      ((rctFold l s.hashu.rctLast s.hashu.rctRun false).2.2 = false → aptFails l = false → ∃ t, exec (.noiseSampleBlock l) s = .next t
        ∧ t = { s with hashu := t.hashu }
        ∧ t.hashu = { s.hashu with
            rctLast := (rctFold l s.hashu.rctLast s.hashu.rctRun false).1, rctRun := (rctFold l s.hashu.rctLast s.hashu.rctRun false).2.1
            run := 0, seed := t.hashu.seed, ready := true, drbgs := t.hashu.drbgs }
        ∧ (s.hashu.ready = true → t.hashu.drbgs = s.hashu.drbgs)
        ∧ (s.hashu.ready = false → drbgServes t 0 = true ∧ drbgServes t 34 = true ∧ ∀ i, i ≠ 0 → i ≠ 34 → tget {} t.hashu.drbgs i = (tget {} s.hashu.drbgs i : Drbg)))
      ∧ ((rctFold l s.hashu.rctLast s.hashu.rctRun false).2.2 = true ∨ aptFails l = true → ∃ t, exec (.noiseSampleBlock l) s = .next t
        ∧ t = { s with hashu := t.hashu, bus := { s.bus with pages := t.bus.pages } }
        ∧ t.hashu = { s.hashu with
            rctLast := (rctFold l s.hashu.rctLast s.hashu.rctRun false).1, rctRun := (rctFold l s.hashu.rctLast s.hashu.rctRun false).2.1
            run := satInc 7 s.hashu.run, fails := s.hashu.fails + 1, failed := decide (4 ≤ satInc 7 s.hashu.run) }
        ∧ bitOf (t.page 0x0E).cause 0 = true ∧ (4 ≤ satInc 7 s.hashu.run → bitOf (t.page 0x0E).cause 1 = true)))

/-- `LOGB_CMD` (R431 to R439, Tables 14.4 and 14.7; the order of R542). `MARGIN_SCAN` ending at once, with one set of reads, is log 87, the
model's choice. -/
def Obligations.LogbookCommandsStartTheirPrograms : Prop :=
  ∀ (s : State) (a : Access) (v : Word) (r i : Nat), WriteReaches s a 0x10 0x50 → fld v 59 0 = 0 → r = lgRegion s → i = lgWord s →
    (s.logb.running.isSome = true → ∀ c ∈ [Instr.logbProgram a v, .logbReinforce a v, .lockWrite a v, .lockRead a v, .marginScan a v],
      ∃ t, exec c s = .next t ∧ t = { s with bus := t.bus } ∧ t.bus.resp = { refused := true, stat := 0x0301, rdata := 0 })
    ∧ (s.logb.running.isSome = true → a.src = .helm → ∀ c ∈ [Instr.advance a v, .logbRevoke a v, .genDus a v],
      ∃ t, exec c s = .next t ∧ t = { s with bus := t.bus } ∧ t.bus.resp = { refused := true, stat := 0x0301, rdata := 0 })
    ∧ (a.src ≠ .helm → ∀ c ∈ [Instr.advance a v, .logbRevoke a v, .genDus a v],
      ∃ t, exec c s = .next t ∧ t = { s with bus := t.bus } ∧ t.bus.resp = { refused := true, stat := 0x0401, rdata := 0 })
    ∧ (s.logb.running = none →
      (∀ c op ps ws, (c, op, ps, ws) ∈ [(Instr.logbProgram a v, 1, wordPulses r i (codeword s.logb.data.toNat), [(r, i)]),
          (.logbReinforce a v, 2, wordPulses r i (rawValue s.logb.sensed r i), [(r, i)]), (.lockWrite a v, 3, lockPulses false r, []), (.lockRead a v, 4, lockPulses true r, [])] →
        s.logb.vpp = true →
        (op = 1 → programState s r = true ∧ wLocked s r = false ∧ i < regLen r ∧ kindOf r i ≠ .event ∧ kindOf r i ≠ .tally ∧ programAllowed s r i s.logb.data.toNat = true) →
        (op = 2 → (s.life.st = 1 ∨ s.life.st = 2) ∧ i < regLen r) →
        (op = 3 → r ≠ 15 ∧ lockState s r = true ∧ lockWriteOk s r = true) →
        (op = 4 → (r = 2 ∨ r = 10 ∨ r = 11) ∧ lockState s r = true ∧ wLocked s r = true) →
        exec c s = .next (startProg (answer s 0) a op ps ws))
      ∧ (∀ c op st, (c, op) ∈ [(Instr.logbProgram a v, 1), (.logbReinforce a v, 2), (.lockWrite a v, 3), (.lockRead a v, 4)] →
        (op = 1 ∧ wLocked s r = true ∧ r ≠ 2 ∧ kindOf r i ≠ .event ∧ kindOf r i ≠ .tally ∧ st = Status.wrongState)
          ∨ (op = 2 ∧ (s.life.st = 1 ∨ s.life.st = 2) ∧ s.logb.vpp = true ∧ regLen r ≤ i ∧ st = .bounds)
          ∨ (op = 3 ∧ r ≠ 15 ∧ lockState s r = true ∧ s.logb.vpp = true ∧ lockWriteOk s r = false ∧ st = .lockRefused)
          ∨ (op = 4 ∧ lockState s r = true ∧ s.logb.vpp = true ∧ wLocked s r = true ∧ r ≠ 2 ∧ r ≠ 10 ∧ r ≠ 11 ∧ st = .badArg)
          ∨ (op = 2 ∧ s.life.st ≠ 1 ∧ s.life.st ≠ 2 ∧ st = .wrongState) ∨ ((op = 3 ∨ op = 4) ∧ lockState s r = false ∧ st = .wrongState)
          ∨ (s.logb.vpp = false ∧ st = .wrongState) →
        ∃ t, exec c s = .next t ∧ t = { s with bus := t.bus, logb := { s.logb with status := stCode st, op := op, pulses := 0 } }
          ∧ bitOf (t.page 0x10).cause 0 = true)
      ∧ (a.src = .helm → (s.life.st = 1 ∨ s.life.st = 2 ∨ s.life.st = 3) → s.logb.vpp = true →
        (lgTarget s ≤ 256 → counter s (lgCounter s) < lgTarget s →
          exec (.advance a v) s = .next (startProg (answer s 0) a 5 (advancePulses s (lgCounter s) (lgTarget s)) (advanceWords (lgCounter s) (lgTarget s))))
        ∧ (lgTarget s ≤ counter s (lgCounter s) → lgTarget s ≤ 256 → ∃ t, exec (.advance a v) s = .next t
          ∧ t = { s with bus := t.bus, logb := { s.logb with status := 0, op := 5, pulses := 0 } })
        ∧ (256 < lgTarget s → ∃ t, exec (.advance a v) s = .next t
          ∧ t = { s with bus := t.bus, logb := { s.logb with status := 0x0101, op := 5, pulses := 0 } })
        ∧ exec (.logbRevoke a v) s = .next (startProg (answer s 0) a 6 (tallyBit s 4 (lgBit s / 8) (lgBit s % 8)) [(4, lgBit s / 8)])
        ∧ (s.life.st = 1 → drbgServes s 0 = true → (∀ w < regLen 2, ∀ p ∈ copiesOf 2 w, (senseAt s.logb.spread (tget {} s.logb.array p)).loose = 0) →
          ∃ t n p, exec (.genDus a v) s = .next t ∧ n < 2 ^ 256
            ∧ t = { s with bus := t.bus, free := t.free, hashu := t.hashu, logb := { s.logb with running := some p } }
            ∧ p.kind = .cmd 7 ∧ p.acc = a
            ∧ p.pulses = ((List.range 4).map (fun j => wordPulses 2 j (codeword (n / 2 ^ (64 * j) % 2 ^ 64)))).flatten
                ++ wordPulses 2 (regLen 2 - 1) (codeword (regionDigest (withSecret s.logb.sensed n) 2)) ++ lockPulses false 2 ++ lockPulses true 2
            ∧ p.words = (List.range 4).map (fun j => (2, j)) ++ [(2, regLen 2 - 1)]))
      ∧ (a.src = .helm → s.logb.vpp = false ∨ (s.life.st ≠ 1 ∧ s.life.st ≠ 2 ∧ s.life.st ≠ 3) → ∀ c ∈ [(Instr.advance a v, 5), (.logbRevoke a v, 6), (.genDus a v, 7)],
        ∃ t, exec c.1 s = .next t ∧ t = { s with bus := t.bus, logb := { s.logb with status := 0x0301, op := c.2, pulses := 0 } } ∧ bitOf (t.page 0x10).cause 0 = true)
      ∧ (∃ t, exec (.marginScan a v) s = .next t
          ∧ t = { s with bus := t.bus, logb := { s.logb with
              seen := senseAll s.logb.spread s.logb.array, corrected := bump s.logb.corrected (correctedCount (senseAll s.logb.spread s.logb.array)), status := 0, op := 8, pulses := 0 } }
          ∧ bitOf (t.page 0x10).cause 0 = true))

/-- `LOGB_CMD_DONE` (R433, R419; R447 steps 6 and 7). -/
def Obligations.ProgramsEndWithTheirFinalRead : Prop :=
  ∀ (s : State) (out : ProgOut), s.helm.boot = none → s.helm.confirming = none →
    (s.logb.running = none → exec (.logbCmdDone out) s = .next s)
    ∧ (∀ p, s.logb.running = some p → s.logb.queue = [] →
      (∀ op, p.kind = .cmd op → s.life.running = none → ∃ t, exec (.logbCmdDone out) s = .next t
        ∧ t = { s with bus := t.bus, logb := t.logb }
        ∧ t.logb = { s.logb with
            array := t.logb.array, sensed := t.logb.sensed, seen := t.logb.seen, wFuse := t.logb.wFuse, rFuse := t.logb.rFuse, corrected := t.logb.corrected
            running := none, op := op, pulses := out.pulses.toNat, status := t.logb.status }
        ∧ t.logb.status = (if p.words.all (wordClean t.logb.sensed) then 0 else 0x0603)
        ∧ (∀ w ∈ p.words, ∀ ph ∈ copiesOf w.1 w.2, tget {} t.logb.sensed ph = senseAt s.logb.spread (tget {} t.logb.array ph))
        ∧ (∀ ph m, .bits ph m ∈ p.pulses → ∀ b < 72, m.testBit b = true → (∀ x ∈ out.misses, x.phys.toNat ≠ ph) →
            (tget {} t.logb.array ph).strict.testBit b = true ∧ (tget {} t.logb.array ph).nominal.testBit b = true ∧ (tget {} t.logb.array ph).loose.testBit b = true)
        ∧ (∀ ph, (∀ m, .bits ph m ∉ p.pulses) → tget {} t.logb.array ph = tget {} s.logb.array ph)
        ∧ (∀ r e, .lock false r e ∈ p.pulses → (tget 0 t.logb.wFuse r).testBit e = true)
        ∧ (∀ r e, .lock true r e ∈ p.pulses → (tget 0 t.logb.rFuse r).testBit e = true)
        ∧ (∀ r, (∀ e, .lock false r e ∉ p.pulses) → tget 0 t.logb.wFuse r = tget 0 s.logb.wFuse r)
        ∧ bitOf (t.page 0x10).cause 0 = true)
      ∧ (∀ k, p.kind = .event → s.life.running = some (.word k) → secRuns s = false → ∃ t, exec (.logbCmdDone out) s = .next t
        ∧ t = { s with logb := t.logb, life := { s.life with ended := some .event } } ∧ t.logb.running = none)
      ∧ (∀ k, p.kind = .event → s.life.running = some (.word k) → secRuns s = true → ∃ t, exec (.logbCmdDone out) s = .next t
        ∧ t = { s with bus := t.bus, logb := t.logb, life := t.life, blk := t.blk } ∧ t.logb.running = none
        ∧ (eventCond t.logb.sensed (k - 2) = .complete → t.blk = s.blk
          ∧ t.life = { s.life with running := none, pending := k, status := 0, op := 1, stepFailed := 0 })
        ∧ (eventCond t.logb.sensed (k - 2) ≠ .complete → t.blk = { s.blk with torn := true }
          ∧ t.life = { s.life with running := none, torn := true, tornTarget := k, status := 0x0302, op := 1, stepFailed := 7 })
        ∧ bitOf (t.page 0x12).cause 0 = true))

/-- `LIFE_CMD` (R445 to R460, Tables 15.3, 15.7 and 15.11). -/
def Obligations.LifecycleMovesByItsGate : Prop :=
  ∀ (s : State) (a : Access) (v : Word) (grant : Option Bytes), WriteReaches s a 0x12 0x48 → fld v 59 0 = 0 →
    (s.life.running.isSome = true ∨ s.life.pending ≠ 0 → ∀ c ∈ [Instr.transition a v grant, .lifeChallenge a v, .unlockPw a v, .unlockGrant a v grant],
      ∃ t, exec c s = .next t ∧ t = { s with bus := t.bus } ∧ t.bus.resp = { refused := true, stat := 0x0301, rdata := 0 })
    ∧ (s.life.running = none → s.life.pending = 0 → s.life.torn = true →
      (∀ c ∈ [Instr.lifeChallenge a v, .unlockPw a v, .unlockGrant a v grant],
        ∃ t, exec c s = .next t ∧ t = { s with bus := t.bus } ∧ t.bus.resp = { refused := true, stat := 0x0302, rdata := 0 })
      ∧ (s.life.target ≠ s.life.tornTarget →
        ∃ t, exec (.transition a v grant) s = .next t ∧ t = { s with bus := t.bus } ∧ t.bus.resp = { refused := true, stat := 0x0302, rdata := 0 }))
    ∧ (s.life.running = none → s.life.pending = 0 → s.life.torn = false ∨ s.life.target = s.life.tornTarget →
      (transitionRow s s.life.target = false → ∃ t, exec (.transition a v grant) s = .next t
        ∧ t = { s with bus := t.bus, life := { s.life with status := 0x0301, op := 1, stepFailed := 2 } } ∧ bitOf (t.page 0x12).cause 0 = true)
      ∧ (transitionRow s s.life.target = true → needsGrant s s.life.target = false → s.logb.vpp = false → ∃ t, exec (.transition a v grant) s = .next t
        ∧ t = { s with bus := t.bus, life := { s.life with status := 0x0301, op := 1, stepFailed := 3 } })
      ∧ (transitionRow s s.life.target = true → needsGrant s s.life.target = false → s.logb.vpp = true →
        exec (.transition a v grant) s = .next { answer s 0 with life := { s.life with running := some (.verdict s.life.target), acc := a } })
      ∧ (transitionRow s s.life.target = true → needsGrant s s.life.target = true → ∀ k st, (grantCheck (answer s 0) grant s.life.target).fail = some (k, st) →
        ∃ t, exec (.transition a v grant) s = .next t ∧ t = { s with bus := t.bus, helm := { s.helm with copyFault := t.helm.copyFault }, pwr := t.pwr, astr := t.astr, life := { s.life with nonce := t.life.nonce, nonceValid := t.life.nonceValid, status := stCode st, op := 1, stepFailed := 2 } }
          ∧ (k < 7 → t.helm = s.helm ∧ t.pwr = s.pwr ∧ t.astr = s.astr)))
    ∧ (s.life.running = none → s.life.pending = 0 → s.life.torn = false →
      ((s.life.st = 3 ∨ s.life.st = 4) → drbgServes s 0 = true → ∃ t, exec (.lifeChallenge a v) s = .next t
        ∧ t = { s with bus := t.bus, free := t.free, hashu := t.hashu, life := { s.life with nonce := t.life.nonce, nonceValid := true, status := 0, op := 2, stepFailed := 0 } }
        ∧ bitOf (t.page 0x12).cause 0 = true)
      ∧ (s.life.st ≠ 3 → s.life.st ≠ 4 → ∃ t, exec (.lifeChallenge a v) s = .next t
        ∧ t = { s with bus := t.bus, life := { s.life with status := 0x0301, op := 2, stepFailed := 0 } })
      ∧ ((s.life.st = 1 ∨ s.life.st = 2) → unusable s s.logb.sensed 11 = false → unusable s s.logb.sensed 10 = false → freePassword s = false → s.life.pwLeft ≠ 0 → storedHash s ≠ 0 →
        s.life.argRights < 256 → (s.life.argRights.testBit 6 = true → s.life.st = 1) →
        (passwordHash s ≠ storedHash s → ∃ t, exec (.unlockPw a v) s = .next t
          ∧ t = { s with bus := t.bus, life := { s.life with pwLeft := s.life.pwLeft - 1, pw := 0, status := 0x0404, op := 3, stepFailed := 0 } })
        ∧ (passwordHash s = storedHash s → (s.life.argRights &&& (fuse s 10 6 % 2 ^ 32)) ≠ s.life.argRights → ∃ t, exec (.unlockPw a v) s = .next t
          ∧ t = { s with bus := t.bus, life := { s.life with pw := 0, status := 0x0402, op := 3, stepFailed := 0 } })
        ∧ (passwordHash s = storedHash s → (s.life.argRights &&& (fuse s 10 6 % 2 ^ 32)) = s.life.argRights → s.life.argRights ≠ 0 → ∃ t, exec (.unlockPw a v) s = .next t
          ∧ t.life = { s.life with rights := s.life.rights ||| s.life.argRights, pw := 0, status := 0, op := 3, stepFailed := 0 }
          ∧ bitOf (t.page 0x12).cause 1 = true ∧ bitOf (t.page 0x12).cause 0 = true ∧ (s.life.rights = 0 → t.pins.kdpZeroise = true)))
      ∧ ((s.life.st = 3 ∨ s.life.st = 4) → unusable s s.logb.sensed 11 = false →
        (∀ k st, (grantCheck (answer s 0) grant 0).fail = some (k, st) → ∃ t, exec (.unlockGrant a v grant) s = .next t
          ∧ t = { s with bus := t.bus, helm := { s.helm with copyFault := t.helm.copyFault }, pwr := t.pwr, astr := t.astr, life := { s.life with nonce := t.life.nonce, nonceValid := t.life.nonceValid, status := stCode st, op := 4, stepFailed := k } }
          ∧ (k < 7 → t.helm = s.helm ∧ t.pwr = s.pwr ∧ t.astr = s.astr))
        ∧ ((grantCheck (answer s 0) grant 0).fail = none → (grantCheck (answer s 0) grant 0).rights ≠ 0 → ∃ t, exec (.unlockGrant a v grant) s = .next t
          ∧ t.life = { s.life with rights := s.life.rights ||| (grantCheck (answer s 0) grant 0).rights, nonce := 0, nonceValid := false, status := 0, op := 4, stepFailed := 0 }
          ∧ bitOf (t.page 0x12).cause 1 = true ∧ (s.life.rights = 0 → t.pins.kdpZeroise = true))))

/-- The session (R475 to R478, Table 16.14) and `UPDATE` frames (R484). The slot that updates go to where no record says so is the model's choice
(log 32), and that a `STAGED` session is open is deduced (log 33). -/
def Obligations.UpdateSessionsRun : Prop :=
  ∀ (s : State) (a : Access) (v : Word) (st : StoreIn) (x0 : BootIn) (g0 g1 : Option Bytes),
    (WriteReaches s a 0x02 0x40 → fld v 59 0 = 0 → s.helm.confirming.isSome = true →
      ∀ c ∈ [Instr.updBegin a v st, .updBlock a v st, .updFinish a v st, .updAbort a v, .activate a v st x0, .helmConfirm a v st, .helmRevoke a v g0, .forward a v st, .settings a v st, .verifyHost a v g0 g1],
        ∃ t, exec c s = .next t ∧ t = { s with bus := t.bus } ∧ t.bus.resp = { refused := true, stat := 0x0301, rdata := 0 })
    ∧ (WriteReaches s a 0x02 0x40 → fld v 59 0 = 0 → s.helm.confirming = none →
      (sessionOpen s = true ∨ runningTrial s = true ∨ trialWaits s = true → ∃ t, exec (.updBegin a v st) s = .next t
        ∧ t = { s with bus := t.bus, helm := { s.helm with status := 0x0301, op := 1, stepFailed := 0 } } ∧ bitOf (t.page 0x02).cause 0 = true)
      ∧ (sessionOpen s = false → runningTrial s = false → trialWaits s = false →
        (st.backOk = true → ∃ t, exec (.updBegin a v st) s = .next t
          ∧ t = { s with bus := t.bus, out := s.out ++ [.mem (bootBase s + recordOffset t.helm.copy) (recordBytes t.helm.record)], helm := { s.helm with
              record := { setRecEntry s.helm.record (targetSlot s) {} with seq := (s.helm.record.seq + 1) % 2 ^ 64 }
              copy := (if s.helm.hasRecord then !s.helm.copy else false), otherValid := s.helm.hasRecord, hasRecord := true
              upd := { st := 1, target := targetSlot s, drops := s.helm.upd.drops, at_ := s.mrd.wall }
              status := 0, op := 1, stepFailed := 0 } }
          ∧ bitOf (t.page 0x02).cause 0 = true)
        ∧ (st.backOk = false → ∃ t, exec (.updBegin a v st) s = .next t ∧ t.helm.upd = s.helm.upd ∧ t.helm.record = s.helm.record ∧ t.helm.status = 0x0701))
      ∧ (s.helm.upd.st ≠ 1 → ∀ c ∈ [(Instr.updBlock a v st, 2), (.updFinish a v st, 3)], ∃ t, exec c.1 s = .next t
        ∧ t = { s with bus := t.bus, helm := { s.helm with status := 0x0301, op := c.2, stepFailed := 0 } })
      ∧ (s.helm.upd.st = 1 →
        (crc32c (stagingBytes s) ≠ haCrc s → ∃ t, exec (.updBlock a v st) s = .next t
          ∧ t = { s with bus := t.bus, helm := { s.helm with status := 0x0101, op := 2, stepFailed := 0 } })
        ∧ (crc32c (stagingBytes s) = haCrc s → s.helm.upd.map.testBit (haUnit s) = false → st.backOk = true → ∃ t, exec (.updBlock a v st) s = .next t
          ∧ t = { s with bus := t.bus, out := s.out ++ [.mem (bootBase s + slotOffset s.helm.upd.target + 4096 * haUnit s) (stagingBytes s)]
                         helm := { s.helm with upd := { s.helm.upd with map := setBit s.helm.upd.map (haUnit s), at_ := s.mrd.wall }, status := 0, op := 2, stepFailed := 0 } }
          ∧ bitOf (t.page 0x02).cause 0 = true)
        ∧ (∀ b, crc32c (stagingBytes s) = haCrc s → s.helm.upd.map.testBit (haUnit s) = true → st.slot = some b → ∃ t, exec (.updBlock a v st) s = .next t
          ∧ t = { s with bus := t.bus, helm := { s.helm with status := (if slice b (4096 * haUnit s) 4096 = stagingBytes s then 0 else 0x0101), op := 2, stepFailed := 0 } })
        ∧ (∀ b, st.slot = some b →
          (∀ n x, finishFailure s b = some (n, x) → ∃ t, exec (.updFinish a v st) s = .next t
            ∧ t = { s with bus := t.bus, pwr := t.pwr, astr := t.astr, helm := { s.helm with status := stCode x, op := 3, stepFailed := n, copyFault := t.helm.copyFault } }
            ∧ (domLive s 3 = true ∨ n = 1 → t.pwr = s.pwr ∧ t.astr = s.astr ∧ t.helm.copyFault = s.helm.copyFault))
          ∧ (finishFailure s b = none → st.backOk = true → ∃ t, exec (.updFinish a v st) s = .next t
            ∧ t = { s with bus := t.bus, out := t.out, free := t.free, meas := t.meas, pwr := t.pwr, astr := t.astr, helm := { s.helm with
                record := t.helm.record, copy := t.helm.copy, otherValid := t.helm.otherValid, hasRecord := true, copyFault := t.helm.copyFault
                upd := { s.helm.upd with st := 3, bundle := t.helm.upd.bundle }, status := 0, op := 3, stepFailed := 0 } }
            ∧ recEntry t.helm.record s.helm.upd.target = { st := 1, fw := leAt (manifestOf b) 24 2, uc := leAt (manifestOf b) 26 2, digest := Config.sha384 (manifestOf b) }
            ∧ recEntry t.helm.record (!s.helm.upd.target) = recEntry s.helm.record (!s.helm.upd.target)
            ∧ (∀ m, m ≠ 12 → measOf t m = measOf s m) ∧ bitOf (t.page 0x02).cause 0 = true)))
      ∧ (∃ t, exec (.updAbort a v) s = .next t ∧ t = { s with bus := t.bus, helm := if sessionOpen s = true
          then { s.helm with upd := { s.helm.upd with st := 4 }, status := 0, op := 4, stepFailed := 0 } else { s.helm with status := 0x0301, op := 4, stepFailed := 0 } }))
    ∧ (∀ us w, w = (s.mrd.wall + us) % 2 ^ 64 → exec (.updSessionTimeout us) s = .next { s with
        mrd := { s.mrd with wall := w }
        helm := if secRuns s = true ∧ s.helm.upd.st = 1 ∧ s.helm.upd.at_ + 1000000 ≤ w then { s.helm with upd := { s.helm.upd with st := 4 } } else s.helm })
    ∧ (WriteReaches s a 0x03 0x48 → exec (.helmStageDataAccess a true v) s = .next { answer s 0 with helm := { s.helm with
        staging := tset 0 s.helm.staging s.helm.stagePtr v, stagePtr := (s.helm.stagePtr + 1) % 512 } })
    ∧ (ReadReaches s a 0x03 0x48 → exec (.helmStageDataAccess a false v) s = .next { answer s (tget 0 s.helm.staging s.helm.stagePtr) with helm := { s.helm with
        stagePtr := (s.helm.stagePtr + 1) % 512 } })
    ∧ (∀ (f : Arrival) (k : Nat) (plain : Bytes) (w : Word) (x : StepIn), x.st = st → FrameOpens s f k plain → s.park.frames = [] →
        (hdrOf f.bytes).cls = 7 → w = BitVec.ofNat 64 (leAt plain 0 8) →
      (s.helm.ringAccept = false ∨ (hdrOf f.bytes).rank ≠ s.helm.ringSrc ∨ (sessionOpen s = true ∧ leAt plain 8 8 ≠ s.helm.upd.bundle) → ∃ t, exec (.updateFrameReceive f x) s = .next t
        ∧ t.helm = { s.helm with upd := { s.helm.upd with drops := satInc 0xFFFF s.helm.upd.drops } })
      ∧ (s.helm.ringAccept = true → (hdrOf f.bytes).rank = s.helm.ringSrc → s.helm.upd.st = 1 → s.helm.upd.ring = true → leAt plain 8 8 = s.helm.upd.bundle →
        fld w 46 32 = 0 → fld w 63 55 ≤ 256 → 0 < fld w 63 55 → crc32c (slice plain 16 4096) = fld w 31 0 → s.helm.upd.map.testBit (fld w 54 47) = false → st.backOk = true →
        popCount 256 (setBit s.helm.upd.map (fld w 54 47)) ≠ fld w 63 55 → ∃ t, exec (.updateFrameReceive f x) s = .next t
        ∧ t.helm = { s.helm with upd := { s.helm.upd with map := setBit s.helm.upd.map (fld w 54 47), at_ := s.mrd.wall } }
        ∧ .mem (bootBase s + slotOffset s.helm.upd.target + 4096 * fld w 54 47) (slice plain 16 4096) ∈ t.out ∧ bitOf (t.page 0x02).cause 1 = true))

/-- `HELM_CMD` (Table 16.14) and the watchdog (R469). Which checks of its own the firmware makes before a `CONFIRM` is log 160, the model's
choice. -/
def Obligations.HelmCommandsAct : Prop :=
  ∀ (s : State) (a : Access) (v : Word) (st : StoreIn) (boot : BootIn) (mem body : Option Bytes),
    (∀ us, (secRuns s = false ∨ s.helm.wdog = none ∨ (∃ d, s.helm.wdog = some d ∧ (s.mrd.wall + us) % 2 ^ 64 < d) →
        exec (.trialWatchdogExpire us boot) s = .next { s with mrd := { s.mrd with wall := (s.mrd.wall + us) % 2 ^ 64 } })
      ∧ (∀ d, secRuns s = true → s.helm.wdog = some d → d ≤ (s.mrd.wall + us) % 2 ^ 64 → boot.store = none →
        s.logb.lifted = false → s.life.scrapping = false → s.hashu.ready = true → ∃ t, exec (.trialWatchdogExpire us boot) s = .next t
        ∧ t.blk = { s.blk with ready := false, recovery := false, resetCause := 8 } ∧ t.helm.wdog = none ∧ t.helm.stage = .rom ∧ t.pins.stationLive = false ∧ t.logb.array = s.logb.array))
    ∧ (WriteReaches s a 0x02 0x40 → fld v 59 0 = 0 → s.helm.confirming = none →
      (s.blk.recovery = true → ∀ c ∈ [Instr.helmConfirm a v st, .helmRevoke a v mem, .forward a v st, .settings a v st, .verifyHost a v mem body],
        ∃ t, exec c s = .next t ∧ t = { s with bus := t.bus } ∧ t.bus.resp = { refused := true, stat := 0x0301, rdata := 0 })
      ∧ (((recEntry s.helm.record (targetSlot s)).st ≠ 1 ∧ (recEntry s.helm.record (targetSlot s)).st ≠ 4) ∨ haWdog s < 2 ∨ 600 < haWdog s → ∃ t, exec (.activate a v st boot) s = .next t
        ∧ t = { s with bus := t.bus, helm := { s.helm with status := 0x0101, op := 5, stepFailed := 0 } })
      ∧ (s.blk.recovery = false →
        ((recEntry s.helm.record (targetSlot s)).st = 1 ∨ (recEntry s.helm.record (targetSlot s)).st = 4 → 2 ≤ haWdog s → haWdog s ≤ 600 → st.backOk = true →
          ∃ t, exec (.activate a v st boot) s = .next t
            ∧ t = { s with bus := t.bus, out := t.out, free := t.free, meas := t.meas, helm := { s.helm with
                record := t.helm.record, copy := t.helm.copy, otherValid := t.helm.otherValid, hasRecord := true, status := 0, op := 5, stepFailed := 0 } }
            ∧ recEntry t.helm.record (targetSlot s) = { recEntry s.helm.record (targetSlot s) with st := 2, attempts := 0, wdog := haWdog s }
            ∧ recEntry t.helm.record (!targetSlot s) = recEntry s.helm.record (!targetSlot s) ∧ (∀ m, m ≠ 12 → measOf t m = measOf s m))
        ∧ (runningTrial s = false ∨ startChecks s = false ∨ s.helm.wdog = none ∨ (∃ d, s.helm.wdog = some d ∧ d ≤ s.mrd.wall) → ∃ t, exec (.helmConfirm a v st) s = .next t
            ∧ t = { s with bus := t.bus, helm := { s.helm with status := 0x0301, op := 6, stepFailed := 0 } })
        ∧ (∀ d, runningTrial s = true → startChecks s = true → s.helm.wdog = some d → s.mrd.wall < d → st.backOk = true →
          (∃ u, exec (.helmConfirm a v st) s = .next (confirmEnd (advanceCounters u))
            ∧ u = { answer s 0 with out := u.out, helm := { s.helm with
                record := u.helm.record, copy := u.helm.copy, otherValid := u.helm.otherValid, hasRecord := true, wdog := none, confirming := some a } }
            ∧ u.helm.record.active = s.helm.slot ∧ recEntry u.helm.record s.helm.slot = { recEntry s.helm.record s.helm.slot with st := 3 }
            ∧ (recEntry u.helm.record (!s.helm.slot)).st = (if (recEntry s.helm.record (!s.helm.slot)).st = 3 then 1 else (recEntry s.helm.record (!s.helm.slot)).st))
          ∧ (s.logb.running.isSome = true → ∃ t, exec (.helmConfirm a v st) s = .next t ∧ t.helm.confirming = some a
            ∧ t.logb = { s.logb with queue := s.logb.queue ++ [.advance 0 s.helm.fw, .advance 1 s.helm.uc, .advance 2 s.helm.policyFmt] })
          ∧ (s.logb.running = none → s.logb.queue = [] → tallyReady s = true → s.helm.setPending = false →
              s.helm.fw ≤ counter s 0 → s.helm.uc ≤ counter s 1 → s.helm.policyFmt ≤ counter s 2 → s.helm.fw ≤ 256 → s.helm.uc ≤ 256 → s.helm.policyFmt ≤ 256 →
            ∃ t, exec (.helmConfirm a v st) s = .next t
              ∧ t = { s with bus := t.bus, out := t.out, free := t.free, meas := t.meas, logb := { s.logb with status := 0, op := 5, pulses := 0 }, helm := { s.helm with
                  record := t.helm.record, copy := t.helm.copy, otherValid := t.helm.otherValid, hasRecord := true, wdog := none, status := 0, op := 6, stepFailed := 0 } }
              ∧ (∀ m, m ≠ 12 → measOf t m = measOf s m) ∧ bitOf (t.page 0x02).cause 0 = true))
        ∧ (inMgmtWindows s s.helm.arg1 7552 false = false → ∃ t, exec (.helmRevoke a v mem) s = .next t
            ∧ t = { s with bus := t.bus, helm := { s.helm with status := 0x0201, op := 7, stepFailed := 1 } })
        ∧ (∀ m b, inMgmtWindows s s.helm.arg1 7552 false = true → mem = some m → b = slice m 0 7552 →
          (revokeForm s b = false → ∃ t, exec (.helmRevoke a v mem) s = .next t
            ∧ t = { s with bus := t.bus, helm := { s.helm with status := 0x0102, op := 7, stepFailed := 2 } })
          ∧ (revokeForm s b = true → leAt b 24 1 = 1 → leAt b 26 1 = 2 → ∃ t, exec (.helmRevoke a v mem) s = .next t
            ∧ t = { s with bus := t.bus, helm := { s.helm with status := 0x0404, op := 7, stepFailed := 3 } })
          ∧ (∀ x, revokeForm s b = true → (leAt b 24 1 = 1 → leAt b 26 1 = 1) → signerStatus s (leAt b 26 1) (leAt b 27 1) (slice b 4800 2752) = some x → ∃ t, exec (.helmRevoke a v mem) s = .next t
            ∧ t = { s with bus := t.bus, helm := { s.helm with status := stCode x, op := 7, stepFailed := 3 } })
          ∧ (revokeForm s b = true → (leAt b 24 1 = 1 → leAt b 26 1 = 1) → signerStatus s (leAt b 26 1) (leAt b 27 1) (slice b 4800 2752) = none →
              (hybridVerify (slice b 4800 2752) (slice b 64 4736) (b.take 64) = false → ∃ t, exec (.helmRevoke a v mem) s = .next t
                ∧ t = { s with bus := t.bus, pwr := t.pwr, astr := t.astr, helm := { s.helm with status := 0x0404, op := 7, stepFailed := 4, copyFault := t.helm.copyFault } })
              ∧ (hybridVerify (slice b 4800 2752) (slice b 64 4736) (b.take 64) = true → revokeAllowed s (leAt b 24 1) (leAt b 25 1) = false → ∃ t, exec (.helmRevoke a v mem) s = .next t
                ∧ t = { s with bus := t.bus, pwr := t.pwr, astr := t.astr, helm := { s.helm with status := 0x0301, op := 7, stepFailed := 5, copyFault := t.helm.copyFault } }))
          ∧ (revokeForm s b = true → (leAt b 24 1 = 1 → leAt b 26 1 = 1) → signerStatus s (leAt b 26 1) (leAt b 27 1) (slice b 4800 2752) = none →
              hybridVerify (slice b 4800 2752) (slice b 64 4736) (b.take 64) = true → revokeAllowed s (leAt b 24 1) (leAt b 25 1) = true → s.logb.running = none →
              (s.life.st = 1 ∨ s.life.st = 2 ∨ s.life.st = 3) → s.logb.vpp = true → ∃ t r, exec (.helmRevoke a v mem) s = .next t
            ∧ t = { s with bus := t.bus, free := t.free, meas := t.meas, logb := { s.logb with running := some r }, pwr := t.pwr, astr := t.astr, helm := { s.helm with status := 0, op := 7, stepFailed := 0, copyFault := t.helm.copyFault } }
            ∧ (∀ k, k = (if leAt b 24 1 = 1 then leAt b 25 1 else 8 + leAt b 25 1) → r.words = [(4, k / 8)] ∧ r.pulses = tallyBit s 4 (k / 8) (k % 8))))
        ∧ (s.helm.upd.st ≠ 3 ∨ s.mrd.seen = false → ∃ t, exec (.forward a v st) s = .next t
            ∧ t = { s with bus := t.bus, helm := { s.helm with status := 0x0301, op := 8, stepFailed := 0 } })
        ∧ (∀ b, s.helm.upd.st = 3 → s.mrd.seen = true → st.slot = some b → fabricReady (noteFabric s) 7 (haPorts s) = true →
            exec (.forward a v st) s = .next (helmDone ((if haPorts s = 0 then [] else bitsOf 256 s.helm.upd.map).foldl
              (fun x u => fabricSend x 7 (haPorts s) 0 0 0 (updatePayload x b u)) (noteFabric (answer s 0))) a 8 .ok 0))
        ∧ (haUnit s = 0 → setCount (stagingBytes s) ≤ 4094 → setLen (stagingBytes s) ≤ (stagingBytes s).length → st.backOk = true → ∃ t, exec (.settings a v st) s = .next t
            ∧ t = { s with bus := t.bus, out := t.out, free := t.free, meas := t.meas, helm := { s.helm with setNew := [], status := 0, op := 9, stepFailed := 0 } }
            ∧ (s.helm.noSettings = true → t.out = s.out ++ [.mem (bootBase s + areaOffset s.helm.area) (setRecord (setBody (stagingBytes s)) s.helm.setVer 1 ((s.helm.setSeq + 1) % 2 ^ 64))])
            ∧ (s.helm.noSettings = false → t.out = s.out ++ [.mem (bootBase s + areaOffset (!s.helm.area)) (setRecord (setBody (stagingBytes s)) s.helm.setVer 1 ((s.helm.setSeq + 1) % 2 ^ 64)),
                .mem (bootBase s + areaOffset s.helm.area) (setRecord (setBody s.helm.settings) (leAt s.helm.settings 8 2) 3 s.helm.setSeq)])
            ∧ (∀ m, m ≠ 12 → measOf t m = measOf s m))
        ∧ (inMgmtWindows s s.helm.arg1 7632 false = false → ∃ t, exec (.verifyHost a v mem body) s = .next t
            ∧ t = { s with bus := t.bus, helm := { s.helm with status := 0x0201, op := 10, stepFailed := 0 } })
        ∧ (∀ m b img, inMgmtWindows s s.helm.arg1 7632 false = true → mem = some m → b = slice m 0 7632 → hostForm s b = true →
            signerStatus s (leAt b 25 1) (leAt b 26 1) (slice b 4880 2752) = none → sigsHold s (slice b 4880 2752) (slice b 144 4736) (b.take 128) = true →
            inMgmtWindows s (leAt b 40 8) (leAt b 32 8) false = true → body = some img → Config.sha384 (slice img 0 (leAt b 32 8)) = digestOf (slice b 48 48) →
            ∃ t, exec (.verifyHost a v mem body) s = .next t
              ∧ t = { s with bus := t.bus, meas := t.meas, pwr := t.pwr, astr := t.astr, helm := { s.helm with status := 0, op := 10, stepFailed := 0, copyFault := t.helm.copyFault } }
              ∧ measOf t (16 + leAt b 24 1) = Config.sha384 (digestBytes (measOf s (16 + leAt b 24 1)) ++ digestBytes (Config.sha384 (b.take 128)))
              ∧ ∀ m, m ≠ 16 + leAt b 24 1 → measOf t m = measOf s m)))

/-- Unsecured requests (R502 to R506, R511). The message layouts and error codes are the model's, from DSP0274 (log 54), and so are an answer too
long for the area (log 163) and the moment a mailbox is served (log 162). -/
def Obligations.TheResponderAnswersInOrder : Prop :=
  ∀ (s : State) (y : MailReq) (m b : Bytes) (area : Option Bytes) (q : Nat), y.bytes = m → b = slice m 16 (leAt m 0 4) → q = leAt m 4 4 →
    (mailOpen s = none → ∀ c ∈ [Instr.getVersion m, .getCapabilities m, .negotiateAlgorithms m, .getDigests m area, .getCertificate m area, .spdmChallenge y area,
        .getMeasurements y, .keyExchange y area, .finish m, .keyUpdate m, .endSession m, .unsupportedRequest m], exec c s = .next s)
    ∧ (∀ base, mailOpen s = some base →
      (headOk m = false → ∃ t, exec (.getVersion m) s = .next t ∧ t = { s with out := t.out, rhmb := { s.rhmb with sems := t.rhmb.sems } } ∧ Answered s t base q false [])
      ∧ (headOk m = true → leAt m 8 1 = 0 → 4 ≤ b.length →
        (leAt b 1 1 = 0x84 → leAt b 0 1 = 0x10 → ∃ t, exec (.getVersion m) s = .next t
          ∧ t = { s with out := t.out, rhmb := { s.rhmb with sems := t.rhmb.sems }, lark := t.lark, chrt := t.chrt
                         spdm := { s.spdm with conn := 1, dhe := false, negotiated := b.take 4 ++ versionMsg, measured := [], certMsgs := [], s0 := {}, s1 := {} } }
          ∧ (∀ i, 4 ≤ i → i < 12 → t.slot i = {}) ∧ (∀ i, i < 4 ∨ 12 ≤ i → t.slot i = s.slot i) ∧ Answered s t base q false versionMsg)
        ∧ (leAt b 1 1 = 0xE1 → s.spdm.conn = 1 → leAt b 0 1 = 0x12 → 20 ≤ b.length → ∃ t, exec (.getCapabilities m) s = .next t
          ∧ t = { s with out := t.out, rhmb := { s.rhmb with sems := t.rhmb.sems }, spdm := { s.spdm with conn := 2, negotiated := s.spdm.negotiated ++ b ++ capabilitiesMsg } }
          ∧ Answered s t base q false capabilitiesMsg)
        ∧ (∀ l, leAt b 1 1 = 0xE3 → s.spdm.conn = 2 → leAt b 0 1 = 0x12 → 32 ≤ b.length → algStructs (leAt b 2 1) (b.drop (32 + 4 * (leAt b 28 1 + leAt b 29 1))) = some l →
          (leAt b 6 1).testBit 0 = true → (leAt b 8 4).testBit 7 = true → (leAt b 12 4).testBit 1 = true → ∃ t, exec (.negotiateAlgorithms m) s = .next t
          ∧ t = { s with out := t.out, rhmb := { s.rhmb with sems := t.rhmb.sems }
                         spdm := { s.spdm with conn := 3, dhe := t.spdm.dhe, negotiated := s.spdm.negotiated ++ b ++ algorithmsMsg l } }
          ∧ (t.spdm.dhe = true ↔ ∀ z ∈ [2, 3, 5], ∃ x ∈ l, x.1 = z ∧ algPick x ≠ 0) ∧ Answered s t base q false (algorithmsMsg l))
        ∧ (leAt b 1 1 = 0x81 → s.spdm.conn = 3 → leAt b 0 1 = 0x12 → ∃ t r, exec (.getDigests m area) s = .next t
          ∧ r = (match chainOf s area with | some c => [0x12, 0x01, 0, 1] ++ digestBytes (Config.sha384 c) | none => [0x12, 0x01, 0, 0])
          ∧ t = { s with out := t.out, rhmb := { s.rhmb with sems := t.rhmb.sems }, spdm := { s.spdm with certMsgs := s.spdm.certMsgs ++ b ++ r } } ∧ Answered s t base q false r)
        ∧ (∀ c n, leAt b 1 1 = 0x82 → s.spdm.conn = 3 → leAt b 0 1 = 0x12 → 8 ≤ b.length → chainOf s area = some c → leAt b 2 1 % 16 = 0 → leAt b 4 2 < c.length →
          n = min (min (leAt b 6 2) 16360) (c.length - leAt b 4 2) → ∃ t r, exec (.getCertificate m area) s = .next t
          ∧ r = [0x12, 0x02, 0, 0] ++ leBytes 2 n ++ leBytes 2 (c.length - leAt b 4 2 - n) ++ slice c (leAt b 4 2) n
          ∧ t = { s with out := t.out, rhmb := { s.rhmb with sems := t.rhmb.sems }, spdm := { s.spdm with certMsgs := s.spdm.certMsgs ++ b ++ r } } ∧ Answered s t base q false r)
        ∧ ((tget {} s.hashu.drbgs 0 : Drbg).st = 1 → s.hashu.failed = false → (slotKey s 1).isSome = true → s.spdm.conn = 3 → leAt b 0 1 = 0x12 → leAt b 3 1 = 0 → leAt b 2 1 = 0 →
          (∀ c, leAt b 1 1 = 0x83 → 36 ≤ b.length → chainOf s area = some c → y.fail.isSome = true → ∃ t, exec (.spdmChallenge y area) s = .next t
            ∧ Answered s t base q false (errorMsg 0x05 0))
          ∧ (∀ c, leAt b 1 1 = 0x83 → 36 ≤ b.length → chainOf s area = some c → y.fail = none → ∃ t r, exec (.spdmChallenge y area) s = .next t
            ∧ t = { s with out := t.out, rhmb := { s.rhmb with sems := t.rhmb.sems }, pwr := t.pwr, astr := t.astr, helm := { s.helm with copyFault := t.helm.copyFault }, free := t.free, hashu := t.hashu, chrt := { s.chrt with slots := (noteBad s 1).chrt.slots }, spdm := { s.spdm with certMsgs := [] } }
            ∧ Answered s t base q false r ∧ r.take 52 = [0x12, 0x03, 0, 1] ++ digestBytes (Config.sha384 c))
          ∧ (∀ c x, leAt b 1 1 = 0xE4 → s.spdm.dhe = true → 138 + leAt b 136 2 ≤ b.length → chainOf s area = some c → pointOf (4 :: slice b 40 96) = some x →
            (s.spdm.s0.isOpen = false ∨ s.spdm.s1.isOpen = false → y.fail.isSome = true → ∃ t, exec (.keyExchange y area) s = .next t
              ∧ t.spdm = s.spdm ∧ Answered s t base q false (errorMsg 0x05 0))
            ∧ (s.spdm.s0.isOpen = false ∨ s.spdm.s1.isOpen = false → y.fail = none → canPutAll s [10, 10] = true → ∃ t r i, exec (.keyExchange y area) s = .next t
              ∧ i = (if s.spdm.s0.isOpen = true then 1 else 0)
              ∧ t = { s with out := t.out, rhmb := { s.rhmb with sems := t.rhmb.sems }, pwr := t.pwr, astr := t.astr, helm := { s.helm with copyFault := t.helm.copyFault }, free := t.free, hashu := t.hashu, chrt := t.chrt, spdm := { s.spdm with s0 := t.spdm.s0, s1 := t.spdm.s1 } }
              ∧ (sessOf t i).isOpen = true ∧ (sessOf t i).finished = false ∧ (sessOf t i).id = leAt b 4 2 + 65536 * (i + 1) ∧ sessOf t (1 - i) = sessOf s (1 - i)
              ∧ (t.slot (4 + 4 * i)).st = .active ∧ (t.slot (5 + 4 * i)).st = .active ∧ (∀ j, j ≠ 4 + 4 * i → j ≠ 5 + 4 * i → t.slot j = (noteBad s 1).slot j)
              ∧ Answered s t base q false (fitted id r) ∧ r.take 6 = [0x12, 0x64, 0, 0] ++ leBytes 2 (i + 1))
            ∧ (s.spdm.s0.isOpen = true → s.spdm.s1.isOpen = true → ∃ t, exec (.keyExchange y area) s = .next t
              ∧ t = { s with out := t.out, rhmb := { s.rhmb with sems := t.rhmb.sems } } ∧ Answered s t base q false (errorMsg 0x03 0))))
        ∧ (leAt b 1 1 = 0xE0 → s.spdm.conn = 3 → leAt b 0 1 = 0x12 → (leAt b 2 1).testBit 0 = false →
          (1 ≤ leAt b 3 1 → leAt b 3 1 ≤ 24 → drbgServes s 0 = true → ∃ t n, exec (.getMeasurements y) s = .next t
            ∧ t = { s with out := t.out, rhmb := { s.rhmb with sems := t.rhmb.sems }, free := t.free, hashu := t.hashu, spdm := { s.spdm with measured := t.spdm.measured } }
            ∧ n.length = 32 ∧ Answered s t base q false ([0x12, 0x60, 0, 0, 1] ++ leBytes 3 (regBlock s (leAt b 3 1)).length ++ regBlock s (leAt b 3 1) ++ n ++ zeros 2))
          ∧ (leAt b 3 1 = 0 ∨ (25 ≤ leAt b 3 1 ∧ leAt b 3 1 < 0x7D) ∨ (0xC0 ≤ leAt b 3 1 ∧ leAt b 3 1 < 0xFF)
              ∨ (0x80 ≤ leAt b 3 1 ∧ leAt b 3 1 < 0xC0 ∧ (s.part (leAt b 3 1 % 32)).st ≠ .owned) → drbgServes s 0 = true → ∃ t, exec (.getMeasurements y) s = .next t
            ∧ t = { s with out := t.out, rhmb := { s.rhmb with sems := t.rhmb.sems } } ∧ Answered s t base q false (errorMsg 0x01 0)))
        ∧ (∀ c w, (c, w) ∈ [(Instr.finish m, 0xE5), (.keyUpdate m, 0xE9), (.endSession m, 0xEC)] → leAt b 1 1 = w → ∃ t, exec c s = .next t
          ∧ t = { s with out := t.out, rhmb := { s.rhmb with sems := t.rhmb.sems } } ∧ Answered s t base q false (errorMsg 0x04 0))
        ∧ (∀ c w z, (c, w, z) ∈ [(Instr.getCapabilities m, 0xE1, 1), (.negotiateAlgorithms m, 0xE3, 2), (.getDigests m area, 0x81, 3), (.getCertificate m area, 0x82, 3),
            (.spdmChallenge y area, 0x83, 3), (.getMeasurements y, 0xE0, 3), (.keyExchange y area, 0xE4, 3)] → leAt b 1 1 = w → s.spdm.conn ≠ z → ∃ t, exec c s = .next t
          ∧ t = { s with out := t.out, rhmb := { s.rhmb with sems := t.rhmb.sems } } ∧ Answered s t base q false (errorMsg 0x04 0))
        ∧ (supported (leAt b 1 1) = false → ∃ t, exec (.unsupportedRequest m) s = .next t
          ∧ t = { s with out := t.out, rhmb := { s.rhmb with sems := t.rhmb.sems } } ∧ Answered s t base q false (errorMsg 0x07 (leAt b 1 1)))))

/-- Secured requests (R504), by the layouts of DSP0274 and DSP0277 (log 54); an answer too long for the area is log 163. -/
def Obligations.SessionsFinishUpdateAndEnd : Prop :=
  ∀ (s : State) (m b : Bytes) (base i : Nat) (k k2 : Key), mailOpen s = some base → headOk m = true → leAt m 8 1 = 1 →
    sessById s (leAt (slice m 16 (leAt m 0 4)) 0 4) = some i → sessKey s i false = some k → sessKey s i true = some k2 → (leAt b 1 1 ≠ 0xEC → canPutAll s [10, 10] = true) →
    Config.spdmOpen k (sessOf s i).seqReq ((slice m 16 (leAt m 0 4)).drop 4) = some b → 4 ≤ b.length → leAt b 0 1 = 0x12 →
    (leAt b 1 1 = 0xE5 → (sessOf s i).finished = false → 52 ≤ b.length → leAt b 2 1 = 0 →
      (slice b 4 48 = (Config.spdmVerify k ((sessOf s i).trans ++ b.take 4)).take 48 → ∃ t, exec (.finish m) s = .next t
        ∧ t = { s with out := t.out, rhmb := { s.rhmb with sems := t.rhmb.sems }, free := t.free, hashu := t.hashu, lark := t.lark, chrt := t.chrt, spdm := { s.spdm with s0 := t.spdm.s0, s1 := t.spdm.s1 } }
        ∧ sessOf t i = { sessOf s i with finished := true, seqReq := 0, seqRsp := 0, trans := (sessOf s i).trans ++ b.take 52 ++ [0x12, 0x65, 0, 0] }
        ∧ sessOf t (1 - i) = sessOf s (1 - i)
        ∧ t.slot (4 + 4 * i) = {} ∧ t.slot (5 + 4 * i) = {} ∧ (t.slot (6 + 4 * i)).st = .active ∧ (t.slot (7 + 4 * i)).st = .active
        ∧ (∀ j, j < 4 + 4 * i ∨ 7 + 4 * i < j → t.slot j = s.slot j)
        ∧ Answered s t base (leAt m 4 4) true (fitted (sealedMsg k2 (sessOf s i)) [0x12, 0x65, 0, 0]))
      ∧ (slice b 4 48 ≠ (Config.spdmVerify k ((sessOf s i).trans ++ b.take 4)).take 48 → ∃ t, exec (.finish m) s = .next t
        ∧ sessOf t i = {} ∧ sessOf t (1 - i) = sessOf s (1 - i) ∧ (∀ j, 4 + 4 * i ≤ j → j < 8 + 4 * i → t.slot j = {}) ∧ (∀ j, j < 4 + 4 * i ∨ 7 + 4 * i < j → t.slot j = s.slot j)))
    ∧ ((sessOf s i).finished = true →
      (leAt b 1 1 = 0xE9 → leAt b 2 1 = 1 → ∃ t, exec (.keyUpdate m) s = .next t
        ∧ t = { s with out := t.out, rhmb := { s.rhmb with sems := t.rhmb.sems }, free := t.free, hashu := t.hashu, chrt := t.chrt, spdm := { s.spdm with s0 := t.spdm.s0, s1 := t.spdm.s1 } }
        ∧ sessOf t i = { sessOf s i with updReq := (sessOf s i).updReq + 1, seqReq := 0, seqRsp := (sessOf s i).seqRsp + 1 } ∧ sessOf t (1 - i) = sessOf s (1 - i)
        ∧ (t.slot (6 + 4 * i)).key ^^^ (t.slot (6 + 4 * i)).mask = Config.spdmUpdate k ∧ (∀ j, j ≠ 6 + 4 * i → t.slot j = (noteBad s (7 + 4 * i)).slot j))
      ∧ (leAt b 1 1 = 0xEC → ∃ t, exec (.endSession m) s = .next t
        ∧ t = { s with out := t.out, rhmb := { s.rhmb with sems := t.rhmb.sems }, lark := t.lark, chrt := t.chrt, spdm := { s.spdm with s0 := t.spdm.s0, s1 := t.spdm.s1 } }
        ∧ sessOf t i = {} ∧ sessOf t (1 - i) = sessOf s (1 - i) ∧ (∀ j, 4 + 4 * i ≤ j → j < 8 + 4 * i → t.slot j = {}) ∧ (∀ j, j < 4 + 4 * i ∨ 7 + 4 * i < j → t.slot j = s.slot j)
        ∧ Answered s t base (leAt m 4 4) true (fitted (sealedMsg k2 (sessOf s i)) [0x12, 0x6C, 0, 0])))

/-- `MEAS_CMD` (R467, R471, R472, Table 16.16). That a command finds registers 0 to 7 closed before they are locked too is log 176, deduced. -/
def Obligations.MeasurementsAreExtended : Prop :=
  ∀ (s : State) (a : Access) (v : Word) (m : Nat), WriteReaches s a 0x15 0x40 → fld v 54 0 = 0 → m = fld v 59 55 →
    ((16 ≤ m ∧ m ≤ 23) ∨ (8 ≤ m ∧ m ≤ 12 ∧ a.src = .helm) → ∃ t, exec (.extend a v) s = .next t
      ∧ t = { answer s 0 with meas := { s.meas with regs := t.meas.regs, status := 0 } }
      ∧ measOf t m = Config.sha384 (digestBytes (measOf s m) ++ digestBytes s.meas.event) ∧ ∀ n, n ≠ m → measOf t n = measOf s n)
    ∧ (∀ st, (m < 8 ∧ st = Status.wrongState) ∨ (8 ≤ m ∧ m ≤ 12 ∧ a.src ≠ .helm ∧ st = .partition) ∨ ((13 ≤ m ∧ m ≤ 15 ∨ 24 ≤ m) ∧ st = .badArg) →
      ∃ t, exec (.extend a v) s = .next t ∧ t = { s with bus := t.bus, meas := { s.meas with status := stCode st } })

/-- `PWR_CMD` (R538), the handshakes (R528), losses (R530), deep sleep (R29, R30) and wake (R527). The model's choices: logs 42, 45 and 127. -/
def Obligations.DomainsArePoweredAndLost : Prop :=
  ∀ (s : State) (a : Access) (v : Word) (d : Nat),
    (WriteReaches s a 0xC0 0x48 → fld v 54 0 = 0 → d = fld v 59 55 →
      (s.pwr.running.isSome = true → ∀ c ∈ [Instr.pwrOn a v, .pwrOff a v, .pwrSleep a v], ∃ t, exec c s = .next t ∧ t = { s with bus := t.bus }
        ∧ t.bus.resp = { refused := true, stat := 0x0301, rdata := 0 })
      ∧ (s.pwr.running = none →
        (∀ c st, (c = Instr.pwrOn a v ∧ (d = 0 ∨ 20 ≤ d) ∧ st = Status.badArg)
            ∨ (c = .pwrOff a v ∧ (alwaysOn d = true ∧ (domLive s d = false ∨ (domainNeeded s d = false ∧ domainBusy s d = false)) ∧ st = .badArg
              ∨ domLive s d = true ∧ (domainNeeded s d = true ∨ domainBusy s d = true) ∧ st = .wrongState))
            ∨ (c = .pwrSleep a v ∧ sleepRefusal s = some st) → ∃ t, exec c s = .next t
          ∧ t = { s with bus := t.bus, pwr := { s.pwr with status := stCode st, domain := d } } ∧ t.bus.resp = { refused := true, stat := stCode st, rdata := 0 })
        ∧ (∀ c, (c = Instr.pwrOn a v ∧ 1 ≤ d ∧ d ≤ 19 ∧ domLive s d = true) ∨ (c = .pwrOff a v ∧ alwaysOn d = false ∧ domLive s d = false) → ∃ t, exec c s = .next t
          ∧ t = { s with bus := t.bus, pwr := { s.pwr with status := 0, domain := d } } ∧ bitOf (t.page 0xC0).cause 0 = true)
        ∧ (1 ≤ d → d ≤ 19 → domLive s d = false → (5 ≤ d → d ≤ 12 → domLive s 17 = true) →
          (s.pwr.ack.testBit d = false ∨ s.pwr.req.testBit d = true → exec (.pwrOn a v) s = .next { answer s 0 with pwr := { s.pwr with
            req := setBit s.pwr.req d, rising := setBit s.pwr.rising d, running := some (true, d), acc := a } })
          ∧ (s.pwr.ack.testBit d = true → s.pwr.req.testBit d = false → exec (.pwrOn a v) s = .next { answer s 0 with pwr := { s.pwr with
            again := setBit s.pwr.again d, running := some (true, d), acc := a } }))
        ∧ (alwaysOn d = false → domLive s d = true → domainNeeded s d = false → domainBusy s d = false → ∃ t, exec (.pwrOff a v) s = .next t
          ∧ t.pwr = { s.pwr with req := clrBit s.pwr.req d, live := clrBit s.pwr.live d, rising := clrBit s.pwr.rising d, again := clrBit s.pwr.again d, running := some (false, d), acc := a }
          ∧ (d = 3 → t.astr = {}) ∧ (5 ≤ d → d ≤ 12 → ((s.pipe (d - 5)).st ≠ .retired → t.pipe (d - 5) = {} ∧ (t.sndPipe (d - 5)).cls = .offline) ∧ ((s.pipe (d - 5)).st = .retired → t.pipe (d - 5) = { st := .retired }))
          ∧ (13 ≤ d → d ≤ 16 → t.phlx.lanes = [] ∧ t.phlx.recs = []) ∧ (d = 17 → t.zin = { budgets := s.zin.budgets } ∧ t.aster = {}) ∧ (d = 19 → t.park = {} ∧ t.grp.descA = [] ∧ t.grp.descS = [])
          ∧ t.chrt = s.chrt ∧ t.parts = s.parts ∧ t.logb = s.logb ∧ t.life = s.life ∧ t.mrd = s.mrd)
        ∧ (sleepRefusal s = none → ∃ t, exec (.pwrSleep a v) s = .next t
          ∧ t.pwr.asleep = true ∧ t.pwr.req = 1 ∧ t.pwr.ack = 1 ∧ t.pwr.live = 1 ∧ t.chrt.slots = [] ∧ t.parts = [] ∧ t.meas = {} ∧ t.pins.stationLive = false
          ∧ (s.life.rights = 0 → (∃ key, t.retained = retainedRam s key) ∧ imageHeld t.retained = some (partImage s))
          ∧ (s.life.rights ≠ 0 → ∃ key, t.retained = retainedRam { s with chrt := { s.chrt with slots := [] } } key) ∧ digestHolds t.retained = true
          ∧ leAt t.retained.digest 8 1 = s.helm.slot.toNat ∧ leAt t.retained.digest 9 1 = s.life.st % 256
          ∧ t.logb.array = s.logb.array ∧ t.mrd.step = s.mrd.step)))
    ∧ (∀ (e : BitVec 5) (us : Nat), d = e.toNat →
      (s.pwr.rising.testBit d = false → exec (.pwrAckRise e us) s = .next (pumpAll busFn s))
      ∧ (s.pwr.rising.testBit d = true → ∃ t, exec (.pwrAckRise e us) s = .next (pumpAll busFn t)
        ∧ t.pwr = { s.pwr with
            req := setBit s.pwr.req d, ack := setBit s.pwr.ack d, live := setBit s.pwr.live d, rising := clrBit s.pwr.rising d, again := clrBit s.pwr.again d, waitMax := max s.pwr.waitMax (min us 0xFFFF)
            running := if s.pwr.running = some (true, d) then none else s.pwr.running, status := if s.pwr.running = some (true, d) then 0 else s.pwr.status
            domain := if s.pwr.running = some (true, d) then d else s.pwr.domain }
        ∧ (50 < us → bitOf (t.page 0xC0).cause 2 = true) ∧ (s.pwr.running = some (true, d) → bitOf (t.page 0xC0).cause 0 = true)
        ∧ (5 ≤ d → d ≤ 12 → s.helm.stage ≠ .firmware → (s.pipe (d - 5)).st ≠ .retired → (t.pipe (d - 5)).st = .loading))
      ∧ (s.pwr.req.testBit d = true ∨ s.pwr.ack.testBit d = false → exec (.pwrAckFall e) s = .next s)
      ∧ (s.pwr.req.testBit d = false → s.pwr.ack.testBit d = true → s.pwr.running ≠ some (false, d) →
        exec (.pwrAckFall e) s = .next { s with pwr := { s.pwr with
          ack := clrBit s.pwr.ack d, again := if s.pwr.again.testBit d = true then clrBit s.pwr.again d else s.pwr.again
          req := if s.pwr.again.testBit d = true then setBit s.pwr.req d else s.pwr.req, rising := if s.pwr.again.testBit d = true then setBit s.pwr.rising d else s.pwr.rising } })
      ∧ (s.pwr.req.testBit d = false → s.pwr.ack.testBit d = true → s.pwr.running = some (false, d) → s.pwr.again.testBit d = false → ∃ t, exec (.pwrAckFall e) s = .next t
        ∧ t = { s with bus := t.bus, pwr := { s.pwr with ack := clrBit s.pwr.ack d, running := none, status := 0, domain := d } } ∧ bitOf (t.page 0xC0).cause 0 = true)
      ∧ (d = 0 ∨ s.pwr.req.testBit d = false ∨ s.pwr.ack.testBit d = false → exec (.powerLoss e) s = .next s)
      ∧ (d ≠ 0 → s.pwr.req.testBit d = true → s.pwr.ack.testBit d = true → ∃ t, exec (.powerLoss e) s = .next t
        ∧ t.pwr.lost = setBit s.pwr.lost d ∧ t.pwr.ack = clrBit s.pwr.ack d ∧ bitOf (t.page 0xC0).cause 1 = true ∧ t.parts = s.parts
        ∧ ((d ≤ 2 ∨ d = 4 ∨ 17 ≤ d) → t.blk = { s.blk with held := true, ready := false } ∧ t.pins.stationLive = false ∧ t.pwr.req = 1 ∧ t.pwr.live = 1)
        ∧ (d = 3 → s.zin.waiting = none → t.blk = s.blk ∧ t.astr = {} ∧ t.pwr.req = clrBit s.pwr.req 3 ∧ t.pwr.live = clrBit s.pwr.live 3)
        ∧ (13 ≤ d → d ≤ 16 → t.blk = s.blk ∧ t.phlx.lanes = [] ∧ t.phlx.recs = [] ∧ (anyAdmitted s = false → tableWf {} s.phlx.wins = true → ∀ w, (t.win w).shadowValid = false) ∧ t.pwr.live = clrBit s.pwr.live d)
        ∧ (5 ≤ d → d ≤ 12 → t.blk = s.blk ∧ (t.pipe (d - 5)).buf = [] ∧ ((s.pipe (d - 5)).st ≠ .retired → (t.pipe (d - 5)).st = .offline) ∧ t.pwr.live = clrBit s.pwr.live d)))
    ∧ (∀ boot : BootIn, (s.pwr.asleep = false ∨ s.blk.tamper = true ∨ s.blk.held = true → exec (.wakeReq boot) s = .next s)
      ∧ (s.pwr.asleep = true → s.blk.tamper = false → s.blk.held = false → s.logb.lifted = false → s.life.scrapping = false → s.hashu.ready = false → boot.noise = [] →
        ∃ t, exec (.wakeReq boot) s = .next t ∧ t = { s with pwr := t.pwr, clkr := { s.clkr with arithLock := true, secLock := true }, helm := { s.helm with boot := t.helm.boot } }
          ∧ t.pwr.asleep = false ∧ (∀ n ∈ [1, 2, 4, 17, 18, 19], domLive t n = true) ∧ t.helm.boot.map (fun r => (r.wait, r.fast)) = some (.noise, true)))

/-- The comparator (R11 to R15), the loops (R25), `CLK_PORT` (R539) and `OTP_VPP` (R533). The TAP (R429, R458, R459; Table 15.8). What Helm's firmware puts up for the next exchange is free (log 161); a second path A write (log 153) is the model's choice too, and whose accept codes count
is deduced (log 116). -/
def Obligations.PinsVerdictsAndTapAct : Prop :=
  (
    ∀ (s : State) (k : VerdictKind) (w : BitVec 32) (gap : Nat),
      (helmRuns s = false → ∀ pathB, exec (.verdictWrite k pathB w gap) s = .next s)
      ∧ (helmRuns s = false ∨ verdictReg s k = none → exec (.verdictWindowExpire k) s = .next s)
      ∧ (helmRuns s = true →
        (verdictReg s k = none → exec (.verdictWrite k false w gap) s = .next (setVerdictReg s k (some w.toNat)))
        ∧ (∀ c, (c = Instr.verdictWrite k false w gap ∧ verdictReg s k ≠ none) ∨ (c = .verdictWrite k true w gap ∧ verdictReg s k = none) ∨ (c = .verdictWindowExpire k ∧ verdictReg s k ≠ none)
            ∨ (c = .verdictWrite k true w gap ∧ ∃ x, verdictReg s k = some x ∧ (65536 < gap ∨ x + w.toNat ≠ 0xFFFFFFFF ∨ (x ≠ acceptCode k ∧ w.toNat = acceptCode k))) →
          ∃ t, exec c s = .next t ∧ verdictReg t k = none ∧ t.verdict.faults = satInc 0xFFFFFFFF s.verdict.faults
            ∧ (k = .boot → s.blk.recovery = false → t.blk.recovery = true ∧ t.helm.stage = .recovery ∧ (programRuns s = false → t.blk.ready = true))
            ∧ (∀ n, k = .lifecycle → s.helm.boot = none → s.helm.confirming = none → s.life.running = some (.verdict n) → t = { s with bus := t.bus, verdict := t.verdict, life := { s.life with running := none, status := 0x0301, op := 1, stepFailed := 5 } })
            ∧ (k = .keyRelease → s.chrt.delivery = none → t = { s with verdict := t.verdict }))
        ∧ (∀ n x, verdictReg s .lifecycle = some x → x + w.toNat = 0xFFFFFFFF → gap ≤ 65536 → s.life.running = some (.verdict n) →
          (x ≠ 0x69D22D96 → w.toNat ≠ 0x69D22D96 → s.helm.boot = none → s.helm.confirming = none → ∃ t, exec (.verdictWrite .lifecycle true w gap) s = .next t
            ∧ t = { s with bus := t.bus, verdict := { s.verdict with lifecycle := none }, life := { s.life with running := none, status := 0x0301, op := 1, stepFailed := 5 } })
          ∧ (x = 0x69D22D96 → n ≠ 5 → s.logb.running = none → s.logb.vpp = true → ∃ t p, exec (.verdictWrite .lifecycle true w gap) s = .next t
            ∧ t = { s with verdict := { s.verdict with lifecycle := none }, life := { s.life with running := some (.word n) }, logb := { s.logb with running := some p } }
            ∧ p.kind = .event ∧ p.words = [eventAt (n - 2)] ∧ p.pulses = wordPulses (eventAt (n - 2)).1 (eventAt (n - 2)).2 (codeword (eventCode (n - 2)))))
        ∧ (∀ d, verdictReg s .keyRelease = some 0x5AF00FA5 → w = 0xA50FF05A → gap ≤ 65536 → s.chrt.delivery = some d → d.sent = false →
          (∀ st, deliverCheck s d.slot d.dest = some st → ∃ t, exec (.verdictWrite .keyRelease true w gap) s = .next t
            ∧ t.chrt.delivery = none ∧ t.chrt.kdStatus = stCode st ∧ t.chrt.kdSlot = d.slot ∧ t.out = s.out)
          ∧ (deliverCheck s d.slot d.dest = none → ∃ t beats, exec (.verdictWrite .keyRelease true w gap) s = .next t
            ∧ t = { s with verdict := { s.verdict with keyRelease := none }, chrt := { s.chrt with delivery := some { d with sent := true } }, out := s.out ++ beats }
            ∧ beats = (List.range 4).map (fun b => .kdp b d.dest (atEpoch (s.slot d.slot).attr) (if atBlock (s.slot d.slot).attr then 0x1F else atPart (s.slot d.slot).attr)
                (BitVec.ofNat 64 (((s.slot d.slot).key ^^^ (s.slot d.slot).mask).toNat / 2 ^ (64 * b))))))
        ∧ (verdictReg s .boot = some 0x3CA55AC3 → w = 0xC35AA53C → gap ≤ 65536 → s.helm.boot = none →
          exec (.verdictWrite .boot true w gap) s = .next { s with verdict := { s.verdict with boot := none } }))
      ∧ (∀ arith : Bool, (if arith then s.clkr.arithLock else s.clkr.secLock) = false ∨ s.pwr.asleep = true → exec (.loopLockLoss arith) s = .next s)
      ∧ (∀ arith : Bool, (if arith then s.clkr.arithLock else s.clkr.secLock) = true → s.pwr.asleep = false → (arith = true → admittedAll s = []) → ∃ t, exec (.loopLockLoss arith) s = .next t
        ∧ t = { s with bus := t.bus, pins := { s.pins with stationLive := false }, clkr := { s.clkr with
            losses := bump s.clkr.losses 1, arithLock := s.clkr.arithLock && !arith, secLock := s.clkr.secLock && arith } }
        ∧ bitOf (t.page 0xC1).cause (if arith then 0 else 1) = true)
      ∧ (∀ arith : Bool, (s.pwr.asleep = true → exec (.loopLockRegain arith) s = .next (pumpAll busFn s))
        ∧ (∀ u, u = { s with clkr := { s.clkr with arithLock := s.clkr.arithLock || arith, secLock := s.clkr.secLock || !arith } } → s.pwr.asleep = false →
          (inReset u = true → exec (.loopLockRegain arith) s = .next (pumpAll busFn u))
          ∧ (inReset u = false → arith = true → s.park.frames = [] → s.phlx.waiting = none → s.astr.st ≠ .loading → (∀ k, (s.pipe k).st ≠ .loading) → s.pins.stationLive = false →
            ∃ t, exec (.loopLockRegain arith) s = .next (pumpAll busFn t) ∧ t.clkr = u.clkr ∧ (liveCond u = true → t.pins.stationLive = true) ∧ (liveCond u = false → t = u))
          ∧ (inReset u = false → arith = false → s.helm.boot = none → s.helm.confirming = none → s.life.ended = none → s.life.running = none → s.life.scrapping = false → s.logb.queue = [] →
              s.astr.st ≠ .loading → (∀ k, (s.pipe k).st ≠ .loading) → s.pins.stationLive = false →
            ∃ t, exec (.loopLockRegain arith) s = .next (pumpAll busFn t) ∧ t.clkr = u.clkr ∧ (liveCond u = true → t.pins.stationLive = true) ∧ (liveCond u = false → t = u))))
      ∧ (∀ mhz : BitVec 12, (dead s = true → exec (.portRange mhz) s = .next s)
        ∧ (dead s = false → ∃ t, exec (.portRange mhz) s = .next t ∧ t = { s with bus := t.bus, clkr := { s.clkr with portMhz := mhz.toNat } }
          ∧ (mhz.toNat < 1000 ∨ 1600 < mhz.toNat → s.clkr.portMhz = 0 ∨ (1000 ≤ s.clkr.portMhz ∧ s.clkr.portMhz ≤ 1600) → bitOf (t.page 0xC1).cause 2 = true)
          ∧ (1000 ≤ mhz.toNat → mhz.toNat ≤ 1600 → t.bus = s.bus)))
      ∧ (∀ c : ProgCut, (s.life.scrapping = false → exec (.vppChange true c) s = .next { s with logb := { s.logb with vpp := true } })
        ∧ (s.logb.vpp = false → exec (.vppChange false c) s = .next s)
        ∧ (s.logb.vpp = true → ∃ t, exec (.vppChange false c) s = .next t ∧ t = { s with logb := t.logb } ∧ t.logb.vpp = false
          ∧ t.logb.running = s.logb.running.map (fun p => { p with pulses := [] }) ∧ t.logb.sensed = s.logb.sensed)))
  ∧ (
    ∀ (s : State) (boot : BootIn) (w : Word),
      exec (.tapLiftHold false boot) s = .next { s with life := { s.life with tapIr := 0x11 } }
      ∧ (s.logb.hold = false ∨ s.logb.lifted = true ∨ (s.life.st ≠ 1 ∧ s.life.st ≠ 4) ∨ s.life.scrapping = true ∨ s.blk.tamper = true ∨ s.pwr.asleep = true ∨ domLive s 1 = false
          ∨ regionFails s s.logb.sensed 5 = true →
        exec (.tapLiftHold true boot) s = .next { s with life := { s.life with tapIr := 0x11 } })
      ∧ (s.logb.hold = true → s.logb.lifted = false → (s.life.st = 1 ∨ s.life.st = 4) → s.life.scrapping = false → s.blk.tamper = false → s.pwr.asleep = false → domLive s 1 = true →
        regionFails s s.logb.sensed 5 = false → (lifeDecide s.logb.sensed).hold = false →
        (s.clkr.secLock = true → boot.noise = [] → ∃ t, exec (.tapLiftHold true boot) s = .next t
          ∧ t = { s with logb := { s.logb with lifted := true }, blk := { s.blk with held := strapsBad s }, life := { s.life with tapIr := 0x11 }, free := t.free, meas := t.meas }
          ∧ ∀ m, m ≠ 11 → measOf t m = measOf s m)
        ∧ (s.clkr.secLock = false → ∃ r, exec (.tapLiftHold true boot) s = .next { s with
            logb := { s.logb with lifted := true }, blk := { s.blk with held := strapsBad s }, life := { s.life with tapIr := 0x11 }, helm := { s.helm with boot := some r } }
            ∧ r.wait = .clock ∧ r.inp = boot))
      ∧ (helmRuns s = false → exec (.tapMbox w) s = .next { s with life := { s.life with tapIr := 0x12 } })
      ∧ (helmRuns s = true → ∃ t, exec (.tapMbox w) s = .next t
          ∧ t = { s with free := t.free, out := s.out ++ [.tap s.life.mboxOut], life := { s.life with tapIr := 0x12, mboxIn := w, mboxOut := t.life.mboxOut } }))

/-- `PORST` (R531, R534), `BLK_SOFT_RESET` (R68, Table 2.25) and `TAMPER_N` (R532), of a block whose Logbook is idle, at starts that wait for the host die. -/
def Obligations.ResetsLeaveTheirState : Prop :=
  ∀ (s : State) (cut : ProgCut) (boot : BootIn), boot.store = none → boot.noise = [] →
    (∀ (profile : BitVec 2) (base : BitVec 32), s.logb.running = none → ∃ t, exec (.porst profile base cut boot) s = .next t
      ∧ t.blk.profile = profile.toNat ∧ t.pins.bootBase = base.toNat ∧ t.blk.ready = false ∧ t.pins.stationLive = false ∧ t.pins.kdpZeroise = false
      ∧ t.logb.array = s.logb.array ∧ t.logb.sensed = senseAll t.logb.spread s.logb.array ∧ t.logb.wFuse = s.logb.wFuse ∧ t.logb.rFuse = s.logb.rFuse
      ∧ t.life.st = (lifeDecide t.logb.sensed).st ∧ t.life.rights = 0 ∧ t.life.pending = 0
      ∧ t.bus = {} ∧ t.lark = {} ∧ t.grp = {} ∧ t.park = {} ∧ t.phlx = {} ∧ t.zin = {} ∧ t.snd = {} ∧ t.mrd = {} ∧ t.keyClock = [] ∧ t.parts = [] ∧ t.rhmb = {} ∧ t.meas = {} ∧ t.spdm = {}
      ∧ t.chrt = { modes := t.chrt.modes } ∧ t.retained = {} ∧ t.astr = {} ∧ t.out = s.out)
    ∧ (∀ (a : Access) (v : Word), WriteReaches s a 0x00 0x60 →
      (v ≠ 0xA5 → ∃ t, exec (.blkSoftReset a v boot) s = .next t ∧ t = { s with bus := t.bus } ∧ t.bus.resp = { refused := true, stat := 0x0101, rdata := 0 })
      ∧ (v = 0xA5 → s.life.scrapping = false → ∃ t, exec (.blkSoftReset a v boot) s = .next t
        ∧ t.blk = { s.blk with ready := false, recovery := false, resetCause := 2 } ∧ t.pins.stationLive = false
        ∧ t.logb.array = s.logb.array ∧ t.logb.sensed = s.logb.sensed ∧ t.mrd.step = s.mrd.step ∧ t.mrd.wall = s.mrd.wall ∧ t.mrd.seen = false ∧ t.mrd.sched = s.mrd.sched
        ∧ t.life.st = s.life.st ∧ t.life.pending = s.life.pending ∧ t.life.rights = 0 ∧ t.life.nonceValid = false
        ∧ t.rhmb.chans = [] ∧ t.park.frames = [] ∧ t.phlx = {} ∧ t.grp.lists = [] ∧ t.spdm = {}
        ∧ (tableWf {} s.parts = true → ∀ p, (t.part p).st = (s.part p).st ∧ (t.part p).owners = (s.part p).owners ∧ (t.part p).policy = (s.part p).policy)
        ∧ (tableWf {} s.bus.pages = true → ∀ p, t.page p = { lock := (s.page p).lock })))
    ∧ (s.blk.tamper = true → exec (.tamperAssert cut) s = .next s)
    ∧ (s.blk.tamper = false → s.logb.running = none → ∃ t, exec (.tamperAssert cut) s = .next t
      ∧ t.blk = { s.blk with tamper := true, ready := false } ∧ (∀ i, t.slot i = {}) ∧ t.chrt.root = none ∧ t.astr.mem = [] ∧ t.astr.slots = [] ∧ t.retained = {}
      ∧ t.pins.kdpZeroise = true ∧ t.pins.stationLive = false ∧ t.logb.array = s.logb.array ∧ t.parts = s.parts ∧ t.verdict = { faults := s.verdict.faults }
      ∧ ∀ c x, accessOf c = some x → exec c t = .next t)
    ∧ (s.blk.tamper = false → exec (.tamperRelease boot) s = .next s)
    ∧ (s.blk.tamper = true → s.life.scrapping = false → ∃ t, exec (.tamperRelease boot) s = .next t
      ∧ t.blk = { s.blk with tamper := false, ready := false, recovery := false, resetCause := 4 } ∧ t.pins.stationLive = false
      ∧ (s.blk.held = false → s.clkr.secLock = true → ∀ p, p < 32 → (t.part p).st = .free) ∧ (∀ p, p < 32 → (t.part p).st ≠ .owned) ∧ t.logb.array = s.logb.array ∧ t.life.st = s.life.st ∧ t.life.rights = 0)

/-- R35: the block does not leave reset on a bad profile strap, and no register is reachable. -/
def Obligations.BadStrapsHoldTheBlock : Prop :=
  (∀ (s : State) (profile : BitVec 2) (base : BitVec 32) (cut : ProgCut) (boot : BootIn), profile = 0 ∨ profile = 3 →
    ∃ t, exec (.porst profile base cut boot) s = .next t
      ∧ t.blk.profile = profile.toNat ∧ t.blk.held = true ∧ t.blk.ready = false ∧ t.pins.stationLive = false)
  ∧ (∀ (c : Instr) (s t : State), s.blk.profile = 0 ∨ s.blk.profile = 3 → s.blk.held = true → s.pins.stationLive = false →
    (∀ p b k x, c ≠ .porst p b k x) → exec c s = .next t →
    t.blk.held = true ∧ t.pins.stationLive = false ∧ t.blk.profile = s.blk.profile ∧ (∀ x, accessOf c = some x → t = s))
  ∧ (∀ (c : Instr) (s : State), s.blk.held = true → ∀ x, accessOf c = some x → exec c s = .next s)

/-- The state after reset satisfies the invariant of `LegalStatesStayLegal`. -/
def Obligations.ResetIsLegal : Prop := Legal State.reset

/-- Every step keeps the invariant, from any state that meets it. -/
def Obligations.LegalStatesStayLegal : Prop := ∀ s t : State, Legal s → step s = .next t → Legal t

/-- A bit reads 1 once it is programmed (R410), locks are fuses (R419), and the straps are sampled at `PORST_N` alone (R534). -/
def Obligations.ProgrammedBitsStay : Prop :=
  ∀ (c : Instr) (s t : State), exec c s = .next t →
    t.pending = s.pending
    ∧ (∀ ph b, ((tget {} s.logb.array ph).loose.testBit b = true → (tget {} t.logb.array ph).loose.testBit b = true)
      ∧ ((tget {} s.logb.array ph).nominal.testBit b = true → (tget {} t.logb.array ph).nominal.testBit b = true)
      ∧ ((tget {} s.logb.array ph).strict.testBit b = true → (tget {} t.logb.array ph).strict.testBit b = true))
    ∧ (∀ r e, ((tget 0 s.logb.wFuse r).testBit e = true → (tget 0 t.logb.wFuse r).testBit e = true)
      ∧ ((tget 0 s.logb.rFuse r).testBit e = true → (tget 0 t.logb.rFuse r).testBit e = true))
    ∧ ((∃ p b k x, c = .porst p b k x) ∨ (t.blk.profile = s.blk.profile ∧ t.pins.bootBase = s.pins.bootBase))

/-- R51, over every command from every legal state. -/
def Obligations.LocksHoldUntilPorst : Prop :=
  ∀ (c : Instr) (s t : State), Legal s → exec c s = .next t →
    (∀ a, isMgmt a = false → ((∃ p v, c = .pageLockWrite a p v) ∨ ∃ addr be v, c = .registerWrite a addr be v) → ∀ q, (t.page q).lock = (s.page q).lock)
    ∧ ((∃ p b k x, c = .porst p b k x) ∨ ∀ q, (s.page q).lock = true → (t.page q).lock = true)
    ∧ (∀ a v b, c = .blkSoftReset a v b → ∀ q, (t.page q).lock = (s.page q).lock)
    ∧ (∀ p b k x, c = .porst p b k x → ∀ q, (t.page q).lock = false)
    ∧ (∀ k mgmt addr v, k < 12 ∨ (k < 16 ∧ chanOwner s k ≠ none) → ∀ q, ((busFn s (chanAccess s k mgmt) true addr v).page q).lock = (s.page q).lock)
end

