-- ==== Sys2Proof/Laws/Tables.lean ====
section
/-! SUPPORT. Sparse tables: an entry reads as what was last written, writing one entry leaves every other, and the canonical form is
kept, so that equal tables are equal lists. -/

namespace Sys2Proof.Machine

@[simp] theorem tget_nil {α : Type} (d : α) (k : Nat) : tget d [] k = d := rfl

theorem tget_tdel {α : Type} (d : α) (t : Table α) (k j : Nat) : tget d (tdel t k) j = if j = k then d else tget d t j := by
  induction t with
  | nil => simp [tdel, tget]
  | cons e r ih =>
    obtain ⟨i, v⟩ := e
    simp only [tdel, List.filter_cons] at ih ⊢
    by_cases hi : i = k
    · subst hi
      simp only [ne_eq, not_true_eq_false, decide_false, Bool.false_eq_true, if_false, tget, ih]
      by_cases hj : j = i
      · simp [hj]
      · simp [hj, Ne.symm hj]
    · simp only [ne_eq, hi, not_false_eq_true, decide_true, if_true, tget, ih]
      by_cases hj : i = j
      · subst hj; simp [hi]
      · simp [hj]

theorem tget_tins {α : Type} (d : α) (t : Table α) (k j : Nat) (v : α) : tget d (tins t k v) j = if j = k then v else tget d t j := by
  induction t with
  | nil => simp [tins, tget, eq_comm]
  | cons e r ih =>
    obtain ⟨i, w⟩ := e
    simp only [tins]
    split
    · simp only [tget, eq_comm]
    · split
      · subst_vars
        by_cases hj : j = i
        · simp [tget, hj]
        · have hi : ¬ i = j := fun h => hj h.symm
          simp only [tget, hi, hj, if_false]
      · rename_i hik
        by_cases hj : i = j
        · subst hj; simp [tget, hik]
        · simp only [tget, hj, if_false, ih]

/-- A table reads as what was last written at each key. -/
theorem tget_tset {α : Type} [DecidableEq α] (d : α) (t : Table α) (k j : Nat) (v : α) :
    tget d (tset d t k v) j = if j = k then v else tget d t j := by
  unfold tset
  split
  · rename_i h; subst h; exact tget_tdel ..
  · exact tget_tins ..

@[simp] theorem tget_tset_self {α : Type} [DecidableEq α] (d : α) (t : Table α) (k : Nat) (v : α) : tget d (tset d t k v) k = v := by
  simp [tget_tset]

@[simp] theorem tget_tset_ne {α : Type} [DecidableEq α] (d : α) (t : Table α) (k j : Nat) (v : α) (h : j ≠ k) :
    tget d (tset d t k v) j = tget d t j := by
  simp [tget_tset, h]

/-! ### The canonical form -/

theorem tins_mem {α : Type} (t : Table α) (k : Nat) (v : α) (e : Nat × α) (h : e ∈ tins t k v) : e = (k, v) ∨ e ∈ t := by
  induction t with
  | nil => simpa [tins] using h
  | cons a r ih =>
    obtain ⟨i, w⟩ := a
    simp only [tins] at h
    split at h
    · simpa using h
    · split at h
      · simp at h; rcases h with h | h
        · exact .inl h
        · exact .inr (by simp [h])
      · simp at h; rcases h with h | h
        · exact .inr (by simp [h])
        · rcases ih h with h | h
          · exact .inl h
          · exact .inr (by simp [h])

theorem tins_sorted {α : Type} (t : Table α) (k : Nat) (v : α) (h : t.Pairwise (fun a b => a.1 < b.1)) :
    (tins t k v).Pairwise (fun a b => a.1 < b.1) := by
  induction t with
  | nil => simp [tins]
  | cons a r ih =>
    obtain ⟨i, w⟩ := a
    rw [List.pairwise_cons] at h
    simp only [tins]
    split
    · rename_i hk
      refine List.pairwise_cons.2 ⟨?_, List.pairwise_cons.2 h⟩
      intro b hb
      simp at hb
      rcases hb with rfl | hb
      · exact hk
      · exact Nat.lt_trans hk (h.1 b hb)
    · split
      · subst_vars; exact List.pairwise_cons.2 h
      · refine List.pairwise_cons.2 ⟨?_, ih h.2⟩
        intro b hb
        rcases tins_mem r k v b hb with rfl | hb
        · simp; omega
        · exact h.1 b hb

/-- Writing an entry keeps the canonical form. -/
theorem tset_wf {α : Type} [DecidableEq α] (d : α) (t : Table α) (k : Nat) (v : α) (h : tableWf d t = true) :
    tableWf d (tset d t k v) = true := by
  simp only [tableWf, Bool.and_eq_true, decide_eq_true_eq, List.all_eq_true] at h ⊢
  unfold tset
  split
  · exact ⟨h.1.filter _, fun e he => h.2 e (List.mem_of_mem_filter he)⟩
  · rename_i hv
    refine ⟨tins_sorted _ _ _ h.1, fun e he => ?_⟩
    rcases tins_mem _ _ _ _ he with rfl | he
    · exact hv
    · exact h.2 e he

/-- Changing every entry keeps the canonical form. -/
theorem tmap_wf {α : Type} [DecidableEq α] (d : α) (f : Nat → α → α) (t : Table α) (h : tableWf d t = true) :
    tableWf d (tmap d f t) = true := by
  simp only [tableWf, Bool.and_eq_true, decide_eq_true_eq, List.all_eq_true] at h ⊢
  refine ⟨?_, fun e he => by simpa using (List.mem_filter.1 he).2⟩
  refine List.Pairwise.filter _ ?_
  exact List.pairwise_map.2 (h.1.imp (fun x => x))

end Sys2Proof.Machine
end

