-- ==== Sys2Proof/Laws/State.lean ====
section
/-! SUPPORT. One lemma for each field and each named update of the state, and for each indexed record its reading after the update. -/

namespace Sys2Proof.Machine

/-! ### `setPage` -/

@[simp] theorem State.setPage_pending (s : State) (p : Nat) (v : Page) : (s.setPage p v).pending = s.pending := rfl
@[simp] theorem State.setPage_blk (s : State) (p : Nat) (v : Page) : (s.setPage p v).blk = s.blk := rfl
@[simp] theorem State.setPage_pins (s : State) (p : Nat) (v : Page) : (s.setPage p v).pins = s.pins := rfl
@[simp] theorem State.setPage_clkr (s : State) (p : Nat) (v : Page) : (s.setPage p v).clkr = s.clkr := rfl
@[simp] theorem State.setPage_pwr (s : State) (p : Nat) (v : Page) : (s.setPage p v).pwr = s.pwr := rfl
@[simp] theorem State.setPage_verdict (s : State) (p : Nat) (v : Page) : (s.setPage p v).verdict = s.verdict := rfl
@[simp] theorem State.setPage_retained (s : State) (p : Nat) (v : Page) : (s.setPage p v).retained = s.retained := rfl
@[simp] theorem State.setPage_lark (s : State) (p : Nat) (v : Page) : (s.setPage p v).lark = s.lark := rfl
@[simp] theorem State.setPage_phlx (s : State) (p : Nat) (v : Page) : (s.setPage p v).phlx = s.phlx := rfl
@[simp] theorem State.setPage_grp (s : State) (p : Nat) (v : Page) : (s.setPage p v).grp = s.grp := rfl
@[simp] theorem State.setPage_park (s : State) (p : Nat) (v : Page) : (s.setPage p v).park = s.park := rfl
@[simp] theorem State.setPage_aster (s : State) (p : Nat) (v : Page) : (s.setPage p v).aster = s.aster := rfl
@[simp] theorem State.setPage_zin (s : State) (p : Nat) (v : Page) : (s.setPage p v).zin = s.zin := rfl
@[simp] theorem State.setPage_snd (s : State) (p : Nat) (v : Page) : (s.setPage p v).snd = s.snd := rfl
@[simp] theorem State.setPage_mrd (s : State) (p : Nat) (v : Page) : (s.setPage p v).mrd = s.mrd := rfl
@[simp] theorem State.setPage_keyClock (s : State) (p : Nat) (v : Page) : (s.setPage p v).keyClock = s.keyClock := rfl
@[simp] theorem State.setPage_parts (s : State) (p : Nat) (v : Page) : (s.setPage p v).parts = s.parts := rfl
@[simp] theorem State.setPage_chrt (s : State) (p : Nat) (v : Page) : (s.setPage p v).chrt = s.chrt := rfl
@[simp] theorem State.setPage_hashu (s : State) (p : Nat) (v : Page) : (s.setPage p v).hashu = s.hashu := rfl
@[simp] theorem State.setPage_astr (s : State) (p : Nat) (v : Page) : (s.setPage p v).astr = s.astr := rfl
@[simp] theorem State.setPage_logb (s : State) (p : Nat) (v : Page) : (s.setPage p v).logb = s.logb := rfl
@[simp] theorem State.setPage_life (s : State) (p : Nat) (v : Page) : (s.setPage p v).life = s.life := rfl
@[simp] theorem State.setPage_rhmb (s : State) (p : Nat) (v : Page) : (s.setPage p v).rhmb = s.rhmb := rfl
@[simp] theorem State.setPage_helm (s : State) (p : Nat) (v : Page) : (s.setPage p v).helm = s.helm := rfl
@[simp] theorem State.setPage_meas (s : State) (p : Nat) (v : Page) : (s.setPage p v).meas = s.meas := rfl
@[simp] theorem State.setPage_spdm (s : State) (p : Nat) (v : Page) : (s.setPage p v).spdm = s.spdm := rfl
@[simp] theorem State.setPage_free (s : State) (p : Nat) (v : Page) : (s.setPage p v).free = s.free := rfl
@[simp] theorem State.setPage_out (s : State) (p : Nat) (v : Page) : (s.setPage p v).out = s.out := rfl
@[simp] theorem State.setPage_bus_decode (s : State) (p : Nat) (v : Page) : (s.setPage p v).bus.decode = s.bus.decode := rfl
@[simp] theorem State.setPage_bus_latch (s : State) (p : Nat) (v : Page) : (s.setPage p v).bus.latch = s.bus.latch := rfl
@[simp] theorem State.setPage_bus_resp (s : State) (p : Nat) (v : Page) : (s.setPage p v).bus.resp = s.bus.resp := rfl
@[simp] theorem State.setPage_bus_lineMask (s : State) (p : Nat) (v : Page) : (s.setPage p v).bus.lineMask = s.bus.lineMask := rfl
theorem State.setPage_page_eq (s : State) (p : Nat) (v : Page) (j : Nat) : (s.setPage p v).page j = if j = p then v else s.page j := tget_tset ..
@[simp] theorem State.setPage_page_self (s : State) (p : Nat) (v : Page) : (s.setPage p v).page p = v := tget_tset_self ..
@[simp] theorem State.setPage_page_ne (s : State) (p : Nat) (v : Page) (j : Nat) (h : j ≠ p) : (s.setPage p v).page j = s.page j := tget_tset_ne _ _ _ _ _ h

/-! ### `setPart` -/

@[simp] theorem State.setPart_pending (s : State) (p : Nat) (v : Part) : (s.setPart p v).pending = s.pending := rfl
@[simp] theorem State.setPart_bus (s : State) (p : Nat) (v : Part) : (s.setPart p v).bus = s.bus := rfl
@[simp] theorem State.setPart_blk (s : State) (p : Nat) (v : Part) : (s.setPart p v).blk = s.blk := rfl
@[simp] theorem State.setPart_pins (s : State) (p : Nat) (v : Part) : (s.setPart p v).pins = s.pins := rfl
@[simp] theorem State.setPart_clkr (s : State) (p : Nat) (v : Part) : (s.setPart p v).clkr = s.clkr := rfl
@[simp] theorem State.setPart_pwr (s : State) (p : Nat) (v : Part) : (s.setPart p v).pwr = s.pwr := rfl
@[simp] theorem State.setPart_verdict (s : State) (p : Nat) (v : Part) : (s.setPart p v).verdict = s.verdict := rfl
@[simp] theorem State.setPart_retained (s : State) (p : Nat) (v : Part) : (s.setPart p v).retained = s.retained := rfl
@[simp] theorem State.setPart_lark (s : State) (p : Nat) (v : Part) : (s.setPart p v).lark = s.lark := rfl
@[simp] theorem State.setPart_phlx (s : State) (p : Nat) (v : Part) : (s.setPart p v).phlx = s.phlx := rfl
@[simp] theorem State.setPart_grp (s : State) (p : Nat) (v : Part) : (s.setPart p v).grp = s.grp := rfl
@[simp] theorem State.setPart_park (s : State) (p : Nat) (v : Part) : (s.setPart p v).park = s.park := rfl
@[simp] theorem State.setPart_aster (s : State) (p : Nat) (v : Part) : (s.setPart p v).aster = s.aster := rfl
@[simp] theorem State.setPart_zin (s : State) (p : Nat) (v : Part) : (s.setPart p v).zin = s.zin := rfl
@[simp] theorem State.setPart_snd (s : State) (p : Nat) (v : Part) : (s.setPart p v).snd = s.snd := rfl
@[simp] theorem State.setPart_mrd (s : State) (p : Nat) (v : Part) : (s.setPart p v).mrd = s.mrd := rfl
@[simp] theorem State.setPart_keyClock (s : State) (p : Nat) (v : Part) : (s.setPart p v).keyClock = s.keyClock := rfl
@[simp] theorem State.setPart_chrt (s : State) (p : Nat) (v : Part) : (s.setPart p v).chrt = s.chrt := rfl
@[simp] theorem State.setPart_hashu (s : State) (p : Nat) (v : Part) : (s.setPart p v).hashu = s.hashu := rfl
@[simp] theorem State.setPart_astr (s : State) (p : Nat) (v : Part) : (s.setPart p v).astr = s.astr := rfl
@[simp] theorem State.setPart_logb (s : State) (p : Nat) (v : Part) : (s.setPart p v).logb = s.logb := rfl
@[simp] theorem State.setPart_life (s : State) (p : Nat) (v : Part) : (s.setPart p v).life = s.life := rfl
@[simp] theorem State.setPart_rhmb (s : State) (p : Nat) (v : Part) : (s.setPart p v).rhmb = s.rhmb := rfl
@[simp] theorem State.setPart_helm (s : State) (p : Nat) (v : Part) : (s.setPart p v).helm = s.helm := rfl
@[simp] theorem State.setPart_meas (s : State) (p : Nat) (v : Part) : (s.setPart p v).meas = s.meas := rfl
@[simp] theorem State.setPart_spdm (s : State) (p : Nat) (v : Part) : (s.setPart p v).spdm = s.spdm := rfl
@[simp] theorem State.setPart_free (s : State) (p : Nat) (v : Part) : (s.setPart p v).free = s.free := rfl
@[simp] theorem State.setPart_out (s : State) (p : Nat) (v : Part) : (s.setPart p v).out = s.out := rfl
theorem State.setPart_part_eq (s : State) (p : Nat) (v : Part) (j : Nat) : (s.setPart p v).part j = if j = p then v else s.part j := tget_tset ..
@[simp] theorem State.setPart_part_self (s : State) (p : Nat) (v : Part) : (s.setPart p v).part p = v := tget_tset_self ..
@[simp] theorem State.setPart_part_ne (s : State) (p : Nat) (v : Part) (j : Nat) (h : j ≠ p) : (s.setPart p v).part j = s.part j := tget_tset_ne _ _ _ _ _ h

/-! ### `setPipe` -/

@[simp] theorem State.setPipe_pending (s : State) (k : Nat) (v : Pipe) : (s.setPipe k v).pending = s.pending := rfl
@[simp] theorem State.setPipe_bus (s : State) (k : Nat) (v : Pipe) : (s.setPipe k v).bus = s.bus := rfl
@[simp] theorem State.setPipe_blk (s : State) (k : Nat) (v : Pipe) : (s.setPipe k v).blk = s.blk := rfl
@[simp] theorem State.setPipe_pins (s : State) (k : Nat) (v : Pipe) : (s.setPipe k v).pins = s.pins := rfl
@[simp] theorem State.setPipe_clkr (s : State) (k : Nat) (v : Pipe) : (s.setPipe k v).clkr = s.clkr := rfl
@[simp] theorem State.setPipe_pwr (s : State) (k : Nat) (v : Pipe) : (s.setPipe k v).pwr = s.pwr := rfl
@[simp] theorem State.setPipe_verdict (s : State) (k : Nat) (v : Pipe) : (s.setPipe k v).verdict = s.verdict := rfl
@[simp] theorem State.setPipe_retained (s : State) (k : Nat) (v : Pipe) : (s.setPipe k v).retained = s.retained := rfl
@[simp] theorem State.setPipe_phlx (s : State) (k : Nat) (v : Pipe) : (s.setPipe k v).phlx = s.phlx := rfl
@[simp] theorem State.setPipe_grp (s : State) (k : Nat) (v : Pipe) : (s.setPipe k v).grp = s.grp := rfl
@[simp] theorem State.setPipe_park (s : State) (k : Nat) (v : Pipe) : (s.setPipe k v).park = s.park := rfl
@[simp] theorem State.setPipe_aster (s : State) (k : Nat) (v : Pipe) : (s.setPipe k v).aster = s.aster := rfl
@[simp] theorem State.setPipe_zin (s : State) (k : Nat) (v : Pipe) : (s.setPipe k v).zin = s.zin := rfl
@[simp] theorem State.setPipe_snd (s : State) (k : Nat) (v : Pipe) : (s.setPipe k v).snd = s.snd := rfl
@[simp] theorem State.setPipe_mrd (s : State) (k : Nat) (v : Pipe) : (s.setPipe k v).mrd = s.mrd := rfl
@[simp] theorem State.setPipe_keyClock (s : State) (k : Nat) (v : Pipe) : (s.setPipe k v).keyClock = s.keyClock := rfl
@[simp] theorem State.setPipe_parts (s : State) (k : Nat) (v : Pipe) : (s.setPipe k v).parts = s.parts := rfl
@[simp] theorem State.setPipe_chrt (s : State) (k : Nat) (v : Pipe) : (s.setPipe k v).chrt = s.chrt := rfl
@[simp] theorem State.setPipe_hashu (s : State) (k : Nat) (v : Pipe) : (s.setPipe k v).hashu = s.hashu := rfl
@[simp] theorem State.setPipe_astr (s : State) (k : Nat) (v : Pipe) : (s.setPipe k v).astr = s.astr := rfl
@[simp] theorem State.setPipe_logb (s : State) (k : Nat) (v : Pipe) : (s.setPipe k v).logb = s.logb := rfl
@[simp] theorem State.setPipe_life (s : State) (k : Nat) (v : Pipe) : (s.setPipe k v).life = s.life := rfl
@[simp] theorem State.setPipe_rhmb (s : State) (k : Nat) (v : Pipe) : (s.setPipe k v).rhmb = s.rhmb := rfl
@[simp] theorem State.setPipe_helm (s : State) (k : Nat) (v : Pipe) : (s.setPipe k v).helm = s.helm := rfl
@[simp] theorem State.setPipe_meas (s : State) (k : Nat) (v : Pipe) : (s.setPipe k v).meas = s.meas := rfl
@[simp] theorem State.setPipe_spdm (s : State) (k : Nat) (v : Pipe) : (s.setPipe k v).spdm = s.spdm := rfl
@[simp] theorem State.setPipe_free (s : State) (k : Nat) (v : Pipe) : (s.setPipe k v).free = s.free := rfl
@[simp] theorem State.setPipe_out (s : State) (k : Nat) (v : Pipe) : (s.setPipe k v).out = s.out := rfl
@[simp] theorem State.setPipe_lark_inCr (s : State) (k : Nat) (v : Pipe) : (s.setPipe k v).lark.inCr = s.lark.inCr := rfl
@[simp] theorem State.setPipe_lark_outCr (s : State) (k : Nat) (v : Pipe) : (s.setPipe k v).lark.outCr = s.lark.outCr := rfl
@[simp] theorem State.setPipe_lark_streams (s : State) (k : Nat) (v : Pipe) : (s.setPipe k v).lark.streams = s.lark.streams := rfl
@[simp] theorem State.setPipe_lark_fabSeq (s : State) (k : Nat) (v : Pipe) : (s.setPipe k v).lark.fabSeq = s.lark.fabSeq := rfl
@[simp] theorem State.setPipe_lark_fabStep (s : State) (k : Nat) (v : Pipe) : (s.setPipe k v).lark.fabStep = s.lark.fabStep := rfl
@[simp] theorem State.setPipe_lark_unsent (s : State) (k : Nat) (v : Pipe) : (s.setPipe k v).lark.unsent = s.lark.unsent := rfl
@[simp] theorem State.setPipe_lark_nextId (s : State) (k : Nat) (v : Pipe) : (s.setPipe k v).lark.nextId = s.lark.nextId := rfl
@[simp] theorem State.setPipe_lark_nextUse (s : State) (k : Nat) (v : Pipe) : (s.setPipe k v).lark.nextUse = s.lark.nextUse := rfl
theorem State.setPipe_pipe_eq (s : State) (k : Nat) (v : Pipe) (j : Nat) : (s.setPipe k v).pipe j = if j = k then v else s.pipe j := tget_tset ..
@[simp] theorem State.setPipe_pipe_self (s : State) (k : Nat) (v : Pipe) : (s.setPipe k v).pipe k = v := tget_tset_self ..
@[simp] theorem State.setPipe_pipe_ne (s : State) (k : Nat) (v : Pipe) (j : Nat) (h : j ≠ k) : (s.setPipe k v).pipe j = s.pipe j := tget_tset_ne _ _ _ _ _ h

/-! ### `setWin` -/

@[simp] theorem State.setWin_pending (s : State) (w : Nat) (v : Win) : (s.setWin w v).pending = s.pending := rfl
@[simp] theorem State.setWin_bus (s : State) (w : Nat) (v : Win) : (s.setWin w v).bus = s.bus := rfl
@[simp] theorem State.setWin_blk (s : State) (w : Nat) (v : Win) : (s.setWin w v).blk = s.blk := rfl
@[simp] theorem State.setWin_pins (s : State) (w : Nat) (v : Win) : (s.setWin w v).pins = s.pins := rfl
@[simp] theorem State.setWin_clkr (s : State) (w : Nat) (v : Win) : (s.setWin w v).clkr = s.clkr := rfl
@[simp] theorem State.setWin_pwr (s : State) (w : Nat) (v : Win) : (s.setWin w v).pwr = s.pwr := rfl
@[simp] theorem State.setWin_verdict (s : State) (w : Nat) (v : Win) : (s.setWin w v).verdict = s.verdict := rfl
@[simp] theorem State.setWin_retained (s : State) (w : Nat) (v : Win) : (s.setWin w v).retained = s.retained := rfl
@[simp] theorem State.setWin_lark (s : State) (w : Nat) (v : Win) : (s.setWin w v).lark = s.lark := rfl
@[simp] theorem State.setWin_grp (s : State) (w : Nat) (v : Win) : (s.setWin w v).grp = s.grp := rfl
@[simp] theorem State.setWin_park (s : State) (w : Nat) (v : Win) : (s.setWin w v).park = s.park := rfl
@[simp] theorem State.setWin_aster (s : State) (w : Nat) (v : Win) : (s.setWin w v).aster = s.aster := rfl
@[simp] theorem State.setWin_zin (s : State) (w : Nat) (v : Win) : (s.setWin w v).zin = s.zin := rfl
@[simp] theorem State.setWin_snd (s : State) (w : Nat) (v : Win) : (s.setWin w v).snd = s.snd := rfl
@[simp] theorem State.setWin_mrd (s : State) (w : Nat) (v : Win) : (s.setWin w v).mrd = s.mrd := rfl
@[simp] theorem State.setWin_keyClock (s : State) (w : Nat) (v : Win) : (s.setWin w v).keyClock = s.keyClock := rfl
@[simp] theorem State.setWin_parts (s : State) (w : Nat) (v : Win) : (s.setWin w v).parts = s.parts := rfl
@[simp] theorem State.setWin_chrt (s : State) (w : Nat) (v : Win) : (s.setWin w v).chrt = s.chrt := rfl
@[simp] theorem State.setWin_hashu (s : State) (w : Nat) (v : Win) : (s.setWin w v).hashu = s.hashu := rfl
@[simp] theorem State.setWin_astr (s : State) (w : Nat) (v : Win) : (s.setWin w v).astr = s.astr := rfl
@[simp] theorem State.setWin_logb (s : State) (w : Nat) (v : Win) : (s.setWin w v).logb = s.logb := rfl
@[simp] theorem State.setWin_life (s : State) (w : Nat) (v : Win) : (s.setWin w v).life = s.life := rfl
@[simp] theorem State.setWin_rhmb (s : State) (w : Nat) (v : Win) : (s.setWin w v).rhmb = s.rhmb := rfl
@[simp] theorem State.setWin_helm (s : State) (w : Nat) (v : Win) : (s.setWin w v).helm = s.helm := rfl
@[simp] theorem State.setWin_meas (s : State) (w : Nat) (v : Win) : (s.setWin w v).meas = s.meas := rfl
@[simp] theorem State.setWin_spdm (s : State) (w : Nat) (v : Win) : (s.setWin w v).spdm = s.spdm := rfl
@[simp] theorem State.setWin_free (s : State) (w : Nat) (v : Win) : (s.setWin w v).free = s.free := rfl
@[simp] theorem State.setWin_out (s : State) (w : Nat) (v : Win) : (s.setWin w v).out = s.out := rfl
@[simp] theorem State.setWin_phlx_gmap (s : State) (w : Nat) (v : Win) : (s.setWin w v).phlx.gmap = s.phlx.gmap := rfl
@[simp] theorem State.setWin_phlx_lanes (s : State) (w : Nat) (v : Win) : (s.setWin w v).phlx.lanes = s.phlx.lanes := rfl
@[simp] theorem State.setWin_phlx_recs (s : State) (w : Nat) (v : Win) : (s.setWin w v).phlx.recs = s.phlx.recs := rfl
@[simp] theorem State.setWin_phlx_eccCorr (s : State) (w : Nat) (v : Win) : (s.setWin w v).phlx.eccCorr = s.phlx.eccCorr := rfl
@[simp] theorem State.setWin_phlx_eccUncorr (s : State) (w : Nat) (v : Win) : (s.setWin w v).phlx.eccUncorr = s.phlx.eccUncorr := rfl
@[simp] theorem State.setWin_phlx_eccAddr (s : State) (w : Nat) (v : Win) : (s.setWin w v).phlx.eccAddr = s.phlx.eccAddr := rfl
@[simp] theorem State.setWin_phlx_winSel (s : State) (w : Nat) (v : Win) : (s.setWin w v).phlx.winSel = s.phlx.winSel := rfl
@[simp] theorem State.setWin_phlx_winArg (s : State) (w : Nat) (v : Win) : (s.setWin w v).phlx.winArg = s.phlx.winArg := rfl
@[simp] theorem State.setWin_phlx_result (s : State) (w : Nat) (v : Win) : (s.setWin w v).phlx.result = s.phlx.result := rfl
@[simp] theorem State.setWin_phlx_running (s : State) (w : Nat) (v : Win) : (s.setWin w v).phlx.running = s.phlx.running := rfl
@[simp] theorem State.setWin_phlx_mapSel (s : State) (w : Nat) (v : Win) : (s.setWin w v).phlx.mapSel = s.phlx.mapSel := rfl
theorem State.setWin_win_eq (s : State) (w : Nat) (v : Win) (j : Nat) : (s.setWin w v).win j = if j = w then v else s.win j := tget_tset ..
@[simp] theorem State.setWin_win_self (s : State) (w : Nat) (v : Win) : (s.setWin w v).win w = v := tget_tset_self ..
@[simp] theorem State.setWin_win_ne (s : State) (w : Nat) (v : Win) (j : Nat) (h : j ≠ w) : (s.setWin w v).win j = s.win j := tget_tset_ne _ _ _ _ _ h

/-! ### `setGrpRec` -/

@[simp] theorem State.setGrpRec_pending (s : State) (g : Nat) (v : GrpRec) : (s.setGrpRec g v).pending = s.pending := rfl
@[simp] theorem State.setGrpRec_bus (s : State) (g : Nat) (v : GrpRec) : (s.setGrpRec g v).bus = s.bus := rfl
@[simp] theorem State.setGrpRec_blk (s : State) (g : Nat) (v : GrpRec) : (s.setGrpRec g v).blk = s.blk := rfl
@[simp] theorem State.setGrpRec_pins (s : State) (g : Nat) (v : GrpRec) : (s.setGrpRec g v).pins = s.pins := rfl
@[simp] theorem State.setGrpRec_clkr (s : State) (g : Nat) (v : GrpRec) : (s.setGrpRec g v).clkr = s.clkr := rfl
@[simp] theorem State.setGrpRec_pwr (s : State) (g : Nat) (v : GrpRec) : (s.setGrpRec g v).pwr = s.pwr := rfl
@[simp] theorem State.setGrpRec_verdict (s : State) (g : Nat) (v : GrpRec) : (s.setGrpRec g v).verdict = s.verdict := rfl
@[simp] theorem State.setGrpRec_retained (s : State) (g : Nat) (v : GrpRec) : (s.setGrpRec g v).retained = s.retained := rfl
@[simp] theorem State.setGrpRec_lark (s : State) (g : Nat) (v : GrpRec) : (s.setGrpRec g v).lark = s.lark := rfl
@[simp] theorem State.setGrpRec_phlx (s : State) (g : Nat) (v : GrpRec) : (s.setGrpRec g v).phlx = s.phlx := rfl
@[simp] theorem State.setGrpRec_park (s : State) (g : Nat) (v : GrpRec) : (s.setGrpRec g v).park = s.park := rfl
@[simp] theorem State.setGrpRec_aster (s : State) (g : Nat) (v : GrpRec) : (s.setGrpRec g v).aster = s.aster := rfl
@[simp] theorem State.setGrpRec_zin (s : State) (g : Nat) (v : GrpRec) : (s.setGrpRec g v).zin = s.zin := rfl
@[simp] theorem State.setGrpRec_snd (s : State) (g : Nat) (v : GrpRec) : (s.setGrpRec g v).snd = s.snd := rfl
@[simp] theorem State.setGrpRec_mrd (s : State) (g : Nat) (v : GrpRec) : (s.setGrpRec g v).mrd = s.mrd := rfl
@[simp] theorem State.setGrpRec_keyClock (s : State) (g : Nat) (v : GrpRec) : (s.setGrpRec g v).keyClock = s.keyClock := rfl
@[simp] theorem State.setGrpRec_parts (s : State) (g : Nat) (v : GrpRec) : (s.setGrpRec g v).parts = s.parts := rfl
@[simp] theorem State.setGrpRec_chrt (s : State) (g : Nat) (v : GrpRec) : (s.setGrpRec g v).chrt = s.chrt := rfl
@[simp] theorem State.setGrpRec_hashu (s : State) (g : Nat) (v : GrpRec) : (s.setGrpRec g v).hashu = s.hashu := rfl
@[simp] theorem State.setGrpRec_astr (s : State) (g : Nat) (v : GrpRec) : (s.setGrpRec g v).astr = s.astr := rfl
@[simp] theorem State.setGrpRec_logb (s : State) (g : Nat) (v : GrpRec) : (s.setGrpRec g v).logb = s.logb := rfl
@[simp] theorem State.setGrpRec_life (s : State) (g : Nat) (v : GrpRec) : (s.setGrpRec g v).life = s.life := rfl
@[simp] theorem State.setGrpRec_rhmb (s : State) (g : Nat) (v : GrpRec) : (s.setGrpRec g v).rhmb = s.rhmb := rfl
@[simp] theorem State.setGrpRec_helm (s : State) (g : Nat) (v : GrpRec) : (s.setGrpRec g v).helm = s.helm := rfl
@[simp] theorem State.setGrpRec_meas (s : State) (g : Nat) (v : GrpRec) : (s.setGrpRec g v).meas = s.meas := rfl
@[simp] theorem State.setGrpRec_spdm (s : State) (g : Nat) (v : GrpRec) : (s.setGrpRec g v).spdm = s.spdm := rfl
@[simp] theorem State.setGrpRec_free (s : State) (g : Nat) (v : GrpRec) : (s.setGrpRec g v).free = s.free := rfl
@[simp] theorem State.setGrpRec_out (s : State) (g : Nat) (v : GrpRec) : (s.setGrpRec g v).out = s.out := rfl
@[simp] theorem State.setGrpRec_grp_descA (s : State) (g : Nat) (v : GrpRec) : (s.setGrpRec g v).grp.descA = s.grp.descA := rfl
@[simp] theorem State.setGrpRec_grp_descS (s : State) (g : Nat) (v : GrpRec) : (s.setGrpRec g v).grp.descS = s.grp.descS := rfl
@[simp] theorem State.setGrpRec_grp_mbrA (s : State) (g : Nat) (v : GrpRec) : (s.setGrpRec g v).grp.mbrA = s.grp.mbrA := rfl
@[simp] theorem State.setGrpRec_grp_mbrS (s : State) (g : Nat) (v : GrpRec) : (s.setGrpRec g v).grp.mbrS = s.grp.mbrS := rfl
@[simp] theorem State.setGrpRec_grp_epA (s : State) (g : Nat) (v : GrpRec) : (s.setGrpRec g v).grp.epA = s.grp.epA := rfl
@[simp] theorem State.setGrpRec_grp_epS (s : State) (g : Nat) (v : GrpRec) : (s.setGrpRec g v).grp.epS = s.grp.epS := rfl
@[simp] theorem State.setGrpRec_grp_frozen (s : State) (g : Nat) (v : GrpRec) : (s.setGrpRec g v).grp.frozen = s.grp.frozen := rfl
@[simp] theorem State.setGrpRec_grp_oldHeld (s : State) (g : Nat) (v : GrpRec) : (s.setGrpRec g v).grp.oldHeld = s.grp.oldHeld := rfl
@[simp] theorem State.setGrpRec_grp_refill (s : State) (g : Nat) (v : GrpRec) : (s.setGrpRec g v).grp.refill = s.grp.refill := rfl
@[simp] theorem State.setGrpRec_grp_since (s : State) (g : Nat) (v : GrpRec) : (s.setGrpRec g v).grp.since = s.grp.since := rfl
@[simp] theorem State.setGrpRec_grp_lastSwap (s : State) (g : Nat) (v : GrpRec) : (s.setGrpRec g v).grp.lastSwap = s.grp.lastSwap := rfl
@[simp] theorem State.setGrpRec_grp_lists (s : State) (g : Nat) (v : GrpRec) : (s.setGrpRec g v).grp.lists = s.grp.lists := rfl
@[simp] theorem State.setGrpRec_grp_index (s : State) (g : Nat) (v : GrpRec) : (s.setGrpRec g v).grp.index = s.grp.index := rfl
@[simp] theorem State.setGrpRec_grp_arg0 (s : State) (g : Nat) (v : GrpRec) : (s.setGrpRec g v).grp.arg0 = s.grp.arg0 := rfl
@[simp] theorem State.setGrpRec_grp_arg1 (s : State) (g : Nat) (v : GrpRec) : (s.setGrpRec g v).grp.arg1 = s.grp.arg1 := rfl
@[simp] theorem State.setGrpRec_grp_result (s : State) (g : Nat) (v : GrpRec) : (s.setGrpRec g v).grp.result = s.grp.result := rfl
@[simp] theorem State.setGrpRec_grp_mbrIndex (s : State) (g : Nat) (v : GrpRec) : (s.setGrpRec g v).grp.mbrIndex = s.grp.mbrIndex := rfl
@[simp] theorem State.setGrpRec_grp_mbrAddr (s : State) (g : Nat) (v : GrpRec) : (s.setGrpRec g v).grp.mbrAddr = s.grp.mbrAddr := rfl
@[simp] theorem State.setGrpRec_grp_strgIndex (s : State) (g : Nat) (v : GrpRec) : (s.setGrpRec g v).grp.strgIndex = s.grp.strgIndex := rfl
@[simp] theorem State.setGrpRec_grp_srcSel (s : State) (g : Nat) (v : GrpRec) : (s.setGrpRec g v).grp.srcSel = s.grp.srcSel := rfl
@[simp] theorem State.setGrpRec_grp_rankValid (s : State) (g : Nat) (v : GrpRec) : (s.setGrpRec g v).grp.rankValid = s.grp.rankValid := rfl
@[simp] theorem State.setGrpRec_grp_rank (s : State) (g : Nat) (v : GrpRec) : (s.setGrpRec g v).grp.rank = s.grp.rank := rfl
@[simp] theorem State.setGrpRec_grp_mgmtPorts (s : State) (g : Nat) (v : GrpRec) : (s.setGrpRec g v).grp.mgmtPorts = s.grp.mgmtPorts := rfl
@[simp] theorem State.setGrpRec_grp_liveEn (s : State) (g : Nat) (v : GrpRec) : (s.setGrpRec g v).grp.liveEn = s.grp.liveEn := rfl
theorem State.setGrpRec_grpRec_eq (s : State) (g : Nat) (v : GrpRec) (j : Nat) : (s.setGrpRec g v).grpRec j = if j = g then v else s.grpRec j := tget_tset ..
@[simp] theorem State.setGrpRec_grpRec_self (s : State) (g : Nat) (v : GrpRec) : (s.setGrpRec g v).grpRec g = v := tget_tset_self ..
@[simp] theorem State.setGrpRec_grpRec_ne (s : State) (g : Nat) (v : GrpRec) (j : Nat) (h : j ≠ g) : (s.setGrpRec g v).grpRec j = s.grpRec j := tget_tset_ne _ _ _ _ _ h

/-! ### `setEntries` -/

@[simp] theorem State.setEntries_pending (s : State) (p : Nat) (v : List Entry) : (s.setEntries p v).pending = s.pending := rfl
@[simp] theorem State.setEntries_bus (s : State) (p : Nat) (v : List Entry) : (s.setEntries p v).bus = s.bus := rfl
@[simp] theorem State.setEntries_blk (s : State) (p : Nat) (v : List Entry) : (s.setEntries p v).blk = s.blk := rfl
@[simp] theorem State.setEntries_pins (s : State) (p : Nat) (v : List Entry) : (s.setEntries p v).pins = s.pins := rfl
@[simp] theorem State.setEntries_clkr (s : State) (p : Nat) (v : List Entry) : (s.setEntries p v).clkr = s.clkr := rfl
@[simp] theorem State.setEntries_pwr (s : State) (p : Nat) (v : List Entry) : (s.setEntries p v).pwr = s.pwr := rfl
@[simp] theorem State.setEntries_verdict (s : State) (p : Nat) (v : List Entry) : (s.setEntries p v).verdict = s.verdict := rfl
@[simp] theorem State.setEntries_retained (s : State) (p : Nat) (v : List Entry) : (s.setEntries p v).retained = s.retained := rfl
@[simp] theorem State.setEntries_lark (s : State) (p : Nat) (v : List Entry) : (s.setEntries p v).lark = s.lark := rfl
@[simp] theorem State.setEntries_phlx (s : State) (p : Nat) (v : List Entry) : (s.setEntries p v).phlx = s.phlx := rfl
@[simp] theorem State.setEntries_park (s : State) (p : Nat) (v : List Entry) : (s.setEntries p v).park = s.park := rfl
@[simp] theorem State.setEntries_aster (s : State) (p : Nat) (v : List Entry) : (s.setEntries p v).aster = s.aster := rfl
@[simp] theorem State.setEntries_zin (s : State) (p : Nat) (v : List Entry) : (s.setEntries p v).zin = s.zin := rfl
@[simp] theorem State.setEntries_snd (s : State) (p : Nat) (v : List Entry) : (s.setEntries p v).snd = s.snd := rfl
@[simp] theorem State.setEntries_mrd (s : State) (p : Nat) (v : List Entry) : (s.setEntries p v).mrd = s.mrd := rfl
@[simp] theorem State.setEntries_keyClock (s : State) (p : Nat) (v : List Entry) : (s.setEntries p v).keyClock = s.keyClock := rfl
@[simp] theorem State.setEntries_parts (s : State) (p : Nat) (v : List Entry) : (s.setEntries p v).parts = s.parts := rfl
@[simp] theorem State.setEntries_chrt (s : State) (p : Nat) (v : List Entry) : (s.setEntries p v).chrt = s.chrt := rfl
@[simp] theorem State.setEntries_hashu (s : State) (p : Nat) (v : List Entry) : (s.setEntries p v).hashu = s.hashu := rfl
@[simp] theorem State.setEntries_astr (s : State) (p : Nat) (v : List Entry) : (s.setEntries p v).astr = s.astr := rfl
@[simp] theorem State.setEntries_logb (s : State) (p : Nat) (v : List Entry) : (s.setEntries p v).logb = s.logb := rfl
@[simp] theorem State.setEntries_life (s : State) (p : Nat) (v : List Entry) : (s.setEntries p v).life = s.life := rfl
@[simp] theorem State.setEntries_rhmb (s : State) (p : Nat) (v : List Entry) : (s.setEntries p v).rhmb = s.rhmb := rfl
@[simp] theorem State.setEntries_helm (s : State) (p : Nat) (v : List Entry) : (s.setEntries p v).helm = s.helm := rfl
@[simp] theorem State.setEntries_meas (s : State) (p : Nat) (v : List Entry) : (s.setEntries p v).meas = s.meas := rfl
@[simp] theorem State.setEntries_spdm (s : State) (p : Nat) (v : List Entry) : (s.setEntries p v).spdm = s.spdm := rfl
@[simp] theorem State.setEntries_free (s : State) (p : Nat) (v : List Entry) : (s.setEntries p v).free = s.free := rfl
@[simp] theorem State.setEntries_out (s : State) (p : Nat) (v : List Entry) : (s.setEntries p v).out = s.out := rfl
@[simp] theorem State.setEntries_grp_descA (s : State) (p : Nat) (v : List Entry) : (s.setEntries p v).grp.descA = s.grp.descA := rfl
@[simp] theorem State.setEntries_grp_descS (s : State) (p : Nat) (v : List Entry) : (s.setEntries p v).grp.descS = s.grp.descS := rfl
@[simp] theorem State.setEntries_grp_mbrA (s : State) (p : Nat) (v : List Entry) : (s.setEntries p v).grp.mbrA = s.grp.mbrA := rfl
@[simp] theorem State.setEntries_grp_mbrS (s : State) (p : Nat) (v : List Entry) : (s.setEntries p v).grp.mbrS = s.grp.mbrS := rfl
@[simp] theorem State.setEntries_grp_epA (s : State) (p : Nat) (v : List Entry) : (s.setEntries p v).grp.epA = s.grp.epA := rfl
@[simp] theorem State.setEntries_grp_epS (s : State) (p : Nat) (v : List Entry) : (s.setEntries p v).grp.epS = s.grp.epS := rfl
@[simp] theorem State.setEntries_grp_frozen (s : State) (p : Nat) (v : List Entry) : (s.setEntries p v).grp.frozen = s.grp.frozen := rfl
@[simp] theorem State.setEntries_grp_oldHeld (s : State) (p : Nat) (v : List Entry) : (s.setEntries p v).grp.oldHeld = s.grp.oldHeld := rfl
@[simp] theorem State.setEntries_grp_refill (s : State) (p : Nat) (v : List Entry) : (s.setEntries p v).grp.refill = s.grp.refill := rfl
@[simp] theorem State.setEntries_grp_since (s : State) (p : Nat) (v : List Entry) : (s.setEntries p v).grp.since = s.grp.since := rfl
@[simp] theorem State.setEntries_grp_lastSwap (s : State) (p : Nat) (v : List Entry) : (s.setEntries p v).grp.lastSwap = s.grp.lastSwap := rfl
@[simp] theorem State.setEntries_grp_recs (s : State) (p : Nat) (v : List Entry) : (s.setEntries p v).grp.recs = s.grp.recs := rfl
@[simp] theorem State.setEntries_grp_index (s : State) (p : Nat) (v : List Entry) : (s.setEntries p v).grp.index = s.grp.index := rfl
@[simp] theorem State.setEntries_grp_arg0 (s : State) (p : Nat) (v : List Entry) : (s.setEntries p v).grp.arg0 = s.grp.arg0 := rfl
@[simp] theorem State.setEntries_grp_arg1 (s : State) (p : Nat) (v : List Entry) : (s.setEntries p v).grp.arg1 = s.grp.arg1 := rfl
@[simp] theorem State.setEntries_grp_result (s : State) (p : Nat) (v : List Entry) : (s.setEntries p v).grp.result = s.grp.result := rfl
@[simp] theorem State.setEntries_grp_mbrIndex (s : State) (p : Nat) (v : List Entry) : (s.setEntries p v).grp.mbrIndex = s.grp.mbrIndex := rfl
@[simp] theorem State.setEntries_grp_mbrAddr (s : State) (p : Nat) (v : List Entry) : (s.setEntries p v).grp.mbrAddr = s.grp.mbrAddr := rfl
@[simp] theorem State.setEntries_grp_strgIndex (s : State) (p : Nat) (v : List Entry) : (s.setEntries p v).grp.strgIndex = s.grp.strgIndex := rfl
@[simp] theorem State.setEntries_grp_srcSel (s : State) (p : Nat) (v : List Entry) : (s.setEntries p v).grp.srcSel = s.grp.srcSel := rfl
@[simp] theorem State.setEntries_grp_rankValid (s : State) (p : Nat) (v : List Entry) : (s.setEntries p v).grp.rankValid = s.grp.rankValid := rfl
@[simp] theorem State.setEntries_grp_rank (s : State) (p : Nat) (v : List Entry) : (s.setEntries p v).grp.rank = s.grp.rank := rfl
@[simp] theorem State.setEntries_grp_mgmtPorts (s : State) (p : Nat) (v : List Entry) : (s.setEntries p v).grp.mgmtPorts = s.grp.mgmtPorts := rfl
@[simp] theorem State.setEntries_grp_liveEn (s : State) (p : Nat) (v : List Entry) : (s.setEntries p v).grp.liveEn = s.grp.liveEn := rfl
theorem State.setEntries_entries_eq (s : State) (p : Nat) (v : List Entry) (j : Nat) : (s.setEntries p v).entries j = if j = p then v else s.entries j := tget_tset ..
@[simp] theorem State.setEntries_entries_self (s : State) (p : Nat) (v : List Entry) : (s.setEntries p v).entries p = v := tget_tset_self ..
@[simp] theorem State.setEntries_entries_ne (s : State) (p : Nat) (v : List Entry) (j : Nat) (h : j ≠ p) : (s.setEntries p v).entries j = s.entries j := tget_tset_ne _ _ _ _ _ h

/-! ### `setBudget` -/

@[simp] theorem State.setBudget_pending (s : State) (p : Nat) (v : Budget) : (s.setBudget p v).pending = s.pending := rfl
@[simp] theorem State.setBudget_bus (s : State) (p : Nat) (v : Budget) : (s.setBudget p v).bus = s.bus := rfl
@[simp] theorem State.setBudget_blk (s : State) (p : Nat) (v : Budget) : (s.setBudget p v).blk = s.blk := rfl
@[simp] theorem State.setBudget_pins (s : State) (p : Nat) (v : Budget) : (s.setBudget p v).pins = s.pins := rfl
@[simp] theorem State.setBudget_clkr (s : State) (p : Nat) (v : Budget) : (s.setBudget p v).clkr = s.clkr := rfl
@[simp] theorem State.setBudget_pwr (s : State) (p : Nat) (v : Budget) : (s.setBudget p v).pwr = s.pwr := rfl
@[simp] theorem State.setBudget_verdict (s : State) (p : Nat) (v : Budget) : (s.setBudget p v).verdict = s.verdict := rfl
@[simp] theorem State.setBudget_retained (s : State) (p : Nat) (v : Budget) : (s.setBudget p v).retained = s.retained := rfl
@[simp] theorem State.setBudget_lark (s : State) (p : Nat) (v : Budget) : (s.setBudget p v).lark = s.lark := rfl
@[simp] theorem State.setBudget_phlx (s : State) (p : Nat) (v : Budget) : (s.setBudget p v).phlx = s.phlx := rfl
@[simp] theorem State.setBudget_grp (s : State) (p : Nat) (v : Budget) : (s.setBudget p v).grp = s.grp := rfl
@[simp] theorem State.setBudget_park (s : State) (p : Nat) (v : Budget) : (s.setBudget p v).park = s.park := rfl
@[simp] theorem State.setBudget_aster (s : State) (p : Nat) (v : Budget) : (s.setBudget p v).aster = s.aster := rfl
@[simp] theorem State.setBudget_snd (s : State) (p : Nat) (v : Budget) : (s.setBudget p v).snd = s.snd := rfl
@[simp] theorem State.setBudget_mrd (s : State) (p : Nat) (v : Budget) : (s.setBudget p v).mrd = s.mrd := rfl
@[simp] theorem State.setBudget_keyClock (s : State) (p : Nat) (v : Budget) : (s.setBudget p v).keyClock = s.keyClock := rfl
@[simp] theorem State.setBudget_parts (s : State) (p : Nat) (v : Budget) : (s.setBudget p v).parts = s.parts := rfl
@[simp] theorem State.setBudget_chrt (s : State) (p : Nat) (v : Budget) : (s.setBudget p v).chrt = s.chrt := rfl
@[simp] theorem State.setBudget_hashu (s : State) (p : Nat) (v : Budget) : (s.setBudget p v).hashu = s.hashu := rfl
@[simp] theorem State.setBudget_astr (s : State) (p : Nat) (v : Budget) : (s.setBudget p v).astr = s.astr := rfl
@[simp] theorem State.setBudget_logb (s : State) (p : Nat) (v : Budget) : (s.setBudget p v).logb = s.logb := rfl
@[simp] theorem State.setBudget_life (s : State) (p : Nat) (v : Budget) : (s.setBudget p v).life = s.life := rfl
@[simp] theorem State.setBudget_rhmb (s : State) (p : Nat) (v : Budget) : (s.setBudget p v).rhmb = s.rhmb := rfl
@[simp] theorem State.setBudget_helm (s : State) (p : Nat) (v : Budget) : (s.setBudget p v).helm = s.helm := rfl
@[simp] theorem State.setBudget_meas (s : State) (p : Nat) (v : Budget) : (s.setBudget p v).meas = s.meas := rfl
@[simp] theorem State.setBudget_spdm (s : State) (p : Nat) (v : Budget) : (s.setBudget p v).spdm = s.spdm := rfl
@[simp] theorem State.setBudget_free (s : State) (p : Nat) (v : Budget) : (s.setBudget p v).free = s.free := rfl
@[simp] theorem State.setBudget_out (s : State) (p : Nat) (v : Budget) : (s.setBudget p v).out = s.out := rfl
@[simp] theorem State.setBudget_zin_partSel (s : State) (p : Nat) (v : Budget) : (s.setBudget p v).zin.partSel = s.zin.partSel := rfl
@[simp] theorem State.setBudget_zin_cmdAddr (s : State) (p : Nat) (v : Budget) : (s.setBudget p v).zin.cmdAddr = s.zin.cmdAddr := rfl
@[simp] theorem State.setBudget_zin_result (s : State) (p : Nat) (v : Budget) : (s.setBudget p v).zin.result = s.zin.result := rfl
@[simp] theorem State.setBudget_zin_segments (s : State) (p : Nat) (v : Budget) : (s.setBudget p v).zin.segments = s.zin.segments := rfl
@[simp] theorem State.setBudget_zin_clipped (s : State) (p : Nat) (v : Budget) : (s.setBudget p v).zin.clipped = s.zin.clipped := rfl
@[simp] theorem State.setBudget_zin_noised (s : State) (p : Nat) (v : Budget) : (s.setBudget p v).zin.noised = s.zin.noised := rfl
@[simp] theorem State.setBudget_zin_refunds (s : State) (p : Nat) (v : Budget) : (s.setBudget p v).zin.refunds = s.zin.refunds := rfl
theorem State.setBudget_budget_eq (s : State) (p : Nat) (v : Budget) (j : Nat) : (s.setBudget p v).budget j = if j = p then v else s.budget j := tget_tset ..
@[simp] theorem State.setBudget_budget_self (s : State) (p : Nat) (v : Budget) : (s.setBudget p v).budget p = v := tget_tset_self ..
@[simp] theorem State.setBudget_budget_ne (s : State) (p : Nat) (v : Budget) (j : Nat) (h : j ≠ p) : (s.setBudget p v).budget j = s.budget j := tget_tset_ne _ _ _ _ _ h

/-! ### `setSndPipe` -/

@[simp] theorem State.setSndPipe_pending (s : State) (k : Nat) (v : SndPipe) : (s.setSndPipe k v).pending = s.pending := rfl
@[simp] theorem State.setSndPipe_bus (s : State) (k : Nat) (v : SndPipe) : (s.setSndPipe k v).bus = s.bus := rfl
@[simp] theorem State.setSndPipe_blk (s : State) (k : Nat) (v : SndPipe) : (s.setSndPipe k v).blk = s.blk := rfl
@[simp] theorem State.setSndPipe_pins (s : State) (k : Nat) (v : SndPipe) : (s.setSndPipe k v).pins = s.pins := rfl
@[simp] theorem State.setSndPipe_clkr (s : State) (k : Nat) (v : SndPipe) : (s.setSndPipe k v).clkr = s.clkr := rfl
@[simp] theorem State.setSndPipe_pwr (s : State) (k : Nat) (v : SndPipe) : (s.setSndPipe k v).pwr = s.pwr := rfl
@[simp] theorem State.setSndPipe_verdict (s : State) (k : Nat) (v : SndPipe) : (s.setSndPipe k v).verdict = s.verdict := rfl
@[simp] theorem State.setSndPipe_retained (s : State) (k : Nat) (v : SndPipe) : (s.setSndPipe k v).retained = s.retained := rfl
@[simp] theorem State.setSndPipe_lark (s : State) (k : Nat) (v : SndPipe) : (s.setSndPipe k v).lark = s.lark := rfl
@[simp] theorem State.setSndPipe_phlx (s : State) (k : Nat) (v : SndPipe) : (s.setSndPipe k v).phlx = s.phlx := rfl
@[simp] theorem State.setSndPipe_grp (s : State) (k : Nat) (v : SndPipe) : (s.setSndPipe k v).grp = s.grp := rfl
@[simp] theorem State.setSndPipe_park (s : State) (k : Nat) (v : SndPipe) : (s.setSndPipe k v).park = s.park := rfl
@[simp] theorem State.setSndPipe_aster (s : State) (k : Nat) (v : SndPipe) : (s.setSndPipe k v).aster = s.aster := rfl
@[simp] theorem State.setSndPipe_zin (s : State) (k : Nat) (v : SndPipe) : (s.setSndPipe k v).zin = s.zin := rfl
@[simp] theorem State.setSndPipe_mrd (s : State) (k : Nat) (v : SndPipe) : (s.setSndPipe k v).mrd = s.mrd := rfl
@[simp] theorem State.setSndPipe_keyClock (s : State) (k : Nat) (v : SndPipe) : (s.setSndPipe k v).keyClock = s.keyClock := rfl
@[simp] theorem State.setSndPipe_parts (s : State) (k : Nat) (v : SndPipe) : (s.setSndPipe k v).parts = s.parts := rfl
@[simp] theorem State.setSndPipe_chrt (s : State) (k : Nat) (v : SndPipe) : (s.setSndPipe k v).chrt = s.chrt := rfl
@[simp] theorem State.setSndPipe_hashu (s : State) (k : Nat) (v : SndPipe) : (s.setSndPipe k v).hashu = s.hashu := rfl
@[simp] theorem State.setSndPipe_astr (s : State) (k : Nat) (v : SndPipe) : (s.setSndPipe k v).astr = s.astr := rfl
@[simp] theorem State.setSndPipe_logb (s : State) (k : Nat) (v : SndPipe) : (s.setSndPipe k v).logb = s.logb := rfl
@[simp] theorem State.setSndPipe_life (s : State) (k : Nat) (v : SndPipe) : (s.setSndPipe k v).life = s.life := rfl
@[simp] theorem State.setSndPipe_rhmb (s : State) (k : Nat) (v : SndPipe) : (s.setSndPipe k v).rhmb = s.rhmb := rfl
@[simp] theorem State.setSndPipe_helm (s : State) (k : Nat) (v : SndPipe) : (s.setSndPipe k v).helm = s.helm := rfl
@[simp] theorem State.setSndPipe_meas (s : State) (k : Nat) (v : SndPipe) : (s.setSndPipe k v).meas = s.meas := rfl
@[simp] theorem State.setSndPipe_spdm (s : State) (k : Nat) (v : SndPipe) : (s.setSndPipe k v).spdm = s.spdm := rfl
@[simp] theorem State.setSndPipe_free (s : State) (k : Nat) (v : SndPipe) : (s.setSndPipe k v).free = s.free := rfl
@[simp] theorem State.setSndPipe_out (s : State) (k : Nat) (v : SndPipe) : (s.setSndPipe k v).out = s.out := rfl
@[simp] theorem State.setSndPipe_snd_stEn (s : State) (k : Nat) (v : SndPipe) : (s.setSndPipe k v).snd.stEn = s.snd.stEn := rfl
@[simp] theorem State.setSndPipe_snd_limit (s : State) (k : Nat) (v : SndPipe) : (s.setSndPipe k v).snd.limit = s.snd.limit := rfl
@[simp] theorem State.setSndPipe_snd_stTiles (s : State) (k : Nat) (v : SndPipe) : (s.setSndPipe k v).snd.stTiles = s.snd.stTiles := rfl
@[simp] theorem State.setSndPipe_snd_ctr (s : State) (k : Nat) (v : SndPipe) : (s.setSndPipe k v).snd.ctr = s.snd.ctr := rfl
@[simp] theorem State.setSndPipe_snd_totals (s : State) (k : Nat) (v : SndPipe) : (s.setSndPipe k v).snd.totals = s.snd.totals := rfl
@[simp] theorem State.setSndPipe_snd_last0 (s : State) (k : Nat) (v : SndPipe) : (s.setSndPipe k v).snd.last0 = s.snd.last0 := rfl
@[simp] theorem State.setSndPipe_snd_last1 (s : State) (k : Nat) (v : SndPipe) : (s.setSndPipe k v).snd.last1 = s.snd.last1 := rfl
@[simp] theorem State.setSndPipe_snd_last2 (s : State) (k : Nat) (v : SndPipe) : (s.setSndPipe k v).snd.last2 = s.snd.last2 := rfl
@[simp] theorem State.setSndPipe_snd_pipeSel (s : State) (k : Nat) (v : SndPipe) : (s.setSndPipe k v).snd.pipeSel = s.snd.pipeSel := rfl
@[simp] theorem State.setSndPipe_snd_ctxResult (s : State) (k : Nat) (v : SndPipe) : (s.setSndPipe k v).snd.ctxResult = s.snd.ctxResult := rfl
@[simp] theorem State.setSndPipe_snd_checks (s : State) (k : Nat) (v : SndPipe) : (s.setSndPipe k v).snd.checks = s.snd.checks := rfl
@[simp] theorem State.setSndPipe_snd_ctx (s : State) (k : Nat) (v : SndPipe) : (s.setSndPipe k v).snd.ctx = s.snd.ctx := rfl
@[simp] theorem State.setSndPipe_snd_round (s : State) (k : Nat) (v : SndPipe) : (s.setSndPipe k v).snd.round = s.snd.round := rfl
@[simp] theorem State.setSndPipe_snd_scratch (s : State) (k : Nat) (v : SndPipe) : (s.setSndPipe k v).snd.scratch = s.snd.scratch := rfl
@[simp] theorem State.setSndPipe_snd_moved (s : State) (k : Nat) (v : SndPipe) : (s.setSndPipe k v).snd.moved = s.snd.moved := rfl
theorem State.setSndPipe_sndPipe_eq (s : State) (k : Nat) (v : SndPipe) (j : Nat) : (s.setSndPipe k v).sndPipe j = if j = k then v else s.sndPipe j := tget_tset ..
@[simp] theorem State.setSndPipe_sndPipe_self (s : State) (k : Nat) (v : SndPipe) : (s.setSndPipe k v).sndPipe k = v := tget_tset_self ..
@[simp] theorem State.setSndPipe_sndPipe_ne (s : State) (k : Nat) (v : SndPipe) (j : Nat) (h : j ≠ k) : (s.setSndPipe k v).sndPipe j = s.sndPipe j := tget_tset_ne _ _ _ _ _ h

/-! ### `setClock` -/

@[simp] theorem State.setClock_pending (s : State) (i : Nat) (v : KeyClock) : (s.setClock i v).pending = s.pending := rfl
@[simp] theorem State.setClock_bus (s : State) (i : Nat) (v : KeyClock) : (s.setClock i v).bus = s.bus := rfl
@[simp] theorem State.setClock_blk (s : State) (i : Nat) (v : KeyClock) : (s.setClock i v).blk = s.blk := rfl
@[simp] theorem State.setClock_pins (s : State) (i : Nat) (v : KeyClock) : (s.setClock i v).pins = s.pins := rfl
@[simp] theorem State.setClock_clkr (s : State) (i : Nat) (v : KeyClock) : (s.setClock i v).clkr = s.clkr := rfl
@[simp] theorem State.setClock_pwr (s : State) (i : Nat) (v : KeyClock) : (s.setClock i v).pwr = s.pwr := rfl
@[simp] theorem State.setClock_verdict (s : State) (i : Nat) (v : KeyClock) : (s.setClock i v).verdict = s.verdict := rfl
@[simp] theorem State.setClock_retained (s : State) (i : Nat) (v : KeyClock) : (s.setClock i v).retained = s.retained := rfl
@[simp] theorem State.setClock_lark (s : State) (i : Nat) (v : KeyClock) : (s.setClock i v).lark = s.lark := rfl
@[simp] theorem State.setClock_phlx (s : State) (i : Nat) (v : KeyClock) : (s.setClock i v).phlx = s.phlx := rfl
@[simp] theorem State.setClock_grp (s : State) (i : Nat) (v : KeyClock) : (s.setClock i v).grp = s.grp := rfl
@[simp] theorem State.setClock_park (s : State) (i : Nat) (v : KeyClock) : (s.setClock i v).park = s.park := rfl
@[simp] theorem State.setClock_aster (s : State) (i : Nat) (v : KeyClock) : (s.setClock i v).aster = s.aster := rfl
@[simp] theorem State.setClock_zin (s : State) (i : Nat) (v : KeyClock) : (s.setClock i v).zin = s.zin := rfl
@[simp] theorem State.setClock_snd (s : State) (i : Nat) (v : KeyClock) : (s.setClock i v).snd = s.snd := rfl
@[simp] theorem State.setClock_mrd (s : State) (i : Nat) (v : KeyClock) : (s.setClock i v).mrd = s.mrd := rfl
@[simp] theorem State.setClock_parts (s : State) (i : Nat) (v : KeyClock) : (s.setClock i v).parts = s.parts := rfl
@[simp] theorem State.setClock_chrt (s : State) (i : Nat) (v : KeyClock) : (s.setClock i v).chrt = s.chrt := rfl
@[simp] theorem State.setClock_hashu (s : State) (i : Nat) (v : KeyClock) : (s.setClock i v).hashu = s.hashu := rfl
@[simp] theorem State.setClock_astr (s : State) (i : Nat) (v : KeyClock) : (s.setClock i v).astr = s.astr := rfl
@[simp] theorem State.setClock_logb (s : State) (i : Nat) (v : KeyClock) : (s.setClock i v).logb = s.logb := rfl
@[simp] theorem State.setClock_life (s : State) (i : Nat) (v : KeyClock) : (s.setClock i v).life = s.life := rfl
@[simp] theorem State.setClock_rhmb (s : State) (i : Nat) (v : KeyClock) : (s.setClock i v).rhmb = s.rhmb := rfl
@[simp] theorem State.setClock_helm (s : State) (i : Nat) (v : KeyClock) : (s.setClock i v).helm = s.helm := rfl
@[simp] theorem State.setClock_meas (s : State) (i : Nat) (v : KeyClock) : (s.setClock i v).meas = s.meas := rfl
@[simp] theorem State.setClock_spdm (s : State) (i : Nat) (v : KeyClock) : (s.setClock i v).spdm = s.spdm := rfl
@[simp] theorem State.setClock_free (s : State) (i : Nat) (v : KeyClock) : (s.setClock i v).free = s.free := rfl
@[simp] theorem State.setClock_out (s : State) (i : Nat) (v : KeyClock) : (s.setClock i v).out = s.out := rfl
theorem State.setClock_clockOf_eq (s : State) (i : Nat) (v : KeyClock) (j : Nat) : (s.setClock i v).clockOf j = if j = i then v else s.clockOf j := tget_tset ..
@[simp] theorem State.setClock_clockOf_self (s : State) (i : Nat) (v : KeyClock) : (s.setClock i v).clockOf i = v := tget_tset_self ..
@[simp] theorem State.setClock_clockOf_ne (s : State) (i : Nat) (v : KeyClock) (j : Nat) (h : j ≠ i) : (s.setClock i v).clockOf j = s.clockOf j := tget_tset_ne _ _ _ _ _ h

/-! ### `setSched` -/

@[simp] theorem State.setSched_pending (s : State) (i : Nat) (v : Sched) : (s.setSched i v).pending = s.pending := rfl
@[simp] theorem State.setSched_bus (s : State) (i : Nat) (v : Sched) : (s.setSched i v).bus = s.bus := rfl
@[simp] theorem State.setSched_blk (s : State) (i : Nat) (v : Sched) : (s.setSched i v).blk = s.blk := rfl
@[simp] theorem State.setSched_pins (s : State) (i : Nat) (v : Sched) : (s.setSched i v).pins = s.pins := rfl
@[simp] theorem State.setSched_clkr (s : State) (i : Nat) (v : Sched) : (s.setSched i v).clkr = s.clkr := rfl
@[simp] theorem State.setSched_pwr (s : State) (i : Nat) (v : Sched) : (s.setSched i v).pwr = s.pwr := rfl
@[simp] theorem State.setSched_verdict (s : State) (i : Nat) (v : Sched) : (s.setSched i v).verdict = s.verdict := rfl
@[simp] theorem State.setSched_retained (s : State) (i : Nat) (v : Sched) : (s.setSched i v).retained = s.retained := rfl
@[simp] theorem State.setSched_lark (s : State) (i : Nat) (v : Sched) : (s.setSched i v).lark = s.lark := rfl
@[simp] theorem State.setSched_phlx (s : State) (i : Nat) (v : Sched) : (s.setSched i v).phlx = s.phlx := rfl
@[simp] theorem State.setSched_grp (s : State) (i : Nat) (v : Sched) : (s.setSched i v).grp = s.grp := rfl
@[simp] theorem State.setSched_park (s : State) (i : Nat) (v : Sched) : (s.setSched i v).park = s.park := rfl
@[simp] theorem State.setSched_aster (s : State) (i : Nat) (v : Sched) : (s.setSched i v).aster = s.aster := rfl
@[simp] theorem State.setSched_zin (s : State) (i : Nat) (v : Sched) : (s.setSched i v).zin = s.zin := rfl
@[simp] theorem State.setSched_snd (s : State) (i : Nat) (v : Sched) : (s.setSched i v).snd = s.snd := rfl
@[simp] theorem State.setSched_keyClock (s : State) (i : Nat) (v : Sched) : (s.setSched i v).keyClock = s.keyClock := rfl
@[simp] theorem State.setSched_parts (s : State) (i : Nat) (v : Sched) : (s.setSched i v).parts = s.parts := rfl
@[simp] theorem State.setSched_chrt (s : State) (i : Nat) (v : Sched) : (s.setSched i v).chrt = s.chrt := rfl
@[simp] theorem State.setSched_hashu (s : State) (i : Nat) (v : Sched) : (s.setSched i v).hashu = s.hashu := rfl
@[simp] theorem State.setSched_astr (s : State) (i : Nat) (v : Sched) : (s.setSched i v).astr = s.astr := rfl
@[simp] theorem State.setSched_logb (s : State) (i : Nat) (v : Sched) : (s.setSched i v).logb = s.logb := rfl
@[simp] theorem State.setSched_life (s : State) (i : Nat) (v : Sched) : (s.setSched i v).life = s.life := rfl
@[simp] theorem State.setSched_rhmb (s : State) (i : Nat) (v : Sched) : (s.setSched i v).rhmb = s.rhmb := rfl
@[simp] theorem State.setSched_helm (s : State) (i : Nat) (v : Sched) : (s.setSched i v).helm = s.helm := rfl
@[simp] theorem State.setSched_meas (s : State) (i : Nat) (v : Sched) : (s.setSched i v).meas = s.meas := rfl
@[simp] theorem State.setSched_spdm (s : State) (i : Nat) (v : Sched) : (s.setSched i v).spdm = s.spdm := rfl
@[simp] theorem State.setSched_free (s : State) (i : Nat) (v : Sched) : (s.setSched i v).free = s.free := rfl
@[simp] theorem State.setSched_out (s : State) (i : Nat) (v : Sched) : (s.setSched i v).out = s.out := rfl
@[simp] theorem State.setSched_mrd_mode (s : State) (i : Nat) (v : Sched) : (s.setSched i v).mrd.mode = s.mrd.mode := rfl
@[simp] theorem State.setSched_mrd_masterMark (s : State) (i : Nat) (v : Sched) : (s.setSched i v).mrd.masterMark = s.mrd.masterMark := rfl
@[simp] theorem State.setSched_mrd_relayPorts (s : State) (i : Nat) (v : Sched) : (s.setSched i v).mrd.relayPorts = s.mrd.relayPorts := rfl
@[simp] theorem State.setSched_mrd_seen (s : State) (i : Nat) (v : Sched) : (s.setSched i v).mrd.seen = s.mrd.seen := rfl
@[simp] theorem State.setSched_mrd_step (s : State) (i : Nat) (v : Sched) : (s.setSched i v).mrd.step = s.mrd.step := rfl
@[simp] theorem State.setSched_mrd_wall (s : State) (i : Nat) (v : Sched) : (s.setSched i v).mrd.wall = s.mrd.wall := rfl
@[simp] theorem State.setSched_mrd_timeout (s : State) (i : Nat) (v : Sched) : (s.setSched i v).mrd.timeout = s.mrd.timeout := rfl
@[simp] theorem State.setSched_mrd_lateDone (s : State) (i : Nat) (v : Sched) : (s.setSched i v).mrd.lateDone = s.mrd.lateDone := rfl
@[simp] theorem State.setSched_mrd_lastBoundary (s : State) (i : Nat) (v : Sched) : (s.setSched i v).mrd.lastBoundary = s.mrd.lastBoundary := rfl
@[simp] theorem State.setSched_mrd_drops (s : State) (i : Nat) (v : Sched) : (s.setSched i v).mrd.drops = s.mrd.drops := rfl
@[simp] theorem State.setSched_mrd_jumps (s : State) (i : Nat) (v : Sched) : (s.setSched i v).mrd.jumps = s.mrd.jumps := rfl
@[simp] theorem State.setSched_mrd_running (s : State) (i : Nat) (v : Sched) : (s.setSched i v).mrd.running = s.mrd.running := rfl
@[simp] theorem State.setSched_mrd_pendingStep (s : State) (i : Nat) (v : Sched) : (s.setSched i v).mrd.pendingStep = s.mrd.pendingStep := rfl
@[simp] theorem State.setSched_mrd_pendingRelay (s : State) (i : Nat) (v : Sched) : (s.setSched i v).mrd.pendingRelay = s.mrd.pendingRelay := rfl
@[simp] theorem State.setSched_mrd_heldCmds (s : State) (i : Nat) (v : Sched) : (s.setSched i v).mrd.heldCmds = s.mrd.heldCmds := rfl
theorem State.setSched_schedOf_eq (s : State) (i : Nat) (v : Sched) (j : Nat) : (s.setSched i v).schedOf j = if j = i then v else s.schedOf j := tget_tset ..
@[simp] theorem State.setSched_schedOf_self (s : State) (i : Nat) (v : Sched) : (s.setSched i v).schedOf i = v := tget_tset_self ..
@[simp] theorem State.setSched_schedOf_ne (s : State) (i : Nat) (v : Sched) (j : Nat) (h : j ≠ i) : (s.setSched i v).schedOf j = s.schedOf j := tget_tset_ne _ _ _ _ _ h

/-! ### `setSlot` -/

@[simp] theorem State.setSlot_pending (s : State) (i : Nat) (v : Slot) : (s.setSlot i v).pending = s.pending := rfl
@[simp] theorem State.setSlot_bus (s : State) (i : Nat) (v : Slot) : (s.setSlot i v).bus = s.bus := rfl
@[simp] theorem State.setSlot_blk (s : State) (i : Nat) (v : Slot) : (s.setSlot i v).blk = s.blk := rfl
@[simp] theorem State.setSlot_pins (s : State) (i : Nat) (v : Slot) : (s.setSlot i v).pins = s.pins := rfl
@[simp] theorem State.setSlot_clkr (s : State) (i : Nat) (v : Slot) : (s.setSlot i v).clkr = s.clkr := rfl
@[simp] theorem State.setSlot_pwr (s : State) (i : Nat) (v : Slot) : (s.setSlot i v).pwr = s.pwr := rfl
@[simp] theorem State.setSlot_verdict (s : State) (i : Nat) (v : Slot) : (s.setSlot i v).verdict = s.verdict := rfl
@[simp] theorem State.setSlot_retained (s : State) (i : Nat) (v : Slot) : (s.setSlot i v).retained = s.retained := rfl
@[simp] theorem State.setSlot_lark (s : State) (i : Nat) (v : Slot) : (s.setSlot i v).lark = s.lark := rfl
@[simp] theorem State.setSlot_phlx (s : State) (i : Nat) (v : Slot) : (s.setSlot i v).phlx = s.phlx := rfl
@[simp] theorem State.setSlot_grp (s : State) (i : Nat) (v : Slot) : (s.setSlot i v).grp = s.grp := rfl
@[simp] theorem State.setSlot_park (s : State) (i : Nat) (v : Slot) : (s.setSlot i v).park = s.park := rfl
@[simp] theorem State.setSlot_aster (s : State) (i : Nat) (v : Slot) : (s.setSlot i v).aster = s.aster := rfl
@[simp] theorem State.setSlot_zin (s : State) (i : Nat) (v : Slot) : (s.setSlot i v).zin = s.zin := rfl
@[simp] theorem State.setSlot_snd (s : State) (i : Nat) (v : Slot) : (s.setSlot i v).snd = s.snd := rfl
@[simp] theorem State.setSlot_mrd (s : State) (i : Nat) (v : Slot) : (s.setSlot i v).mrd = s.mrd := rfl
@[simp] theorem State.setSlot_keyClock (s : State) (i : Nat) (v : Slot) : (s.setSlot i v).keyClock = s.keyClock := rfl
@[simp] theorem State.setSlot_parts (s : State) (i : Nat) (v : Slot) : (s.setSlot i v).parts = s.parts := rfl
@[simp] theorem State.setSlot_hashu (s : State) (i : Nat) (v : Slot) : (s.setSlot i v).hashu = s.hashu := rfl
@[simp] theorem State.setSlot_astr (s : State) (i : Nat) (v : Slot) : (s.setSlot i v).astr = s.astr := rfl
@[simp] theorem State.setSlot_logb (s : State) (i : Nat) (v : Slot) : (s.setSlot i v).logb = s.logb := rfl
@[simp] theorem State.setSlot_life (s : State) (i : Nat) (v : Slot) : (s.setSlot i v).life = s.life := rfl
@[simp] theorem State.setSlot_rhmb (s : State) (i : Nat) (v : Slot) : (s.setSlot i v).rhmb = s.rhmb := rfl
@[simp] theorem State.setSlot_helm (s : State) (i : Nat) (v : Slot) : (s.setSlot i v).helm = s.helm := rfl
@[simp] theorem State.setSlot_meas (s : State) (i : Nat) (v : Slot) : (s.setSlot i v).meas = s.meas := rfl
@[simp] theorem State.setSlot_spdm (s : State) (i : Nat) (v : Slot) : (s.setSlot i v).spdm = s.spdm := rfl
@[simp] theorem State.setSlot_free (s : State) (i : Nat) (v : Slot) : (s.setSlot i v).free = s.free := rfl
@[simp] theorem State.setSlot_out (s : State) (i : Nat) (v : Slot) : (s.setSlot i v).out = s.out := rfl
@[simp] theorem State.setSlot_chrt_root (s : State) (i : Nat) (v : Slot) : (s.setSlot i v).chrt.root = s.chrt.root := rfl
@[simp] theorem State.setSlot_chrt_testRoot (s : State) (i : Nat) (v : Slot) : (s.setSlot i v).chrt.testRoot = s.chrt.testRoot := rfl
@[simp] theorem State.setSlot_chrt_modes (s : State) (i : Nat) (v : Slot) : (s.setSlot i v).chrt.modes = s.chrt.modes := rfl
@[simp] theorem State.setSlot_chrt_floorMs (s : State) (i : Nat) (v : Slot) : (s.setSlot i v).chrt.floorMs = s.chrt.floorMs := rfl
@[simp] theorem State.setSlot_chrt_pushes (s : State) (i : Nat) (v : Slot) : (s.setSlot i v).chrt.pushes = s.chrt.pushes := rfl
@[simp] theorem State.setSlot_chrt_derives (s : State) (i : Nat) (v : Slot) : (s.setSlot i v).chrt.derives = s.chrt.derives := rfl
@[simp] theorem State.setSlot_chrt_refusals (s : State) (i : Nat) (v : Slot) : (s.setSlot i v).chrt.refusals = s.chrt.refusals := rfl
@[simp] theorem State.setSlot_chrt_deliveries (s : State) (i : Nat) (v : Slot) : (s.setSlot i v).chrt.deliveries = s.chrt.deliveries := rfl
@[simp] theorem State.setSlot_chrt_remasks (s : State) (i : Nat) (v : Slot) : (s.setSlot i v).chrt.remasks = s.chrt.remasks := rfl
@[simp] theorem State.setSlot_chrt_badCount (s : State) (i : Nat) (v : Slot) : (s.setSlot i v).chrt.badCount = s.chrt.badCount := rfl
@[simp] theorem State.setSlot_chrt_queue (s : State) (i : Nat) (v : Slot) : (s.setSlot i v).chrt.queue = s.chrt.queue := rfl
@[simp] theorem State.setSlot_chrt_cache (s : State) (i : Nat) (v : Slot) : (s.setSlot i v).chrt.cache = s.chrt.cache := rfl
@[simp] theorem State.setSlot_chrt_itKey (s : State) (i : Nat) (v : Slot) : (s.setSlot i v).chrt.itKey = s.chrt.itKey := rfl
@[simp] theorem State.setSlot_chrt_slotSel (s : State) (i : Nat) (v : Slot) : (s.setSlot i v).chrt.slotSel = s.chrt.slotSel := rfl
@[simp] theorem State.setSlot_chrt_cmdAddr (s : State) (i : Nat) (v : Slot) : (s.setSlot i v).chrt.cmdAddr = s.chrt.cmdAddr := rfl
@[simp] theorem State.setSlot_chrt_cmdArg (s : State) (i : Nat) (v : Slot) : (s.setSlot i v).chrt.cmdArg = s.chrt.cmdArg := rfl
@[simp] theorem State.setSlot_chrt_status (s : State) (i : Nat) (v : Slot) : (s.setSlot i v).chrt.status = s.chrt.status := rfl
@[simp] theorem State.setSlot_chrt_stage (s : State) (i : Nat) (v : Slot) : (s.setSlot i v).chrt.stage = s.chrt.stage := rfl
@[simp] theorem State.setSlot_chrt_resSlot (s : State) (i : Nat) (v : Slot) : (s.setSlot i v).chrt.resSlot = s.chrt.resSlot := rfl
@[simp] theorem State.setSlot_chrt_nonce (s : State) (i : Nat) (v : Slot) : (s.setSlot i v).chrt.nonce = s.chrt.nonce := rfl
@[simp] theorem State.setSlot_chrt_confirm (s : State) (i : Nat) (v : Slot) : (s.setSlot i v).chrt.confirm = s.chrt.confirm := rfl
@[simp] theorem State.setSlot_chrt_genAttr (s : State) (i : Nat) (v : Slot) : (s.setSlot i v).chrt.genAttr = s.chrt.genAttr := rfl
@[simp] theorem State.setSlot_chrt_kdSel (s : State) (i : Nat) (v : Slot) : (s.setSlot i v).chrt.kdSel = s.chrt.kdSel := rfl
@[simp] theorem State.setSlot_chrt_kdStatus (s : State) (i : Nat) (v : Slot) : (s.setSlot i v).chrt.kdStatus = s.chrt.kdStatus := rfl
@[simp] theorem State.setSlot_chrt_kdDest (s : State) (i : Nat) (v : Slot) : (s.setSlot i v).chrt.kdDest = s.chrt.kdDest := rfl
@[simp] theorem State.setSlot_chrt_kdSlot (s : State) (i : Nat) (v : Slot) : (s.setSlot i v).chrt.kdSlot = s.chrt.kdSlot := rfl
@[simp] theorem State.setSlot_chrt_epSel (s : State) (i : Nat) (v : Slot) : (s.setSlot i v).chrt.epSel = s.chrt.epSel := rfl
@[simp] theorem State.setSlot_chrt_delivery (s : State) (i : Nat) (v : Slot) : (s.setSlot i v).chrt.delivery = s.chrt.delivery := rfl
@[simp] theorem State.setSlot_chrt_deleting (s : State) (i : Nat) (v : Slot) : (s.setSlot i v).chrt.deleting = s.chrt.deleting := rfl
@[simp] theorem State.setSlot_chrt_seqs (s : State) (i : Nat) (v : Slot) : (s.setSlot i v).chrt.seqs = s.chrt.seqs := rfl
@[simp] theorem State.setSlot_chrt_ctxEpoch (s : State) (i : Nat) (v : Slot) : (s.setSlot i v).chrt.ctxEpoch = s.chrt.ctxEpoch := rfl
theorem State.setSlot_slot_eq (s : State) (i : Nat) (v : Slot) (j : Nat) : (s.setSlot i v).slot j = if j = i then v else s.slot j := tget_tset ..
@[simp] theorem State.setSlot_slot_self (s : State) (i : Nat) (v : Slot) : (s.setSlot i v).slot i = v := tget_tset_self ..
@[simp] theorem State.setSlot_slot_ne (s : State) (i : Nat) (v : Slot) (j : Nat) (h : j ≠ i) : (s.setSlot i v).slot j = s.slot j := tget_tset_ne _ _ _ _ _ h

/-! ### `setAstrSlot` -/

@[simp] theorem State.setAstrSlot_pending (s : State) (i : Nat) (v : AstrSlot) : (s.setAstrSlot i v).pending = s.pending := rfl
@[simp] theorem State.setAstrSlot_bus (s : State) (i : Nat) (v : AstrSlot) : (s.setAstrSlot i v).bus = s.bus := rfl
@[simp] theorem State.setAstrSlot_blk (s : State) (i : Nat) (v : AstrSlot) : (s.setAstrSlot i v).blk = s.blk := rfl
@[simp] theorem State.setAstrSlot_pins (s : State) (i : Nat) (v : AstrSlot) : (s.setAstrSlot i v).pins = s.pins := rfl
@[simp] theorem State.setAstrSlot_clkr (s : State) (i : Nat) (v : AstrSlot) : (s.setAstrSlot i v).clkr = s.clkr := rfl
@[simp] theorem State.setAstrSlot_pwr (s : State) (i : Nat) (v : AstrSlot) : (s.setAstrSlot i v).pwr = s.pwr := rfl
@[simp] theorem State.setAstrSlot_verdict (s : State) (i : Nat) (v : AstrSlot) : (s.setAstrSlot i v).verdict = s.verdict := rfl
@[simp] theorem State.setAstrSlot_retained (s : State) (i : Nat) (v : AstrSlot) : (s.setAstrSlot i v).retained = s.retained := rfl
@[simp] theorem State.setAstrSlot_lark (s : State) (i : Nat) (v : AstrSlot) : (s.setAstrSlot i v).lark = s.lark := rfl
@[simp] theorem State.setAstrSlot_phlx (s : State) (i : Nat) (v : AstrSlot) : (s.setAstrSlot i v).phlx = s.phlx := rfl
@[simp] theorem State.setAstrSlot_grp (s : State) (i : Nat) (v : AstrSlot) : (s.setAstrSlot i v).grp = s.grp := rfl
@[simp] theorem State.setAstrSlot_park (s : State) (i : Nat) (v : AstrSlot) : (s.setAstrSlot i v).park = s.park := rfl
@[simp] theorem State.setAstrSlot_aster (s : State) (i : Nat) (v : AstrSlot) : (s.setAstrSlot i v).aster = s.aster := rfl
@[simp] theorem State.setAstrSlot_zin (s : State) (i : Nat) (v : AstrSlot) : (s.setAstrSlot i v).zin = s.zin := rfl
@[simp] theorem State.setAstrSlot_snd (s : State) (i : Nat) (v : AstrSlot) : (s.setAstrSlot i v).snd = s.snd := rfl
@[simp] theorem State.setAstrSlot_mrd (s : State) (i : Nat) (v : AstrSlot) : (s.setAstrSlot i v).mrd = s.mrd := rfl
@[simp] theorem State.setAstrSlot_keyClock (s : State) (i : Nat) (v : AstrSlot) : (s.setAstrSlot i v).keyClock = s.keyClock := rfl
@[simp] theorem State.setAstrSlot_parts (s : State) (i : Nat) (v : AstrSlot) : (s.setAstrSlot i v).parts = s.parts := rfl
@[simp] theorem State.setAstrSlot_chrt (s : State) (i : Nat) (v : AstrSlot) : (s.setAstrSlot i v).chrt = s.chrt := rfl
@[simp] theorem State.setAstrSlot_hashu (s : State) (i : Nat) (v : AstrSlot) : (s.setAstrSlot i v).hashu = s.hashu := rfl
@[simp] theorem State.setAstrSlot_logb (s : State) (i : Nat) (v : AstrSlot) : (s.setAstrSlot i v).logb = s.logb := rfl
@[simp] theorem State.setAstrSlot_life (s : State) (i : Nat) (v : AstrSlot) : (s.setAstrSlot i v).life = s.life := rfl
@[simp] theorem State.setAstrSlot_rhmb (s : State) (i : Nat) (v : AstrSlot) : (s.setAstrSlot i v).rhmb = s.rhmb := rfl
@[simp] theorem State.setAstrSlot_helm (s : State) (i : Nat) (v : AstrSlot) : (s.setAstrSlot i v).helm = s.helm := rfl
@[simp] theorem State.setAstrSlot_meas (s : State) (i : Nat) (v : AstrSlot) : (s.setAstrSlot i v).meas = s.meas := rfl
@[simp] theorem State.setAstrSlot_spdm (s : State) (i : Nat) (v : AstrSlot) : (s.setAstrSlot i v).spdm = s.spdm := rfl
@[simp] theorem State.setAstrSlot_free (s : State) (i : Nat) (v : AstrSlot) : (s.setAstrSlot i v).free = s.free := rfl
@[simp] theorem State.setAstrSlot_out (s : State) (i : Nat) (v : AstrSlot) : (s.setAstrSlot i v).out = s.out := rfl
@[simp] theorem State.setAstrSlot_astr_st (s : State) (i : Nat) (v : AstrSlot) : (s.setAstrSlot i v).astr.st = s.astr.st := rfl
@[simp] theorem State.setAstrSlot_astr_prog (s : State) (i : Nat) (v : AstrSlot) : (s.setAstrSlot i v).astr.prog = s.astr.prog := rfl
@[simp] theorem State.setAstrSlot_astr_csVersion (s : State) (i : Nat) (v : AstrSlot) : (s.setAstrSlot i v).astr.csVersion = s.astr.csVersion := rfl
@[simp] theorem State.setAstrSlot_astr_cs (s : State) (i : Nat) (v : AstrSlot) : (s.setAstrSlot i v).astr.cs = s.astr.cs := rfl
@[simp] theorem State.setAstrSlot_astr_csAddr (s : State) (i : Nat) (v : AstrSlot) : (s.setAstrSlot i v).astr.csAddr = s.astr.csAddr := rfl
@[simp] theorem State.setAstrSlot_astr_arg0 (s : State) (i : Nat) (v : AstrSlot) : (s.setAstrSlot i v).astr.arg0 = s.astr.arg0 := rfl
@[simp] theorem State.setAstrSlot_astr_arg1 (s : State) (i : Nat) (v : AstrSlot) : (s.setAstrSlot i v).astr.arg1 = s.astr.arg1 := rfl
@[simp] theorem State.setAstrSlot_astr_run0 (s : State) (i : Nat) (v : AstrSlot) : (s.setAstrSlot i v).astr.run0 = s.astr.run0 := rfl
@[simp] theorem State.setAstrSlot_astr_run1 (s : State) (i : Nat) (v : AstrSlot) : (s.setAstrSlot i v).astr.run1 = s.astr.run1 := rfl
@[simp] theorem State.setAstrSlot_astr_status (s : State) (i : Nat) (v : AstrSlot) : (s.setAstrSlot i v).astr.status = s.astr.status := rfl
@[simp] theorem State.setAstrSlot_astr_resProg (s : State) (i : Nat) (v : AstrSlot) : (s.setAstrSlot i v).astr.resProg = s.astr.resProg := rfl
@[simp] theorem State.setAstrSlot_astr_attempts (s : State) (i : Nat) (v : AstrSlot) : (s.setAstrSlot i v).astr.attempts = s.astr.attempts := rfl
@[simp] theorem State.setAstrSlot_astr_acc (s : State) (i : Nat) (v : AstrSlot) : (s.setAstrSlot i v).astr.acc = s.astr.acc := rfl
@[simp] theorem State.setAstrSlot_astr_cycles (s : State) (i : Nat) (v : AstrSlot) : (s.setAstrSlot i v).astr.cycles = s.astr.cycles := rfl
@[simp] theorem State.setAstrSlot_astr_keyEn (s : State) (i : Nat) (v : AstrSlot) : (s.setAstrSlot i v).astr.keyEn = s.astr.keyEn := rfl
@[simp] theorem State.setAstrSlot_astr_keySlot (s : State) (i : Nat) (v : AstrSlot) : (s.setAstrSlot i v).astr.keySlot = s.astr.keySlot := rfl
@[simp] theorem State.setAstrSlot_astr_ops (s : State) (i : Nat) (v : AstrSlot) : (s.setAstrSlot i v).astr.ops = s.astr.ops := rfl
@[simp] theorem State.setAstrSlot_astr_rejects (s : State) (i : Nat) (v : AstrSlot) : (s.setAstrSlot i v).astr.rejects = s.astr.rejects := rfl
@[simp] theorem State.setAstrSlot_astr_faults (s : State) (i : Nat) (v : AstrSlot) : (s.setAstrSlot i v).astr.faults = s.astr.faults := rfl
@[simp] theorem State.setAstrSlot_astr_slotSel (s : State) (i : Nat) (v : AstrSlot) : (s.setAstrSlot i v).astr.slotSel = s.astr.slotSel := rfl
@[simp] theorem State.setAstrSlot_astr_dataAddr (s : State) (i : Nat) (v : AstrSlot) : (s.setAstrSlot i v).astr.dataAddr = s.astr.dataAddr := rfl
@[simp] theorem State.setAstrSlot_astr_mem (s : State) (i : Nat) (v : AstrSlot) : (s.setAstrSlot i v).astr.mem = s.astr.mem := rfl
theorem State.setAstrSlot_astrSlot_eq (s : State) (i : Nat) (v : AstrSlot) (j : Nat) : (s.setAstrSlot i v).astrSlot j = if j = i then v else s.astrSlot j := tget_tset ..
@[simp] theorem State.setAstrSlot_astrSlot_self (s : State) (i : Nat) (v : AstrSlot) : (s.setAstrSlot i v).astrSlot i = v := tget_tset_self ..
@[simp] theorem State.setAstrSlot_astrSlot_ne (s : State) (i : Nat) (v : AstrSlot) (j : Nat) (h : j ≠ i) : (s.setAstrSlot i v).astrSlot j = s.astrSlot j := tget_tset_ne _ _ _ _ _ h

/-! ### `setChan` -/

@[simp] theorem State.setChan_pending (s : State) (k : Nat) (v : Chan) : (s.setChan k v).pending = s.pending := rfl
@[simp] theorem State.setChan_bus (s : State) (k : Nat) (v : Chan) : (s.setChan k v).bus = s.bus := rfl
@[simp] theorem State.setChan_blk (s : State) (k : Nat) (v : Chan) : (s.setChan k v).blk = s.blk := rfl
@[simp] theorem State.setChan_pins (s : State) (k : Nat) (v : Chan) : (s.setChan k v).pins = s.pins := rfl
@[simp] theorem State.setChan_clkr (s : State) (k : Nat) (v : Chan) : (s.setChan k v).clkr = s.clkr := rfl
@[simp] theorem State.setChan_pwr (s : State) (k : Nat) (v : Chan) : (s.setChan k v).pwr = s.pwr := rfl
@[simp] theorem State.setChan_verdict (s : State) (k : Nat) (v : Chan) : (s.setChan k v).verdict = s.verdict := rfl
@[simp] theorem State.setChan_retained (s : State) (k : Nat) (v : Chan) : (s.setChan k v).retained = s.retained := rfl
@[simp] theorem State.setChan_lark (s : State) (k : Nat) (v : Chan) : (s.setChan k v).lark = s.lark := rfl
@[simp] theorem State.setChan_phlx (s : State) (k : Nat) (v : Chan) : (s.setChan k v).phlx = s.phlx := rfl
@[simp] theorem State.setChan_grp (s : State) (k : Nat) (v : Chan) : (s.setChan k v).grp = s.grp := rfl
@[simp] theorem State.setChan_park (s : State) (k : Nat) (v : Chan) : (s.setChan k v).park = s.park := rfl
@[simp] theorem State.setChan_aster (s : State) (k : Nat) (v : Chan) : (s.setChan k v).aster = s.aster := rfl
@[simp] theorem State.setChan_zin (s : State) (k : Nat) (v : Chan) : (s.setChan k v).zin = s.zin := rfl
@[simp] theorem State.setChan_snd (s : State) (k : Nat) (v : Chan) : (s.setChan k v).snd = s.snd := rfl
@[simp] theorem State.setChan_mrd (s : State) (k : Nat) (v : Chan) : (s.setChan k v).mrd = s.mrd := rfl
@[simp] theorem State.setChan_keyClock (s : State) (k : Nat) (v : Chan) : (s.setChan k v).keyClock = s.keyClock := rfl
@[simp] theorem State.setChan_parts (s : State) (k : Nat) (v : Chan) : (s.setChan k v).parts = s.parts := rfl
@[simp] theorem State.setChan_chrt (s : State) (k : Nat) (v : Chan) : (s.setChan k v).chrt = s.chrt := rfl
@[simp] theorem State.setChan_hashu (s : State) (k : Nat) (v : Chan) : (s.setChan k v).hashu = s.hashu := rfl
@[simp] theorem State.setChan_astr (s : State) (k : Nat) (v : Chan) : (s.setChan k v).astr = s.astr := rfl
@[simp] theorem State.setChan_logb (s : State) (k : Nat) (v : Chan) : (s.setChan k v).logb = s.logb := rfl
@[simp] theorem State.setChan_life (s : State) (k : Nat) (v : Chan) : (s.setChan k v).life = s.life := rfl
@[simp] theorem State.setChan_helm (s : State) (k : Nat) (v : Chan) : (s.setChan k v).helm = s.helm := rfl
@[simp] theorem State.setChan_meas (s : State) (k : Nat) (v : Chan) : (s.setChan k v).meas = s.meas := rfl
@[simp] theorem State.setChan_spdm (s : State) (k : Nat) (v : Chan) : (s.setChan k v).spdm = s.spdm := rfl
@[simp] theorem State.setChan_free (s : State) (k : Nat) (v : Chan) : (s.setChan k v).free = s.free := rfl
@[simp] theorem State.setChan_out (s : State) (k : Nat) (v : Chan) : (s.setChan k v).out = s.out := rfl
@[simp] theorem State.setChan_rhmb_lspSrc (s : State) (k : Nat) (v : Chan) : (s.setChan k v).rhmb.lspSrc = s.rhmb.lspSrc := rfl
@[simp] theorem State.setChan_rhmb_lspSink (s : State) (k : Nat) (v : Chan) : (s.setChan k v).rhmb.lspSink = s.rhmb.lspSink := rfl
@[simp] theorem State.setChan_rhmb_semSel (s : State) (k : Nat) (v : Chan) : (s.setChan k v).rhmb.semSel = s.rhmb.semSel := rfl
@[simp] theorem State.setChan_rhmb_sems (s : State) (k : Nat) (v : Chan) : (s.setChan k v).rhmb.sems = s.rhmb.sems := rfl
@[simp] theorem State.setChan_rhmb_mgmt (s : State) (k : Nat) (v : Chan) : (s.setChan k v).rhmb.mgmt = s.rhmb.mgmt := rfl
@[simp] theorem State.setChan_rhmb_claims (s : State) (k : Nat) (v : Chan) : (s.setChan k v).rhmb.claims = s.rhmb.claims := rfl
@[simp] theorem State.setChan_rhmb_srcCr (s : State) (k : Nat) (v : Chan) : (s.setChan k v).rhmb.srcCr = s.rhmb.srcCr := rfl
@[simp] theorem State.setChan_rhmb_sink (s : State) (k : Nat) (v : Chan) : (s.setChan k v).rhmb.sink = s.rhmb.sink := rfl
@[simp] theorem State.setChan_rhmb_reqs (s : State) (k : Nat) (v : Chan) : (s.setChan k v).rhmb.reqs = s.rhmb.reqs := rfl
@[simp] theorem State.setChan_rhmb_turns (s : State) (k : Nat) (v : Chan) : (s.setChan k v).rhmb.turns = s.rhmb.turns := rfl
theorem State.setChan_chan_eq (s : State) (k : Nat) (v : Chan) (j : Nat) : (s.setChan k v).chan j = if j = k then v else s.chan j := tget_tset ..
@[simp] theorem State.setChan_chan_self (s : State) (k : Nat) (v : Chan) : (s.setChan k v).chan k = v := tget_tset_self ..
@[simp] theorem State.setChan_chan_ne (s : State) (k : Nat) (v : Chan) (j : Nat) (h : j ≠ k) : (s.setChan k v).chan j = s.chan j := tget_tset_ne _ _ _ _ _ h

/-! ### `emit` -/

@[simp] theorem State.emit_pending (s : State) (e : OutEvent) : (s.emit e).pending = s.pending := rfl
@[simp] theorem State.emit_bus (s : State) (e : OutEvent) : (s.emit e).bus = s.bus := rfl
@[simp] theorem State.emit_blk (s : State) (e : OutEvent) : (s.emit e).blk = s.blk := rfl
@[simp] theorem State.emit_pins (s : State) (e : OutEvent) : (s.emit e).pins = s.pins := rfl
@[simp] theorem State.emit_clkr (s : State) (e : OutEvent) : (s.emit e).clkr = s.clkr := rfl
@[simp] theorem State.emit_pwr (s : State) (e : OutEvent) : (s.emit e).pwr = s.pwr := rfl
@[simp] theorem State.emit_verdict (s : State) (e : OutEvent) : (s.emit e).verdict = s.verdict := rfl
@[simp] theorem State.emit_retained (s : State) (e : OutEvent) : (s.emit e).retained = s.retained := rfl
@[simp] theorem State.emit_lark (s : State) (e : OutEvent) : (s.emit e).lark = s.lark := rfl
@[simp] theorem State.emit_phlx (s : State) (e : OutEvent) : (s.emit e).phlx = s.phlx := rfl
@[simp] theorem State.emit_grp (s : State) (e : OutEvent) : (s.emit e).grp = s.grp := rfl
@[simp] theorem State.emit_park (s : State) (e : OutEvent) : (s.emit e).park = s.park := rfl
@[simp] theorem State.emit_aster (s : State) (e : OutEvent) : (s.emit e).aster = s.aster := rfl
@[simp] theorem State.emit_zin (s : State) (e : OutEvent) : (s.emit e).zin = s.zin := rfl
@[simp] theorem State.emit_snd (s : State) (e : OutEvent) : (s.emit e).snd = s.snd := rfl
@[simp] theorem State.emit_mrd (s : State) (e : OutEvent) : (s.emit e).mrd = s.mrd := rfl
@[simp] theorem State.emit_keyClock (s : State) (e : OutEvent) : (s.emit e).keyClock = s.keyClock := rfl
@[simp] theorem State.emit_parts (s : State) (e : OutEvent) : (s.emit e).parts = s.parts := rfl
@[simp] theorem State.emit_chrt (s : State) (e : OutEvent) : (s.emit e).chrt = s.chrt := rfl
@[simp] theorem State.emit_hashu (s : State) (e : OutEvent) : (s.emit e).hashu = s.hashu := rfl
@[simp] theorem State.emit_astr (s : State) (e : OutEvent) : (s.emit e).astr = s.astr := rfl
@[simp] theorem State.emit_logb (s : State) (e : OutEvent) : (s.emit e).logb = s.logb := rfl
@[simp] theorem State.emit_life (s : State) (e : OutEvent) : (s.emit e).life = s.life := rfl
@[simp] theorem State.emit_rhmb (s : State) (e : OutEvent) : (s.emit e).rhmb = s.rhmb := rfl
@[simp] theorem State.emit_helm (s : State) (e : OutEvent) : (s.emit e).helm = s.helm := rfl
@[simp] theorem State.emit_meas (s : State) (e : OutEvent) : (s.emit e).meas = s.meas := rfl
@[simp] theorem State.emit_spdm (s : State) (e : OutEvent) : (s.emit e).spdm = s.spdm := rfl
@[simp] theorem State.emit_free (s : State) (e : OutEvent) : (s.emit e).free = s.free := rfl
@[simp] theorem State.emit_out (s : State) (e : OutEvent) : (s.emit e).out = s.out ++ [e] := rfl

end Sys2Proof.Machine
end

