-- ==== Sys2Proof/Laws/Bus.lean ====
section
/-! SUPPORT. What the control bus does (02 R39 to R69): the answers, the error records, and the two outcomes of every register access. -/

namespace Sys2Proof.Machine

/-- What the bus does with an access that does not reach its register. -/
def busSays (s : State) (a : Access) (w : Bool) (addr : Nat) : Gate → State
  | .decode st => decodeError s a w addr st
  | .refuse st => refuse s a w addr st
  | _ => s

theorem busSays_snd (s : State) (a : Access) (w : Bool) (addr : Nat) (g : Gate) : (busSays s a w addr g).snd = s.snd := by
  cases g
  case decode st => simp only [busSays, decodeError]; split <;> rfl
  all_goals rfl

/-- Where no Sounding check is new, no tile was added, and the codewords of an add say nothing (05 R176, R177). -/
theorem eccAdded_same {s s1 : State} (e : EccIn) (h : s1.snd = s.snd) : eccAdded s s1 e = s1 := by
  have hn : s1.snd.checks.filter (fun c => !s.snd.checks.contains c) = [] := by
    rw [h]; exact List.filter_eq_nil_iff.mpr (fun c hc => by simp [hc])
  simp only [eccAdded, hn, List.isEmpty_nil, if_true]

theorem regWrite_stopped {s a addr st ar k} (h : gate s a addr 0xFF true ≠ .pass) :
    regWrite s a addr st ar k = busSays s a true addr (gate s a addr 0xFF true) := by
  cases hg : gate s a addr 0xFF true <;> simp_all [regWrite, busSays]

theorem regRead_stopped {s a addr st k d} (h : gate s a addr 0xFF false ≠ .pass) :
    regRead s a addr st d k = busSays s a false addr (gate s a addr 0xFF false) := by
  cases hg : gate s a addr 0xFF false <;> simp_all [regRead, busSays]

/-- A write that reaches its register is refused for its state, refused for its value, or takes effect (R42, R542). -/
theorem regWrite_reaches {s a p off st ar k} (h : WriteReaches s a p off) :
    regWrite s a (regAt p off) st ar k = (match st with
      | some x => refuse s a true (regAt p off) x
      | none => match ar with
        | some x => refuse s a true (regAt p off) x
        | none => k (answer s 0)) := by
  have h' : gate s a (regAt p off) 0xFF true = .pass := h
  simp only [regWrite, h'] <;> rfl

theorem regRead_reaches {s a p off st d k} (h : ReadReaches s a p off) :
    regRead s a (regAt p off) st d k = (match st with | some x => refuse s a false (regAt p off) x | none => k (answer s d)) := by
  have h' : gate s a (regAt p off) 0xFF false = .pass := h
  simp only [regRead, h'] <;> rfl

/-- A refusal changes the answer and the error record of the page it names, and no other page (R42, R59). -/
theorem refuse_spec (s : State) (a : Access) (w : Bool) (addr : Nat) (st : Status) :
    refuse s a w addr st = { s with bus := (refuse s a w addr st).bus }
    ∧ (refuse s a w addr st).bus.resp = { refused := true, stat := stCode st, rdata := 0 }
    ∧ ∀ q, q ≠ addr / 4096 → (refuse s a w addr st).page q = s.page q := by
  refine ⟨rfl, rfl, fun q hq => ?_⟩
  simp [refuse, refusedResp, pageError, pageErrorCode, State.page, State.setPage, hq]

/-- A cause is set and nothing else of the page changes, and no other page (R57). -/
theorem raise_spec (s : State) (p i : Nat) :
    raise s p i = { s with bus := { s.bus with pages := (raise s p i).bus.pages } }
    ∧ (raise s p i).page p = { s.page p with cause := (s.page p).cause ||| bitWord i }
    ∧ ∀ q, q ≠ p → (raise s p i).page q = s.page q := by
  refine ⟨rfl, by simp [raise], fun q hq => by simp [raise, hq]⟩

theorem busRead_stopped {s a addr be} (h : gate s a addr be false ≠ .pass) :
    busRead s a addr be = busSays s a false addr (gate s a addr be false) := by
  cases hg : gate s a addr be false <;> simp_all [busRead, busSays]

theorem busWrite_stopped {s a addr be v} (h : gate s a addr be true ≠ .pass) :
    busWrite s a addr be v = busSays s a true addr (gate s a addr be true) := by
  cases hg : gate s a addr be true <;> simp_all [busWrite, busSays]

/-- Nothing that does not reach its register lets a channel go on. -/
theorem pumpReached_stopped {s a addr be t} (h : gate s a addr be true ≠ .pass) : pumpReached s a addr be t = t := by
  cases hg : gate s a addr be true <;> simp_all [pumpReached]

theorem hostWrite_stopped {s a addr be v} (h : gate s a addr be true ≠ .pass) :
    hostWrite s a addr be v = busSays s a true addr (gate s a addr be true) := by
  simp only [hostWrite, pumpReached_stopped h, busWrite_stopped h, ite_self]

/-- A maker register is reached only through the bus. -/
theorem hitsTest_stopped {s a addr be w} (h : gate s a addr be w ≠ .pass) : hitsTest s a addr be w = false := by
  simp [hitsTest, h]

/-- Where a context command did not start, no codeword of its window is met. -/
theorem eccContext_same {s s1 : State} (e : EccIn) (h : s1.snd = s.snd) : eccContext s s1 e = s1 := by
  have hn : (if s.snd.ctx.isSome then none else s1.snd.ctx) = none := by
    rw [h]; cases s.snd.ctx <;> rfl
  simp only [eccContext, hn]

/-- A command that is an access of one register and does not reach it does what the bus says and nothing else. -/
theorem exec_stopped (c : Instr) (s : State) (a : Access) (w : Bool) (addr be : Nat) (h : accessOf c = some (a, w, addr, be))
    (hg : gate s a addr be w ≠ .pass) : exec c s = .next (busSays s a w addr (gate s a addr be w)) := by
  cases c <;> simp only [accessOf, Option.some.injEq, Prod.mk.injEq, reduceCtorEq] at h
  all_goals obtain ⟨rfl, rfl, rfl, rfl⟩ := h
  all_goals simp only [exec]
  case blkSoftReset => simp only [execBlkSoftReset, regWrite_stopped hg]
  case intSetWrite => simp only [execIntSetWrite, regWrite_stopped hg]
  case pageLockWrite => simp only [execPageLockWrite, regWrite_stopped hg]
  case csDataWrite => simp only [execCsDataWrite, csDataWrite, larkPage, regWrite_stopped hg]
  case csCommit => simp only [execCsCommit, csCommit, larkPage, regWrite_stopped hg]
  case bindWrite => simp only [execBindWrite, bindWrite, larkPage, regWrite_stopped hg]
  case kcFlush => simp only [execKcFlush, kcFlushWrite, larkPage, regWrite_stopped hg]
  case phlxAlloc => simp only [execPhlxAlloc, phlxAlloc, winCmd, winCmdAddr, regWrite_stopped hg]
  case phlxFree => simp only [execPhlxFree, phlxFree, winCmd, winCmdAddr, regWrite_stopped hg]
  case phlxOpen => simp only [execPhlxOpen, phlxOpen, winCmd, winCmdAddr, regWrite_stopped hg]
  case phlxInvalidate => simp only [execPhlxInvalidate, phlxInvalidate, winCmd, winCmdAddr, regWrite_stopped hg]
  case sndStCmd => simp only [execSndStCmd, sndStCmd, regWrite_stopped hg]
  case grpDescWrite => simp only [execGrpDescWrite, grpDescWrite, regWrite_stopped hg, ite_self]
  case mbrDataAccess write _ => 
    cases write
    · simp only [execMbrDataAccess, mbrRead, regRead_stopped hg, Bool.false_eq_true, if_false]
    · simp only [execMbrDataAccess, mbrWrite, regWrite_stopped hg, if_true]
  case grpCommit => simp only [execGrpCommit, grpCommitCmd, grpEditCmd, grpCmdAddr, regWrite_stopped hg, ite_self]
  case grpClear => simp only [execGrpClear, grpClearCmd, grpEditCmd, grpCmdAddr, regWrite_stopped hg, ite_self]
  case launch => simp only [execLaunch, grpTagCmd, grpCmd, grpCmdAddr, regWrite_stopped hg, ite_self]
  case grpAbort => simp only [execGrpAbort, grpTagCmd, grpCmd, grpCmdAddr, regWrite_stopped hg, ite_self]
  case resyncSend => simp only [execResyncSend, grpTagCmd, grpCmd, grpCmdAddr, regWrite_stopped hg, ite_self]
  case resyncRecv => simp only [execResyncRecv, grpTagCmd, grpCmd, grpCmdAddr, regWrite_stopped hg, ite_self]
  case setEpoch => simp only [execSetEpoch, setEpochCmd, grpCmdAddr, regWrite_stopped hg]
  case grpStationWrite => simp only [execGrpStationWrite, stationWrite, regWrite_stopped hg]
  case strgTrackWrite => simp only [execStrgTrackWrite, trackWrite, regWrite_stopped hg]
  case strgClear => simp only [execStrgClear, strgClearWrite, regWrite_stopped hg]
  case zinBudget => simp only [execZinBudget, zinCmd, zinCmdAddr, regWrite_stopped hg]
  case mrdAdvance => simp only [execMrdAdvance, mrdAdvance, regWrite_stopped hg, eccAdded_same _ (busSays_snd _ _ _ _ _)]
  case mrdStepSet => simp only [execMrdStepSet, mrdStepSet, regWrite_stopped hg, ite_self]
  case scheduleEntryWrite => simp only [execScheduleEntryWrite, schedWrite, schedAddr, regWrite_stopped hg, ite_self]
  case assign => simp only [execAssign, partAssign, partCmdAddr, partPage, regWrite_stopped hg]
  case partCmdRelease => simp only [execPartCmdRelease, partRelease, partCmdAddr, partPage, regWrite_stopped hg]
  case partRegionWrite => simp only [execPartRegionWrite, regionWrite, partPage, regWrite_stopped hg]
  case partMbrRangeWrite => simp only [execPartMbrRangeWrite, mbrRangeWrite, partPage, regWrite_stopped hg]
  case partChannelsWrite => simp only [execPartChannelsWrite, channelsWrite, partPage, regWrite_stopped hg]
  case partQuotaWrite => simp only [execPartQuotaWrite, quotaWrite, partPage, regWrite_stopped hg]
  case registerRead => simp only [execRegisterRead, hitsTest_stopped hg, busRead_stopped hg, Bool.false_eq_true, if_false]
  case registerWrite => simp only [execRegisterWrite, hitsTest_stopped hg, hostWrite_stopped hg, Bool.false_eq_true, if_false]
  case wideReadLatch => simp only [execWideReadLatch, hitsTest_stopped hg, busRead_stopped hg, Bool.false_eq_true, if_false]
  case sndCtxSave => simp only [execSndCtxSave, ctxCmd, ctxCmdAddr, pumpReached_stopped hg, regWrite_stopped hg, eccContext_same _ (busSays_snd _ _ _ _ _)]
  case sndCtxRestore => simp only [execSndCtxRestore, ctxCmd, ctxCmdAddr, pumpReached_stopped hg, regWrite_stopped hg, eccContext_same _ (busSays_snd _ _ _ _ _)]
  case rhmbStart => simp only [execRhmbStart, chanStart, chanCmdAddr, chanPage, pumpReached_stopped hg, regWrite_stopped hg]
  case rhmbResume => simp only [execRhmbResume, chanResume, chanCmdAddr, chanPage, pumpReached_stopped hg, regWrite_stopped hg]
  case rhmbStop => simp only [execRhmbStop, chanStop, chanCmdAddr, chanPage, pumpReached_stopped hg, regWrite_stopped hg]
  case rhmbPause => simp only [execRhmbPause, chanPause, chanCmdAddr, chanPage, regWrite_stopped hg]
  case rhmbChDoorbell => simp only [execRhmbChDoorbell, chanBell, chanPage, regWrite_stopped hg]
  case rhmbGctrlWrite => simp only [execRhmbGctrlWrite, gctrlWrite, regWrite_stopped hg]
  case rhmbSemWrite => simp only [execRhmbSemWrite, semWrite, regWrite_stopped hg]
  case chrtDeliver => simp only [execChrtDeliver, chrtCmd, chrtCmdAddr, regWrite_stopped hg, ite_self]
  case chrtImport => simp only [execChrtImport, chrtCmd, chrtCmdAddr, regWrite_stopped hg]
  case chrtConfirm => simp only [execChrtConfirm, chrtCmd, chrtCmdAddr, regWrite_stopped hg]
  case chrtCommit => simp only [execChrtCommit, chrtCmd, chrtCmdAddr, regWrite_stopped hg]
  case chrtDiscard => simp only [execChrtDiscard, chrtCmd, chrtCmdAddr, regWrite_stopped hg]
  case chrtDelete => simp only [execChrtDelete, chrtCmd, chrtCmdAddr, regWrite_stopped hg]
  case chrtGenerate => simp only [execChrtGenerate, chrtCmd, chrtCmdAddr, regWrite_stopped hg]
  case astrCsDataWrite => simp only [execAstrCsDataWrite, astrCsData, regWrite_stopped hg]
  case astrCsCommit => simp only [execAstrCsCommit, astrCsCommit, regWrite_stopped hg]
  case astrRun => simp only [execAstrRun, astrRun, astrCmd, astrCmdAddr, regWrite_stopped hg]
  case astrAbort => simp only [execAstrAbort, astrAbort, astrCmd, astrCmdAddr, regWrite_stopped hg]
  case astrSlotDescWrite => simp only [execAstrSlotDescWrite, astrSlotDesc, regWrite_stopped hg]
  case astrDataAccess write _ => 
    cases write
    · simp only [execAstrDataAccess, astrData, regRead_stopped hg, Bool.false_eq_true, if_false]
    · simp only [execAstrDataAccess, astrData, regWrite_stopped hg, if_true]
  case astrZero => simp only [execAstrZero, astrZero, regWrite_stopped hg]
  case logbProgram => simp only [execLogbProgram, logbCmd, logbCmdAddr, regWrite_stopped hg]
  case logbReinforce => simp only [execLogbReinforce, logbCmd, logbCmdAddr, regWrite_stopped hg]
  case lockWrite => simp only [execLockWrite, logbCmd, logbCmdAddr, regWrite_stopped hg]
  case lockRead => simp only [execLockRead, logbCmd, logbCmdAddr, regWrite_stopped hg]
  case advance => simp only [execAdvance, logbHelmCmd, logbCmd, logbCmdAddr, regWrite_stopped hg, ite_self]
  case logbRevoke => simp only [execLogbRevoke, logbHelmCmd, logbCmd, logbCmdAddr, regWrite_stopped hg, ite_self]
  case genDus => simp only [execGenDus, logbHelmCmd, logbCmd, logbCmdAddr, regWrite_stopped hg, ite_self]
  case marginScan => simp only [execMarginScan, logbCmd, logbCmdAddr, regWrite_stopped hg]
  case transition => simp only [execTransition, lifeCmd, lifeCmdAddr, regWrite_stopped hg]
  case lifeChallenge => simp only [execLifeChallenge, lifeCmd, lifeCmdAddr, regWrite_stopped hg]
  case unlockPw => simp only [execUnlockPw, lifeCmd, lifeCmdAddr, regWrite_stopped hg]
  case unlockGrant => simp only [execUnlockGrant, lifeCmd, lifeCmdAddr, regWrite_stopped hg]
  case updBegin => simp only [execUpdBegin, helmCmd, helmCmdAddr, regWrite_stopped hg]
  case updBlock => simp only [execUpdBlock, helmCmd, helmCmdAddr, regWrite_stopped hg]
  case updFinish => simp only [execUpdFinish, helmCmd, helmCmdAddr, regWrite_stopped hg]
  case updAbort => simp only [execUpdAbort, helmCmd, helmCmdAddr, regWrite_stopped hg]
  case activate => simp only [execActivate, helmCmd, helmCmdAddr, regWrite_stopped hg]
  case helmConfirm => simp only [execHelmConfirm, helmCmd, helmCmdAddr, regWrite_stopped hg]
  case helmRevoke => simp only [execHelmRevoke, helmCmd, helmCmdAddr, regWrite_stopped hg]
  case forward => simp only [execForward, helmCmd, helmCmdAddr, regWrite_stopped hg]
  case settings => simp only [execSettings, helmCmd, helmCmdAddr, regWrite_stopped hg]
  case verifyHost => simp only [execVerifyHost, helmCmd, helmCmdAddr, regWrite_stopped hg]
  case helmStageDataAccess write _ => 
    cases write
    · simp only [execHelmStageDataAccess, stageAccess, regRead_stopped hg, Bool.false_eq_true, if_false]
    · simp only [execHelmStageDataAccess, stageAccess, regWrite_stopped hg, if_true]
  case extend => simp only [execExtend, regWrite_stopped hg]
  case pwrOn => simp only [execPwrOn, pwrCmd, pwrCmdAddr, regWrite_stopped hg]
  case pwrOff => simp only [execPwrOff, pwrCmd, pwrCmdAddr, regWrite_stopped hg]
  case pwrSleep => simp only [execPwrSleep, pwrCmd, pwrCmdAddr, regWrite_stopped hg]

end Sys2Proof.Machine
end

