-- ==== Sys2Proof/Laws/Crc.lean ====
section
/-! SUPPORT. The CRC-32C of `Machine/Bits.lean` sees a changed byte (05 R141, 08 R272). -/

namespace Sys2Proof.Laws

open Sys2Proof.Machine

/-- One bit of the CRC-32C register loses nothing, so a byte of it does not either. -/
theorem crcBit_inj (x y : Nat) (hx : x < 2 ^ 32) (hy : y < 2 ^ 32)
    (h : (if x.testBit 0 then (x >>> 1) ^^^ 0x82F63B78 else x >>> 1) = (if y.testBit 0 then (y >>> 1) ^^^ 0x82F63B78 else y >>> 1)) : x = y := by
  have top : ∀ z, z < 2 ^ 32 → (if z.testBit 0 then (z >>> 1) ^^^ 0x82F63B78 else z >>> 1).testBit 31 = z.testBit 0 := by
    intro z hz
    have hs : (z >>> 1).testBit 31 = false := Nat.testBit_lt_two_pow (by rw [Nat.shiftRight_eq_div_pow]; omega)
    cases hb : z.testBit 0 with
    | false => simpa [hb] using hs
    | true => simp only [if_true, Nat.testBit_xor, hs]; decide
  have hb : x.testBit 0 = y.testBit 0 := by rw [← top x hx, ← top y hy, h]
  have hd : x >>> 1 = y >>> 1 := by
    cases hy0 : y.testBit 0 with
    | false => simpa [hb, hy0] using h
    | true => simpa [hb, hy0] using h
  simp only [Nat.testBit_zero, Nat.shiftRight_eq_div_pow, decide_eq_decide] at hb hd
  omega
/-- Any number of shifts of the register loses nothing. -/
theorem crcBits_inj (l : List Nat) : ∀ x y, x < 2 ^ 32 → y < 2 ^ 32 →
    l.foldl (fun x _ => if x.testBit 0 then (x >>> 1) ^^^ 0x82F63B78 else x >>> 1) x = l.foldl (fun x _ => if x.testBit 0 then (x >>> 1) ^^^ 0x82F63B78 else x >>> 1) y → x = y := by
  induction l with
  | nil => intro x y _ _ h; exact h
  | cons a l ih =>
    intro x y hx hy h
    have lt : ∀ z, z < 2 ^ 32 → (if z.testBit 0 then (z >>> 1) ^^^ 0x82F63B78 else z >>> 1) < 2 ^ 32 := by
      intro z hz
      have hs : z >>> 1 < 2 ^ 32 := by rw [Nat.shiftRight_eq_div_pow]; omega
      split
      · exact Nat.xor_lt_two_pow hs (by decide)
      · exact hs
    exact crcBit_inj x y hx hy (ih _ _ (lt x hx) (lt y hy) h)
/-- The register stays of 32 bits. -/
theorem crcByte_lt (c : Nat) (b : Byte) (hc : c < 2 ^ 32) : crcByte c b < 2 ^ 32 := by
  have : ∀ (l : List Nat) z, z < 2 ^ 32 → l.foldl (fun x _ => if x.testBit 0 then (x >>> 1) ^^^ 0x82F63B78 else x >>> 1) z < 2 ^ 32 := by
    intro l
    induction l with
    | nil => intro z hz; exact hz
    | cons a l ih =>
      intro z hz
      refine ih _ ?_
      have hs : z >>> 1 < 2 ^ 32 := by rw [Nat.shiftRight_eq_div_pow]; omega
      show (if z.testBit 0 then (z >>> 1) ^^^ 0x82F63B78 else z >>> 1) < 2 ^ 32
      split
      · exact Nat.xor_lt_two_pow hs (by decide)
      · exact hs
  exact this _ _ (Nat.xor_lt_two_pow hc (by have := b.isLt; omega))
/-- Strings that differ in their last byte differ in their CRC-32C. -/
theorem crc_last (l : Bytes) (a b : Byte) (h : a ≠ b) : crc32c (l ++ [a]) ≠ crc32c (l ++ [b]) := by
  have lt : ∀ (l : Bytes) c, c < 2 ^ 32 → l.foldl crcByte c < 2 ^ 32 := by
    intro l
    induction l with
    | nil => intro c hc; exact hc
    | cons x l ih => intro c hc; exact ih _ (crcByte_lt c x hc)
  intro he
  unfold crc32c at he
  rw [Nat.xor_left_inj, List.foldl_append, List.foldl_append] at he
  have hc := lt l 0xFFFFFFFF (by decide)
  have hb : ∀ x : Byte, x.toNat < 2 ^ 32 := fun x => by have := x.isLt; omega
  have := crcBits_inj (List.range 8) _ _ (Nat.xor_lt_two_pow hc (hb a)) (Nat.xor_lt_two_pow hc (hb b)) he
  exact h (BitVec.eq_of_toNat_eq (by simpa using this))

end Sys2Proof.Laws
end

