-- ==== Sys2Proof/Laws/Frames.lean ====
section
/-! SUPPORT. Sealing a frame and opening it (03 R86): the keystream undoes itself, and what was sealed opens again. -/

namespace Sys2Proof.Machine

/-- The keystream taken twice is the bytes again. -/
theorem xor_xorStream (key : Key) (iv : BitVec 96) (l : Bytes) : xorStream key iv (xorStream key iv l) = l := by
  apply List.ext_getElem
  · simp [xorStream]
  · intro i h1 h2
    simp [xorStream, List.getD_eq_getElem?_getD, h2]

/-- What is sealed opens again: a header whose bytes read back, with the plaintext's length. -/
theorem open_seal (key : Key) (h : Hdr) (plain : Bytes) (hh : hdrOf (sealFrame key h plain) = h) (hl : h.payLen = plain.length) (h64 : (hdrBytes h).length = 64) :
    openFrame key (sealFrame key h plain) = some plain := by
  have hct : (xorStream key (nonceOf h) plain).length = h.payLen := by simp [xorStream, hl]
  have hs : slice (sealFrame key h plain) 64 h.payLen = xorStream key (nonceOf h) plain := by
    simp [slice, sealFrame, h64, hct, zeros]
  have ht : slice (sealFrame key h plain) (64 + h.payLen) 16 = beBytes 16 (Config.gcmTag key (nonceOf h) (hdrBytes h) (xorStream key (nonceOf h) plain)).toNat := by
    have hb : ∀ n, (beBytes 16 n).length = 16 := by intro n; simp [beBytes, leBytes]
    simp only [slice, sealFrame, List.drop_append, h64, hct, List.length_append]
    simp [zeros, h64, hct, List.take_of_length_le, hb, List.drop_eq_nil_of_le]
  have h0 : (sealFrame key h plain).take 64 = hdrBytes h := by simp [sealFrame, h64]
  simp only [openFrame, hh, hs, ht, h0, xor_xorStream, if_true]

end Sys2Proof.Machine
end

