-- ==== Sys2Proof/Laws/Fuses.lean ====
section
/-! SUPPORT. What the fuse array reads where nothing has been programmed (14 R410, R416): one lemma for a blank word, and one that finds a
region usable from a check that skips its blank words. -/

namespace Sys2Proof.Laws

open Sys2Proof Sys2Proof.Machine

/-- Every copy of a word is blank. -/
def blankWord (t : Table PhysWord) (r i : Nat) : Bool := (copiesOf r i).all (fun p => decide (tget {} t p = ({} : PhysWord)))

theorem goodValue_blank : goodValue {} = some 0 := by decide +kernel
theorem decodeWord_blank : decodeWord 0 = .clean 0 := by decide +kernel

/-- A blank word reads as zero. -/
theorem readWord_blank (t : Table PhysWord) (r i : Nat) (h : blankWord t r i = true) : (readWord t r i).value.isSome = true := by
  unfold blankWord copiesOf at h
  unfold readWord copiesOf
  by_cases hk : kindOf r i = .tally
  · simp [hk]
  · by_cases h2 : twoCopies r = true
    · simp only [h2, if_true, List.all_cons, List.all_nil, Bool.and_true, Bool.and_eq_true, decide_eq_true_eq] at h
      simp [h2, hk, h.1, h.2, goodValue_blank, show blankBeside {} {} = false from rfl]
    · simp only [h2, Bool.false_eq_true, if_false, List.all_cons, List.all_nil, Bool.and_true, decide_eq_true_eq] at h
      simp [h2, hk, h, decodeWord_blank]

/-- Every word of a region is blank or has a value. -/
def wordsRead (t : Table PhysWord) (r : Nat) : Bool := (List.range (regLen r)).all (fun i => blankWord t r i || (readWord t r i).value.isSome)

theorem badWord_none (t : Table PhysWord) (r : Nat) (h : wordsRead t r = true) : badWord t r = none := by
  unfold badWord
  rw [List.find?_eq_none]
  intro i hi
  have := List.all_eq_true.mp h i hi
  rw [Bool.or_eq_true] at this
  rcases this with hb | hv
  · have := readWord_blank t r i hb
    intro hn; simp [Option.isNone_iff_eq_none.mp hn] at this
  · intro hn; simp [Option.isNone_iff_eq_none.mp hn] at hv

/-- A region without a write lock whose words all read is usable. -/
theorem unusable_false (s : State) (r : Nat) (h : wordsRead s.logb.sensed r = true) (hl : wLocked s r = false) : unusable s s.logb.sensed r = false := by
  simp [unusable, regionFails, badWord_none _ _ h, hl]

/-- A word of such a region. -/
theorem fuse_eq (s : State) (r i : Nat) (h : wordsRead s.logb.sensed r = true) (hl : wLocked s r = false) :
    fuse s r i = (readWord s.logb.sensed r i).value.getD 0 := by
  simp [fuse, unusable_false s r h hl]

end Sys2Proof.Laws
end

