-- ==== Sys2Proof/Tests/Slice0.lean ====
section
/-! SUPPORT. Tests: ill-formed commands are refused by `Instr.wf`, and for each statement states and operands that meet its premises, with
one or two facts of what the command does there. Expected values are written out from the spec's tables. -/

namespace Sys2Proof.Tests

open Sys2Proof Sys2Proof.Machine

set_option Elab.async false

/-- A block in service: every domain powered, both loops locked, `READY`. -/
def up : State :=
  { State.reset with blk.ready := true, blk.profile := 1, pwr.live := 0xFFFFF, pwr.req := 0xFFFFF, pwr.ack := 0xFFFFF, clkr.arithLock := true, clkr.secLock := true }

/-- A management access of the host, one of Helm, and one of a partition. -/
def mg : Access := { src := .host, tagged := true, ptag := 0, mgmt := true }
def hm : Access := { src := .helm, tagged := false, ptag := 0, mgmt := true }
def tg (p : BitVec 5) : Access := { src := .host, tagged := true, ptag := p, mgmt := false }

/-- A write and a read reach a register. -/
def wr (s : State) (a : Access) (p off : Nat) : Bool := decide (gate s a (regAt p off) 0xFF true = .pass)
def rd (s : State) (a : Access) (p off : Nat) : Bool := decide (gate s a (regAt p off) 0xFF false = .pass)

/-- A command answers a next state of which something holds. -/
def nx (c : Instr) (s : State) (p : State → Bool) : Bool := match exec c s with | .next t => p t | _ => false

/-- The answer of a refusal with a status. -/
def no (st : Nat) (t : State) : Bool := decide (t.bus.resp = { refused := true, stat := st, rdata := 0 })

def noStore : StoreIn := { slot := none, backOk := true }
def noBoot : BootIn := { store := none, backOk := true, noise := [] }
def noCut : ProgCut := { pulses := 0, loose := 0, nominal := 0 }
def noEcc : EccIn := { corrected := 0, bad := none }
def all : StepIn := { phases := none, st := noStore, ecc := noEcc }

/-- An arrival of the class of a header byte. -/
def frameOf (port : BitVec 4) (cls : Nat) : Arrival :=
  { port := port, vc := false, wireLen := 0, whole := true, bytes := zeros 7 ++ [BitVec.ofNat 8 cls] ++ zeros 88 }


/-! ### Ill-formed commands are refused -/

/-- A register with several codes takes only its own (Tables 5.28, 6.14, 7.10, 8.13, 10.7). -/
theorem test_wf_codes_1 : ([.phlxAlloc mg 0, .phlxFree mg 0, .phlxOpen mg 0, .phlxInvalidate mg 0, .sndCtxSave mg 0 (noEcc, none), .sndCtxRestore mg 0 (noEcc, none), .grpCommit mg 0,
    .grpClear mg 0, .launch mg 0, .grpAbort mg 0, .resyncSend mg 0, .resyncRecv mg 0, .setEpoch mg 0, .zinBudget mg 0 none none, .assign mg 0 0 ⟨none, none⟩,
    .partCmdRelease mg 0 0] : List Instr).all (fun i => !i.wf) = true := by decide +kernel

/-- The codes of the channels, Chartroom and Astrolabe (Tables 11.13, 12.7, 13.11). -/
theorem test_wf_codes_2 : ([.rhmbStart mg 0 0, .rhmbPause mg 0 0, .rhmbResume mg 0 0, .rhmbStop mg 0 0, .chrtImport mg 0 none none, .chrtConfirm mg 0, .chrtCommit mg 0,
    .chrtDiscard mg 0, .chrtDelete mg 0, .chrtGenerate mg 0, .chrtDeliver mg 0, .astrRun mg 0, .astrAbort mg 0] : List Instr).all (fun i => !i.wf) = true := by
  decide +kernel

/-- The codes of Logbook, the gate, Helm, the measurements and the power controller (Tables 14.7, 15.11, 16.14, 16.16, 18.14). -/
theorem test_wf_codes_3 : ([.logbProgram mg 0, .logbReinforce mg 0, .lockWrite mg 0, .lockRead mg 0, .advance mg 0, .logbRevoke mg 0, .genDus mg 0, .marginScan mg 0,
    .transition mg 0 none, .lifeChallenge mg 0, .unlockPw mg 0, .unlockGrant mg 0 none, .updBegin mg 0 noStore, .updBlock mg 0 noStore, .updFinish mg 0 noStore,
    .updAbort mg 0, .activate mg 0 noStore noBoot, .helmConfirm mg 0 noStore, .helmRevoke mg 0 none, .forward mg 0 noStore, .settings mg 0 noStore,
    .verifyHost mg 0 none none, .extend mg 0, .pwrOn mg 0, .pwrOff mg 0, .pwrSleep mg 0] : List Instr).all (fun i => !i.wf) = true := by decide +kernel

/-- A code of 1 is a command's own where its table says so, and no other's. -/
theorem test_wf_own_code : Instr.wf (.phlxAlloc mg 0x1000000000000000) = true ∧ Instr.wf (.phlxFree mg 0x1000000000000000) = false := by decide +kernel

/-- A frame comes as its class's command, on one of the twelve ports (Tables 3.2 and 18.3). -/
theorem test_wf_frames : ([.dataFrameReceive (frameOf 0 2) noEcc, .scaleFrameReceive ((frameOf 0 1), noEcc), .resultFrameReceive (frameOf 0 1), .abortFrameReceive (frameOf 0 1),
    .stepFrameReceive (frameOf 0 1) all, .mgmtFrameReceive (frameOf 0 1), .probeFrameReceive (frameOf 0 1), .updateFrameReceive (frameOf 0 1) all,
    .scaleFrameReceive ((frameOf 12 2), noEcc), .creditGrantReceive 12 false 1, .creditGrantReceive 0 false 0, .drainEnd 0 12] : List Instr).all (fun i => !i.wf) = true := by
  decide +kernel

/-- An undefined class comes as a `DATA` frame, port 11 is the last (R73). -/
theorem test_wf_frame_bounds : Instr.wf (.dataFrameReceive (frameOf 11 15) noEcc) = true ∧ Instr.wf (.dataFrameReceive (frameOf 11 1) noEcc) = true
    ∧ Instr.wf (.creditGrantReceive 11 true 255) = true := by decide +kernel

/-- What a command brings has its size: a 64-byte answer, 1,024 samples, an answer of the key port, distinct missed words, a domain. -/
theorem test_wf_sizes : ([.mmpReadResponse 0 (some (zeros 63)), .noiseSampleBlock [], .kdpAnswer false false 0 0, .logbCmdDone { pulses := 5, misses := [] },
    .logbCmdDone { pulses := 1, misses := [⟨3, 0, 0, 0, []⟩, ⟨3, 1, 1, 1, []⟩] }, .pwrAckRise 20 0, .pwrAckFall 20, .powerLoss 20] : List Instr).all (fun i => !i.wf) = true := by
  decide +kernel

/-- A request area is 16,384 bytes (17 R502). -/
theorem test_wf_mailbox : ([.getVersion [], .getCapabilities [], .negotiateAlgorithms [], .getDigests [] none, .getCertificate [] none, .spdmChallenge ⟨[], none⟩ none,
    .getMeasurements ⟨[], none⟩, .keyExchange ⟨[], none⟩ none, .finish [], .keyUpdate [], .endSession [], .unsupportedRequest []] : List Instr).all (fun i => !i.wf) = true := by
  decide +kernel

/-- The block has no word encoding: nothing decodes, and the queue stays (the model's reading of the table). -/
theorem test_no_words : decodeTableWord 64 0x1234 = none := by decide +kernel

/-! ### The bus (O1 to O6) -/

/-- A command in front of the queue runs on the queue's rest. -/
theorem test_step_front : (match step { up with pending := [.intSetWrite mg 0x60 1, .refillDone] } with
    | .next t => bitOf (t.page 0x60).cause 0 && decide (t.pending = [.refillDone]) | _ => false) = true := by decide +kernel

/-- An idle microsecond counts, wrapping at 64 bits, and the wipe level of the key port falls. -/
theorem test_idle : (match step { up with mrd.wall := 2 ^ 64 - 1, pins.kdpZeroise := true } with
    | .next t => decide (t.mrd.wall = 0) && !t.pins.kdpZeroise | _ => false) = true := by decide +kernel

/-- The three ways the bus turns a command away: a held block, a page that is off, an access that is refused. -/
theorem test_bus_dead : gate { up with blk.held := true } mg (regAt 0x60 0x88) 0xFF true = .dead
    ∧ accessOf (.grpCommit mg 0) = some (mg, true, regAt 0x60 0x88, 0xFF) := by decide +kernel
/-- The register commands and those of the channels and contexts are accesses too; a plain access has its own byte enables. -/
theorem test_bus_accesses : accessOf (.registerWrite mg 0x60018 0x0F 1) = some (mg, true, 0x60018, 0x0F) ∧ accessOf (.registerRead mg 0x60000 0xFF) = some (mg, false, 0x60000, 0xFF)
    ∧ gate up mg 0x60018 0x0F true = .refuse .badArg := by decide +kernel
theorem test_bus_decode : gate { up with pwr.live := 0 ||| 2 ^ 18 } mg (regAt 0x60 0x88) 0xFF true = .decode .wrongState := by decide +kernel
theorem test_bus_refuse : gate up (tg 3) (regAt 0x08 0x20) 0xFF true = .refuse .partition
    ∧ nx (.pageLockWrite (tg 3) 0x80 1) up (fun t => no 0x0401 t && !(t.page 0x80).lock && (t.page 0x80).err.valid) = true := by decide +kernel

/-- A management page from a partition's access: the page responds and the tag owns nothing (R17, R42). -/
theorem test_mgmt_page : accessOf (.pwrOn (tg 3) 0) = some (tg 3, true, regAt 0xC0 0x48, 0xFF) ∧ dead up = false ∧ up.clkr.secLock = true ∧ up.logb.lifted = false
    ∧ pageUp up 0xC0 = true ∧ pageClassNow up 0xC0 = .mgmt ∧ isMgmt (tg 3) = false ∧ nx (.pwrOn (tg 3) 0) up (no 0x0401) = true := by decide +kernel

/-- Header writes: `INT_SET` of a defined bit, `PAGE_LOCK`, write-one-to-clear, and a read-only register. -/
theorem test_header_set : wr up mg 0x60 0x28 = true ∧ wr up mg 0x60 0x30 = true ∧ wr up mg 0x60 0x18 = true ∧ wr up mg 0x60 0x20 = true ∧ wr up mg 0x60 0x38 = true
    ∧ nx (.intSetWrite mg 0x60 1) up (fun t => bitOf (t.page 0x60).cause 0) = true ∧ nx (.pageLockWrite mg 0x60 1) up (fun t => (t.page 0x60).lock) = true := by decide +kernel
theorem test_header_clear : nx (.registerWrite mg 0x60018 0xFF 1) (up.setPage 0x60 { cause := 3 }) (fun t => decide ((t.page 0x60).cause = 2)) = true
    ∧ nx (.registerWrite mg 0x60020 0xFF 5) up (fun t => decide ((t.page 0x60).enable = 5)) = true
    ∧ nx (.registerWrite mg 0x60038 0xFF 0x8000000000000000) (up.setPage 0x60 { err := { valid := true, again := true } })
        (fun t => !(t.page 0x60).err.valid && (t.page 0x60).err.again) = true
    ∧ (wr up mg 0x60 0 = true ∧ nx (.registerWrite mg 0x60000 0xFF 1) up (no 0x0101) = true) := by decide +kernel

/-- Reads: `INT_CAUSE`, `PAGE_ID`, and a measurement register latched whole for its bank. -/
theorem test_reads : rd up mg 0x60 0x18 = true ∧ rd up mg 0x60 0 = true
    ∧ nx (.registerRead mg 0x60018 0xFF) (up.setPage 0x60 { cause := 9 }) (fun t => decide (t.bus.resp.rdata = 9)) = true := by decide +kernel
theorem test_wide_read : rd up mg 0x14 0x130 = true ∧ rd up mg 0x14 0x158 = true
    ∧ nx (.wideReadLatch mg 0x14130) { up with meas.regs := [(1, 2 ^ 64 + 7)] } (fun t => decide (t.bus.resp.rdata = 7) && decide ((tget [] t.bus.latch 32).getD 1 0 = 1)) = true
    ∧ nx (.registerRead mg 0x14138 0xFF) { up with bus.latch := [(32, [7, 1])] } (fun t => decide (t.bus.resp.rdata = 1)) = true := by decide +kernel

/-- `PAGE_LOCK` from a partition leaves the lock, and `PORST_N` alone clears it (R51). -/
theorem test_lock : tableWf {} (up.setPage 0x60 { lock := true }).bus.pages = true ∧ isMgmt (tg 3) = false
    ∧ nx (.pageLockWrite (tg 3) 0x60 1) (up.setPage 0x60 { lock := true }) (fun t => (t.page 0x60).lock) = true
    ∧ nx (.loopLockLoss false) (up.setPage 0xC1 { lock := true }) (fun t => (t.page 0xC1).lock && bitOf (t.page 0xC1).cause 1) = true := by decide +kernel


/-! ### Larkspur and Phlox -/

def loadingPipe : State := up.setPipe 3 { st := .loading, csAddr := 2047 }

/-- The last word of a control store: the address wraps (R141). -/
theorem test_cs_data : wr loadingPipe mg 0x43 0x58 = true ∧ (loadingPipe.pipe 3).st = .loading ∧ arithRuns up = true
    ∧ nx (.csDataWrite mg 3 7) loadingPipe (fun t => decide (tget 0 (t.pipe 3).cs 2047 = 7) && decide ((t.pipe 3).csAddr = 0)) = true := by decide +kernel
theorem test_cs_state : wr up mg 0x43 0x58 = true ∧ wr up mg 0x43 0x60 = true ∧ (up.pipe 3).st ≠ .loading ∧ nx (.csDataWrite mg 3 7) up (no 0x0301) = true := by decide +kernel

def cachedPipe : State := up.setPipe 3 { st := .bound, kc := [(0, { valid := true, use := 1, part := 2 }), (1, { valid := true, use := 4, holders := 1 })] }

/-- A flush of everything: an entry in use is marked, another goes (R153); reserved bits are refused. -/
theorem test_kc_flush : wr cachedPipe mg 0x43 0x78 = true ∧ tableWf {} (cachedPipe.pipe 3).kc = true
    ∧ nx (.kcFlush mg 3 0x200) cachedPipe (fun t => !(tget {} (t.pipe 3).kc 0 : KcEntry).valid && (tget {} (t.pipe 3).kc 1 : KcEntry).flush) = true
    ∧ nx (.kcFlush mg 3 0x22) cachedPipe (fun t => !(tget {} (t.pipe 3).kc 0 : KcEntry).valid && !(tget {} (t.pipe 3).kc 1 : KcEntry).flush) = true
    ∧ nx (.kcFlush mg 3 0x40) cachedPipe (no 0x0101) = true := by decide +kernel

def idlePipe : State := up.setPipe 3 { st := .idle, csValid := true }

/-- `BIND` of ports 0 and 1 to an idle pipe; three ports are too many; a pipe out of service is refused (R142, R146). -/
theorem test_bind : wr idlePipe mg 0x43 0x40 = true ∧ bindStateRefused idlePipe 3 3 = false ∧ bindArgRefused idlePipe 3 3 = false
    ∧ idlePipe.grp.liveEn = false ∧ idlePipe.pins.stationLive = false ∧ idlePipe.lark.unsent = []
    ∧ nx (.bindWrite mg 3 3) idlePipe (fun t => decide ((t.pipe 3).bind = 3) && decide ((t.pipe 3).st = .bound)) = true := by decide +kernel
theorem test_bind_refused : bindArgRefused idlePipe 3 7 = true ∧ nx (.bindWrite mg 3 7) idlePipe (no 0x0101) = true
    ∧ bindStateRefused up 3 1 = true ∧ nx (.bindWrite mg 3 1) up (no 0x0301) = true := by decide +kernel

def drainingPipe : State := up.setPipe 3 { st := .draining, bind := 1, drain := 2 }

theorem test_drain_end : (drainingPipe.pipe 3).drain.testBit 1 = true ∧ portHeld (drainingPipe.pipe 3) 1 = false ∧ drainingPipe.snd.moved = []
    ∧ nx (.drainEnd 3 1) drainingPipe (fun t => decide ((t.pipe 3).st = .bound) && decide ((t.pipe 3).drain = 0)) = true := by decide +kernel

/-- Window commands on window 5: 5 shifted left 29 is 0xA0000000. -/
def winState (w : Win) : State := { up with phlx.wins := [(5, w)] }

theorem test_open : wr (winState { kind := .working, tiles := 2 }) mg 0x51 0x58 = true ∧ fld (0x30000000A0000000 : Word) 41 29 = 5 ∧ fld (0x30000000A0000000 : Word) 4 0 = 0
    ∧ arithRuns up = true ∧ nx (.phlxOpen mg 0x30000000A0000000) (winState { kind := .working, tiles := 2 })
        (fun t => decide ((t.win 5).st = .opened) && decide ((tileRec t 5 1).scale = 0x81) && (tileRec t 5 1).fresh) = true := by decide +kernel
theorem test_open_twice : nx (.phlxOpen mg 0x30000000A0000000) (winState { kind := .working, st := .opened }) (fun t => decide (t.phlx.running = some { status := 0x0301, win := 5 })) = true
    ∧ nx (.phlxFree mg 0x20000000A0000000) (winState { kind := .working, st := .releasing }) (fun t => decide (t.phlx.running = some { status := 0x0301, win := 5 })) = true := by
  decide +kernel
/-- `OPEN` and `INVALIDATE` of a window of another kind, and `FREE` of no window, are `ST_BAD_ARG`. -/
theorem test_window_kind : nx (.phlxOpen mg 0x30000000A0000000) (winState { kind := .shadow }) (fun t => decide (t.phlx.running = some { status := 0x0101, win := 5 })) = true
    ∧ nx (.phlxInvalidate mg 0x40000000A0000000) (winState { kind := .working }) (fun t => decide (t.phlx.running = some { status := 0x0101, win := 5 })) = true
    ∧ nx (.phlxFree mg 0x20000000A0000000) up (fun t => decide (t.phlx.running = some { status := 0x0101, win := 5 })) = true := by decide +kernel
theorem test_invalidate_free : nx (.phlxInvalidate mg 0x40000000A0000000) (winState { kind := .shadow, shadowValid := true }) (fun t => !(t.win 5).shadowValid) = true
    ∧ nx (.phlxFree mg 0x20000000A0000000) (winState { kind := .shadow, tiles := 1 }) (fun t => decide ((t.win 5).kind = .free)) = true := by decide +kernel
/-- `FREE` returns the granule of the window alone, its partner stays alone, and the descriptor that named it names none. -/
theorem test_free_all : nx (.phlxFree mg 0x20000000A0000000) { winState { kind := .working, tiles := 1, base := 3, partner := some 6 } with
      phlx.wins := [(5, { kind := .working, tiles := 1, base := 3, partner := some 6 }), (6, { kind := .shadow, partner := some 5 })],
      phlx.gmap := [(2, 9), (3, 8)], grp.descA := [(4, { w7 := BitVec.ofNat 64 (5 * 2 ^ 36 + 2 ^ 35) })] }
      (fun t => decide (t.phlx.gmap = [(2, 9)]) && decide ((t.win 6).partner = none) && decide (descWindow (t.desc false 4) = none)) = true
    ∧ tableWf ({} : Desc) [(4, { w7 := BitVec.ofNat 64 (5 * 2 ^ 36 + 2 ^ 35) })] = true := by decide +kernel
/-- A command without the arithmetic loop's clock waits, and its end waits with it (01 R25). -/
theorem test_window_waits : wr { up with clkr.arithLock := false } mg 0x51 0x58 = true ∧ arithRuns { up with clkr.arithLock := false } = false
    ∧ nx (.phlxOpen mg 0x30000000A0000000) { up with clkr.arithLock := false } (fun t => t.phlx.waiting.isSome && pageBusy t mg 0x51) = true
    ∧ nx .phlxWinCmdDone { up with phlx.running := some {}, phlx.waiting := some (.free, mg, 0) } (fun t => t.phlx.running.isSome) = true := by decide +kernel
theorem test_win_done : nx .phlxWinCmdDone { up with phlx.running := some { win := 5 } } (fun t => decide (t.phlx.result.win = 5) && bitOf (t.page 0x51).cause 0) = true
    ∧ (nx .phlxWinCmdDone up (fun t => decide (t.phlx.result = {})) && wr { up with phlx.running := some { win := 5 } } mg 0x51 0x58) = true
    ∧ nx (.phlxAlloc mg 0x1000000000004000) { up with phlx.running := some { win := 5 } } (no 0x0301) = true := by decide +kernel

def allocState : State := { up with parts := [(2, { st := .owned, qGran := 4, qWins := 1 })] }

/-- `ALLOC` of 1 tile for partition 2, group 9; of none; past the quota. -/
theorem test_alloc : wr allocState mg 0x51 0x58 = true ∧ fld (0x1100480000004000 : Word) 59 55 = 2 ∧ fld (0x1100480000004000 : Word) 28 14 = 1
    ∧ nx (.phlxAlloc mg 0x1100480000004000) allocState (fun t => decide ((t.win 0).kind = .working) && decide ((t.win 0).part = 2) && decide ((t.win 0).tiles = 1)
        && domLive t 13) = true := by decide +kernel
/-- With a shadow the window takes an even index and the shadow the next one, each with its own run; both copies of group 9 name it. -/
theorem test_alloc_pair : freeWindow { allocState with parts := [(2, { st := .owned, qGran := 4, qWins := 2 })] } true = some 0
    ∧ nx (.phlxAlloc mg 0x11004C0000004000) { allocState with parts := [(2, { st := .owned, qGran := 4, qWins := 2 })] }
        (fun t => decide ((t.win 1).kind = .shadow) && decide ((t.win 1).partner = some 0) && decide ((t.win 0).partner = some 1) && decide ((t.win 1).base ≠ (t.win 0).base)
          && decide (descWindow (t.desc true 9) = some 0) && decide (descWindow (t.desc false 9) = some 0)) = true := by decide +kernel
/-- `DETAIL` 2 has states: every even index is taken by another partition, with pool and quota left. -/
def evenWins (n : Nat) : Table Win := (List.range n).map (fun i => (2 * i, { kind := .working, part := 9 }))
theorem tget_evenWins (n k : Nat) (h : k < n) : (tget {} (evenWins n) (2 * k)).kind = .working := by
  induction n with
  | zero => omega
  | succ n ih =>
    have tail : ∀ (t r : Table Win) (j : Nat), (tget {} t j).kind = .working → (tget {} (t ++ r) j).kind = .working := by
      intro t r j
      induction t with
      | nil => intro h; simp [tget] at h
      | cons e t iht => simp only [List.cons_append, tget]; split <;> [exact id; exact iht]
    simp only [evenWins, List.range_succ, List.map_append, List.map_cons, List.map_nil]
    by_cases hk : k < n
    · exact tail _ _ _ (ih hk)
    · obtain rfl : k = n := by omega
      have last : ∀ t : Table Win, (∀ e ∈ t, e.2.kind = .working) → (tget {} (t ++ [(2 * k, ({ kind := .working, part := 9 } : Win))]) (2 * k)).kind = .working := by
        intro t ht
        induction t with
        | nil => simp [tget]
        | cons e t iht =>
          simp only [List.cons_append, tget]
          split
          · exact ht e (by simp)
          · exact iht (fun e he => ht e (by simp [he]))
      exact last _ (by simp)
theorem test_alloc_no_index : (let s := { allocState with parts := [(2, { st := .owned, qGran := 4, qWins := 2 })], phlx.wins := evenWins 4096 }
    freeWindow s true = none ∧ poolFree s ≥ 2 * granulesFor 1 ∧ partWindows s 2 + 2 ≤ 2 ∧ partGranules s 2 + 2 * granulesFor 1 ≤ 4) := by
  refine ⟨?_, by decide, by decide +kernel, by decide +kernel⟩
  simp only [freeWindow, if_true, Option.map_eq_none_iff, List.find?_eq_none, State.win]
  intro k hk
  simp [tget_evenWins 4096 k (List.mem_range.mp hk)]
theorem test_alloc_refused : nx (.phlxAlloc mg 0x1100480000000000) allocState (no 0x0101) = true
    ∧ nx (.phlxAlloc mg 0x1100480000004000) up (fun t => decide (t.phlx.running = some { status := 0x0202 }) && bitOf (t.page 0x82).cause 4) = true
    ∧ nx (.phlxAlloc mg 0x1100480000004000) { allocState with clkr.arithLock := false } (fun t => t.phlx.waiting.isSome) = true := by decide +kernel
/-- The last tile count, 32,640, past the pool: `DETAIL` 1. -/
theorem test_alloc_pool : (let s := { allocState with parts := [(2, { st := .owned, qGran := 0x7FFF, qWins := 1 })], phlx.gmap := (List.range 16000).map (fun i => (i, i + 1)) }
    poolFree s < granulesFor 32640 ∧ nx (.phlxAlloc mg (BitVec.ofNat 64 (0x1100480000000000 + 32640 * 2 ^ 14))) s
      (fun t => decide (t.phlx.running = some { status := 0x0202, detail := 1 })) = true) := by decide +kernel

/-! ### Sounding -/

def zero256 : List Int := List.replicate 256 0
def aJob : TileJob := { write := false, op := 0, fresh := false, o := zero256, a := zero256 }
def aCheck : Check := { pipe := 2, part := 3, group := 4, ticket := 5, tile := 6, frame := 0, arr := frameOf 0 1, job := aJob }
/-- The error of 08 Table 8.5: one lane, in row 5 and column 9, is 0x100000 too high. -/
def aFault : TileFault := { noFault with lanes := [(0x59, 0x100000)] }
def aFail (point : Nat) : CheckFail := { point := point, rowMask := 0x20, colMask := 0x200, delta := 0x100000, internal := false }
def checking : State := { up with snd.checks := [aCheck] }

/-- Table 8.5: row 5 is expected 38,875 and found 1,087,451, column 9 expected -5,786 and found 1,042,790, so the masks are 0x0020 and 0x0200
and `DELTA` is 0x100000; an add of even sums passes. -/
theorem test_masks : (aJob.run aFault).fails = [aFail 2] ∧ (aJob.run noFault).fails = []
    ∧ (1087451 - 38875, 1042790 - -5786) = ((aFail 2).delta, (aFail 2).delta) := by decide +kernel
/-- Sounding's own error in one row sum is an internal failure too (R260), an unexpected record bit one of check 0x4. -/
theorem test_internal : (aJob.run { noFault with rows := [{ tap := .w, idx := 5, err := 3 }] }).fails = [{ point := 2, rowMask := 0x20, colMask := 0, delta := 3, internal := true }]
    ∧ (aJob.run { noFault with flags := 8 }).fails = [{ point := 4, rowMask := 0, colMask := 0, delta := 0, internal := false }] := by decide +kernel
/-- A band: a difference up to it passes, one past it fails by what lies beyond; a strict one fails at the band (Table 8.1). -/
theorem test_band : ({ point := 1, found := [], expected := [], scale := 1, band := some (16, false) } : Compare).breaks 16 = false
    ∧ ({ point := 1, found := [], expected := [], scale := 1, band := some (16, false) } : Compare).breaks (-17) = true
    ∧ ({ point := 1, found := [], expected := [], scale := 1, band := some (32, true) } : Compare).breaks 32 = true
    ∧ ({ point := 1, found := [(.y, [17])], expected := [(.x, [0])], scale := 1, band := some (16, false) } : Compare).judge [] [] = some { point := 1, rowMask := 1, colMask := 1, delta := 18, internal := false } := by
  decide +kernel

/-- A check is counted, a failing one latched (R264, R266): pipe 2, point 2, partition 3. -/
theorem test_check : checking.snd.checks.find? (fun x => x.pipe = 2) = some aCheck ∧ nx (.soundingCheckDone 2 none) checking (fun t => decide (t.snd.checks = []) && decide (tget 0 t.snd.ctr 0x50 = 1)) = true
    ∧ atBound (aJob.run aFault).w = false ∧ unitsOf (hdrOf aCheck.arr.bytes).payLen + reserveUsed checking ≤ 256 ∧ bitOf checking.snd.last0 63 = false
    ∧ nx (.soundingCheckDone 2 (some aFault)) checking (fun t => bitOf t.snd.last0 63 && decide (fld t.snd.last0 60 58 = 2) && decide (fld t.snd.last0 57 54 = 2)
        && decide (fld t.snd.last0 53 49 = 3) && decide (t.snd.last1 = 0x0020020000000005) && decide (t.snd.last2 = 0x100000) && decide (t.park.reserve.map (fun r => r.tiles.map (·.tile)) = [[6]])) = true := by decide +kernel
theorem test_check_none : nx (.soundingCheckDone 2 none) up (fun t => decide (t = up)) = true ∧ nx (.soundingCheckDone 9 none) up (fun t => decide (t = up)) = true
    ∧ nx (.soundingCheckDone 2 none) { checking with clkr.arithLock := false } (fun t => decide (t.snd.checks = [aCheck])) = true := by decide +kernel

def outFrame : OutFrame :=
  { part := 0, group := 0, ticket := 0, cls := 3, ports := 1, bytes := [], waits := 1, first := 0, count := 1, last := false, release := false, taps := [{ point := 5, exact := zero256, elems := zero256 }] }
def badOut : TileFault := { noFault with elems := [(0x59, 0x100000)] }
def sending : State := up.setPipe 9 { st := .bound, bind := 1, outs := [outFrame] }

theorem test_check_egress : (sending.pipe 9).outs.find? (fun x => 0 < x.waits && !x.failed) = some outFrame ∧ outFails outFrame badOut = [aFail 5]
    ∧ nx (.soundingCheckDone 9 none) sending (fun t => decide (tget 0 t.snd.ctr 0x58 = 1)) = true
    ∧ nx (.soundingCheckDone 9 (some badOut)) sending (fun t => decide ((t.pipe 9).outs.map (·.failed) = [true]) && decide (fld t.snd.last0 57 54 = 5) && bitOf t.snd.last0 61) = true := by decide +kernel

/-- A failed tile of pipe 2 in the reserve, as pipe 3 has it checked again. -/
def aReserve (internal taken : Bool) : Reserve :=
  { units := 1, pipe := 2, part := 0, group := 0, ticket := 0, no := 7, src := 0, arr := frameOf 0 1, seen := 0, tiles := [{ tile := 6, internal := internal, dep := [] }], taken := taken }
def replaying (internal : Bool) (c : PipeClass) : State :=
  { up with
    park.reserve := [aReserve internal true], snd.checks := [{ aCheck with pipe := 3, replay := some 7 }], snd.pipes := [(2, { cls := c }), (3, { cls := .healthy })] }

/-- A replay that agrees: HEALTHY to SUSPECT to SUSPENDED; an internal failure changes no class (Table 8.2). -/
theorem test_replay : atBound aJob.o = false ∧ (replaying false .healthy).park.reserve.find? (fun r => r.no = 7) = some (aReserve false true)
    ∧ nx (.soundingCheckDone 3 none) (replaying false .healthy) (fun t => decide ((t.sndPipe 2).cls = .suspect) && decide ((t.sndPipe 2).strikes = 1) && decide (tget 0 t.snd.ctr 0x68 = 1)) = true
    ∧ nx (.soundingCheckDone 3 none) (replaying false .suspect) (fun t => decide ((t.sndPipe 2).cls = .suspended)) = true
    ∧ nx (.soundingCheckDone 3 none) (replaying true .healthy) (fun t => decide ((t.sndPipe 2).cls = .healthy) && decide (tget 0 t.snd.ctr 0x70 = 1)) = true := by decide +kernel
theorem test_replay_fails : nx (.soundingCheckDone 3 (some aFault)) (replaying false .healthy)
      (fun t => decide ((t.sndPipe 2).cls = .suspect) && decide ((t.sndPipe 3).cls = .suspect) && decide (tget 0 t.snd.ctr 0x70 = 1)) = true
    ∧ nx (.ingressReplay 3 noEcc) up (fun t => decide (t = up)) = true
    ∧ nx (.ingressReplay 2 noEcc) { up with park.reserve := [aReserve false false] } (fun t => t.park.reserve.all (·.taken)) = true := by decide +kernel

def failedOut : State := { up.setPipe 9 { st := .bound, bind := 1, outs := [{ outFrame with failed := true }] } with snd.pipes := [(9, { cls := .healthy })] }
def redoneOut : State := { up.setPipe 9 { st := .bound, bind := 1, outs := [{ outFrame with redone := some 10 }] } with snd.pipes := [(9, { cls := .healthy }), (10, { cls := .healthy })] }

theorem test_egress_replay : (failedOut.pipe 9).outs.find? (fun f => f.failed) = some { outFrame with failed := true } ∧ outAtBound failedOut { outFrame with failed := true } = false
    ∧ nx (.egressReplay 9 noEcc) failedOut (fun t => decide ((t.pipe 9).outs.map (fun f => (f.failed, f.waits, f.redone)) = [(false, 1, some 9)])) = true
    ∧ nx (.egressReplay 8 noEcc) up (fun t => decide (t = up)) = true := by decide +kernel
theorem test_egress_again : (redoneOut.pipe 9).outs.find? (fun x => 0 < x.waits && !x.failed) = some { outFrame with redone := some 10 }
    ∧ nx (.soundingCheckDone 9 none) redoneOut (fun t => decide ((t.sndPipe 9).cls = .suspect) && decide ((t.sndPipe 10).cls = .healthy)) = true
    ∧ nx (.soundingCheckDone 9 (some badOut)) redoneOut (fun t => decide ((t.sndPipe 9).cls = .suspect) && decide ((t.sndPipe 10).cls = .suspect) && decide (tget 0 t.snd.ctr 0x70 = 1)) = true := by decide +kernel
/-- A lane of the frame's tile at the bound: the tile is not recomputed (R269). -/
def boundOut : State :=
  { up.setPipe 9 { st := .bound, bind := 1, outs := [{ outFrame with cls := 1, failed := true }] } with
    snd.pipes := [(9, { cls := .healthy })], phlx := { wins := [(0, { kind := .working, tiles := 1, st := .opened })], lanes := [(0, [laneMax])] } }
theorem test_at_bound : outAtBound boundOut { outFrame with cls := 1, failed := true } = true
    ∧ outAtBound up { outFrame with failed := true, taps := [{ point := 5, exact := laneMax :: List.replicate 255 0, elems := zero256 }] } = true
    ∧ nx (.egressReplay 9 noEcc) boundOut (fun t => decide ((t.sndPipe 9).cls = .suspect) && decide (tget 0 t.snd.ctr 0x70 = 1)) = true := by decide +kernel

def livePipe (k : Nat) (s : State) : State := s.setPipe k { st := .idle }
def tested : State :=
  { (livePipe 4 (livePipe 3 (livePipe 2 up))) with
    snd.pipes := [(2, { cls := .healthy }), (3, { cls := .healthy }), (4, { cls := .healthy })], hashu.drbgs := [(1, { st := 1 })] }
def inRound : State := { tested with snd.round := [{ pipe := 2, left := 2, confirm := false }] }
/-- The outputs of a unit: of the pipe under test, the reference pipe, the third; empty where they are right. -/
def unitOf (a b c : List (BitVec 12 × Byte)) : UnitFault := { tested := a, reference := b, third := c }

/-- A round over pipes 2 and 3, and its units. -/
theorem test_self_test : wr tested mg 0x56 0xC0 = true ∧ nx (.sndStCmd mg 0xC) tested (fun t => decide (t.snd.round.map (·.pipe) = [2, 3])) = true
    ∧ nx (.sndStCmd mg 0xC) inRound (no 0x0301) = true ∧ nx (.sndStCmd mg 0xFF0F) up (no 0x0301) = true
    ∧ nx (.sndStCmd mg 0xFFFF) { up with hashu.drbgs := [(1, { st := 1 })] } (fun t => bitOf (t.page 0x56).cause 6) = true := by decide +kernel
theorem test_unit : inRound.snd.round.find? (takesUnit inRound) = some { pipe := 2, left := 2, confirm := false } ∧ drbgServes inRound 1 = true
    ∧ nextLive inRound 2 2 = some 3 ∧ nextLive inRound 3 2 = some 4
    ∧ nx (.selfTestUnit (unitOf [] [] [])) inRound (fun t => decide (t.snd.round.map (·.left) = [1]) && decide ((t.sndPipe 2).units = 1) && decide (t.snd.scratch.length = 2)) = true
    ∧ nx (.selfTestUnit (unitOf [(0, 1)] [] [])) inRound (fun t => decide ((t.sndPipe 2).cls = .retired) && decide ((t.sndPipe 3).cls = .healthy)) = true
    ∧ nx (.selfTestUnit (unitOf [] [(0, 1)] [])) inRound (fun t => decide ((t.sndPipe 3).cls = .retired) && decide ((t.sndPipe 2).units = 1)) = true := by decide +kernel
theorem test_units_agree : sameUnit (unitOf [] [] []).tested (unitOf [] [] []).reference = true ∧ sameUnit (unitOf [(0, 1)] [] []).tested (unitOf [(0, 1)] [] []).reference = false
    ∧ sameUnit (unitOf [] [(0, 1)] []).third (unitOf [] [(0, 1)] []).tested = true ∧ roundRuns tested = false ∧ roundRuns inRound = true := by decide +kernel
/-- A control store bit that does not take is seen by the CRC-32C (R272): here the top byte of word 2,047. -/
theorem test_parity_stuck : crc32c (csBytes ([((2047 : BitVec 11), (0x0100000000000000 : Word))].foldl (fun m y => tset 0 m y.1.toNat y.2) [])) ≠ crc32c (csBytes []) := by
  have hr : ∀ n (f : Nat → Bytes), ((List.range (n + 1)).map f).flatten = ((List.range n).map f).flatten ++ f n := by
    intro n f; rw [List.range_succ, List.map_append, List.flatten_append]; simp
  have h : ∀ t : Table Word, (∀ i, i < 2047 → tget 0 t i = 0) → csBytes t = ((List.range 2047).map (fun _ => wordBytes 0)).flatten ++ wordBytes (tget 0 t 2047) := by
    intro t ht
    refine (hr 2047 (fun i => wordBytes (tget 0 t i))).trans ?_
    rw [List.map_congr_left (fun i hi => by rw [ht i (List.mem_range.mp hi)])]
  have hz : ∀ i, i < 2047 → tget 0 ([((2047 : BitVec 11), (0x0100000000000000 : Word))].foldl (fun m y => tset 0 m y.1.toNat y.2) []) i = 0 := by
    intro i hi
    show (if 2047 = i then (0x0100000000000000 : Word) else 0) = 0
    rw [if_neg (by omega)]
  rw [h _ hz, h [] (fun i _ => by rfl)]
  rw [show wordBytes (tget 0 ([((2047 : BitVec 11), (0x0100000000000000 : Word))].foldl (fun m y => tset 0 m y.1.toNat y.2) []) 2047) = zeros 7 ++ [1] by decide +kernel,
    show wordBytes (tget 0 [] 2047) = zeros 7 ++ [0] by decide +kernel, ← List.append_assoc, ← List.append_assoc]
  exact Laws.crc_last _ _ _ (by decide)
theorem test_parity : nx (.csParityError 2 ([], all)) tested (fun t => decide ((t.pipe 2).st = .fault) && decide ((t.sndPipe 2).cls = .suspended) && decide (t.snd.round.map (·.left) = [64])) = true
    ∧ nx (.csParityError 9 ([], all)) up (fun t => decide (t = up)) = true := by decide +kernel

def ctxState : State :=
  { up.setPipe 8 { st := .idle } with
    parts := [(3, { st := .owned, channels := 2, regions := [(0, { en := true, rd := true, wr := true, base := 0, limit := 0x100000 })] })]
    phlx.wins := [(5, { kind := .working, part := 3, group := 7, tiles := 1 })], chrt.slots := [(46, { st := .active, attr := mkAttr 0 3 7 0 0 (255 * 256) 0 0 false })], hashu.drbgs := [(0, { st := 1 })] }

/-- `SAVE` and `RESTORE` of window 5 on channel 1: bits 59:47 hold 5, bits 46:43 hold 1. -/
theorem test_ctx : ctxBusy ctxState 5 1 = false ∧ wr ctxState mg 0x56 0xC8 = true ∧ fld (0x1002880000000000 : Word) 59 47 = 5 ∧ fld (0x1002880000000000 : Word) 46 43 = 1
    ∧ chanOwner ctxState 1 = some 3 ∧ drbgServes ctxState 0 = true ∧ activeSlot ctxState 7 3 0 0 = some 46 ∧ slotKey (noteBad ctxState 46) 46 = some 0
    ∧ (atMask ((noteBad ctxState 46).slot 46).attr).testBit ((ctxPipe ctxState).getD 8) = true ∧ ctxPipe ctxState = some 8 ∧ chanInside ctxState 1 0 32 false = true
    ∧ nx (.sndCtxSave mg 0x1002880000000000 (noEcc, none)) ctxState (fun t => decide (t.snd.ctx.map (fun x => (x.save, x.win, x.ch)) = some (true, 5, 1)) && decide ((t.chan 1).st = .running)) = true := by
  decide +kernel
/-- A context key that may not go to pipe 8. -/
def deniedCtx : State := { ctxState with chrt.slots := [(46, { st := .active, attr := mkAttr 0 3 7 0 0 0 0 0 false })] }
theorem test_ctx_key : activeSlot { ctxState with chrt.slots := [] } 7 3 0 0 = none
    ∧ nx (.sndCtxSave mg 0x1002880000000000 (noEcc, none)) deniedCtx (fun t => decide (fld t.snd.ctxResult 63 48 = 0x0402)) = true
    ∧ nx (.sndCtxSave mg 0x1002880000000000 (noEcc, none)) { ctxState with chrt.slots := [] } (fun t => decide (fld t.snd.ctxResult 63 48 = 0x0405) && bitOf (t.page 0x56).cause 5) = true
    ∧ nx (.sndCtxRestore mg 0x2002880000000000 (noEcc, none)) ctxState (fun t => decide (t.snd.ctx.map (fun x => (x.save, x.headed)) = some (false, false))) = true
    ∧ (ctxBusy up 5 1 = true ∧ nx (.sndCtxSave mg 0x1002880000000000 (noEcc, none)) (winState { kind := .working }) (fun t => decide (t.snd.ctx = none)) = true) := by decide +kernel


/-! ### Rhumb -/

def wide : Region := { en := true, rd := true, wr := true, base := 0, limit := 0x1000000 }
def chanState (c : Chan) : State := { up with rhmb.mgmt := [(0, wide)], rhmb.chans := [(13, c)] }

/-- `START` fetches at the program counter: the request of 64 bytes holds it at its offset; beyond the windows the channel halts (R326). -/
theorem test_start : wr (chanState { pc := 0x60 }) mg 0x2D 0x58 = true ∧ startDenied (chanState { pc := 0x60 }) mg 13 = false ∧ freeId (chanState { pc := 0x60 }) = some 0
    ∧ chanInside (chanState { pc := 0x60 }) 13 0x60 32 false = true
    ∧ nx (.rhmbStart mg 13 0x1000000000000000) (chanState { pc := 0x60 }) (fun t => decide ((t.chan 13).st = .running)
        && decide (t.rhmb.reqs.map (fun r => (r.addr, r.off, r.n)) = [(0x40, 0x20, 32)])) = true := by decide +kernel
theorem test_start_outside : chanInside (chanState { pc := 0xFFFFE0 + 32 }) 13 0x1000000 32 false = false
    ∧ nx (.rhmbStart mg 13 0x1000000000000000) (chanState { pc := 0x1000000 }) (fun t => decide ((t.chan 13).st = .halted) && decide ((t.chan 13).status = 0x0201)) = true := by decide +kernel
theorem test_pause : nx (.rhmbPause mg 13 0x2000000000000000) (chanState { st := .running }) (fun t => decide ((t.chan 13).st = .pausing)) = true
    ∧ nx (.rhmbPause mg 13 0x2000000000000000) (chanState { st := .waiting, wait := some .bell }) (fun t => decide ((t.chan 13).st = .paused) && bitOf (t.page 0x2D).cause 3) = true := by
  decide +kernel
theorem test_resume_stop : nx (.rhmbResume mg 13 0x3000000000000000) (chanState { st := .paused }) (fun t => decide ((t.chan 13).st = .running)) = true
    ∧ nx (.rhmbResume mg 13 0x3000000000000000) (chanState { st := .halted, wait := some .bell }) (fun t => decide ((t.chan 13).st = .waiting)) = true
    ∧ nx (.rhmbStop mg 13 0x4000000000000000) (chanState { st := .running }) (fun t => decide ((t.chan 13).st = .idle) && decide ((t.chan 13).status = 0x0504) && bitOf (t.page 0x2D).cause 5) = true := by
  decide +kernel

/-- The fetch is a beat of the port like any other; it waits for a write cut off by an error (R330, R346). -/
theorem test_fetch_beat : canFetch (chanState { st := .running, pc := 0x60 }) 13 = true ∧ (portBeat busFn (chanState { st := .running, pc := 0x60 }) 13).isSome = true
    ∧ canFetch { chanState { st := .running } with rhmb.reqs := [{ id := 4, ch := 16, by_ := 13, kind := .write 8, addr := 0, off := 0, n := 8, wall := 0 }] } 13 = false := by
  decide +kernel
/-- A channel that has begun a frame on a stream destination finishes it before `STOP` ends it (R351). -/
def midFrame : Chan := { st := .running, job := some { kind := .move false, len := 8, rd := .list [], ws := .list [⟨0, 0, 8⟩], wd := .list [], ad := .list [⟨2, 0, 8⟩], sent := [7] } }
theorem test_stop_frame : frameBegun (chanState midFrame) 13 = true ∧ frameBegun (chanState { st := .running }) 13 = false
    ∧ nx (.rhmbStop mg 13 0x4000000000000000) (chanState midFrame) (fun t => (t.chan 13).stopping && decide ((t.chan 13).st = .running)) = true := by decide +kernel

/-- The doorbell stops at its top, a semaphore is written while no channel waits on it across owners, stream roles are of Profile A. -/
theorem test_bell : wr up mg 0x2D 0xA0 = true ∧ nx (.rhmbChDoorbell mg 13 1) (chanState { bells := 0xFFFF }) (fun t => decide ((t.chan 13).bells = 0xFFFF)) = true
    ∧ nx (.rhmbChDoorbell mg 13 0) (chanState { bells := 3 }) (fun t => decide ((t.chan 13).bells = 3)) = true := by decide +kernel
theorem test_sem : wr up mg 0x30 0x58 = true ∧ nx (.rhmbSemWrite mg 0x8800000000000005) { up with rhmb.semSel := 31 }
      (fun t => decide ((tget {} t.rhmb.sems 31 : Sem) = { owned := true, part := 2, value := 5 })) = true
    ∧ nx (.rhmbSemWrite mg 0x8000000000000000) (chanState { st := .waiting, wait := some (.sem 0 1) }) (no 0x0301) = true := by decide +kernel
theorem test_gctrl : wr up mg 0x30 0x40 = true ∧ nx (.rhmbGctrlWrite mg 0x21) up (fun t => decide (t.rhmb.lspSrc = 1) && decide (t.rhmb.lspSink = 2)) = true
    ∧ nx (.rhmbGctrlWrite mg 0x21) { up with blk.profile := 2 } (no 0x0101) = true := by decide +kernel

/-- A channel of the 12 to 15 that holds an instruction. -/
def holding (w0 w1 w2 w3 : Word) : State := chanState { st := .running, instr := some [w0, w1, w2, w3] }

theorem test_move : (insOf [0x1000000000000008, 0x100, 0x200, 0]).op = 1 ∧ (insOf [0x1000000000000008, 0x100, 0x200, 0]).len = 8
    ∧ chanInside (holding 0x1000000000000008 0x100 0x200 0) 13 0x100 8 false = true
    ∧ nx (.move 13) (holding 0x1000000000000008 0x100 0x200 0) (fun t => decide ((t.chan 13).src = (0, 0x100)) && decide ((t.chan 13).dst = (0, 0x200))
        && decide ((t.chan 13).remain = 8)) = true := by decide +kernel
theorem test_move_sg : fld (0x0001000100000000 : Word) 63 48 = 1 ∧ fld (0x0001000100000000 : Word) 47 32 = 1
    ∧ nx (.moveSg 13) (holding 0x2000000000000008 0x100 0x200 0x0001000100000000) (fun t => decide ((t.chan 13).job.map (·.kind) = some (.pairs 1 1))) = true := by decide +kernel
theorem test_fill_compare : nx (.fill 13) (holding 0x3000000000000008 0 0x200 0xAB) (fun t => decide ((t.chan 13).dst = (0, 0x200))) = true
    ∧ nx (.compare 13) (holding 0x4001000000000008 0x100 0x200 0) (fun t => decide ((t.chan 13).job.map (·.kind) = some (.compare true))) = true := by decide +kernel

def engineState : State :=
  { up with rhmb.mgmt := [(0, wide)], rhmb.chans := [(2, { st := .running, instr := some [0x5001000000000001, 0x1000, 0x2000, 0x2000000100000010] })] }

theorem test_shuffle_list : fld (0x2000000100000010 : Word) 63 61 = 1 ∧ nx (.shuffle 2) engineState (fun t => decide ((t.chan 2).dst = (0, 0x2008)) && decide ((t.chan 2).remain = 1)) = true
    ∧ nx (.list 13) (holding 0x9000000000000002 0x100 0 0) (fun t => decide ((t.chan 13).job.map (·.kind) = some (.desc 2)) && decide ((t.chan 13).remain = 2)) = true := by decide +kernel

/-- `LOOP` back by one while its count lasts, and on when it is used up (R334); `LEN` is the count. -/
theorem test_loop : incOk ((16 : Word).toInt) = true ∧ nx (.loop 13) { (holding 0x6000000000000002 16 0 1) with rhmb.chans := [(13, { st := .running, pc := 0x40, instr := some [0x6000000000000002, 16, 0, 1] })] }
      (fun t => decide ((t.chan 13).loop0 = { armed := true, count := 1, owner := 0x40 }) && decide ((t.chan 13).pc = 0x20) && decide ((t.chan 13).offSrc = 16)) = true
    ∧ nx (.loop 13) { (holding 0 0 0 0) with rhmb.chans := [(13, { st := .running, pc := 0x40, offSrc := 32, loop0 := { armed := true, count := 0, owner := 0x40 }, instr := some [0x6000000000000002, 16, 0, 1] })] }
      (fun t => !(t.chan 13).loop0.armed && decide ((t.chan 13).pc = 0x60) && decide ((t.chan 13).offSrc = 0)) = true := by decide +kernel
theorem test_wait : nx (.wait 13) (holding 0x7001000000000000 0 0 9) (fun t => decide ((t.chan 13).wait = some (.step 9 false))) = true
    ∧ semOwn (holding 0x7002000000000000 0 0 0xF800000000000001) 13 31 = true
    ∧ nx (.wait 13) (holding 0x7002000000000000 0 0 0xF800000000000001) (fun t => decide ((t.chan 13).wait = some (.sem 31 1))) = true
    ∧ nx (.wait 13) (holding 0x7003000000000000 0 0 0) (fun t => decide ((t.chan 13).wait = some .bell)) = true := by decide +kernel
theorem test_signal_end : nx (.signal 13) (holding 0x8001000000000000 0 0 0xF800000000000001) (fun t => decide ((tget {} t.rhmb.sems 31 : Sem).value = 1)) = true
    ∧ nx (.signal 13) { (holding 0x8001000000000000 0 0 0xF800000000000001) with rhmb.sems := [(31, { owned := true, part := 1 })] } (fun t => decide ((t.chan 13).status = 0x0401)) = true
    ∧ nx (.endRun 13) (holding 0xF000000000000000 0 0 0) (fun t => decide ((t.chan 13).st = .idle) && bitOf (t.page 0x2D).cause 0) = true
    ∧ nx (.endRun 13) (holding 0x1000000000000000 0 0 0) (fun t => decide (t = holding 0x1000000000000000 0 0 0)) = true := by decide +kernel

def fetching : State := { chanState { st := .running } with rhmb.reqs := [{ id := 4, ch := 13, by_ := 13, kind := .fetch, addr := 0, off := 0, n := 32, wall := 0 }] }

/-- An answered fetch, an error, and the timeout at 1 ms: 999 µs is in time (R349). -/
theorem test_mmp : nx (.mmpReadResponse 4 (some (zeros 7 ++ [0x10] ++ zeros 56))) fetching (fun t => decide ((t.chan 13).instr = some [0x1000000000000000, 0, 0, 0])) = true
    ∧ nx (.mmpReadResponse 4 none) fetching (fun t => decide ((t.chan 13).status = 0x0701)) = true
    ∧ nx (.mmpTimeout 4 1000) fetching (fun t => decide ((t.chan 13).status = 0x0701)) = true ∧ nx (.mmpTimeout 4 999) fetching (fun t => decide ((t.chan 13).status = 0)) = true
    ∧ nx (.mmpTimeout 4 1000) fetching (fun t => decide (t.rhmb.late = [4])) = true
    ∧ nx (.mmpReadResponse 4 none) { up with rhmb.late := [4] } (fun t => decide (t.rhmb.late = [])) = true ∧ freeId { up with rhmb.late := [0] } = some 1
    ∧ nx (.mmpWriteResponse 5 true) fetching (fun t => decide (t = fetching)) = true := by decide +kernel

def storing : State :=
  { chanState { st := .running, job := some { kind := .move false, len := 8, rd := .list [], ws := .list [⟨0, 0x100, 8⟩], wd := .list [], ad := .list [⟨0, 0x200, 8⟩] } } with
    rhmb.reqs := [{ id := 4, ch := 13, by_ := 13, kind := .write 8, addr := 0x200, off := 0, n := 8, wall := 0 }] }

theorem test_mmp_write : segHead false (.list [⟨0, 0x100, 8⟩]) = some ⟨0, 0x100, 8⟩ ∧ nx (.mmpWriteResponse 4 true) storing (fun t => decide ((t.chan 13).bytes = 8)) = true := by decide +kernel
theorem test_wait_end : nx .waitSatisfied { (chanState { st := .waiting, wait := some (.sem 31 2) }) with rhmb.sems := [(31, { value := 2 })] }
      (fun t => decide ((tget {} t.rhmb.sems 31 : Sem).value = 0) && decide ((t.chan 13).st = .running) && decide ((t.chan 13).pc = 32)) = true
    ∧ nx (.pauseDrained 13) (chanState { st := .pausing }) (fun t => decide ((t.chan 13).st = .paused) && bitOf (t.page 0x2D).cause 3) = true := by decide +kernel


/-! ### Groups -/

/-- A group of partition 2 with one member of rank 5, one tile, deadline 1,000 µs, cut 100 µs, a chain station, and window 0. -/
def aDesc : Desc := { w0 := 0x8800000000201000, w1 := 0xA00040000, w2 := 0x2007D0000C800, w6 := 0x2000000000000000, w7 := 0x800000000 }
def grpState : State :=
  { up with
    parts := [(2, { st := .owned, mbrLen := 16, qDescs := 1 })], zin.budgets := [(2, { privRequired := false })], mrd.seen := true, mrd.step := 100
    grp := { rankValid := true, rank := 5, descA := [(7, aDesc)], descS := [(7, { aDesc with w0 := 0x0800000000201000 })], mbrS := [(0, 0xA0000)], mbrA := [(0, 0xA0000)]
             index := [(2, 0x10007), (32, 0x10007)], arg0 := [(2, 0x0000000900000008)], arg1 := [(2, 100)], mbrIndex := [(32, 0x10000), (2, 0x10000)] }
    phlx.wins := [(0, { kind := .working, part := 2, group := 7, tiles := 1 })] }

theorem test_desc_write : wr grpState mg 0x60 0x50 = true ∧ selected grpState mg 0x60 = (7, true) ∧ editable grpState = true
    ∧ nx (.grpDescWrite mg 1 0xFFFF000A00040001) grpState (fun t => decide ((t.desc true 7).w1 = 0xA00040001) && decide (t.desc false 7 = aDesc)) = true
    ∧ nx (.grpDescWrite mg 0 0x8800000000201000) grpState (fun t => decide ((t.desc true 7).w0 = 0x0800000000201000)) = true := by decide +kernel
theorem test_desc_refused : nx (.grpDescWrite mg 1 0) { grpState with grp := { grpState.grp with frozen := true } } (no 0x0301) = true
    ∧ (wr grpState (tg 2) 0x60 0x48 = true ∧ nx (.grpDescWrite (tg 2) 0 0) grpState (no 0x0401) = true)
    ∧ nx (.grpDescWrite mg 0 0x0400000000001000) grpState (fun t => no 0x0202 t && bitOf (t.page 0x81).cause 4) = true := by decide +kernel

/-- A member entry of the shadow clears `VALID` there; the last entry's address wraps (R189). -/
theorem test_mbr : wr grpState mg 0x61 0x50 = true ∧ mbrInRange grpState mg 0x3FFFF = true
    ∧ nx (.mbrDataAccess mg true 0x1000A0000) { grpState with grp := { grpState.grp with descS := [(7, aDesc)] } }
        (fun t => decide (tget 0 t.grp.mbrS 0 = 0xA0000) && decide ((t.desc true 7).w0 = 0x0800000000201000) && decide (tget 0 t.grp.mbrAddr 32 = 1)) = true
    ∧ nx (.mbrDataAccess mg true 1) { grpState with grp := { grpState.grp with mbrAddr := [(32, 0x3FFFF)] } } (fun t => decide (tget 0 t.grp.mbrAddr 32 = 0)) = true
    ∧ (rd grpState mg 0x61 0x50 = true ∧ nx (.mbrDataAccess mg false 0) grpState (fun t => decide (t.bus.resp.rdata = 0xA0000)) = true)
    ∧ nx (.mbrDataAccess mg true 1) { grpState with grp := { grpState.grp with oldHeld := true } } (no 0x0301) = true := by decide +kernel

/-- `COMMIT` of a sound descriptor, of one with a zero deadline (check 1), and `CLEAR`. -/
theorem test_commit : wr grpState mg 0x60 0x88 = true ∧ ownsShadow grpState mg = true ∧ grpBusy grpState mg = false ∧ commitFailure grpState (grpState.desc true 7) = none
    ∧ nx (.grpCommit mg 0x1000000000000000) grpState (fun t => bitOf (t.desc true 7).w0 63 && bitOf (t.page 0x60).cause 0 && decide (tget 0 t.grp.result 32 = 0)) = true := by decide +kernel
theorem test_commit_fails : commitFailure grpState { aDesc with w2 := 0 } = some (1, .badArg) ∧ ownsShadow grpState (tg 2) = true
    ∧ nx (.grpCommit mg 0x1000000000000000) { grpState with grp := { grpState.grp with descS := [(7, { aDesc with w2 := 0 })] } }
        (fun t => decide (tget 0 t.grp.result 32 = 0x0101010000000000) && !bitOf (t.desc true 7).w0 63) = true
    ∧ nx (.grpClear mg 0x2000000000000000) grpState (fun t => decide ((t.desc true 7).w7 = 0)) = true := by decide +kernel
theorem test_commit_other : ownsShadow { grpState with parts := [(3, { st := .owned })] } (tg 3) = false
    ∧ ownsShadow grpState mg = true ∧ nx (.grpCommit mg 0x1000000000000000) { grpState with grp := { grpState.grp with frozen := true } } (no 0x0301) = true := by decide +kernel

/-- `LAUNCH` of ticket 9 after 8 in step 100: the argument words of partition 2's bank. -/
theorem test_launch : wr grpState (tg 2) 0x60 0x88 = true ∧ launchStep1 grpState (launchArgs grpState (tg 2) (fun _ => .normal)) = none
    ∧ launchStep2 grpState (launchArgs grpState (tg 2) (fun _ => .normal)) = some (aDesc, false) ∧ floorsHold grpState aDesc = true ∧ descWindow aDesc = some 0
    ∧ findEntry grpState 2 7 9 = none
    ∧ nx (.launch (tg 2) 0x3000000000000000) grpState (fun t => decide ((findEntry t 2 7 9).map (fun e => (e.st, e.prev, e.step)) = some (.waiting, 8, some 100))
        && decide ((t.grpRec 7).launched = [(0, 10)])) = true := by decide +kernel
theorem test_launch_steps : launchStep1 { grpState with mrd.seen := false } (launchArgs grpState (tg 2) (fun _ => .normal)) = some .wrongState
    ∧ nx (.launch (tg 2) 0x3000000000000000) { grpState with mrd.seen := false } (fun t => decide (tget 0 t.grp.result 2 = 0x0301010000000000)) = true
    ∧ nx (.launch (tg 2) 0x3000000000000000) { grpState with grp := { grpState.grp with descA := [] } } (fun t => decide (tget 0 t.grp.result 2 = 0x0301020000000000)) = true
    ∧ nx (.launch (tg 2) 0x3000000000000000) { grpState with mrd.running := some 0 } (fun t => decide (t.mrd.heldCmds = [.launch (tg 2) 0x3000000000000000])) = true
    ∧ nx (.launch mg 0x3000000000000000) grpState (no 0x0401) = true := by decide +kernel
/-- A KNOWN entry of the ticket, made in step 100 at time 3. -/
def knownEntry : Entry := { ticket := 9, group := 7, st := .known, madeAt := 3, passed := [(100, 3)] }
def withEntry (e : Entry) : State := { grpState with grp := { grpState.grp with lists := [(2, [e])] } }
/-- Step 3: a ticket in flight, one that has ended, one below the overflow mark, a full list, an entry that recorded a drop; a KNOWN entry is taken over. -/
theorem test_launch_step3 :
    nx (.launch (tg 2) 0x3000000000000000) (withEntry { knownEntry with st := .waiting }) (fun t => decide (tget 0 t.grp.result 2 = 0x0301030000000000)) = true
    ∧ nx (.launch (tg 2) 0x3000000000000000) (withEntry { knownEntry with st := .aborted, fin := true }) (fun t => decide (tget 0 t.grp.result 2 = 0x0504030000000000) && decide (findEntry t 2 7 9 = none)) = true
    ∧ nx (.launch (tg 2) 0x3000000000000000) { grpState with parts := [(2, { st := .owned, mbrLen := 16, qDescs := 1, overflow := some 9 })] }
        (fun t => decide (tget 0 t.grp.result 2 = 0x0502030000000000)) = true
    ∧ nx (.launch (tg 2) 0x3000000000000000) (withEntry { knownEntry with dropped := some .quota }) (fun t => decide (tget 0 t.grp.result 2 = 0x0504030000000000) && decide (findEntry t 2 7 9 = none)) = true
    ∧ nx (.launch (tg 2) 0x3000000000000000) (withEntry knownEntry) (fun t => decide ((findEntry t 2 7 9).map (fun e => (e.st, e.madeAt, e.stepAt)) = some (.waiting, 3, some 3))) = true := by decide +kernel
/-- A group without a window: `ALLOC` beyond the quota fails step 4, and within it the launch names window 0. -/
def noWindow (n : Nat) : State :=
  { grpState with
    parts := [(2, { st := .owned, mbrLen := 16, qDescs := 1, qWins := n, qGran := 2 * n })], phlx.wins := []
    grp := { grpState.grp with descA := [(7, { aDesc with w7 := 0 })] } }
theorem test_launch_window : descWindow { aDesc with w7 := 0 } = none
    ∧ nx (.launch (tg 2) 0x3000000000000000) (noWindow 0) (fun t => decide (tget 0 t.grp.result 2 = 0x0202040000000000) && decide (findEntry t 2 7 9 = none)) = true
    ∧ nx (.launch (tg 2) 0x3000000000000000) (noWindow 1) (fun t => decide (descWindow (t.desc false 7) = some 0) && decide ((t.win 0).kind = .working)
        && decide ((findEntry t 2 7 9).map (·.st) = some .waiting)) = true := by decide +kernel
/-- A frame that arrived before the launch with another digest: step 7 (its header's digest is 0). -/
def earlyFrame : State :=
  { withEntry knownEntry with park.frames := [{ units := 1, why := .ticket, arr := frameOf 0 1, pipe := 0, part := 2, group := 7, ticket := 9, seen := 0, plain := none }] }
theorem test_launch_step7 : (hdrOf (frameOf 0 1).bytes).gEpoch = 0
    ∧ launchStep3 { earlyFrame with grp := { earlyFrame.grp with epA := 1 } } (launchArgs earlyFrame (tg 2) (fun _ => .normal)) = .go (some knownEntry) false
    ∧ ({ earlyFrame with grp := { earlyFrame.grp with epA := 1 } } : State).grp.epA ≠ (hdrOf (frameOf 0 1).bytes).gEpoch
    ∧ (earlyFrame.park.frames.map (fun f => (f.part, f.group, f.ticket)) = [(2, 7, 9)]) := by decide +kernel
theorem test_resync : nx (.resyncRecv (tg 2) 0x6000000000000000) grpState (fun t => decide ((findEntry t 2 7 9).map (·.st) = some .waiting)) = true
    ∧ launchStep3 grpState (launchArgs grpState (tg 2) (fun _ => .resyncSend)) = .go none false
    ∧ nx (.resyncSend (tg 2) 0x5000000000000000) { grpState with phlx.wins := [(0, { kind := .working, part := 2, group := 7, tiles := 1, partner := some 4097 }), (4097, { kind := .shadow, part := 2, group := 7, tiles := 1, shadowValid := true, partner := some 0 })] }
        (fun t => decide ((findEntry t 2 7 9).map (·.role) = some .resyncSend)) = true := by decide +kernel

def anEntry : Entry := { ticket := 9, group := 7, st := .waiting, launched := true, first := true, step := some 100, madeAt := 0, stepAt := some 0 }
def admitted : State := { grpState with grp := { grpState.grp with lists := [(2, [anEntry])] } }

theorem test_abort : isLive anEntry = true ∧ nx (.grpAbort (tg 2) 0x4000000000000000) admitted (fun t => decide ((findEntry t 2 7 9).map (·.st) = some .aborted)
      && (t.grpRec 7).abValid && decide ((t.grpRec 7).abStatus = 0x0504) && decide ((t.grpRec 7).abOrigin = 5) && bitOf (t.page 0x82).cause 0) = true := by decide +kernel
theorem test_abort_ended : nx (.grpAbort (tg 2) 0x4000000000000000) { grpState with grp := { grpState.grp with lists := [(2, [{ anEntry with st := .done, fin := true }])] } }
      (fun t => decide (tget 0 t.grp.result 2 = 0x0301000000000000)) = true
    ∧ nx (.grpAbort (tg 2) 0x4000000000000000) { grpState with grp := { grpState.grp with lists := [(2, [{ anEntry with st := .aborted, fin := true }])] } }
      (fun t => decide (tget 0 t.grp.result 2 = 0)) = true
    ∧ nx (.grpAbort (tg 2) 0x4000000000000000) grpState (fun t => decide ((findEntry t 2 7 9).map (·.st) = some .aborted)) = true := by decide +kernel

/-- `SET_EPOCH` to 0xFFFF: the shadow's epoch wraps (R220). -/
theorem test_set_epoch : setEpochBusy up = false ∧ nx (.setEpoch mg 0x7000000000000000) { up with grp.arg0 := [(32, 0xFFFF)] } (fun t => decide (t.grp.epA = 0xFFFF) && decide (t.grp.epS = 0)) = true
    ∧ nx (.setEpoch mg 0x7000000000000000) admitted (no 0x0301) = true := by decide +kernel
theorem test_station : wr up mg 0x60 0xD0 = true ∧ badRank up 0x8005000000 = false ∧ nx (.grpStationWrite mg 0x8005010000) up (fun t => t.grp.rankValid && decide (t.grp.rank = 5) && decide (t.grp.mgmtPorts = 1)) = true
    ∧ nx (.grpStationWrite mg 0x8006000000) admitted (no 0x0301) = true
    ∧ nx .refillDone { grpState with grp := { grpState.grp with refill := true } } (fun t => decide (t.desc true 7 = aDesc) && !t.grp.refill) = true := by decide +kernel
def liveReady : State := ((up.setPipe 0 { st := .bound, bind := 1 }).setPipe 8 { st := .bound, bind := 1 })
theorem test_station_live : liveCond { liveReady with grp.rankValid := true, grp.rank := 5, grp.liveEn := true } = true
    ∧ nx (.grpStationWrite mg 0x8005000100) liveReady (fun t => t.pins.stationLive) = true
    ∧ nx (.grpStationWrite mg 0x8005000000) { liveReady with grp.rankValid := true, grp.rank := 5, grp.liveEn := true, pins.stationLive := true } (fun t => !t.pins.stationLive) = true
    ∧ nx (.grpStationWrite mg 0x8005000100) up (fun t => t.grp.liveEn && !t.pins.stationLive) = true := by decide +kernel

theorem test_track : wr grpState mg 0x62 0x58 = true ∧ nx (.strgTrackWrite mg 0x8000000000000000) grpState (fun t => decide ((t.grpRec 0).slot = some 0)) = true
    ∧ nx (.strgClear mg 1) { grpState with grp := { grpState.grp with recs := [(0, { slot := some 3, hist := [(1, 2)] })] } } (fun t => decide ((t.grpRec 0).hist = [])) = true := by decide +kernel

/-- Activation opens the window with fresh tiles; a WAITING ticket without an open predecessor is the one served. -/
theorem test_activate : activatable { admitted with grp := { admitted.grp with recs := [(7, { launched := [(0, 10)] })] } } 2 = some anEntry ∧ entryDesc admitted 2 anEntry = some (aDesc, false)
    ∧ nx (.entryActivate (2, noEcc)) { admitted with grp := { admitted.grp with recs := [(7, { launched := [(0, 10)] })] } } (fun t => decide ((t.win 0).st = .opened) && (tileRec t 0 0).fresh && bitOf (t.page 0x51).cause 0) = true
    ∧ secRuns admitted = true ∧ arithRuns admitted = true ∧ nx (.entryActivate (3, noEcc)) admitted (fun t => decide (t = admitted)) = true
    ∧ nx (.entryActivate (2, noEcc)) { admitted with clkr.secLock := false } (fun t => decide ((t.win 0).st ≠ .opened)) = true := by decide +kernel

/-- The deadline stands at 1,000 µs after the base: 999 µs is in time; the cut at 100 µs. -/
theorem test_deadline : deadlineOf admitted 2 anEntry = some 1000 ∧ nx (.deadlineExpire 999) admitted (fun t => decide ((findEntry t 2 7 9).map (·.st) = some .waiting)) = true
    ∧ nx (.deadlineExpire 1000) admitted (fun t => decide ((findEntry t 2 7 9).map (·.st) = some .aborted) && bitOf (t.page 0x60).cause 1) = true := by decide +kernel

/-- A source slice with one entry of rank 6 that stays silent; elastic with a quorum of 1 of 2, then not elastic. -/
def cutEntryOn : Entry := { anEntry with st := .active }
def cutState (w0 : Word) : State :=
  { admitted with grp := { admitted.grp with
      lists := [(2, [cutEntryOn])]
      descA := [(7, { aDesc with w0 := w0, w2 := 0x4007D0000C800, w6 := 0x2000001000000000 })], mbrA := [(0, 0xC0000)] } }
theorem test_cut : (sourcesOf (cutState 0x8800000000201000) false ((cutState 0x8800000000201000).desc false 7)).map (fun x => (x.rank, x.gap)) = [(6, false)] ∧ baseOf cutEntryOn = some 0
    ∧ nx (.absenceCut (100, noEcc)) (cutState 0x8800200000201000) (fun t => decide ((findEntry t 2 7 9).map (fun e => (e.st, e.flow.absent)) = some (.active, [6]))) = true
    ∧ nx (.absenceCut (100, noEcc)) (cutState 0x8800000000201000) (fun t => decide ((findEntry t 2 7 9).map (·.st) = some .aborted) && decide ((t.grpRec 7).abStatus = 0x0505)) = true
    ∧ nx (.absenceCut (99, noEcc)) (cutState 0x8800000000201000) (fun t => decide ((findEntry t 2 7 9).map (·.st) = some .active)) = true := by decide +kernel


/-! ### Frames -/

/-- The frame an agent seals with a key: header, plaintext, on a port. -/
def sealedOn (port : BitVec 4) (key : Key) (h : Hdr) (plain : Bytes) : Arrival :=
  { port := port, vc := classVc h.cls, wireLen := BitVec.ofNat 15 (80 + h.payLen), whole := true, bytes := sealFrame key h plain }

/-- A block with live pipes 0 and 8, the frame keys of partition 2 and the fabric in their caches, and the group of above with one source of rank 6. -/
def keyed : Table KcEntry :=
  [(0, { valid := true, use := 1, part := 2, sel := 7 }), (1, { valid := true, use := 4, sel := 4 }), (2, { valid := true, use := 4, sel := 5 }),
   (3, { valid := true, use := 4, sel := 6 }), (4, { valid := true, use := 4, sel := 8 })]
def frState : State :=
  { ((grpState.setPipe 0 { st := .bound, bind := 3, kc := keyed }).setPipe 8 { st := .bound, bind := 3, kc := keyed }) with
    parts := [(2, { st := .owned, owners := 1, mbrLen := 16, qDescs := 1, qPark := 9 })], pins.stationLive := true, lark.inCr := [(0, { granted := true, vc0 := 40, vc1 := 40 })]
    grp := { grpState.grp with mbrA := [(0, 0xC0000)], descA := [(7, { aDesc with w6 := 0x2000001000000000 })], mgmtPorts := 1 } }
def frActive : State :=
  { frState with
    grp := { frState.grp with lists := [(2, [{ anEntry with st := .active }])] }
    phlx := { wins := [(0, { kind := .working, part := 2, group := 7, tiles := 1, ticket := 9, st := .opened })], recs := [(0, { scale := 5, fresh := true })] } }

def aHdr (cls fmt payLen flags seq : Nat) : Hdr :=
  { version := 1, cls := cls, part := if isCollective cls || cls = 4 then 2 else 0, group := if isCollective cls || cls = 4 then 7 else 0, gEpoch := 0, hop := if isCollective cls then 1 else 0
    rank := 6, ticket := if isCollective cls then 9 else 0, kEpoch := 0, owner := 0, fmt := fmt, op := 0, flags := flags, step := 100
    tiles := if isCollective cls then 1 else 0, first := 0, seq := seq, digest := 0, payLen := payLen, clean := true }

/-- What a state and a header meet so that a frame sealed under key 0 opens on port 0 with the cache entry `i`. -/
abbrev SealedFits (s : State) (h : Hdr) (plain : Bytes) (i : Nat) : Prop :=
  hdrOf (sealFrame 0 h plain) = h ∧ h.payLen = plain.length ∧ (hdrBytes h).length = 64
    ∧ ((arithRuns s = true ∧ domLive s 18 = true ∧ covered s (sealedOn 0 0 h plain) = true ∧ s.pins.stationLive = true ∧ ingressOf s 0 = some 0 ∧ (s.pipe 0).buf = [] ∧ missesOf s 0 < 4) ∧ tableWf {} (s.pipe 0).kc = true)
    ∧ headerFailure s (sealedOn 0 0 h plain) h = none ∧ epochCheck s h = .ok ∧ (∀ r ∈ keyNeeds s 0 h, (kcFind (s.pipe 0) r.use r.part r.sel r.epoch).isSome = true)
    ∧ (kcFind (s.pipe 0) (keyUse h) (if isCollective h.cls then h.part else 0) (keySel h) h.kEpoch = some i ∧ (tget {} (s.pipe 0).kc i).key = 0)
    ∧ check9 s h = true

/-- A sealed frame on port 0 opens in `frState` and its variants. -/
theorem sealed_opens (s : State) (h : Hdr) (plain : Bytes) (i : Nat) (hs : SealedFits s h plain i) : FrameOpens s (sealedOn 0 0 h plain) 0 plain := by
  obtain ⟨hh, hl, h64, he, hf, hc, hn, hk, h9⟩ := hs
  obtain ⟨⟨e1, e2, e3, e4, e5, e6⟩, e7⟩ := he
  have ho := open_seal 0 h plain hh hl h64
  have hb : hdrOf (sealedOn 0 0 h plain).bytes = h := hh
  unfold FrameOpens
  rw [hb]
  refine ⟨⟨e1, e2, e3, by simp [sealedOn], ?_, fun _ => e4, e5, e6⟩, e7, hf, hc, hn, ⟨i, hk.1, ?_⟩, h9⟩
  · intro h8; simp [sealedOn] at h8
  · rw [hk.2]; exact ho

/-- A DATA frame of rank 6 with one `INT32` tile of zeros and exponent 5 meets the premises on an active entry, and parks on none. -/
def dataHdr : Hdr := aHdr 1 3 1032 8 0
def dataPlain : Bytes := zeros 7 ++ [5] ++ zeros 1024
theorem test_data_opens : FrameOpens frActive (sealedOn 0 0 dataHdr dataPlain) 0 dataPlain ∧ FrameOpens frState (sealedOn 0 0 dataHdr dataPlain) 0 dataPlain :=
  ⟨sealed_opens _ _ _ 0 (by decide +kernel),
   sealed_opens _ _ _ 0 (by decide +kernel)⟩
def frWin : State := { frActive with phlx.recs := [(0, { scale := 5 })] }
def frDesc : Desc := { aDesc with w6 := 0x2000001000000000 }
def activeEntry : Entry := { anEntry with st := .active }
def dataTile : Tile := (readTile 3 false true 0 dataPlain).1

theorem test_data_active : FrameIsActive frActive dataHdr frDesc false activeEntry ∧ openWin frActive 2 7 9 = some 0
    ∧ readTiles 3 false 1 true 0 dataPlain = ([dataTile], []) ∧ lacksScale frActive dataHdr frDesc 0 [dataTile] = false ∧ flagAbsent dataHdr = false ∧ sparseFails dataHdr frDesc dataTile = false ∧ dataPlain.length = dataHdr.tiles * denseSize dataHdr.fmt
    ∧ tilesValid (streamNext frActive dataHdr 0) dataHdr frDesc (resyncFrame frActive dataHdr) [dataTile] = true ∧ expsValid frActive dataHdr frDesc 0 [dataTile] = true
    ∧ agreedOf frActive 0 dataTile.idx = 5 := by
  refine ⟨by unfold FrameIsActive; decide +kernel, ?_⟩; decide +kernel
theorem test_data_parks : isCollective dataHdr.cls = true ∧ descAt frState 2 7 100 = some (frDesc, false) ∧ routeKind frState dataHdr frDesc false = .reduce
    ∧ findEntry frState 2 7 9 = none ∧ ticketPast frState dataHdr = false ∧ (frState.part 2).overflow = none ∧ flagElastic dataHdr = dElastic frDesc
    ∧ canPark frState 2 (unitsOf 1032) = true ∧ openWin { frState with phlx.wins := [] } 2 7 9 = none ∧ openWin frState 2 7 9 = none := by decide +kernel

/-- A RESULT frame of the distribution source (rank 0) where the group is released at another block (rank 6). -/
def distDesc : Desc := { frDesc with w1 := 0xC00040000 }
def distState (e : Entry) : State := { frActive with grp := { frActive.grp with descA := [(7, distDesc)], lists := [(2, [e])] } }
def resultHdr : Hdr := { aHdr 3 0 136 8 0 with rank := 0 }
def resultPlain : Bytes := zeros 7 ++ [5] ++ zeros 128
def resultTile : Tile := (readTile 0 false true 0 resultPlain).1
theorem test_result_opens : FrameOpens (distState activeEntry) (sealedOn 0 0 resultHdr resultPlain) 0 resultPlain ∧ FrameIsActive (distState activeEntry) resultHdr distDesc false activeEntry :=
  ⟨sealed_opens _ _ _ 0 (by decide +kernel), by unfold FrameIsActive; decide +kernel⟩
theorem test_result_tile : (readTiles 0 false 1 true 0 resultPlain) = ([resultTile], []) ∧ resultPlain.length = resultHdr.tiles * denseSize resultHdr.fmt ∧ flagAbsent resultHdr = false
    ∧ lacksScale (distState activeEntry) resultHdr distDesc 0 [resultTile] = false ∧ sparseFails resultHdr distDesc resultTile = false
    ∧ tilesValid (streamNext (distState activeEntry) resultHdr 3) resultHdr distDesc (resyncFrame (distState activeEntry) resultHdr) [resultTile] = true
    ∧ expsValid (distState activeEntry) resultHdr distDesc 0 [resultTile] = true := by decide +kernel

/-- SCALE frames of one byte with the last flag, on the reduce way from rank 6 and on the distribution way from rank 0. -/
def scaleHdr (r : Nat) : Hdr := { aHdr 2 0 1 8 0 with rank := r }
def scaledEntry : Entry := { activeEntry with flow.scaleNext := 1 }
theorem test_scale_opens : FrameOpens frActive (sealedOn 0 0 (scaleHdr 6) [7]) 0 [7] ∧ FrameIsActive frActive (scaleHdr 6) frDesc false activeEntry
    ∧ scaleIsDist frActive (scaleHdr 6) = false ∧ flagLast (scaleHdr 6) = true :=
  ⟨sealed_opens _ _ _ 0 (by decide +kernel), by unfold FrameIsActive; decide +kernel, by decide +kernel, by decide +kernel⟩
theorem test_scale_dist : FrameOpens (distState scaledEntry) (sealedOn 0 0 (scaleHdr 0) [7]) 0 [7] ∧ FrameIsActive (distState scaledEntry) (scaleHdr 0) distDesc false scaledEntry
    ∧ scaleIsDist (distState scaledEntry) (scaleHdr 0) = true :=
  ⟨sealed_opens _ _ _ 0 (by decide +kernel), by unfold FrameIsActive; decide +kernel, by decide +kernel⟩

/-- Fabric frames: an ABORT of ticket 9, a PROBE request, a MGMT query and one of an unknown service, and a STEP to 101. -/
def fabState : State := { frActive with mrd.mode := .followFrame, chrt.slots := [(0, { st := .active, attr := 0x003000007FFFE000 })] }
theorem test_abort_opens : FrameOpens fabState (sealedOn 0 0 (aHdr 4 0 32 0 0) (zeros 12 ++ [9] ++ zeros 19)) 0 (zeros 12 ++ [9] ++ zeros 19)
    ∧ findEntry fabState 2 7 (leAt (zeros 12 ++ [9] ++ zeros 19) 12 4) = some activeEntry :=
  ⟨sealed_opens _ _ _ 1 (by decide +kernel), by decide +kernel⟩
theorem test_probe_opens : FrameOpens fabState (sealedOn 0 0 (aHdr 8 0 16 0 0) (zeros 16)) 0 (zeros 16)
    ∧ fabState.lark.unsent = [] ∧ fabricReady (noteFabric fabState) 8 1 = true ∧ outPipe fabState 1 = some 8 ∧ fabricReady (noteFabric frState) 8 1 = false
    ∧ (kcFind (fabState.pipe 8) 4 0 8 (epochAt fabState 32 fabState.mrd.step)).isSome = true :=
  ⟨sealed_opens _ _ _ 4 (by decide +kernel), by decide +kernel⟩
def query : Bytes := zeros 4 ++ [8, 0, 1, 0] ++ zeros 8 ++ [7] ++ zeros 15
theorem test_mgmt_opens : FrameOpens fabState (sealedOn 0 0 (aHdr 6 0 32 0 0) query) 0 query ∧ FrameOpens fabState (sealedOn 0 0 (aHdr 6 0 16 0 0) (zeros 16)) 0 (zeros 16)
    ∧ mayQuery fabState (leAt query 16 8) 6 = true ∧ fabricReady (noteFabric fabState) 6 1 = true ∧ (kcFind (fabState.pipe 8) 4 0 6 (epochAt fabState 32 fabState.mrd.step)).isSome = true ∧ fld (BitVec.ofNat 64 (leAt query 0 8)) 63 48 = 1
    ∧ fld (BitVec.ofNat 64 (leAt query 0 8)) 47 32 = 8 :=
  ⟨sealed_opens _ _ _ 3 (by decide +kernel),
   sealed_opens _ _ _ 3 (by decide +kernel), by decide +kernel⟩
def stepPlain : Bytes := [0, 0, 101] ++ zeros 13
theorem test_step_opens : FrameOpens fabState (sealedOn 0 0 { aHdr 5 0 16 0 0 with step := 101 } stepPlain) 0 stepPlain
    ∧ stepOf { aHdr 5 0 16 0 0 with step := 101 } stepPlain = some 101
    ∧ topStep fabState = 100 ∧ fabState.mrd.sched = [] ∧ mrdRuns fabState = true :=
  ⟨sealed_opens _ _ _ 2 (by decide +kernel), by decide +kernel⟩

/-- A frame of four bytes too few is damaged: counted, recorded, its credits return (R104, R107). -/
theorem test_damaged : (arithRuns frState = true ∧ domLive frState 18 = true ∧ covered frState (frameOf 0 1) = true ∧ ingressOf frState 0 = some 0 ∧ (frState.pipe 0).buf = [] ∧ missesOf frState 0 < 4)
    ∧ headerFailure frState (frameOf 0 1) (hdrOf (frameOf 0 1).bytes) = some (.badFormat, true) ∧ frState.park.frames = []
    ∧ nx (.dataFrameReceive (frameOf 0 1) noEcc) frState (fun t => decide (tget 0 (t.pipe 0).ctr 0xD0 = 1) && decide (t.out = [.credit 0 false 1])
        && decide ((t.page 0x40).err.status = 0x0102)) = true := by decide +kernel
/-- A port that no pipe serves, or a block without its clock, returns the credits the beats used; beats without credits return none (R25, R518, R525). -/
theorem test_dropped : beatsIn { up with lark.inCr := [(0, { vc0 := 3 })] } (frameOf 0 8) = 1 ∧ covered { up with lark.inCr := [(0, { vc0 := 3 })] } (frameOf 0 8) = true
    ∧ nx (.probeFrameReceive (frameOf 0 8)) { up with lark.inCr := [(0, { vc0 := 3 })], pins.stationLive := true } (fun t => decide (t.out = [.credit 0 false 1]) && decide (roomAt t 0 false = 3)) = true
    ∧ nx (.probeFrameReceive (frameOf 0 8)) { up with lark.inCr := [(0, { vc0 := 3 })], clkr.arithLock := false } (fun t => decide (t.out = [.credit 0 false 1])) = true
    ∧ nx (.probeFrameReceive (frameOf 0 8)) up (fun t => decide (t.out = [])) = true
    ∧ nx (.stepFrameReceive (frameOf 12 5) all) up (fun t => decide (t = up)) = true
    ∧ nx (.probeFrameReceive (frameOf 8 8)) { up with rhmb.lspSrc := 1 } (fun t => decide (t.out = [])) = true
    ∧ domLive { up with pwr.live := 0 } 18 = false := by decide +kernel
/-- On such a port a frame whose sender held no credits is a damaged frame of the collective it names (R104, R144, R518). -/
theorem test_overrun : ingressOf { frActive with lark.pipes := [], lark.inCr := [] } 0 = none ∧ covered { frActive with lark.pipes := [], lark.inCr := [] } (sealedOn 0 0 dataHdr dataPlain) = false
    ∧ namesAborted { frActive with lark.pipes := [], lark.inCr := [] } dataHdr = false ∧ isAdmitted activeEntry = true
    ∧ nx (.dataFrameReceive (sealedOn 0 0 dataHdr dataPlain) noEcc) { frActive with lark.pipes := [], lark.inCr := [] }
        (fun t => decide ((findEntry t 2 7 9).map (·.st) = some .aborted) && decide ((t.grpRec 7).abStatus = 0x0102) && decide (t.out = [])) = true := by decide +kernel

/-- A damaged frame that names an aborted collective counts as one of it (R106). -/
def lateState : State := { frState with grp := { frState.grp with lists := [(2, [{ anEntry with st := .aborted, fin := true }])] } }
def lateFrame : Arrival := sealedOn 0 0 { dataHdr with version := 2 } dataPlain
theorem test_damaged_late : headerFailure lateState lateFrame (hdrOf lateFrame.bytes) = some (.badFormat, true) ∧ namesAborted lateState (hdrOf lateFrame.bytes) = true
    ∧ nx (.dataFrameReceive lateFrame noEcc) lateState (fun t => decide (tget 0 (t.pipe 0).ctr 0xF8 = 1) && decide (tget 0 (t.pipe 0).ctr 0xD0 = 0)) = true := by decide +kernel

/-- Its one source has sent tile 0. -/
def doneEntry : Entry := { activeEntry with flow.marks := [(6, 1)], flow.agreed := 1 }
/-- The egress pipe 8 at the release point: with its result key it holds a frame of the one tile; without it waits for the key. -/
def building (w : Desc) (e : Entry) : State :=
  { frActive with
    grp := { frActive.grp with descA := [(7, w)], lists := [(2, [e])] }
    phlx := { frActive.phlx with wins := [(0, { kind := .working, part := 2, group := 7, tiles := 1, ticket := 9, st := .opened, frontier := 1 })] } }
def mayBuild (s : State) (p : Nat) : Option Entry := (s.entries p).find? (fun e => buildsFor s 8 e && readyOn s 8 p e)
def building1 : State := (servePipe (building frDesc doneEntry) 8 (fun p => (mayBuild (building frDesc doneEntry) p).isSome)).2
theorem test_build : (building frDesc doneEntry).clkr.arithLock = true ∧ heldFrames ((building frDesc doneEntry).pipe 8) < 2
    ∧ servePipe (building frDesc doneEntry) 8 (fun p => (mayBuild (building frDesc doneEntry) p).isSome) = (some 2, building1)
    ∧ mayBuild (building frDesc doneEntry) 2 = some doneEntry ∧ nextOut building1 2 doneEntry = .tiles 1 0 1
    ∧ (kcFind ((building frDesc doneEntry).pipe 8) 1 2 7 0).isSome = true ∧ (buildTiles building1 8 2 doneEntry frDesc 0 1 0 1 none).hdr.hop ≤ 255
    ∧ nx (.egressFrameBuild 0 noEcc) (building frDesc doneEntry) (fun t => decide ((t.pipe 8).outs.length = 1)) = true := by decide +kernel
theorem test_build_key : nx (.egressFrameBuild 0 noEcc) ((building frDesc doneEntry).setPipe 8 { st := .bound, bind := 3 })
      (fun t => decide ((t.pipe 8).waitKey = some (2, 7, 9)) && decide (t.chrt.queue = [{ pipe := 8, use := 1, part := 2, sel := 7, epoch := 0 }])) = true
    ∧ (∀ p, p < 32 → mayBuild up p = none) ∧ nx (.egressFrameBuild 0 noEcc) up (fun t => decide (t = up)) = true := by decide +kernel
def scaleEntry : Entry := { activeEntry with flow.scaleMarks := [(6, 1)] }
theorem test_build_scale : mayBuild (building distDesc scaleEntry) 2 = some scaleEntry ∧ nextOut (building distDesc scaleEntry) 2 scaleEntry = .scale false 0 1
    ∧ hopOver scaleEntry.flow.scaleRuns 0 1 < 255
    ∧ nx (.egressFrameBuild 0 noEcc) (building distDesc scaleEntry) (fun t => decide ((t.pipe 8).outs.map (·.cls) = [2])) = true := by decide +kernel

def sendState : State := { up.setPipe 9 { st := .bound, bind := 1, outs := [{ outFrame with waits := 0, bytes := zeros 96 }] } with pins.stationLive := true, lark.outCr := [(0, { vc0 := 3 })] }
theorem test_send : canSend sendState { outFrame with waits := 0, bytes := zeros 96 } = true
    ∧ nx (.frameSend 1) sendState (fun t => decide (t.out = [.frame 0 (sidebandOf false (zeros 96)) (zeros 96)]) && decide (creditsAt t 0 false = 2) && decide (tget 0 (t.pipe 9).ctr 0xC8 = 96)) = true := by decide +kernel
theorem test_send_waits : canSend { sendState with lark.outCr := [(0, { vc0 := 0 })] } { outFrame with waits := 0, bytes := zeros 96 } = false
    ∧ nx (.frameSend 1) { sendState with lark.outCr := [(0, { vc0 := 0 })] } (fun t => decide (tget 0 (t.pipe 9).ctr 0xD8 = 1) && decide (t.out = [])) = true
    ∧ nx (.frameSend 1) sending (fun t => decide (t = sending)) = true ∧ nx (.frameSend 2) up (fun t => decide (t = up)) = true := by decide +kernel
theorem test_credits : nx (.creditGrantReceive 11 true 5) { up with lark.outCr := [(11, { vc1 := 65533 })] } (fun t => decide (creditsAt t 11 true = 65535)) = true
    ∧ nx (.creditGrantReceive 11 true 5) { up with blk.profile := 2 } (fun t => decide (creditsAt t 11 true = creditsAt up 11 true)) = true
    ∧ nx (.creditGrantReceive 12 true 5) up (fun t => decide (t = up)) = true := by decide +kernel

/-- A fabric key asked for by pipe 8 (destination bit 8) reaches its cache; a request of pipe 9, which the slot's mask leaves out, is refused. -/
def asking (pipe : Nat) : State :=
  { frState with
    grp := { frState.grp with lists := [] }, chrt := { frState.chrt with slots := [(0, { st := .active, attr := 0x0030000000200000 })], queue := [{ pipe := pipe, use := 4, part := 0, sel := 5, epoch := 0 }] }
    lark := { frState.lark with pipes := [] } }
def asks (pipe : Nat) : KeyReq := { pipe := pipe, use := 4, part := 0, sel := 5, epoch := 0 }
/-- Its cache with every entry held. -/
def fullCache : Table KcEntry := (List.range 64).map (fun i => (i, { valid := true, use := 7, holders := 1 }))
theorem test_serve : baseSlot (asking 8) (asks 8) = some 0 ∧ slotSound (asking 8) 0 = true ∧ ((asking 8).slot 0).ecc ≠ .single ∧ kcVictim ((asking 8).pipe 8) = some 0
    ∧ ((asking 8).clkr.secLock = true ∧ (asking 8).clkr.arithLock = true ∧ tableWf {} ((asking 8).pipe 8).kc = true ∧ kcFind ((asking 8).pipe 8) 4 0 5 0 = none)
    ∧ (∃ key d i, lookupKey (asking 8) (asks 8) = .ok (key, d, i))
    ∧ nx (.keyRequestServe ⟨all, false, none⟩) (asking 8) (fun t => decide (t.chrt.pushes = 1) && decide (t.chrt.queue = [])) = true :=
  ⟨by decide +kernel, by decide +kernel, by decide +kernel, by decide +kernel, by decide +kernel, ⟨_, _, _, rfl⟩, by decide +kernel⟩
theorem test_serve_refused : lookupKey (asking 9) (asks 9) = .error .destDenied ∧ (∀ i, baseSlot (asking 9) (asks 9) = some i → slotSound (asking 9) i = true)
    ∧ nx (.keyRequestServe ⟨all, false, none⟩) (asking 9) (fun t => decide (t.chrt.refusals = 1) && decide (t.chrt.queue = [])) = true
    ∧ nx (.keyRequestServe ⟨all, false, none⟩) up (fun t => decide (t = up)) = true := by
  refine ⟨rfl, fun i h => ?_, by decide +kernel, by decide +kernel⟩
  have : i = 0 := by simpa using ((show baseSlot (asking 9) (asks 9) = some 0 by decide +kernel).symm.trans h).symm
  subst this; decide +kernel

/-- A push cut short leaves its entry zeroed and the request in the queue (R20); with every entry held the request waits. -/
theorem test_serve_cut : nx (.keyRequestServe ⟨all, true, none⟩) ((asking 8).setPipe 8 { kc := [(0, { valid := true, use := 9, key := 5 })] })
      (fun t => decide (t.chrt.queue = [asks 8]) && decide (t.chrt.pushes = 0) && decide ((tget {} (t.pipe 8).kc 1 : KcEntry).valid = false)) = true
    ∧ kcVictim (((asking 8).setPipe 8 { kc := fullCache }).pipe 8) = none ∧ tableWf {} (((asking 8).setPipe 8 { kc := fullCache }).pipe 8).kc = true
    ∧ nx (.keyRequestServe ⟨all, false, none⟩) ((asking 8).setPipe 8 { kc := fullCache }) (fun t => decide (t.chrt.queue = [asks 8]) && decide (t.chrt.pushes = 0)) = true := by decide +kernel

/-! ### Partitions, budgets and steps -/

/-- A policy record of partition 2 with one owner, whose P-384 point is the base point; partition 2 may read it at 0x1000. -/
def policyRec : Bytes :=
  ascii "ORPV-PL1" ++ [2, 1] ++ zeros 246 ++ [4] ++ beBytes 48 p384.gx ++ beBytes 48 p384.gy ++ zeros 2655
def freePart : State :=
  { up with
    parts := [(2, { policyAddr := 0x1000, regions := [(0, { en := true, rd := true, base := 0, limit := 0x10000 })] })], chrt.root := some 7, chrt.slots := [(1, { st := .active })]
    hashu.drbgs := [(0, { st := 1 }), (34, { st := 1 })] }
theorem test_assign : wr freePart mg 0x82 0x88 = true ∧ partBusy freePart 2 = false ∧ (match assignChecks freePart 2 ⟨some policyRec, none⟩ with | .ok (k, _) => decide (k = 1) | _ => false) = true ∧ freePart.chrt.root = some 7
    ∧ nx (.assign mg 2 0x1000000000000000 ⟨some policyRec, some .arith⟩) freePart (fun t => decide ((t.part 2).stepFailed = 6) && decide ((t.part 2).status = 0x0601) && decide ((t.part 2).st = .free)) = true
    ∧ nx (.assign mg 2 0x1000000000000000 ⟨some policyRec, none⟩) { freePart with chrt.slots := [] } (fun t => decide ((t.part 2).stepFailed = 6) && decide ((t.part 2).status = 0x0301)) = true := by decide +kernel
theorem test_assign_fails : assignChecks freePart 2 ⟨some (zeros 3008), none⟩ = .error (3, .badFormat)
    ∧ nx (.assign mg 2 0x1000000000000000 ⟨some (zeros 3008), none⟩) freePart (fun t => decide ((t.part 2).stepFailed = 3) && decide ((t.part 2).status = 0x0102)) = true
    ∧ nx (.partCmdRelease mg 2 0x2000000000000000) freePart (fun t => decide ((t.part 2).status = 0x0301)) = true := by decide +kernel
def ownedPart (st : PartSt) : State := { up with parts := [(2, { st := st, owners := 1, channels := 8 })] }
theorem test_release : nx (.partCmdRelease mg 2 0x2000000000000000) (ownedPart .owned) (fun t => decide ((t.part 2).st = .wiping) && decide ((t.part 2).wipeTag = 0)) = true
    ∧ partBusy (ownedPart .wiping) 2 = true ∧ nx (.partCmdRelease mg 2 0x2000000000000000) (ownedPart .wiping) (no 0x0301) = true
    ∧ nx (.wipeDone 2) (ownedPart .owned) (fun t => decide (t = ownedPart .owned)) = true ∧ launchHeld (ownedPart .wiping) 2 = false
    ∧ nx (.wipeDone 2) { ownedPart .wiping with clkr.secLock := false } (fun t => decide ((t.part 2).st = .wiping)) = true
    ∧ nx (.wipeDone 2) { ownedPart .wiping with mrd.heldCmds := [.launch (tg 2) 0x3000000000000000] } (fun t => decide ((t.part 2).st = .wiping)) = true := by decide +kernel
/-- A channel that has begun a frame holds the wipe until it has finished it (R310, R351). -/
def wipingFrame : State := { ownedPart .wiping with rhmb.chans := [(3, midFrame)] }
theorem test_wipe_waits : chansStopped (wipeTraffic wipingFrame 2) 2 = false ∧ secRuns wipingFrame = true ∧ launchHeld wipingFrame 2 = false
    ∧ chansStopped (wipeTraffic (ownedPart .wiping) 2) 2 = true
    ∧ nx (.wipeDone 2) wipingFrame (fun t => decide ((t.part 2).st = .wiping) && (t.chan 3).stopping) = true := by decide +kernel
theorem test_wipe : nx (.wipeDone 2) { ownedPart .wiping with
      grp.lists := [(2, [anEntry])], zin.budgets := [(2, { spent := 5 })], rhmb.sems := [(31, { owned := true, part := 2, value := 9 })] }
      (fun t => decide ((t.part 2).st = .free) && decide (t.entries 2 = []) && decide (t.budget 2 = {}) && decide ((tget {} t.rhmb.sems 31 : Sem).value = 0)) = true := by decide +kernel

/-- Region windows of partition 2: the base enables, a second write of another base is locked, an unaligned one is bad; one in use closes. -/
def regState (r : Region) : State := { up with parts := [(2, { regions := [(7, r)], channels := 8 })] }
theorem test_region : wr (regState { limit := 0x2000 }) mg 0x82 0x170 = true ∧ regionLocked { limit := 0x2000 } false 0xE000000000001000 = false
    ∧ regionBad { limit := 0x2000 } false 0xE000000000001000 (meetsParts (regState { limit := 0x2000 }) (some 2)) = false
    ∧ nx (.partRegionWrite mg 2 7 false 0xE000000000001000) (regState { limit := 0x2000 })
        (fun t => decide (tget {} (t.part 2).regions 7 = ({ en := true, rd := true, wr := true, base := 0x1000, limit := 0x2000 } : Region))) = true := by decide +kernel
theorem test_region_refused : nx (.partRegionWrite mg 2 7 true 0x3000) (regState { en := true, base := 0x1000, limit := 0x2000 }) (no 0x0301) = true
    ∧ nx (.partRegionWrite mg 2 7 true 0x2001) (regState {}) (no 0x0101) = true ∧ nx (.partRegionWrite mg 2 7 false 0x8000000000001000) (regState {}) (no 0x0101) = true
    ∧ windowUsers (regState {}) (some 2) 7 = [] ∧ regionUsed (regState {}) { en := true, closing := true, limit := 0x2000 } = false
    ∧ nx (.regionDisableDone 2 7) (regState { en := true, closing := true, limit := 0x2000 }) (fun t => !(tget {} (t.part 2).regions 7 : Region).en) = true := by decide +kernel
/-- Channel 3's operation 4 was checked against the window: the clear waits for it, and for it alone (R315). -/
def usedState (n : Nat) (r : Region) : State :=
  { regState r with rhmb.chans := [(3, { st := .running, serial := n, used := [7], job := some { kind := .move false, len := 8, rd := .list [], ws := .list [], wd := .list [], ad := .list [] } })] }
theorem test_region_used : wr (usedState 4 { en := true, limit := 0x2000 }) mg 0x82 0x170 = true ∧ windowUsers (usedState 4 { en := true, limit := 0x2000 }) (some 2) 7 = [(3, 4)]
    ∧ nx (.partRegionWrite mg 2 7 false 0) (usedState 4 { en := true, limit := 0x2000 })
        (fun t => decide (tget {} (t.part 2).regions 7 = ({ en := true, closing := true, users := [(3, 4)], limit := 0x2000 } : Region))) = true
    ∧ nx (.regionDisableDone 2 7) (usedState 4 { en := true, closing := true, users := [(3, 4)] }) (fun t => (tget {} (t.part 2).regions 7 : Region).closing) = true
    ∧ nx (.regionDisableDone 2 7) (usedState 5 { en := true, closing := true, users := [(3, 4)] }) (fun t => !(tget {} (t.part 2).regions 7 : Region).en) = true := by decide +kernel
theorem test_range : wr up mg 0x9F 0xA8 = true ∧ nx (.partMbrRangeWrite mg 31 0xFFFFC00008000000) up (fun t => decide ((t.part 31).mbrBase = 262143) && decide ((t.part 31).mbrLen = 1)) = true
    ∧ nx (.partMbrRangeWrite mg 31 0xFFFFC00010000000) up (no 0x0101) = true ∧ nx (.partMbrRangeWrite mg 2 0) (ownedPart .owned) (no 0x0301) = true := by decide +kernel
theorem test_mask : wr up mg 0x9F 0xB0 = true ∧ nx (.partChannelsWrite mg 31 0x8001) up (fun t => decide ((t.part 31).channels = 0x8001)) = true
    ∧ nx (.partChannelsWrite mg 2 0) { regState {} with rhmb.chans := [(3, { st := .running })] } (no 0x0301) = true := by decide +kernel
theorem test_quota : wr up mg 0x9F 0x98 = true ∧ wr up mg 0x9F 0xA0 = true
    ∧ nx (.partQuotaWrite mg 31 false 0x0020080040000000) up (fun t => decide ((t.part 31).qSlots = 512) && decide ((t.part 31).qDescs = 4096) && decide ((t.part 31).qWins = 8192)) = true
    ∧ nx (.partQuotaWrite mg 31 false 0x0020100000000000) up (no 0x0101) = true
    ∧ nx (.partQuotaWrite mg 31 true 0x80000000E0000000) up (fun t => decide ((t.part 31).qGran = 16384) && decide ((t.part 31).weight = 7)) = true := by decide +kernel

/-- `BUDGET` of partition 2 with the command address 0x1000: no window covers it, so stage 1 fails. -/
theorem test_budget : wr up mg 0x55 0x80 = true ∧ budgetStages (answer up 0) none none = .error (.bounds, 1, 0xFF)
    ∧ nx (.zinBudget mg 0x1000000000000000 none none) up (fun t => decide (t.zin.result = 0x020101FF00000000) && bitOf (t.page 0x55).cause 0) = true := by decide +kernel

/-- Steps: a master's `ADVANCE` to 0 after 2^48 - 1, the events of one entry, and the mark. -/
def stepState (m : MrdMode) (e : Sched) : State := { up with mrd.mode := m, mrd.step := 99, mrd.sched := [(5, e)] }
theorem test_advance : wr up mg 0x04 0x58 = true ∧ nx (.mrdAdvance mg 1 all) { up with mrd.mode := .master, mrd.step := 2 ^ 48 - 1 } (fun t => decide (t.mrd.step = 0) && t.mrd.seen && bitOf (t.page 0x04).cause 0) = true
    ∧ nx (.mrdAdvance mg 1 all) { up with mrd.mode := .followMark } (no 0x0301) = true
    ∧ nx (.mrdAdvance mg 1 all) { up with mrd.mode := .master, mrd.running := some 0 } (fun t => decide (t.mrd.pendingStep = some 1)) = true := by decide +kernel
theorem test_events : nx (.mrdAdvance mg 1 all) { stepState .master { step := 100, typ := 4, valid := true, part := 2 } with zin.budgets := [(2, { spent := 9, grant := 4 })] }
      (fun t => decide ((t.budget 2).spent = 5) && !(t.schedOf 5).valid) = true
    ∧ nx (.mrdAdvance mg 1 all) { stepState .master { step := 100, typ := 2, valid := true } with grp.descS := [(7, aDesc)], grp.frozen := true }
      (fun t => decide (t.desc false 7 = aDesc) && t.grp.oldHeld && !t.grp.frozen && decide ((t.schedOf 5).phases = 2)) = true
    ∧ nx (.mrdAdvance mg 1 all) (stepState .master { step := 101, typ := 1, valid := true, part := 2, arg := 1 }) (fun t => (t.clockOf 2).pair && decide ((t.clockOf 2).high = 1)) = true := by
  decide +kernel
theorem test_mark : domLive up 1 = true ∧ nx (.stepMarkPulse all) { up with mrd.mode := .followMark } (fun t => decide (t.mrd.step = 1) && t.mrd.seen) = true
    ∧ nx (.stepMarkPulse all) { up with pwr.asleep := true } (fun t => decide (t.mrd.step = 1) && !t.mrd.seen) = true
    ∧ nx (.pendingBoundary all) { up with mrd.step := 5, mrd.pendingStep := some 8 } (fun t => decide (t.mrd.step = 8) && decide (t.mrd.jumps = 1)) = true
    ∧ nx (.pendingBoundary all) { up with mrd.step := 5, mrd.pendingStep := some 5, mrd.pendingRelay := some ([], 1) } (fun t => decide (t.mrd.drops = 1) && decide (t.mrd.pendingRelay = none)) = true
    ∧ nx (.pendingBoundary all) { up with mrd.step := 5, mrd.pendingStep := some 5 } (fun t => decide (t.mrd.step = 5) && decide (t.mrd.pendingStep = none)) = true := by decide +kernel
theorem test_mark_unlocked : mrdRuns up = true ∧ mrdRuns { up with clkr.secLock := false } = false
    ∧ nx (.stepMarkPulse all) { up with mrd.mode := .followMark, clkr.secLock := false } (fun t => decide (t.mrd.step = 0) && decide (t.mrd.pendingStep = some 1)) = true
    ∧ nx (.stepMarkPulse all) { up with mrd.mode := .master, mrd.masterMark := true } (fun t => decide (t.mrd.step = 1)) = true
    ∧ nx (.pendingBoundary all) { up with mrd.step := 5, mrd.pendingStep := some 8, clkr.secLock := false } (fun t => decide (t.mrd.step = 5)) = true := by decide +kernel
theorem test_step_set : wr up mg 0x04 0x60 = true ∧ anyAdmitted up = false ∧ nx (.mrdStepSet mg 7) { up with mrd.seen := true, park.holdQ := [(1, 2, 3, 4, [])] } (fun t => decide (t.mrd.step = 7) && !t.mrd.seen && decide (t.park.abortsUnsent = 1)) = true
    ∧ nx (.mrdStepSet mg 7) admitted (no 0x0301) = true ∧ nx (.mrdStepSet mg 7) { up with mrd.running := some 0 } (fun t => decide (t.mrd.heldCmds = [.stepSet mg 7])) = true := by decide +kernel

/-- A GROUP_SWAP at step 100 of entry 63 freezes the shadow; a step that is over is bad, a fired entry locked (R295). -/
theorem test_sched : wr up mg 0x05 0x4F0 = true ∧ schedLocked up 63 = false ∧ schedBad { up with mrd.step := 9 } 63 0x0000000000642000 = false
    ∧ nx (.scheduleEntryWrite mg 63 0x0000000000642000) { up with mrd.step := 9 } (fun t => t.grp.frozen && decide ((t.schedOf 63).step = 100) && decide ((t.schedOf 63).typ = 2)) = true
    ∧ nx (.scheduleEntryWrite mg 63 0x0000000000092000) { up with mrd.step := 9 } (no 0x0101) = true
    ∧ nx (.scheduleEntryWrite mg 5 0) (stepState .master { step := 100, typ := 2, valid := true, fired := true }) (no 0x0301) = true := by decide +kernel
/-- The relays of a lower step that have not left are dropped and counted when the step is set (R289). -/
theorem test_step_set_relays : nx (.mrdStepSet mg 7) (up.setPipe 9 { st := .bound, bind := 1, outs := [{ outFrame with cls := 5, waits := 0, relayOf := some 6 }] })
      (fun t => decide ((t.pipe 9).outs = []) && decide (t.mrd.drops = 1)) = true := by decide +kernel
theorem test_late : nx (.stepTimeout 50) { up with mrd.timeout := 50 } (fun t => bitOf (t.page 0x04).cause 2 && decide (t.mrd.wall = 50)) = true
    ∧ nx (.stepTimeout 49) { up with mrd.timeout := 50 } (fun t => !bitOf (t.page 0x04).cause 2) = true
    ∧ nx (.remaskFloor 5000) { up with chrt.floorMs := 5, chrt.slots := [(3, { st := .active, key := 6 })], hashu.drbgs := [(34, { st := 1 })] } (fun t => decide ((t.slot 3).remaskAt = 5000)) = true := by
  decide +kernel

/-- With an operation running in the engine a request waits for it, and a second one is refused (R258). -/
theorem test_budget_waits : nx (.zinBudget mg 0x1000000000000000 none none) { up with astr.st := .running } (fun t => t.zin.waiting.isSome && pageBusy t mg 0x55) = true
    ∧ nx (.zinBudget mg 0x1000000000000000 none none) { up with zin.waiting := some (mg, none, none) } (no 0x0301) = true := by decide +kernel
/-- A raise for a partition without owners needs no signer: every stage passes (R253, R254). -/
def budReq : Bytes := ascii "ORPV-BG1" ++ zeros 16 ++ [2] ++ zeros 7 ++ [1] ++ zeros 7 ++ [9] ++ zeros 23
def budState : State :=
  { up with zin.cmdAddr := 0x0002000000001000
            parts := [(2, { st := .owned, policyAddr := 0x1000, policy := Config.sha384 (zeros 256), regions := [(0, { en := true, rd := true, base := 0, limit := 0x10000 })] })] }
theorem test_budget_ok : ∃ u, budgetStages (answer budState 0) (some budReq) (some (zeros 256)) = .ok u := by
  have h1 : helmRead (inRegions (answer budState 0) (fld (answer budState 0).zin.cmdAddr 52 48) (fld (answer budState 0).zin.cmdAddr 47 0) 64 false) (some budReq) 64 = .ok budReq := by
    decide +kernel
  have h2 : policyRecord (answer budState 0) (fld (answer budState 0).zin.cmdAddr 52 48) (some (zeros 256)) = .ok (zeros 256) := by
    have h : helmRead (inRegions (answer budState 0) 2 ((answer budState 0).part 2).policyAddr (256 + 2752 * popCount 8 ((answer budState 0).part 2).owners) false) (some (zeros 256))
      (256 + 2752 * popCount 8 ((answer budState 0).part 2).owners) = .ok (zeros 256) := by decide +kernel
    have he : fld (answer budState 0).zin.cmdAddr 52 48 = 2 := by decide +kernel
    rw [he]; unfold policyRecord; simp only [h]
    exact if_pos rfl
  have h3 : popCount 8 (leAt budReq 25 1) = 0 ∧ requestForm (answer budState 0) 2 budReq = true ∧ signersHold 0 (leAt budReq 25 1) (isRaise {} budReq) = true := by decide +kernel
  refine ⟨applyRequest (answer budState 0) 2 budReq, ?_⟩
  unfold budgetStages
  simp only [h1, h2, h3.1]
  rfl

/-! ### Keys -/

/-- A slot command on the slot of `CHRT_CMD_ARG` bits 63:55. -/
def keyState (i : Nat) (slots : Table Slot) : State := { up with chrt.slots := slots, chrt.cmdArg := BitVec.ofNat 64 (i * 2 ^ 55), hashu.drbgs := [(0, { st := 1 }), (34, { st := 1 })] }
theorem test_key_wait : wr up mg 0x0A 0x40 = true ∧ nx (.chrtConfirm mg 0x2000000000000000) { up with chrt.deleting := some 12 } (no 0x0301) = true
    ∧ shadowOf (keyState 200 []) 200 = none ∧ nx (.chrtConfirm mg 0x2000000000000000) (keyState 200 []) (fun t => decide (t.chrt.status = 0x0301) && decide (t.chrt.resSlot = 200)) = true := by decide +kernel
theorem test_confirm : argSlot (keyState 200 []) = 200 ∧ shadowOf (keyState 200 [(200, { st := .shadow, attr := 0x0080000000000000 })]) 200 = some 200
    ∧ nx (.chrtConfirm mg 0x2000000000000000) (keyState 200 [(200, { st := .shadow, attr := 0x0080000000000000 })]) (fun t => decide ((t.slot 200).st = .confirmed) && bitOf (t.page 0x0A).cause 0) = true := by decide +kernel
/-- The pair 200 and 201: `COMMIT` moves the confirmed key to the target (R374); `DISCARD` empties the shadow. -/
def pairSlots (st : SlotSt) : Table Slot := [(200, { st := .active, attr := 0x0080000000000000, partner := some 201 }), (201, { st := st, key := 6, attr := 0x0080000000000000, partner := some 200 })]
theorem test_commit_key : shadowOf (keyState 200 (pairSlots .confirmed)) 200 = some 201
    ∧ nx (.chrtCommit mg 0x3000000000000000) (keyState 200 (pairSlots .confirmed)) (fun t => decide ((t.slot 200).st = .active) && decide ((t.slot 200).key = 6) && decide (t.slot 201 = {})) = true
    ∧ nx (.chrtDiscard mg 0x4000000000000000) (keyState 200 (pairSlots .shadow)) (fun t => decide (t.slot 201 = {}) && decide ((t.slot 200).st = .active)) = true := by decide +kernel
/-- The premises on the slots of a pair; a pair whose shadow is `BAD` keeps it (R363). -/
def badSlots : Table Slot := [(200, { st := .active, partner := some 201 }), (201, { st := .shadow, bad := true, partner := some 200 })]
theorem test_pair : ((keyState 200 (pairSlots .confirmed)).slot 201).bad = false ∧ slotSound (keyState 200 (pairSlots .confirmed)) 201 = true ∧ slotSound (keyState 200 (pairSlots .confirmed)) 200 = true
    ∧ atClass ((keyState 200 (pairSlots .confirmed)).slot 201).attr ≠ 5 ∧ shadowOf (keyState 200 badSlots) 200 = some 201
    ∧ nx (.chrtDiscard mg 0x4000000000000000) (keyState 200 badSlots) (fun t => decide (t.chrt.status = 0x0405) && decide ((t.slot 201).st = .shadow)) = true := by decide +kernel
theorem test_delete : slotBusy (keyState 160 [(160, { st := .active })]) 160 = false
    ∧ nx (.chrtDelete mg 0x5000000000000000) (keyState 160 [(160, { st := .active })]) (fun t => decide (t.slot 160 = {}) && decide (t.chrt.status = 0)) = true
    ∧ nx (.chrtDelete mg 0x5000000000000000) { keyState 160 [(160, { st := .active })] with chrt.delivery := some { acc := mg, slot := 160, dest := 0, sent := true } }
        (fun t => decide (t.chrt.deleting = some 160)) = true := by decide +kernel
theorem test_generate : argAny (keyState 12 []) = false ∧ drbgServes (keyState 12 []) 0 = true ∧ canPut (keyState 12 []) 8 = true
    ∧ atClass (0x0080000000000001 : Word) = 8 ∧ usageAllowed 8 (fld (0x0080000000000001 : Word) 51 47) = true
    ∧ nx (.chrtGenerate mg 0x6000000000000000) { keyState 12 [] with chrt.genAttr := 0x0080000000000001, life.st := 1 } (fun t => decide ((t.slot 12).st = .active) && decide ((t.slot 12).attr = 0x0080000000000001)) = true := by
  decide +kernel

/-- A package of zeros read from partition 0's window fails stage 2 (R371). -/
def importState : State := { up with parts := [(0, { regions := [(0, { en := true, rd := true, base := 0, limit := 0x10000 })] })] }
theorem test_import_fails : (packageOf (slice (zeros 6544) 0 6544)).cls = 0 ∧ inRegions importState 0 0 6544 false = true
    ∧ (match importStages (answer importState 0) (slice (zeros 6544) 0 6544) none with | .error (k, st) => decide (k = 2) && decide (st = .badFormat) | _ => false) = true := by decide +kernel

/-- Fuses of two identical words of a region. -/
def fuseWord (r i v : Nat) : List (Nat × PhysWord) := (copiesOf r i).map (fun p => (p, { loose := codeword v, nominal := codeword v, strict := codeword v }))

/-- `DELIVER` of slot 200 to destination 1, whose entry allows class 8 and one unit of 750 cycles; the answer comes in cycles 4 to 753. -/
def delState (d : Option Delivery) : State :=
  { keyState 200 [(200, { st := .active, attr := 0x0080000000000009 })] with
    chrt.cmdArg := 0x6401000000000000, chrt.slots := [(200, { st := .active, attr := 0x0080000000000009 })], chrt.delivery := d, logb.sensed := fuseWord 9 1 0x0100800100000000 }
def aDelivery : Delivery := { acc := mg, slot := 200, dest := 1, sent := true }
theorem destEntry_del (d : Option Delivery) : destEntry (delState d) 1 = 0x0100800100000000 := by
  unfold destEntry
  rw [Laws.fuse_eq (delState d) 9 1 (by show Laws.wordsRead (fuseWord 9 1 0x0100800100000000) 9 = true; decide +kernel) (by rfl)]
  show BitVec.ofNat 64 ((readWord (fuseWord 9 1 0x0100800100000000) 9 1).value.getD 0) = _
  decide +kernel
theorem test_deliver : argDest (delState none) = 1 ∧ slotSound (delState none) 200 = true ∧ atBank (0x0080000000000009 : Word) = 0 ∧ (atDests (0x0080000000000009 : Word)).testBit 1 = true
    ∧ (atDests (0x0080000000000000 : Word)).testBit 0 = false ∧ nx (.chrtDeliver mg 0x7000000000000000) (delState (some aDelivery)) (no 0x0301) = true := by decide +kernel
theorem test_kdp : ackLimit (delState (some aDelivery)) aDelivery = 754 := by
  unfold ackLimit; rw [show aDelivery.dest = 1 from rfl, destEntry_del]; rfl
/-- The conditions on the slot and its destination hold (R378). -/
theorem test_deliver_holds : deliverCheck (delState (some { aDelivery with sent := false })) 200 1 = none := by
  unfold deliverCheck; rw [destEntry_del]; decide +kernel
/-- Without a fused limit the fourth cycle is past it. -/
theorem test_kdp_late : (up.chrt.delivery = none ∧ nx (.kdpAnswer true false 1 4) up (fun t => decide (t = up)) = true)
    ∧ nx (.kdpAckTimeout 4) up (fun t => decide (t = up)) = true := by decide +kernel

/-! ### Astrolabe and the noise source -/

/-- Four slots of one word: A = 6, B = 9, C = 7, R; `MODMUL` on them (program 1) of one word. -/
def astrState (st : AstrSt) : State :=
  { up with astr := { st := st, cs := [(1, 5)], slots := [(0, { base := 0, len := 1 }), (1, { base := 1, len := 1 }), (2, { base := 2, len := 1 }), (3, { base := 3, len := 1 })]
                      mem := [(0, 6), (1, 9), (2, 7)], arg0 := 0x00002008000031D0, arg1 := 0x0100000000000000, run0 := 0x00002008000031D0, run1 := 0x0100000000000000, prog := 1 } }
theorem test_astr_run : wr up mg 0x0C 0x60 = true ∧ runRefusal (astrState .ready) (argsOf 1 0x00002008000031D0 0x0100000000000000) = none
    ∧ nx (.astrRun mg 0x1010000000000000) (astrState .ready) (fun t => decide (t.astr.st = .running) && decide (t.astr.prog = 1)) = true
    ∧ runRefusal (astrState .loading) (argsOf 1 0x00002008000031D0 0x0100000000000000) = some .wrongState
    ∧ nx (.astrRun mg 0x1010000000000000) (astrState .loading) (fun t => no 0x0301 t && decide (t.astr.status = 0x0301)) = true := by decide +kernel
/-- 6 · 9 mod 7 = 5 in slot 3 (R399, Table 13.5). -/
theorem test_astr_end : opndOf 0x00002008000031D0 4 = { slot := 3, cnt := 1, used := true }
    ∧ nx (.astrOpEnd (.sound [])) (astrState .running) (fun t => decide (tget 0 t.astr.mem 3 = 5) && decide (t.astr.st = .ready) && bitOf (t.page 0x0C).cause 0) = true
    ∧ nx (.astrOpEnd (.sound [])) (astrState .ready) (fun t => decide (t = astrState .ready)) = true := by decide +kernel
/-- What Chartroom takes at the end it zeroes, where it is `SECRET` and of the operation's owner (R407). -/
theorem test_astr_taken : nx (.astrOpEnd (.sound [9])) { astrState .running with astr.slots := (astrState .running).astr.slots ++ [(9, { base := 40, len := 1, secret := true, owner := some (argsOf 1 0x00002008000031D0 0x0100000000000000).owner })], astr.mem := [(0, 6), (1, 9), (2, 7), (40, 3)] }
      (fun t => decide (tget 0 t.astr.mem 40 = 0) && !(t.astrSlot 9).secret) = true := by decide +kernel
/-- A program that blinds draws its values at its start (R399). -/
theorem test_astr_draws : programDraws 1 false = 0 ∧ programDraws 4 false ≠ 0 := by decide +kernel
theorem test_astr_abort : nx (.astrAbort mg 0x2000000000000000) (astrState .running) (fun t => decide (t.astr.status = 0x0504) && decide (slotWords t 0 = [0])) = true
    ∧ nx (.astrAbort mg 0x2000000000000000) (astrState .ready) (fun t => no 0x0301 t && decide (t.astr.status = 0x0301)) = true
    ∧ nx (.astrRun mg 0x1010000000000001) (astrState .ready) (fun t => no 0x0101 t && decide (t.astr.status = 0x0101)) = true
    ∧ nx (.astrAbort mg 0x2000000000000000) { astrState .running with zin.waiting := some (mg, none, none) } (fun t => decide (t.zin.waiting = none) && bitOf (t.page 0x55).cause 0) = true
    ∧ nx (.astrOpEnd (.sound [])) { astrState .running with clkr.arithLock := false } (fun t => decide (t.astr.st = .running)) = true := by decide +kernel
theorem test_astr_cs : wr up mg 0x0C 0x50 = true ∧ nx (.astrCsDataWrite mg 7) { astrState .loading with astr.st := .loading, astr.csAddr := 4095 } (fun t => decide (tget 0 t.astr.cs 4095 = 7) && decide (t.astr.csAddr = 0)) = true
    ∧ nx (.astrCsDataWrite mg 7) (astrState .ready) (no 0x0301) = true ∧ wr up mg 0x0C 0x58 = true := by decide +kernel
/-- Whatever the control store's CRC-32C is, some word commits it and another does not. -/
theorem test_astr_commit (n : Nat) (h : n < 2 ^ 32) : fld (BitVec.ofNat 64 n) 63 32 = 0 ∧ n = fld (BitVec.ofNat 64 n) 31 0 ∧ n ≠ fld (BitVec.ofNat 64 ((n + 1) % 2 ^ 32)) 31 0 := by
  simp only [fld, BitVec.toNat_ofNat]; omega
theorem test_astr_slot : wr (astrState .ready) mg 0x0D 0x48 = true ∧ wr (astrState .ready) mg 0x0D 0x58 = true ∧ rd (astrState .ready) mg 0x0D 0x58 = true ∧ wr (astrState .ready) mg 0x0D 0x60 = true
    ∧ nx (.astrSlotDescWrite mg 0xF800800000000000) { astrState .ready with astr.slotSel := 255 } (fun t => decide (t.astrSlot 255 = { base := 0xF80, len := 8 })) = true
    ∧ nx (.astrSlotDescWrite mg 0xF800800000000000) { up with astr.slots := [(0, { len := 1, sealed := true })] } (no 0x0301) = true := by decide +kernel
theorem test_astr_data : slotNamed (astrState .ready) 0 = false ∧ nx (.astrDataAccess mg true 8) (astrState .ready) (fun t => decide (tget 0 t.astr.mem 0 = 8) && decide (t.astr.dataAddr = 0)) = true
    ∧ nx (.astrDataAccess mg false 0) (astrState .ready) (fun t => decide (t.bus.resp.rdata = 6)) = true
    ∧ nx (.astrDataAccess mg false 0) { up with astr.slots := [(0, { len := 1, key := true })] } (no 0x0301) = true
    ∧ nx (.astrZero mg 1) (astrState .ready) (fun t => decide (tget 0 t.astr.mem 0 = 0) && decide (tget 0 t.astr.mem 1 = 9)) = true
    ∧ nx (.astrZero mg 0) (astrState .ready) (fun t => decide (tget 0 t.astr.mem 0 = 6)) = true := by decide +kernel

/-- 1,024 samples: alternating ones pass both tests, equal ones fail them (R383, R384). -/
def alternating : List Bool := (List.range 1024).map (fun i => i % 2 = 0)
theorem test_noise : domLive up 4 = true ∧ aptFails alternating = false ∧ (rctFold alternating false 0 false).2.2 = false
    ∧ nx (.noiseSampleBlock alternating) up (fun t => t.hashu.ready && drbgServes t 0 && drbgServes t 34) = true := by decide +kernel
theorem test_noise_fails : nx (.noiseSampleBlock (List.replicate 1024 true)) { up with hashu.run := 3 } (fun t => t.hashu.failed && decide (t.hashu.fails = 1) && bitOf (t.page 0x0E).cause 1) = true
    ∧ nx (.noiseSampleBlock [true]) up (fun t => decide (t = up)) = true := by decide +kernel

/-! ### The Logbook and the lifecycle -/

/-- MAKER state with the supply present; the argument names region 9, word 1, counter 0 to 3, and tally bit 9. -/
def fuseState : State := { up with life.st := 1, logb.vpp := true, logb.arg := 0x9010062000000000, logb.data := 5, hashu.drbgs := [(0, { st := 1 })] }
theorem test_program : wr fuseState mg 0x10 0x50 = true ∧ (lgRegion fuseState, lgWord fuseState) = (9, 1) ∧ programState fuseState 9 = true ∧ programAllowed fuseState 9 1 5 = true
    ∧ nx (.logbProgram mg 0x1000000000000000) fuseState (fun t => decide (t.logb.running = some { kind := .cmd 1, acc := mg, pulses := wordPulses 9 1 (codeword 5), words := [(9, 1)] })) = true := by decide +kernel
theorem test_reinforce : nx (.logbReinforce mg 0x2000000000000000) { fuseState with logb.sensed := fuseWord 9 1 5 } (fun t => decide (t.logb.running = some { kind := .cmd 2, acc := mg, pulses := wordPulses 9 1 (codeword 5), words := [(9, 1)] })) = true
    ∧ nx (.logbReinforce mg 0x2000000000000000) { fuseState with logb.arg := 0x9500000000000000 } (fun t => decide (t.logb.status = 0x0201)) = true := by decide +kernel
theorem test_locks : lockState fuseState 10 = true ∧ nx (.lockRead mg 0x4000000000000000) { fuseState with logb.arg := 0xA000000000000000, logb.wFuse := [(10, 7)] } (fun t => t.logb.running.isSome) = true
    ∧ nx (.lockRead mg 0x4000000000000000) fuseState (fun t => decide (t.logb.status = 0x0301)) = true
    ∧ nx (.lockRead mg 0x4000000000000000) { fuseState with logb.wFuse := [(9, 7)] } (fun t => decide (t.logb.status = 0x0101)) = true
    ∧ nx (.logbProgram mg 0x1000000000000000) { fuseState with logb.wFuse := [(9, 7)] } (fun t => decide (t.logb.status = 0x0301)) = true
    ∧ nx (.logbProgram mg 0x1000000000000000) { fuseState with logb.running := some { kind := .cmd 1, acc := mg, pulses := [], words := [] } } (no 0x0301) = true := by decide +kernel
/-- Where the digest function gives zeros, the blank event region may be locked: some digest function meets `LOCK_WRITE`'s conditions. -/
theorem test_lock_write (h : ∀ l i, Config.shake256 l i = 0) : lockState fuseState 5 = true ∧ lockWriteOk fuseState 5 = true := by
  refine ⟨by decide +kernel, ?_⟩
  have hd : regionDigest fuseState.logb.sensed 5 = 0 := by
    have hf : Config.shake256 = fun _ _ => 0 := by funext l i; exact h l i
    unfold regionDigest; rw [hf]; decide +kernel
  unfold lockWriteOk digestOk
  rw [hd]; decide +kernel
theorem test_lock_refused : lockWriteOk { fuseState with logb.sensed := [(regBase 5, { loose := 1 })] } 5 = false := by
  unfold lockWriteOk
  rw [show marginalRegion _ 5 = true by decide +kernel]; simp
theorem test_advance_fuse : nx (.advance mg 0x5000000000000000) fuseState (no 0x0401) = true ∧ wr fuseState hm 0x10 0x50 = true ∧ lgTarget fuseState = 3 ∧ counter fuseState (lgCounter fuseState) = 0
    ∧ nx (.advance hm 0x5000000000000000) fuseState (fun t => decide ((t.logb.running.map (·.pulses.length)) = some 6)) = true
    ∧ nx (.logbRevoke hm 0x6000000000000000) { fuseState with logb.arg := 0x0000012000000000 } (fun t => decide ((t.logb.running.map (·.words)) = some [(4, 1)])) = true := by decide +kernel
theorem test_gen_dus : drbgServes fuseState 0 = true ∧ (List.range (regLen 2)).all (fun w => (copiesOf 2 w).all (fun p => decide ((tget {} fuseState.logb.array p).loose = 0))) = true := by decide +kernel

/-- The end of a program: the pulses of codeword 5 are set, and the word reads clean (R433); a word left as it was reads blank. -/
def progState (k : ProgKind) (ps : List Pulse) (ws : List (Nat × Nat)) : State := { fuseState with logb.running := some { kind := k, acc := mg, pulses := ps, words := ws } }
theorem test_prog_end : nx (.logbCmdDone { pulses := 3, misses := [] }) (progState (.cmd 1) (wordPulses 9 1 (codeword 5)) [(9, 1)])
      (fun t => decide (t.logb.status = 0) && decide (t.logb.pulses = 3) && decide ((readWord t.logb.sensed 9 1).value = some 5) && bitOf (t.page 0x10).cause 0) = true
    ∧ nx (.logbCmdDone { pulses := 3, misses := [] }) fuseState (fun t => decide (t = fuseState)) = true := by decide +kernel
theorem test_event_end : nx (.logbCmdDone { pulses := 3, misses := [] }) { progState .event [] [] with life.running := some (.word 3), logb.array := fuseWord 5 1 0xA5C300025A3C0002, logb.sensed := fuseWord 5 1 0xA5C300025A3C0002 }
      (fun t => decide (t.life.pending = 3) && !t.blk.torn) = true
    ∧ nx (.logbCmdDone { pulses := 3, misses := [] }) { progState .event [] [] with life.running := some (.word 3) } (fun t => t.blk.torn && decide (t.life.tornTarget = 3)) = true := by decide +kernel

/-! ### The lifecycle gate -/

def gateState (st : Nat) : State := { fuseState with life.st := st, life.target := 5, life.pw := 3, life.pwLeft := 3, life.argRights := 1 }
theorem test_transition : wr (gateState 1) mg 0x12 0x48 = true ∧ transitionRow (gateState 1) 5 = true ∧ needsGrant (gateState 1) 5 = false
    ∧ nx (.transition mg 0x1000000000000000 none) (gateState 1) (fun t => decide (t.life.running = some (.verdict 5)) && decide (t.life.acc = mg)) = true
    ∧ nx (.transition mg 0x1000000000000000 none) { gateState 1 with logb.vpp := false } (fun t => decide (t.life.stepFailed = 3)) = true
    ∧ transitionRow { gateState 1 with life.target := 4 } 4 = false ∧ nx (.transition mg 0x1000000000000000 none) { gateState 1 with life.target := 4 } (fun t => decide (t.life.stepFailed = 2)) = true := by
  decide +kernel
theorem test_transition_grant : needsGrant { gateState 3 with life.target := 4 } 4 = true ∧ (grantCheck (answer (gateState 3) 0) none 4).fail = some (1, .bounds)
    ∧ nx (.transition mg 0x1000000000000000 none) { gateState 3 with life.target := 4 } (fun t => decide (t.life.status = 0x0201)) = true
    ∧ nx (.transition mg 0x1000000000000000 none) { gateState 1 with life.pending := 2 } (no 0x0301) = true
    ∧ nx (.unlockPw mg 0x3000000000000000) { gateState 1 with life.torn := true, life.tornTarget := 4 } (no 0x0302) = true
    ∧ nx (.transition mg 0x1000000000000000 none) { gateState 1 with life.torn := true, life.tornTarget := 4 } (no 0x0302) = true := by decide +kernel
theorem test_challenge : nx (.lifeChallenge mg 0x2000000000000000) (gateState 3) (fun t => t.life.nonceValid && decide (t.life.status = 0)) = true
    ∧ nx (.lifeChallenge mg 0x2000000000000000) (gateState 1) (fun t => decide (t.life.status = 0x0301)) = true
    ∧ nx (.unlockGrant mg 0x4000000000000000 none) (gateState 3) (fun t => decide (t.life.stepFailed = 1)) = true := by decide +kernel
/-- A stored hash of 1 and the right 0 allowed: the digest of a password meets the right or the wrong case, and each case is some digest's. -/
def pwState : State := { gateState 1 with logb.sensed := fuseWord 10 0 1 ++ fuseWord 10 6 1 }
theorem test_password : storedHash pwState = 1 ∧ unusable pwState pwState.logb.sensed 11 = false ∧ unusable pwState pwState.logb.sensed 10 = false ∧ freePassword pwState = false
    ∧ (pwState.life.argRights &&& (fuse pwState 10 6 % 2 ^ 32)) = pwState.life.argRights ∧ ({ pwState with life.argRights := 2 }.life.argRights &&& (fuse pwState 10 6 % 2 ^ 32)) ≠ 2 := by decide +kernel


/-- A grant of right 0 for the block of serial 1, signed by Maker pair 0: where the signer and the signature hold, the grant does (R457). -/
def grantState : State := { gateState 3 with life.nonceValid := true, logb.sensed := fuseWord 0 3 1, rhmb.mgmt := [(0, wide)] }
def grantBytes : Bytes := slice (ascii "ORPV-DG1" ++ [1] ++ zeros 15 ++ zeros 32 ++ [1, 0, 0, 0, 1, 0, 0, 0]) 0 7616
theorem grantCheck_holds (s : State) (m : Option Bytes) (b : Bytes) (target : Nat) (hr : helmRead (inMgmtWindows s s.life.grantAddr 7616 false) m 7616 = .ok b) (hn : s.life.nonceValid = true)
    (hb : grantBody s b target = none)
    (hs : grantSigner s b (slice b 4864 2752) target = none)
    (hv : hybridVerify (slice b 4864 2752) (slice b 128 4736) (b.take 128) = true) :
    (grantCheck s m target).fail = none ∧ (grantCheck s m target).rights = leAt b 56 4 := by
  unfold grantCheck
  simp [hr, hn, hb, hs, hv]

theorem test_grant (hs : grantSigner (answer grantState 0) (slice grantBytes 0 7616) (slice (slice grantBytes 0 7616) 4864 2752) 0 = none)
    (hv : hybridVerify (slice (slice grantBytes 0 7616) 4864 2752) (slice (slice grantBytes 0 7616) 128 4736) ((slice grantBytes 0 7616).take 128) = true) :
    (grantCheck (answer grantState 0) (some grantBytes) 0).fail = none ∧ (grantCheck (answer grantState 0) (some grantBytes) 0).rights = leAt (slice grantBytes 0 7616) 56 4 := by
  refine grantCheck_holds _ _ _ _ ?_ rfl (by decide +kernel) hs hv
  unfold helmRead; rw [show inMgmtWindows _ _ _ _ = true by decide +kernel]; rfl

/-! ### Helm -/

def helmState (st : Nat) : State := { up with helm.upd := { st := st }, helm.hasRecord := true, helm.arg0 := 0x0100000000008000 }
theorem test_upd_begin : wr up mg 0x02 0x40 = true ∧ sessionOpen (helmState 3) = true ∧ nx (.updBegin mg 0x1000000000000000 noStore) (helmState 3) (fun t => decide (t.helm.status = 0x0301) && decide (t.helm.upd.st = 3)) = true
    ∧ sessionOpen (helmState 0) = false ∧ runningTrial (helmState 0) = false ∧ trialWaits (helmState 0) = false
    ∧ nx (.updBegin mg 0x1000000000000000 noStore) (helmState 0) (fun t => decide (t.helm.upd.st = 1) && t.helm.upd.target && decide (t.helm.record.seq = 1) && t.helm.copy) = true := by decide +kernel
theorem test_upd_refused : nx (.updBlock mg 0x2000000000000000 noStore) (helmState 3) (fun t => decide (t.helm.status = 0x0301)) = true
    ∧ nx (.updFinish mg 0x3000000000000000 noStore) (helmState 0) (fun t => decide (t.helm.status = 0x0301) && decide (t.helm.op = 3)) = true
    ∧ nx (.updAbort mg 0x4000000000000000) (helmState 1) (fun t => decide (t.helm.upd.st = 4)) = true ∧ nx (.updAbort mg 0x4000000000000000) (helmState 4) (fun t => decide (t.helm.status = 0x0301)) = true
    ∧ finishFailure (helmState 1) (zeros 64) = some (1, .badFormat) := by decide +kernel
/-- Whatever the staged unit's CRC-32C is, some argument has it and another does not. -/
theorem test_unit_crc (n : Nat) (h : n < 2 ^ 32) : n = haCrc { up with helm.arg0 := BitVec.ofNat 64 (n * 2 ^ 24) } ∧ n ≠ haCrc { up with helm.arg0 := BitVec.ofNat 64 ((n + 1) % 2 ^ 32 * 2 ^ 24) } := by
  simp only [haCrc, fld, BitVec.toNat_ofNat]; omega
/-- A session ends a second after its last unit. -/
theorem test_upd_timeout : nx (.updSessionTimeout 1000000) (helmState 1) (fun t => decide (t.helm.upd.st = 4)) = true ∧ nx (.updSessionTimeout 999999) (helmState 1) (fun t => decide (t.helm.upd.st = 1)) = true := by decide +kernel
theorem test_staging : wr up mg 0x03 0x48 = true ∧ rd up mg 0x03 0x48 = true
    ∧ nx (.helmStageDataAccess mg true 7) { up with helm.stagePtr := 511 } (fun t => decide (tget 0 t.helm.staging 511 = 7) && decide (t.helm.stagePtr = 0)) = true
    ∧ nx (.helmStageDataAccess mg false 0) { up with helm.staging := [(0, 9)] } (fun t => decide (t.bus.resp.rdata = 9) && decide (t.helm.stagePtr = 1)) = true := by decide +kernel

/-- A unit of the ring from rank 6: unit 5 of 10, and a session of it. -/
def ringState : State := { fabState.setPipe 0 { st := .bound, bind := 3, kc := [(0, { valid := true, use := 4, sel := 7 })] } with helm.ringAccept := true, helm.ringSrc := 6, helm.upd := { st := 1, ring := true } }
def unitPlain : Bytes := leBytes 8 (10 * 2 ^ 55 + 5 * 2 ^ 47) ++ zeros 4104
theorem test_ring_opens : FrameOpens ringState (sealedOn 0 0 (aHdr 7 0 4112 0 0) unitPlain) 0 unitPlain ∧ fld (BitVec.ofNat 64 (leAt unitPlain 0 8)) 63 55 = 10
    ∧ fld (BitVec.ofNat 64 (leAt unitPlain 0 8)) 54 47 = 5 ∧ sessionOpen ringState = true ∧ sessionOpen { ringState with helm.upd := { st := 3, bundle := 5 } } = true ∧ popCount 256 (setBit ringState.helm.upd.map 5) ≠ 10 :=
  ⟨sealed_opens _ _ _ 0 (by decide +kernel), by decide +kernel⟩

def slotState (st : Nat) : State := { up with helm.hasRecord := true, helm.record.b := { st := st }, helm.arg0 := 0x0000000000008000 }
theorem test_activate_cmd : targetSlot (slotState 1) = true ∧ haWdog (slotState 1) = 2
    ∧ nx (.activate mg 0x5000000000000000 noStore noBoot) (slotState 1) (fun t => decide (t.helm.record.b.st = 2) && decide (t.helm.record.b.wdog = 2) && decide (t.helm.status = 0)) = true
    ∧ nx (.activate mg 0x5000000000000000 noStore noBoot) (slotState 3) (fun t => decide (t.helm.status = 0x0101)) = true
    ∧ nx (.activate mg 0x5000000000000000 noStore noBoot) { slotState 1 with helm.arg0 := 0x0000000000004000 } (fun t => decide (t.helm.status = 0x0101)) = true := by decide +kernel
def trialState : State := { up with helm.hasRecord := true, helm.trial := true, helm.slot := true, helm.record.b := { st := 2 }, helm.record.a := { st := 3 }, helm.wdog := some 5000000 }
theorem test_confirm_slot : runningTrial trialState = true ∧ nx (.helmConfirm mg 0x6000000000000000 noStore) trialState
      (fun t => t.helm.record.active && decide (t.helm.record.b.st = 3) && decide (t.helm.record.a.st = 1) && decide (t.helm.wdog = none)) = true
    ∧ nx (.helmConfirm mg 0x6000000000000000 noStore) { trialState with mrd.wall := 5000000 } (fun t => decide (t.helm.status = 0x0301)) = true
    ∧ nx (.helmConfirm mg 0x6000000000000000 noStore) { trialState with blk.recovery := true } (no 0x0301) = true := by decide +kernel
/-- With the counters where they are to go and nothing running a `CONFIRM` ends at once; while a program runs it waits, and further commands are refused. -/
def confirmState : State := { trialState with life.st := 3, logb.vpp := true, helm.wdog := some 5000000 }
theorem test_confirm_ends : startChecks confirmState = true ∧ tallyReady confirmState = true ∧ confirmState.helm.setPending = false ∧ confirmState.helm.fw ≤ counter confirmState 0
    ∧ startChecks { confirmState with helm.copyFault := true } = false
    ∧ nx (.helmConfirm mg 0x6000000000000000 noStore) confirmState (fun t => decide (t.helm.status = 0) && decide (t.helm.op = 6) && decide (t.helm.confirming = none)) = true
    ∧ nx (.helmConfirm mg 0x6000000000000000 noStore) { confirmState with helm.copyFault := true } (fun t => decide (t.helm.status = 0x0301)) = true := by decide +kernel
def confirmWaits : State := { confirmState with logb.running := some { kind := .cmd 1, acc := mg, pulses := [], words := [] } }
theorem test_confirm_waits : nx (.helmConfirm mg 0x6000000000000000 noStore) confirmWaits (fun t => t.helm.confirming.isSome && pageBusy t mg 0x02 && decide (t.logb.queue.length = 3)) = true
    ∧ nx (.updAbort mg 0x4000000000000000) { up with helm.confirming := some mg } (no 0x0301) = true := by decide +kernel
theorem test_watchdog : nx (.trialWatchdogExpire 4999999 noBoot) trialState (fun t => decide (t.helm.wdog = some 5000000)) = true
    ∧ nx (.trialWatchdogExpire 5000000 noBoot) { trialState with hashu.ready := true } (fun t => decide (t.blk.resetCause = 8) && decide (t.helm.wdog = none)) = true := by decide +kernel
/-- An Integrator's revocation of a Maker key is not its to ask (R481 step 3). -/
def makerRevoke : Bytes := slice (ascii "ORPV-RV1" ++ zeros 16 ++ [1, 3, 2, 0] ++ zeros 36) 0 7552
theorem test_revoke_signer : revokeForm fuseState makerRevoke = true ∧ leAt makerRevoke 24 1 = 1 ∧ leAt makerRevoke 26 1 = 2
    ∧ nx (.helmRevoke mg 0x7000000000000000 (some makerRevoke)) { fuseState with rhmb.mgmt := [(0, wide)] } (fun t => decide (t.helm.status = 0x0404) && decide (t.helm.stepFailed = 3)) = true := by decide +kernel
theorem test_helm_fails : nx (.helmRevoke mg 0x7000000000000000 none) up (fun t => decide (t.helm.status = 0x0201) && decide (t.helm.stepFailed = 1)) = true
    ∧ inMgmtWindows { up with rhmb.mgmt := [(0, wide)] } 0 7552 false = true ∧ revokeForm up (slice [] 0 7552) = false
    ∧ nx (.forward mg 0x8000000000000000 noStore) up (fun t => decide (t.helm.status = 0x0301)) = true
    ∧ nx (.verifyHost mg 0xA000000000000000 none none) up (fun t => decide (t.helm.status = 0x0201)) = true := by decide +kernel
/-- A revocation of Integrator key 3 signed by Integrator key 0 has its form and may be done; an image of index 2 has its form (R481, R488). -/
theorem test_forms : revokeForm fuseState (ascii "ORPV-RV1" ++ zeros 16 ++ [2, 3, 2, 0] ++ zeros 36) = true ∧ revokeAllowed fuseState 2 3 = true
    ∧ hostForm up (ascii "ORPV-HI1" ++ zeros 16 ++ [2, 1, 0] ++ zeros 101) = true ∧ inMgmtWindows { up with rhmb.mgmt := [(0, wide)] } 0 7632 false = true := by decide +kernel
theorem test_forward : fabricReady (noteFabric { fabState with helm.upd := { st := 3, map := 6 } }) 7 (haPorts { fabState with helm.arg0 := 0x40 }) = true := by decide +kernel
theorem test_settings : haUnit up = 0 ∧ setCount (stagingBytes up) = 0 ∧ setLen (stagingBytes up) ≤ (stagingBytes up).length := by decide +kernel

/-! ### The responder and the measurements -/

def mailState (conn : Nat) : State :=
  { up with rhmb.mgmt := [(3, { wide with base := 0x1000, limit := 0x9000 })], rhmb.sems := [(31, { value := 1 })], spdm.conn := conn, spdm.aliasEc := [1]
            hashu.drbgs := [(0, { st := 1 }), (34, { st := 1 })], chrt.slots := [(1, { st := .active })] }
/-- A request: its length and sequence number 5 in the head, secured or not. -/
def req (secured : Nat) (b : Bytes) : Bytes := leBytes 4 b.length ++ leBytes 4 5 ++ leBytes 1 secured ++ zeros 7 ++ b
theorem test_mail : mailOpen (mailState 0) = some 0x1000 ∧ mailOpen up = none ∧ nx (.getVersion (req 0 [0x10, 0x84, 0, 0])) up (fun t => decide (t = up)) = true
    ∧ headOk (req 2 []) = false ∧ nx (.getVersion (req 2 [])) (mailState 0) (fun t => decide (t.out = [.mem 0x5000 (zeros 4 ++ [5] ++ zeros 11)])) = true := by decide +kernel
/-- While a boundary runs, with PD18 off, or while the block is held the mailbox waits (R510, R512; log 162). -/
theorem test_mail_waits : mailOpen { mailState 0 with mrd.running := some 0 } = none ∧ mailOpen { mailState 0 with blk.held := true } = none
    ∧ mailOpen { mailState 0 with pwr.live := clrBit 0xFFFFF 18 } = none := by decide +kernel
/-- An answer past 16,368 bytes becomes `ResponseTooLarge` (log 163). -/
theorem test_fitted : fitted id (errorMsg 1 0) = errorMsg 1 0 ∧ fitted id (zeros 16369) = [0x12, 0x7F, 0x0D, 0] := by decide +kernel
theorem test_version : headOk (req 0 [0x10, 0x84, 0, 0]) = true ∧ nx (.getVersion (req 0 [0x10, 0x84, 0, 0])) (mailState 3) (fun t => decide (t.spdm.conn = 1) && decide ((tget {} t.rhmb.sems 30 : Sem).value = 1)
      && decide ((tget {} t.rhmb.sems 31 : Sem).value = 0)) = true := by decide +kernel
theorem test_capabilities : nx (.getCapabilities (req 0 ([0x12, 0xE1] ++ zeros 18))) (mailState 1) (fun t => decide (t.spdm.conn = 2)) = true
    ∧ nx (.getCapabilities (req 0 ([0x12, 0xE1] ++ zeros 18))) (mailState 0) (fun t => decide (t.out = [.mem 0x5000 (leBytes 4 4 ++ leBytes 4 5 ++ zeros 8 ++ [0x12, 0x7F, 4, 0])])) = true := by decide +kernel
def algReq : Bytes := [0x12, 0xE3, 0, 0, 32, 0, 1, 0, 0x80, 0, 0, 0, 2] ++ zeros 19
theorem test_algorithms : algStructs 0 (algReq.drop 32) = some [] ∧ nx (.negotiateAlgorithms (req 0 algReq)) (mailState 2) (fun t => decide (t.spdm.conn = 3) && !t.spdm.dhe) = true := by decide +kernel
/-- A certificate area of a root (kind 1, depth 0) and a device certificate (kind 3) gives a chain (R501). -/
theorem test_chain (area root dev : Bytes) (h : areaEntries area = some [{ kind := 1, depth := 0, der := root }, { kind := 3, depth := 0, der := dev }]) : (chainOf (mailState 3) (some area)).isSome = true := by
  unfold chainOf
  simp only [Option.bind_some, h]
  rfl
theorem test_digests : chainOf (mailState 3) none = none ∧ nx (.getDigests (req 0 [0x12, 0x81, 0, 0]) none) (mailState 3) (fun t => decide (t.out = [.mem 0x5000 (leBytes 4 4 ++ leBytes 4 5 ++ zeros 8 ++ [0x12, 1, 0, 0])])) = true
    ∧ (slotKey (mailState 3) 1).isSome = true ∧ (mailState 3).hashu.failed = false := by decide +kernel
theorem test_measurements : nx (.getMeasurements ⟨req 0 [0x12, 0xE0, 0, 24], none⟩) (mailState 3) (fun t => decide (t.out.length = 1) && decide (t.spdm.conn = 3)) = true
    ∧ nx (.getMeasurements ⟨req 0 [0x12, 0xE0, 0, 25], none⟩) (mailState 3) (fun t => decide (t.out = [.mem 0x5000 (leBytes 4 4 ++ leBytes 4 5 ++ zeros 8 ++ [0x12, 0x7F, 1, 0])])) = true := by decide +kernel
/-- The base point of P-384 is a point a key exchange may bring; without a session `FINISH` is out of order. -/
theorem test_exchange : (pointOf (4 :: (beBytes 48 p384.gx ++ beBytes 48 p384.gy))).isSome = true ∧ supported 0xE6 = false
    ∧ nx (.unsupportedRequest (req 0 [0x12, 0xE6, 0, 0])) (mailState 0) (fun t => decide (t.out = [.mem 0x5000 (leBytes 4 4 ++ leBytes 4 5 ++ zeros 8 ++ [0x12, 0x7F, 7, 0xE6])])) = true
    ∧ nx (.finish (req 0 [0x12, 0xE5, 0, 0])) (mailState 3) (fun t => decide (t.out = [.mem 0x5000 (leBytes 4 4 ++ leBytes 4 5 ++ zeros 8 ++ [0x12, 0x7F, 4, 0])])) = true := by decide +kernel
/-- An open session with its keys; what the record layer opens a message to is the standard's. -/
def sessState (fin : Bool) : State :=
  { mailState 3 with spdm := { conn := 3, s0 := { isOpen := true, id := 0x10007, finished := fin } }
                     chrt.slots := [(4, { st := .active }), (5, { st := .active }), (6, { st := .active }), (7, { st := .active })] }
theorem test_session : mailOpen (sessState true) = some 0x1000 ∧ headOk (req 1 (leBytes 4 0x10007 ++ zeros 40)) = true ∧ sessById (sessState true) 0x10007 = some 0
    ∧ sessKey (sessState true) 0 false = some 0 ∧ sessKey (sessState true) 0 true = some 0 ∧ sessKey (sessState false) 0 false = some 0 ∧ sessKey (sessState false) 0 true = some 0 := by decide +kernel
theorem test_extend : wr up mg 0x15 0x40 = true ∧ fld (0x1B80000000000000 : Word) 59 55 = 23
    ∧ nx (.extend mg 0x1B80000000000000) up (fun t => decide (t.meas.status = 0)) = true ∧ nx (.extend mg 0x1C00000000000000) up (fun t => decide (t.meas.status = 0x0101)) = true
    ∧ nx (.extend mg 0x1380000000000000) up (fun t => decide (t.meas.status = 0x0301)) = true
    ∧ nx (.extend mg 0x1400000000000000) up (fun t => decide (t.meas.status = 0x0401)) = true := by decide +kernel

/-! ### Power, pins, verdicts, resets -/

/-- A block with a domain off. -/
def offState (d : Nat) : State := { up with pwr.live := clrBit 0xFFFFF d, pwr.req := clrBit 0xFFFFF d, pwr.ack := clrBit 0xFFFFF d }
theorem test_on : wr up mg 0xC0 0x48 = true ∧ nx (.pwrOn mg 0x1180000000000000) (offState 3) (fun t => decide (t.pwr.running = some (true, 3)) && decide (t.pwr.rising = 8)) = true
    ∧ nx (.pwrOn mg 0x1000000000000000) up (fun t => decide (t.pwr.status = 0x0101)) = true ∧ nx (.pwrOn mg 0x1980000000000000) up (fun t => decide (t.pwr.status = 0) && decide (t.pwr.domain = 19)) = true
    ∧ nx (.pwrOn mg 0x1180000000000000) { up with pwr.running := some (true, 4) } (no 0x0301) = true := by decide +kernel
theorem test_off : domainNeeded up 3 = false ∧ domainBusy up 3 = false
    ∧ nx (.pwrOff mg 0x2180000000000000) { up with astr.mem := [(0, 5)] } (fun t => decide (t.pwr.running = some (false, 3)) && decide (t.astr = {}) && !domLive t 3) = true
    ∧ nx (.pwrOff mg 0x2200000000000000) up (fun t => decide (t.pwr.status = 0x0101)) = true
    ∧ nx (.pwrOff mg 0x2180000000000000) (astrState .running) (fun t => decide (t.pwr.status = 0x0301)) = true := by decide +kernel
theorem test_sleep : sleepRefusal up = some .wrongState ∧ sleepRefusal { up with hashu.drbgs := [(0, { st := 1 })] } = none
    ∧ nx (.pwrSleep mg 0x3000000000000000) { up with hashu.drbgs := [(0, { st := 1 })], mrd.step := 9 } (fun t => t.pwr.asleep && decide (t.pwr.live = 1) && decide (t.mrd.step = 9)) = true
    ∧ nx (.pwrSleep mg 0x3000000000000000) up (fun t => decide (t.pwr.status = 0x0301)) = true := by decide +kernel
/-- With a debug right open no slot is retained (R452). -/
theorem test_sleep_rights : nx (.pwrSleep mg 0x3000000000000000) { up with hashu.drbgs := [(0, { st := 1 })], life.rights := 1, chrt.slots := [(160, { st := .active })] }
      (fun t => t.pwr.asleep && decide (t.chrt.slots = [])) = true := by decide +kernel
/-- A rise after 51 µs is slow (R528); a fall ends an `OFF`. -/
theorem test_ack : nx (.pwrAckRise 3 51) { offState 3 with pwr.rising := 8, pwr.running := some (true, 3) } (fun t => domLive t 3 && decide (t.pwr.running = none) && bitOf (t.page 0xC0).cause 2 && bitOf (t.page 0xC0).cause 0) = true
    ∧ nx (.pwrAckRise 3 9) up (fun t => decide (t = up)) = true
    ∧ nx (.pwrAckFall 3) { offState 3 with pwr.ack := 8, pwr.running := some (false, 3) } (fun t => decide (t.pwr.ack = 0) && bitOf (t.page 0xC0).cause 0) = true
    ∧ nx (.pwrAckFall 3) up (fun t => decide (t = up)) = true := by decide +kernel
/-- A request made while the acknowledge of an earlier service is high waits for its fall (R528). -/
theorem test_on_again : nx (.pwrOn mg 0x1180000000000000) { offState 3 with pwr.ack := 8 } (fun t => t.pwr.again.testBit 3 && !t.pwr.req.testBit 3) = true
    ∧ nx (.pwrAckFall 3) { offState 3 with pwr.ack := 8, pwr.again := 8, pwr.running := some (true, 3) } (fun t => t.pwr.req.testBit 3 && t.pwr.rising.testBit 3 && decide (t.pwr.again = 0) && t.pwr.running.isSome) = true
    ∧ nx (.pwrOff mg 0x2200000000000000) up (fun t => decide (t.pwr.status = 0x0101)) = true ∧ alwaysOn 4 = true ∧ domainNeeded up 4 = false ∧ domainBusy up 4 = false := by decide +kernel
/-- A retired pipe loses its cache with its power and stays retired (R529). -/
theorem test_off_retired : nx (.pwrOff mg 0x2500000000000000) (up.setPipe 5 { st := .retired, kc := keyed }) (fun t => decide (t.pipe 5 = { st := .retired })) = true := by decide +kernel
theorem test_loss : nx (.powerLoss 19) up (fun t => t.blk.held && decide (t.pwr.live = 1) && !t.pins.stationLive) = true
    ∧ nx (.powerLoss 3) up (fun t => !t.blk.held && !domLive t 3 && decide (t.pwr.lost = 8)) = true
    ∧ nx (.powerLoss 12) (up.setPipe 7 { st := .bound, bind := 1, buf := [] }) (fun t => decide ((t.pipe 7).st = .offline)) = true
    ∧ nx (.powerLoss 0) up (fun t => decide (t = up)) = true := by decide +kernel
theorem test_wake : nx (.wakeReq noBoot) { up with pwr.asleep := true, pwr.live := 1 } (fun t => !t.pwr.asleep && domLive t 18 && t.helm.boot.isSome) = true ∧ nx (.wakeReq noBoot) up (fun t => decide (t = up)) = true := by decide +kernel

/-- Verdicts: path A's code waits, the complement opens or denies, anything else is a counted fault (R11 to R14). -/
def gated (x : Option Nat) : State := { up with verdict.lifecycle := x, life.running := some (.verdict 3), logb.vpp := true }
theorem test_verdict : helmRuns up = true ∧ nx (.verdictWrite .lifecycle false 0x69D22D96 0) (gated none) (fun t => decide (t.verdict.lifecycle = some 0x69D22D96)) = true
    ∧ nx (.verdictWrite .lifecycle true 0x962DD269 65536) (gated (some 0x69D22D96)) (fun t => decide (t.life.running = some (.word 3)) && t.logb.running.isSome) = true
    ∧ nx (.verdictWrite .lifecycle true 0x962DD269 65537) (gated (some 0x69D22D96)) (fun t => decide (t.verdict.faults = 1) && decide (t.life.stepFailed = 5)) = true
    ∧ nx (.verdictWrite .lifecycle true 0x962DD268 0) (gated (some 0x69D22D97)) (fun t => decide (t.life.stepFailed = 5) && decide (t.verdict.faults = 0)) = true
    ∧ nx (.verdictWindowExpire .boot) { up with verdict.boot := some 1 } (fun t => t.blk.recovery && decide (t.verdict.faults = 1)) = true := by decide +kernel
/-- A second word of path A while the first stands is judged at once (log 153); a held block takes no word. -/
theorem test_verdict_again : nx (.verdictWrite .lifecycle false 0x69D22D96 0) (gated (some 0x69D22D96)) (fun t => decide (t.verdict.lifecycle = none) && decide (t.verdict.faults = 1) && decide (t.life.stepFailed = 5)) = true
    ∧ nx (.verdictWindowExpire .lifecycle) (gated (some 5)) (fun t => decide (t.verdict.faults = 1)) = true ∧ programRuns up = false
    ∧ nx (.verdictWrite .lifecycle false 1 0) { gated none with clkr.secLock := false } (fun t => decide (t.verdict.lifecycle = none)) = true := by decide +kernel
theorem test_verdict_key : nx (.verdictWrite .keyRelease true 0xA50FF05A 0) { delState (some { aDelivery with sent := false }) with verdict.keyRelease := some 0x5AF00FA5 }
      (fun t => decide (t.verdict.keyRelease = none)) = true
    ∧ verdictReg { up with verdict.keyRelease := some 0x5AF00FA5 } .keyRelease = some 0x5AF00FA5
    ∧ nx (.verdictWrite .boot true 0xC35AA53C 0) { up with verdict.boot := some 0x3CA55AC3 } (fun t => decide (t.verdict.boot = none) && !t.blk.recovery) = true
    ∧ nx (.verdictWrite .boot false 5 0) { up with blk.held := true } (fun t => decide (t.verdict.boot = none)) = true
    ∧ nx (.verdictWrite .keyRelease true 0 0) up (fun t => decide (t.verdict.faults = 1)) = true := by decide +kernel
/-- A swapped pair is a verdict fault: A holds B's accept code, B holds A's (R12). -/
theorem test_verdict_swapped : verdictReg (gated (some 0x962DD269)) .lifecycle = some 0x962DD269 ∧ 0x962DD269 + 0x69D22D96 = 0xFFFFFFFF ∧ acceptCode .lifecycle = 0x69D22D96
    ∧ nx (.verdictWrite .lifecycle true 0x69D22D96 0) (gated (some 0x962DD269)) (fun t => decide (t.verdict.faults = 1) && decide (t.life.stepFailed = 5)) = true := by decide +kernel
theorem test_loops : nx (.loopLockLoss false) up (fun t => !t.clkr.secLock && t.clkr.arithLock && decide (t.clkr.losses = 1) && bitOf (t.page 0xC1).cause 1) = true
    ∧ admittedAll up = [] ∧ nx (.loopLockLoss true) up (fun t => !t.clkr.arithLock && bitOf (t.page 0xC1).cause 0) = true
    ∧ nx (.loopLockLoss true) { up with pwr.asleep := true } (fun t => t.clkr.arithLock) = true
    ∧ nx (.loopLockRegain true) { up with clkr.arithLock := false } (fun t => t.clkr.arithLock && !t.pins.stationLive) = true
    ∧ nx (.portRange 999) { up with clkr.portMhz := 1000 } (fun t => bitOf (t.page 0xC1).cause 2 && decide (t.clkr.portMhz = 999)) = true
    ∧ nx (.portRange 1600) up (fun t => decide (t.clkr.portMhz = 1600) && !bitOf (t.page 0xC1).cause 2) = true := by decide +kernel
/-- The return of a lock, of a block in service and of one in reset (R25). -/
def unlocked (arith : Bool) : State := { up with clkr.arithLock := !arith, clkr.secLock := arith, astr.st := .ready }
theorem test_regain : inReset up = false ∧ liveCond up = false ∧ nx (.loopLockRegain false) (unlocked false) (fun t => decide (t = { up with astr.st := .ready })) = true
    ∧ nx (.loopLockRegain true) (unlocked true) (fun t => decide (t = { up with astr.st := .ready })) = true
    ∧ inReset { up with blk.held := true } = true ∧ nx (.loopLockRegain true) { unlocked true with blk.held := true } (fun t => t.clkr.arithLock) = true
    ∧ nx (.loopLockRegain true) { up with pwr.asleep := true, clkr.arithLock := false } (fun t => !t.clkr.arithLock) = true := by decide +kernel
theorem test_vpp : nx (.vppChange true noCut) up (fun t => t.logb.vpp) = true ∧ nx (.vppChange false noCut) up (fun t => decide (t = up)) = true
    ∧ nx (.vppChange false noCut) (progState (.cmd 1) (wordPulses 9 1 1) [(9, 1)]) (fun t => !t.logb.vpp && decide (t.logb.running.map (·.pulses) = some [])) = true := by decide +kernel
def liftState : State := { up with logb.hold := true, life.st := 1, blk.held := true }
theorem test_lift : (lifeDecide liftState.logb.sensed).hold = false ∧ regionFails liftState liftState.logb.sensed 5 = false
    ∧ nx (.tapLiftHold true noBoot) liftState (fun t => t.logb.lifted) = true ∧ nx (.tapLiftHold false noBoot) liftState (fun t => !t.logb.lifted && decide (t.life.tapIr = 0x11)) = true
    ∧ nx (.tapLiftHold true noBoot) up (fun t => !t.logb.lifted && decide (tapNow t = .bypass)) = true
    ∧ nx (.tapLiftHold true noBoot) { liftState with clkr.secLock := false } (fun t => t.logb.lifted && t.helm.boot.isSome && !t.blk.held) = true
    ∧ nx (.tapMbox 5) up (fun t => decide (t.life.mboxIn = 5) && decide (t.out = [.tap up.life.mboxOut])) = true
    ∧ nx (.tapMbox 5) { up with blk.held := true } (fun t => decide (t.life.mboxIn = up.life.mboxIn) && decide (t.life.tapIr = 0x12) && decide (t.out = [])) = true := by decide +kernel

/-! ### Resets and the invariant -/

theorem test_soft_reset : wr up mg 0x00 0x60 = true ∧ nx (.blkSoftReset mg 0xA4 noBoot) up (no 0x0101) = true
    ∧ nx (.blkSoftReset mg 0xA5 noBoot) { up with mrd.step := 7, bus.pages := [(5, { lock := true, err := { valid := true } })], parts := [(2, { st := .owned, owners := 3 })] }
        (fun t => decide (t.blk.resetCause = 2) && decide (t.mrd.step = 7) && (t.page 5).lock && !(t.page 5).err.valid && decide ((t.part 2).owners = 3)) = true := by decide +kernel
theorem test_tamper : nx (.tamperAssert noCut) { up with chrt.slots := [(3, { st := .active })] } (fun t => t.blk.tamper && decide (t.slot 3 = {}) && t.pins.kdpZeroise) = true
    ∧ nx (.tamperRelease noBoot) { up with blk.tamper := true, parts := [(2, { st := .owned })] } (fun t => !t.blk.tamper && decide (t.blk.resetCause = 4) && decide ((t.part 2).st = .free)) = true
    ∧ nx (.tamperRelease noBoot) up (fun t => decide (t = up)) = true := by decide +kernel
/-- Legal states: after reset, in service, and at the bounds of the invariant. -/
theorem test_legal : Legal State.reset ∧ Legal up ∧ Legal { up with blk.profile := 3, pins.bootBase := 2 ^ 32 - 1, life.st := 5, mrd.wall := 2 ^ 64 - 1, bus.pages := [(5, { lock := true })] } := by
  unfold Legal; decide +kernel
/-- A page in canonical form lists no page at its reset value. -/
theorem test_not_legal : ¬ Legal { up with bus.pages := [(5, {})] } ∧ ¬ Legal { up with life.st := 6 } := by
  unfold Legal; decide +kernel
/-- A programmed bit of a state with a program that adds another stays; a locked page stays locked under a partition's access (R51). -/
theorem test_bits_stay : ((tget {} (progState (.cmd 1) (wordPulses 9 1 2) []).logb.array 0x142 : PhysWord).loose.testBit 0) = false
    ∧ isMgmt (tg 2) = false ∧ nx (.pageLockWrite (tg 2) 0x60 0) { up with bus.pages := [(0x60, { lock := true })] } (fun t => (t.page 0x60).lock) = true
    ∧ nx (.pageLockWrite mg 0x60 1) up (fun t => (t.page 0x60).lock) = true := by decide +kernel

end Sys2Proof.Tests
end

section
/-! What the invariants of the state read, and the relation that every command but `PORST` keeps: the straps, the queue, the form of the
pages and of the fuse array, the locks of the pages, and every fuse that is programmed. -/

namespace Sys2Proof.Machine

/-- No step loses what the invariants speak of: the straps and the queue stand, locks and programmed fuses stay, and a code or a table that
was well formed still is. -/
structure Keeps (s t : State) : Prop where
  pending : t.pending = s.pending
  profile : t.blk.profile = s.blk.profile
  bootBase : t.pins.bootBase = s.pins.bootBase
  lifeSt : s.life.st ≤ 5 → t.life.st ≤ 5
  wall : s.mrd.wall < 2 ^ 64 → t.mrd.wall < 2 ^ 64
  pages : tableWf {} s.bus.pages = true → tableWf {} t.bus.pages = true ∧ ∀ q, (s.page q).lock = true → (t.page q).lock = true
  array : tableWf {} s.logb.array = true → tableWf {} t.logb.array = true
  fuses : ∀ ph b, ((tget {} s.logb.array ph).loose.testBit b = true → (tget {} t.logb.array ph).loose.testBit b = true)
    ∧ ((tget {} s.logb.array ph).nominal.testBit b = true → (tget {} t.logb.array ph).nominal.testBit b = true)
    ∧ ((tget {} s.logb.array ph).strict.testBit b = true → (tget {} t.logb.array ph).strict.testBit b = true)
  wLocks : ∀ r e, (tget 0 s.logb.wFuse r).testBit e = true → (tget 0 t.logb.wFuse r).testBit e = true
  rLocks : ∀ r e, (tget 0 s.logb.rFuse r).testBit e = true → (tget 0 t.logb.rFuse r).testBit e = true

theorem Keeps.refl (s : State) : Keeps s s :=
  ⟨rfl, rfl, rfl, id, id, fun h => ⟨h, fun _ => id⟩, id, fun _ _ => ⟨id, id, id⟩, fun _ _ => id, fun _ _ => id⟩

theorem Keeps.trans {s t u : State} (h : Keeps s t) (k : Keeps t u) : Keeps s u where
  pending := k.pending.trans h.pending
  profile := k.profile.trans h.profile
  bootBase := k.bootBase.trans h.bootBase
  lifeSt := k.lifeSt ∘ h.lifeSt
  wall := k.wall ∘ h.wall
  pages := fun w => ⟨(k.pages (h.pages w).1).1, fun q l => (k.pages (h.pages w).1).2 q ((h.pages w).2 q l)⟩
  array := k.array ∘ h.array
  fuses := fun ph b =>
    have ⟨h1, h2, h3⟩ := h.fuses ph b
    have ⟨k1, k2, k3⟩ := k.fuses ph b
    ⟨k1 ∘ h1, k2 ∘ h2, k3 ∘ h3⟩
  wLocks := fun r e => k.wLocks r e ∘ h.wLocks r e
  rLocks := fun r e => k.rLocks r e ∘ h.rLocks r e

/-- A change of parts of the state of which the relation reads nothing. -/
theorem Keeps.frame {s u : State} {clkr pwr verdict retained lark phlx grp park aster zin snd keyClock parts chrt hashu astr rhmb helm meas spdm
    free out} (h : Keeps s u) :
    Keeps s { u with
      clkr := clkr, pwr := pwr, verdict := verdict, retained := retained, lark := lark, phlx := phlx, grp := grp, park := park, aster := aster
      zin := zin, snd := snd, keyClock := keyClock, parts := parts, chrt := chrt, hashu := hashu, astr := astr, rhmb := rhmb, helm := helm
      meas := meas, spdm := spdm, free := free, out := out } :=
  ⟨h.pending, h.profile, h.bootBase, h.lifeSt, h.wall, h.pages, h.array, h.fuses, h.wLocks, h.rLocks⟩

/-- A change of any field that the relation does not read. -/
theorem Keeps.within {s u t : State} (h : Keeps s u) (h0 : t.pending = u.pending := by rfl) (h1 : t.blk.profile = u.blk.profile := by rfl)
    (h2 : t.pins.bootBase = u.pins.bootBase := by rfl) (h3 : t.life.st = u.life.st := by rfl) (h4 : t.mrd.wall = u.mrd.wall := by rfl)
    (h5 : t.bus.pages = u.bus.pages := by rfl)
    (h6 : t.logb.array = u.logb.array ∧ t.logb.wFuse = u.logb.wFuse ∧ t.logb.rFuse = u.logb.rFuse := by exact ⟨rfl, rfl, rfl⟩) : Keeps s t := by
  obtain ⟨ha, hw, hr⟩ := h6
  refine h.trans ⟨h0, h1, h2, fun x => h3 ▸ x, fun x => h4 ▸ x, fun x => ⟨h5 ▸ x, fun q => ?_⟩, fun x => ha ▸ x, ?_, ?_, ?_⟩
  · simp only [State.page, h5]
    exact id
  · intro ph b
    simp only [ha]
    exact ⟨id, id, id⟩
  · intro r e
    simp only [hw]
    exact id
  · intro r e
    simp only [hr]
    exact id

theorem ite_keeps {s a b c} [Decidable c] (ha : Keeps s a) (hb : Keeps s b) : Keeps s (if c then a else b) := by
  split
  · exact ha
  · exact hb

theorem foldl_keeps {α : Type} {s u : State} {f : State → α → State} {l : List α} (hf : ∀ x a, Keeps s x → Keeps s (f x a)) (h : Keeps s u) :
    Keeps s (l.foldl f u) := by
  induction l generalizing u with
  | nil => exact h
  | cons a l ih => exact ih (hf u a h)

theorem keeps_snd {α : Type} {s t : State} {a : α} {x : α × State} (h : Keeps s x.2) (e : x = (a, t)) : Keeps s t := by
  subst e
  exact h

theorem keeps_fst {α : Type} {s t : State} {a : α} {x : State × α} (h : Keeps s x.1) (e : x = (t, a)) : Keeps s t := by
  subst e
  exact h

theorem keeps_of_ite_none {s x t : State} {c : Prop} [Decidable c] (h : Keeps s x) (e : (if c then none else some x) = some t) : Keeps s t := by
  split at e
  · cases e
  · exact Option.some.inj e ▸ h

/-- A page is written, and its lock stays where it was set. -/
theorem setPage_keeps {s u p v} (hl : (u.page p).lock = true → v.lock = true) (h : Keeps s u) : Keeps s (u.setPage p v) := by
  refine h.trans ⟨rfl, rfl, rfl, id, id, fun w => ⟨tset_wf _ _ _ _ w, fun q hq => ?_⟩, id, fun _ _ => ⟨id, id, id⟩, fun _ _ => id, fun _ _ => id⟩
  rw [State.setPage_page_eq]
  split
  · next e => exact hl (e ▸ hq)
  · exact hq

/-- A command that goes on keeps the relation. -/
def KeepsNext (s : State) (o : Host.Outcome State Fault Refusal) : Prop := ∀ t, o = .next t → Keeps s t

theorem KeepsNext.next {s t : State} (h : Keeps s t) : KeepsNext s (.next t) := fun _ e => Host.Outcome.next.inj e ▸ h

theorem KeepsNext.refused {s : State} {r} : KeepsNext s (.refused r) := fun _ e => nomatch e

theorem KeepsNext.ite {s : State} {o o'} {c : Prop} [Decidable c] (h : KeepsNext s o) (h' : KeepsNext s o') : KeepsNext s (if c then o else o') := by
  split
  · exact h
  · exact h'

/-- The lifecycle has the states 0 to 5 (15 R443). -/
theorem lifeDecide_st_le (t : Table PhysWord) : (lifeDecide t).st ≤ 5 := by
  unfold lifeDecide
  extract_lets c bad n gap torn
  have hn : n ≤ 3 := by
    unfold n
    split
    · omega
    · split
      · omega
      · split <;> omega
  clear_value n
  split
  · dsimp only
    split <;> omega
  · split
    · exact Nat.le_refl 5
    · dsimp only
      omega

theorem Keeps.setLife {s u : State} {life} (h : Keeps s u) (hl : life.st ≤ 5) : Keeps s { u with life := life } :=
  h.trans ⟨rfl, rfl, rfl, fun _ => hl, id, fun w => ⟨w, fun _ => id⟩, id, fun _ _ => ⟨id, id, id⟩, fun _ _ => id, fun _ _ => id⟩

theorem tget_eq_of_forall_ne {α : Type} {d : α} {t : Table α} {k : Nat} (h : ∀ e ∈ t, e.1 ≠ k) : tget d t k = d := by
  induction t with
  | nil => rfl
  | cons e r ih =>
    rw [tget, if_neg (h e List.mem_cons_self)]
    exact ih fun a ha => h a (List.mem_cons_of_mem e ha)

/-- A read of a table after a function that keeps the default is applied to every entry. -/
theorem tget_tmap {α : Type} [DecidableEq α] {d : α} {f : Nat → α → α} (hf : ∀ k, f k d = d) {t : Table α} (w : tableWf d t = true) (q : Nat) :
    tget d (tmap d f t) q = f q (tget d t q) := by
  have hp : t.Pairwise (fun a b => a.1 < b.1) := of_decide_eq_true (Bool.and_eq_true_iff.1 w).1
  clear w
  induction t with
  | nil => exact (hf q).symm
  | cons e r ih =>
    obtain ⟨i, v⟩ := e
    obtain ⟨hi, hr⟩ := List.pairwise_cons.1 hp
    have hcut : tmap d f ((i, v) :: r) = if f i v = d then tmap d f r else (i, f i v) :: tmap d f r := by
      simp only [tmap, List.map_cons, List.filter_cons]
      split <;> simp_all
    rw [hcut, tget]
    by_cases hq : i = q
    · subst hq
      have hnone : tget d r i = d := tget_eq_of_forall_ne fun a ha => (hi a ha).ne'
      split
      · next hd => rw [ih hr, hnone, hf, if_pos rfl, hd]
      · simp [tget]
    · split
      · exact ih hr
      · rw [tget, if_neg hq, ih hr]

end Sys2Proof.Machine
end
section
/-! Every function of the machine that answers a state keeps the relation, in the order of the model's files, with a heading for each: where
what it is given keeps it, so does what it answers. A function that is given another as its continuation needs that the other keeps it too.
The proofs are elaborated one at a time, since the threads of so many small ones at once are more than the check allows. -/

namespace Sys2Proof.Machine

set_option Elab.async false

/-! ### Ops -/

theorem setPart_keeps {s u p v'} (h : Keeps s u) : Keeps s (u.setPart p v') := .frame h

theorem setPipe_keeps {s u k v'} (h : Keeps s u) : Keeps s (u.setPipe k v') := .frame h

theorem setWin_keeps {s u w' v'} (h : Keeps s u) : Keeps s (u.setWin w' v') := .frame h

theorem setGrpRec_keeps {s u g v'} (h : Keeps s u) : Keeps s (u.setGrpRec g v') := .frame h

theorem setEntries_keeps {s u p l} (h : Keeps s u) : Keeps s (u.setEntries p l) := .frame h

theorem setBudget_keeps {s u p v'} (h : Keeps s u) : Keeps s (u.setBudget p v') := .frame h

theorem setSndPipe_keeps {s u k v'} (h : Keeps s u) : Keeps s (u.setSndPipe k v') := .frame h

theorem setClock_keeps {s u i v'} (h : Keeps s u) : Keeps s (u.setClock i v') := .frame h

theorem setSched_keeps {s u i v'} (h : Keeps s u) : Keeps s (u.setSched i v') := .within h

theorem emit_keeps {s u e} (h : Keeps s u) : Keeps s (u.emit e) := .frame h

theorem whenArith_keeps {s u act} (h : Keeps s u) (hact : ∀ x, Keeps s x → Keeps s (act x)) : Keeps s (whenArith u act) := ite_keeps (hact _ h) h

theorem whenSec_keeps {s u act} (h : Keeps s u) (hact : ∀ x, Keeps s x → Keeps s (act x)) : Keeps s (whenSec u act) := ite_keeps (hact _ h) h

theorem freeDraw_keeps {s u} (h : Keeps s u) : Keeps s (freeDraw u).2 := .frame h

theorem drbgDraw_keeps {s u i} (h : Keeps s u) : Keeps s (drbgDraw u i).2 := by
  unfold drbgDraw
  extract_lets d f _ _
  have hf : Keeps s f.2 := freeDraw_keeps h
  exact ite_keeps (.frame hf) hf

theorem drbgDraws_keeps {s u i n} (h : Keeps s u) : Keeps s (drbgDraws u i n).2 := by
  induction n generalizing u with
  | zero => exact h
  | succ n ih => exact ih (drbgDraw_keeps h)

theorem setLive_keeps {s u d} (h : Keeps s u) : Keeps s (setLive u d) := .frame h

theorem setDesc_keeps {s u shadow g d} (h : Keeps s u) : Keeps s (u.setDesc shadow g d) := ite_keeps (.frame h) (.frame h)

theorem raise_keeps {s u p i} (h : Keeps s u) : Keeps s (raise u p i) := setPage_keeps id h

theorem refusedResp_keeps {s u st} (h : Keeps s u) : Keeps s (refusedResp u st) := .within h

theorem answer_keeps {s u d} (h : Keeps s u) : Keeps s (answer u d) := .within h

theorem pageErrorCode_keeps {s u a write addr code} (h : Keeps s u) : Keeps s (pageErrorCode u a write addr code) := setPage_keeps id h

theorem pageError_keeps {s u a write addr st} (h : Keeps s u) : Keeps s (pageError u a write addr st) := pageErrorCode_keeps h

theorem refuse_keeps {s u a write addr st} (h : Keeps s u) : Keeps s (refuse u a write addr st) := refusedResp_keeps (pageError_keeps h)

theorem decodeError_keeps {s u a write addr st} (h : Keeps s u) : Keeps s (decodeError u a write addr st) := by
  unfold decodeError
  extract_lets e _ s1
  have hs1 : Keeps s s1 := .within h
  exact refusedResp_keeps (ite_keeps hs1 (raise_keeps hs1))

theorem regWrite_keeps {s u a addr stateSt argSt k} (h : Keeps s u) (hk : ∀ x, Keeps s x → Keeps s (k x)) : Keeps s (regWrite u a addr stateSt argSt k) := by
  unfold regWrite
  split
  · exact h
  · exact decodeError_keeps h
  · exact refuse_keeps h
  · split
    · exact refuse_keeps h
    · split
      · exact refuse_keeps h
      · exact hk _ (answer_keeps h)

theorem regRead_keeps {s u a addr st d k} (h : Keeps s u) (hk : ∀ x, Keeps s x → Keeps s (k x)) : Keeps s (regRead u a addr st d k) := by
  unfold regRead
  split
  · exact h
  · exact decodeError_keeps h
  · exact refuse_keeps h
  · split
    · exact refuse_keeps h
    · exact hk _ (answer_keeps h)

theorem noteCmd_keeps {s u a addr st} (h : Keeps s u) : Keeps s (noteCmd u a addr st) := ite_keeps h (pageError_keeps h)

theorem pwrDone_keeps {s u a d st} (h : Keeps s u) : Keeps s (pwrDone u a d st) := noteCmd_keeps (raise_keeps (.frame h))

theorem handshake_keeps {s u d} (h : Keeps s u) : Keeps s (handshake u d) := ite_keeps h (ite_keeps (pwrDone_keeps (setLive_keeps h)) (setLive_keeps h))

theorem larkCount_keeps {s u k off n} (h : Keeps s u) : Keeps s (larkCount u k off n) := setPipe_keeps h

theorem sndCount_keeps {s u off n} (h : Keeps s u) : Keeps s (sndCount u off n) := .frame h

/-! ### Keys -/

theorem setSlot_keeps {s u i v'} (h : Keeps s u) : Keeps s (u.setSlot i v') := .frame h

theorem putSlot_keeps {s u i st key attr partner} (h : Keeps s u) : Keeps s (putSlot u i st key attr partner) :=
  ite_keeps (setSlot_keeps h) (ite_keeps h (setSlot_keeps (drbgDraw_keeps h)))

theorem noteBad_keeps {s u i} (h : Keeps s u) : Keeps s (noteBad u i) := by
  unfold noteBad
  extract_lets x _ _
  exact ite_keeps (raise_keeps (.frame (setSlot_keeps h))) (ite_keeps (setSlot_keeps h) h)

theorem noteNoise_keeps {s u p epoch} (h : Keeps s u) : Keeps s (noteNoise u p epoch) := by
  unfold noteNoise
  split
  · exact noteBad_keeps h
  · exact h

/-! ### Crypto -/

theorem hybridSign_keeps {s u seed body} (h : Keeps s u) : Keeps s (hybridSign u seed body).2 := by
  unfold hybridSign
  dsimp only
  exact drbgDraws_keeps h

theorem ecSign_keeps {s u seed digest} (h : Keeps s u) : Keeps s (ecSign u seed digest).2 := by
  unfold ecSign
  extract_lets d rs
  have hd : Keeps s d.2 := drbgDraws_keeps h
  exact hd

/-! ### Astrolabe -/

theorem setAstrSlot_keeps {s u i v'} (h : Keeps s u) : Keeps s (u.setAstrSlot i v') := .frame h

theorem putWords_keeps {s u base l} (h : Keeps s u) : Keeps s (putWords u base l) := .frame h

theorem zeroWords_keeps {s u base n} (h : Keeps s u) : Keeps s (zeroWords u base n) := .frame h

theorem zeroAstrSlot_keeps {s u i} (h : Keeps s u) : Keeps s (zeroAstrSlot u i) := setAstrSlot_keeps (zeroWords_keeps h)

theorem putResult_keeps {s u o l} (h : Keeps s u) : Keeps s (putResult u o l) := by
  unfold putResult
  generalize opndSlots o = is
  induction is generalizing u l with
  | nil => exact h
  | cons i is ih => exact ih (putWords_keeps h)

theorem runModular_keeps {s u g} (h : Keeps s u) : Keeps s (runModular u g).after := by
  unfold runModular
  extract_lets n x y m nu bad e w u1 inv sig
  (repeat' split) <;> exact h

theorem runEc_keeps {s u g} (h : Keeps s u) : Keeps s (runEc u g).after := by
  unfold runEc
  extract_lets n c a seed d k q q' z rs q''
  (repeat' split) <;> exact h

theorem runLattice_keeps {s u g} (h : Keeps s u) : Keeps s (runLattice u g).after := by
  unfold runLattice
  extract_lets l seed tries mu sig sig' ek o dz
  have htries : Keeps s tries.2 := freeDraw_keeps h
  split
  · exact h
  · split
    · exact htries
    · (repeat' split) <;> exact h

theorem runProgram_keeps {s u g} (h : Keeps s u) : Keeps s (runProgram u g).after := by
  unfold runProgram
  split
  · exact runModular_keeps h
  · split
    · exact runEc_keeps h
    · exact runLattice_keeps h

theorem zeroAstrSlots_keeps {s u l} (h : Keeps s u) : Keeps s (zeroAstrSlots u l) := foldl_keeps (fun _ _ hx => zeroAstrSlot_keeps hx) h

theorem takeOwner_keeps {s u g} (h : Keeps s u) : Keeps s (takeOwner u g) := foldl_keeps (fun _ _ hx => setAstrSlot_keeps hx) h

theorem flagSlots_keeps {s u o f} (h : Keeps s u) : Keeps s (flagSlots u o f) := foldl_keeps (fun _ _ hx => setAstrSlot_keeps hx) h

theorem markSecret_keeps {s u g} (h : Keeps s u) : Keeps s (markSecret u g) := by
  unfold markSecret
  extract_lets m
  exact ite_keeps (flagSlots_keeps h) (ite_keeps (flagSlots_keeps h) h)

theorem markSealed_keeps {s u g on} (h : Keeps s u) : Keeps s (markSealed u g on) := ite_keeps (flagSlots_keeps h) h

theorem bothResults_keeps {s u g} (h : Keeps s u) : Keeps s (bothResults u g) :=
  foldl_keeps (fun _ _ hx => foldl_keeps (fun _ _ hx1 => .frame (freeDraw_keeps hx1)) hx) h

theorem writeResults_keeps {s u g v'} (h : Keeps s u) : Keeps s (writeResults u g v') := by
  unfold writeResults
  extract_lets s1 s2
  have hs1 : Keeps s s1 := ite_keeps (putResult_keeps h) h
  have hs2 : Keeps s s2 := bothResults_keeps (ite_keeps (putResult_keeps hs1) hs1)
  exact markSealed_keeps (markSecret_keeps hs2)

theorem endSlots_keeps {s u g v'} (h : Keeps s u) : Keeps s (endSlots u g v') := by
  unfold endSlots
  extract_lets keys s1 s2
  have hs1 : Keeps s s1 := takeOwner_keeps h
  have hs2 : Keeps s s2 := by
    unfold s2
    split
    · exact markSealed_keeps (writeResults_keeps hs1)
    · exact ite_keeps (zeroAstrSlots_keeps hs1) (zeroAstrSlots_keeps (ite_keeps (writeResults_keeps hs1) hs1))
  exact zeroAstrSlots_keeps hs2

theorem astrEnd_keeps {s u v'} (hv : Keeps s v'.after) : Keeps s (astrEnd u v') := by
  unfold astrEnd
  extract_lets g cyc s1 fault _ _ s2 s3
  have hs1 : Keeps s s1 := endSlots_keeps hv
  have hs2 : Keeps s s2 := .frame (zeroWords_keeps hs1)
  have hs3 : Keeps s s3 := raise_keeps hs2
  exact noteCmd_keeps (ite_keeps (raise_keeps hs3) hs3)

theorem handBack_keeps {s u owner l} (h : Keeps s u) : Keeps s (handBack u owner l) := foldl_keeps (fun _ _ hx => ite_keeps (zeroAstrSlot_keeps hx) hx) h

theorem astrOpEnd_keeps {s u how} (h : Keeps s u) : Keeps s (astrOpEnd u how) := by
  unfold astrOpEnd
  split
  · exact h
  · extract_lets g v
    have hv : Keeps s v.after := runProgram_keeps h
    split
    · exact astrEnd_keeps hv
    · refine astrEnd_keeps ?_
      split <;> exact hv
    · exact handBack_keeps (astrEnd_keeps hv)

theorem astrAbortNow_keeps {s u} (h : Keeps s u) : Keeps s (astrAbortNow u) := by
  unfold astrAbortNow
  extract_lets d s1 _
  have hd : Keeps s d.2 := freeDraw_keeps h
  have hs1 : Keeps s s1 := astrEnd_keeps hd
  exact .frame hs1

theorem astrRefused_keeps {s u a v' st} (h : Keeps s u) : Keeps s (astrRefused u a v' st) := refuse_keeps (.frame h)

theorem astrCmd_keeps {s u a v' bad k} (h : Keeps s u) (hk : ∀ x, Keeps s x → Keeps s (k x)) : Keeps s (astrCmd u a v' bad k) := by
  unfold astrCmd
  refine regWrite_keeps h (fun x1 hx1 => ?_)
  split
  · exact astrRefused_keeps hx1
  · exact hk _ hx1

theorem astrStart_keeps {s u a prog} (h : Keeps s u) : Keeps s (astrStart u a prog) := by
  unfold astrStart
  extract_lets g d _ _
  have hd : Keeps s d.2 := drbgDraws_keeps h
  exact .frame hd

theorem astrRun_keeps {s u a v'} (h : Keeps s u) : Keeps s (astrRun u a v') := astrCmd_keeps h (fun _ hx1 => astrStart_keeps hx1)

theorem astrBadOp_keeps {s u a v'} (h : Keeps s u) : Keeps s (astrBadOp u a v') := astrCmd_keeps h (fun _ hx => hx)

theorem astrCsData_keeps {s u a v'} (h : Keeps s u) : Keeps s (astrCsData u a v') := regWrite_keeps h (fun _ hx => .frame hx)

theorem astrCsTake_keeps {s a v' u} (h : Keeps s u) : Keeps s (astrCsTake a v' u) := ite_keeps (.frame h) (noteCmd_keeps (raise_keeps h))

theorem astrCsCommit_keeps {s u a v'} (h : Keeps s u) : Keeps s (astrCsCommit u a v') := regWrite_keeps h (fun _ hx => astrCsTake_keeps hx)

theorem astrSlotDesc_keeps {s u a v'} (h : Keeps s u) : Keeps s (astrSlotDesc u a v') :=
  regWrite_keeps h (fun _ hx => setAstrSlot_keeps (zeroWords_keeps (zeroWords_keeps hx)))

theorem astrNextWord_keeps {s u} (h : Keeps s u) : Keeps s (astrNextWord u) := .frame h

theorem astrData_keeps {s u a write v'} (h : Keeps s u) : Keeps s (astrData u a write v') :=
  ite_keeps (regWrite_keeps h (fun _ hx => astrNextWord_keeps (.frame hx))) (regRead_keeps h (fun _ hx => astrNextWord_keeps hx))

theorem astrZero_keeps {s u a v'} (h : Keeps s u) : Keeps s (astrZero u a v') := by
  unfold astrZero
  exact regWrite_keeps h (fun _ hx => ite_keeps (zeroAstrSlot_keeps hx) hx)

theorem astrPush_keeps {s u key owner t} (h : Keeps s u) (e : astrPush u key owner = .ok t) : Keeps s t := by
  unfold astrPush at e
  extract_lets i d at e
  split at e
  · cases e
  · cases e; exact setAstrSlot_keeps (putWords_keeps h)

theorem loadAstr_keeps {s u b} (h : Keeps s u) : Keeps s (loadAstr u b) := ite_keeps h (.frame h)

theorem reloadAstr_keeps {s u} (h : Keeps s u) : Keeps s (reloadAstr u) := ite_keeps h (ite_keeps (.frame h) (loadAstr_keeps h))

theorem engineUp_keeps {s u} (h : Keeps s u) : Keeps s (engineUp u) := ite_keeps h (reloadAstr_keeps (.frame (handshake_keeps h)))

theorem engineRuns_keeps {s u n} (h : Keeps s u) : Keeps s (engineRuns u n) := drbgDraws_keeps (engineUp_keeps h)

theorem astrWipe_keeps {s u p} (h : Keeps s u) : Keeps s (astrWipe u p) := by
  unfold astrWipe
  extract_lets s1
  have hs1 : Keeps s s1 := ite_keeps (astrAbortNow_keeps h) h
  exact zeroAstrSlots_keeps hs1

theorem execAstrCsDataWrite_keeps {s a v' u} (h : Keeps s u) : KeepsNext s (execAstrCsDataWrite a v' u) := .next (astrCsData_keeps h)

theorem execAstrCsCommit_keeps {s a v' u} (h : Keeps s u) : KeepsNext s (execAstrCsCommit a v' u) := .next (astrCsCommit_keeps h)

theorem execAstrSlotDescWrite_keeps {s a v' u} (h : Keeps s u) : KeepsNext s (execAstrSlotDescWrite a v' u) := .next (astrSlotDesc_keeps h)

theorem execAstrDataAccess_keeps {s a write v' u} (h : Keeps s u) : KeepsNext s (execAstrDataAccess a write v' u) := .next (astrData_keeps h)

theorem execAstrZero_keeps {s a v' u} (h : Keeps s u) : KeepsNext s (execAstrZero a v' u) := .next (astrZero_keeps h)

theorem execAstrRun_keeps {s a v' u} (h : Keeps s u) : KeepsNext s (execAstrRun a v' u) := .next (astrRun_keeps h)

/-! ### Windows -/

theorem setLanes_keeps {s u wi t l} (h : Keeps s u) : Keeps s (setLanes u wi t l) := .frame h

theorem setTileRec_keeps {s u wi t r} (h : Keeps s u) : Keeps s (setTileRec u wi t r) := .frame h

theorem mapRecs_keeps {s u wi f} (h : Keeps s u) : Keeps s (mapRecs u wi f) := foldl_keeps (fun _ _ hx => setTileRec_keeps hx) h

theorem compactMap_keeps {s u} (h : Keeps s u) : Keeps s (compactMap u) := by
  have step (l : List (Nat × Win)) (acc : Nat × Table Nat × State) (hacc : Keeps s acc.2.2) :
      Keeps s (l.foldl (fun (acc : Nat × Table Nat × State) e =>
        let n := granulesFor e.2.tiles
        let m := (List.range n).foldl (fun m i => tset 0 m (acc.1 + i) (tget 0 u.phlx.gmap (e.2.base + i))) acc.2.1
        (acc.1 + n, m, acc.2.2.setWin e.1 { e.2 with base := acc.1 })) acc).2.2 := by
    induction l generalizing acc with
    | nil => exact hacc
    | cons e l ih => exact ih _ (setWin_keeps hacc)
  exact .frame (step _ (0, [], u) h)

theorem placeWindow_keeps {s u wi base w'} (h : Keeps s u) : Keeps s (placeWindow u wi base w') := setWin_keeps (.frame h)

theorem takeRun_keeps {s u n} (h : Keeps s u) : Keeps s (takeRun u n).2 := by
  unfold takeRun
  split
  · exact h
  · extract_lets s'
    have hs' : Keeps s s' := compactMap_keeps h
    exact hs'

theorem nameWindow_keeps {s u g wi valid} (h : Keeps s u) : Keeps s (nameWindow u g wi valid) := by
  unfold nameWindow
  extract_lets f s1
  have hs1 : Keeps s s1 := setDesc_keeps h
  exact setDesc_keeps hs1

theorem nameWindowIn_keeps {s u shadow g wi} (h : Keeps s u) : Keeps s (nameWindowIn u shadow g wi) := setDesc_keeps h

theorem nameWhereNone_keeps {s u g wi} (h : Keeps s u) : Keeps s (nameWhereNone u g wi) := foldl_keeps (fun _ _ hx => ite_keeps (nameWindowIn_keeps hx) hx) h

theorem allocWindow_keeps {s u p g n pair} (h : Keeps s u) : Keeps s (allocWindow u p g n pair).2 := by
  unfold allocWindow
  extract_lets k need q w r1
  have hr1 : Keeps s r1.2 := takeRun_keeps h
  split
  · exact raise_keeps h
  · split
    · exact h
    · split
      · exact h
      · extract_lets s1 r2 s2
        have hs1 : Keeps s s1 := placeWindow_keeps hr1
        have hr2 : Keeps s r2.2 := takeRun_keeps hs1
        have hs2 : Keeps s s2 := ite_keeps (placeWindow_keeps hr2) hs1
        exact foldl_keeps (fun _ _ hx => handshake_keeps hx) (nameWhereNone_keeps hs2)

theorem freeWindowNow_keeps {s u wi} (h : Keeps s u) : Keeps s (freeWindowNow u wi) := by
  unfold freeWindowNow
  extract_lets w n gs _ s1 s2 s3 clr _
  have hs1 : Keeps s s1 := .frame h
  have hs2 : Keeps s s2 := setWin_keeps hs1
  have hs3 : Keeps s s3 := by
    unfold s3
    split
    · exact setWin_keeps hs2
    · exact hs2
  exact ite_keeps h (.frame hs3)

theorem winDone_keeps {s u r} (h : Keeps s u) : Keeps s (winDone u r) := raise_keeps (.frame h)

theorem freeWindowCmd_keeps {s u wi} (h : Keeps s u) : Keeps s (freeWindowCmd u wi) := winDone_keeps (freeWindowNow_keeps h)

theorem openWindow_keeps {s u wi ticket efix} (h : Keeps s u) : Keeps s (openWindow u wi ticket efix) := by
  unfold openWindow
  extract_lets _ s1
  have hs1 : Keeps s s1 := setWin_keeps h
  exact mapRecs_keeps hs1

theorem idleWindow_keeps {s u wi} (h : Keeps s u) : Keeps s (idleWindow u wi) := mapRecs_keeps (setWin_keeps h)

theorem swapWindow_keeps {s u wi} (h : Keeps s u) : Keeps s (swapWindow u wi) := by
  unfold swapWindow
  extract_lets w s1
  have hs1 : Keeps s s1 := setWin_keeps h
  split
  · exact setWin_keeps h
  · extract_lets _ s2
    have hs2 : Keeps s s2 := setWin_keeps hs1
    exact nameWindow_keeps hs2

theorem addTile_keeps {s u wi op live t flags hop vs} (h : Keeps s u) : Keeps s (addTile u wi op live t flags hop vs) := by
  unfold addTile
  extract_lets r o sums sat s1
  have hs1 : Keeps s s1 := setLanes_keeps h
  exact setTileRec_keeps hs1

/-! ### Collective -/

theorem putEntry_keeps {s u p e} (h : Keeps s u) : Keeps s (putEntry u p e) := setEntries_keeps h

theorem delEntry_keeps {s u p g t} (h : Keeps s u) : Keeps s (delEntry u p g t) := setEntries_keeps h

theorem modFlow_keeps {s u p g t f} (h : Keeps s u) : Keeps s (modFlow u p g t f) := by
  unfold modFlow
  split
  · exact h
  · exact putEntry_keeps h

theorem creditReturn_keeps {s u f port vc n} (h : Keeps s u) : Keeps s (creditReturn f u port vc n) := by
  induction f generalizing u n with
  | zero => exact h
  | succ f ih => exact ite_keeps h (ite_keeps (.frame h) (ih (emit_keeps h)))

theorem giveCredits_keeps {s u port vc n} (h : Keeps s u) : Keeps s (giveCredits u port vc n) := creditReturn_keeps (.frame h)

theorem useCredits_keeps {s u port vc n} (h : Keeps s u) : Keeps s (useCredits u port vc n) := .frame h

theorem returnCredits_keeps {s u a} (h : Keeps s u) : Keeps s (returnCredits u a) := giveCredits_keeps h

theorem leaveBuffer_keeps {s u pipe id} (h : Keeps s u) : Keeps s (leaveBuffer u pipe id) := by
  unfold leaveBuffer
  extract_lets p
  split
  · exact h
  · exact ite_keeps (setPipe_keeps h) (returnCredits_keeps (setPipe_keeps h))

theorem queueOut_keeps {s u k f} (h : Keeps s u) : Keeps s (queueOut u k f) := setPipe_keeps h

theorem kcTouch_keeps {s u k i} (h : Keeps s u) : Keeps s (kcTouch u k i) := by
  unfold kcTouch
  extract_lets p _ _ _
  exact .frame (setPipe_keeps h)

theorem noteFabric_keeps {s u} (h : Keeps s u) : Keeps s (noteFabric u) := by
  unfold noteFabric
  split
  · exact noteBad_keeps h
  · exact h

theorem fabricSeal_keeps {s u key k w'} (h : Keeps s u) : Keeps s (fabricSeal u key k w') := by
  unfold fabricSeal
  extract_lets st now n h1 f0 _ s1
  have hs1 : Keeps s s1 := ite_keeps (.frame h) h
  exact queueOut_keeps hs1

theorem abortUnsent_keeps {s u} (h : Keeps s u) : Keeps s (abortUnsent u) := .frame h

theorem fabricLost_keeps {s u w'} (h : Keeps s u) : Keeps s (fabricLost u w') := ite_keeps (abortUnsent_keeps h) (ite_keeps (.frame h) h)

theorem startFabric_keeps {s n u} (h : Keeps s u) : Keeps s (startFabric n u) := by
  induction n generalizing u with
  | zero => exact h
  | succ n ih =>
    unfold startFabric
    split
    · exact h
    · split
      · exact h
      · extract_lets _ s0 r s1
        have hs0 : Keeps s s0 := .frame h
        split
        · exact ih (fabricLost_keeps hs0)
        · split
          · exact ih (fabricSeal_keeps (kcTouch_keeps (ite_keeps hs0 (larkCount_keeps hs0))))
          · exact ite_keeps h (larkCount_keeps (.frame h))

theorem sendWaiting_keeps {s u} (h : Keeps s u) : Keeps s (sendWaiting u) := startFabric_keeps h

theorem fabricGive_keeps {s u w'} (h : Keeps s u) : Keeps s (fabricGive u w') := sendWaiting_keeps (.frame h)

theorem fabricSend_keeps {s u cls ports part group hop payload} (h : Keeps s u) : Keeps s (fabricSend u cls ports part group hop payload) := fabricGive_keeps h

theorem sendAbort_keeps {s u ports part group hop payload} (h : Keeps s u) : Keeps s (sendAbort u ports part group hop payload) := by
  unfold sendAbort
  split
  · exact h
  · split
    · exact ite_keeps (.frame h) (abortUnsent_keeps h)
    · extract_lets s1
      have hs1 : Keeps s s1 := noteFabric_keeps h
      exact ite_keeps (fabricSend_keeps hs1) (abortUnsent_keeps hs1)

theorem sendHeldAbort_keeps {s u i ports part group hop payload} (h : Keeps s u) : Keeps s (sendHeldAbort u i ports part group hop payload) := by
  unfold sendHeldAbort
  extract_lets s1
  have hs1 : Keeps s s1 := noteFabric_keeps h
  exact ite_keeps (fabricGive_keeps hs1) (abortUnsent_keeps hs1)

theorem dropHoldQ_keeps {s u} (h : Keeps s u) : Keeps s (dropHoldQ u) := .frame h

theorem latchAbort_keeps {s u g code origin detail dl dr} (h : Keeps s u) : Keeps s (latchAbort u g code origin detail dl dr) := ite_keeps h (setGrpRec_keeps h)

theorem recordLast_keeps {s u g t ep outcome} (h : Keeps s u) : Keeps s (recordLast u g t ep outcome) := setGrpRec_keeps h

theorem noteAborted_keeps {s u p g t ep} (h : Keeps s u) : Keeps s (noteAborted u p g t ep) := ite_keeps h (setGrpRec_keeps h)

theorem dropParked_keeps {s u p g t} (h : Keeps s u) : Keeps s (dropParked u p g t) := by
  unfold dropParked
  extract_lets mine s1 _
  have hs1 : Keeps s s1 := foldl_keeps (fun _ _ hx => larkCount_keeps hx) h
  exact .frame hs1

theorem discardOuts_keeps {s u p g t} (h : Keeps s u) : Keeps s (discardOuts u p g t) := by
  unfold discardOuts
  extract_lets mine all _ s1 rel
  have hs1 : Keeps s s1 := .frame h
  exact foldl_keeps (fun _ _ hx => leaveBuffer_keeps hx) hs1

theorem refund_keeps {s u p e} (h : Keeps s u) : Keeps s (refund u p e) := ite_keeps h (.frame (setBudget_keeps h))

theorem abortEntry_keeps {s u p e i} (h : Keeps s u) : Keeps s (abortEntry u p e i) := by
  unfold abortEntry
  split
  · split
    · exact h
    · extract_lets s1 _ s2
      have hs1 : Keeps s s1 := discardOuts_keeps h
      have hs2 : Keeps s s2 := ite_keeps (delEntry_keeps hs1) (putEntry_keeps hs1)
      exact recordLast_keeps hs2
  · split
    · exact h
    · extract_lets origin code s1 s2 _ s3 s4 s5 s6 mine _ s6' s7 s8 ports s9
      have hs1 : Keeps s s1 := ite_keeps (noteAborted_keeps (latchAbort_keeps h)) h
      have hs2 : Keeps s s2 := ite_keeps (recordLast_keeps hs1) hs1
      have hs3 : Keeps s s3 := .frame hs2
      have hs4 : Keeps s s4 := discardOuts_keeps (dropParked_keeps hs3)
      have hs5 : Keeps s s5 := by
        unfold s5
        split
        · exact idleWindow_keeps hs4
        · exact hs4
      have hs6 : Keeps s s6 := refund_keeps hs5
      have hs6' : Keeps s s6' := .frame hs6
      have hs7 : Keeps s s7 := foldl_keeps (fun _ _ hx1 => leaveBuffer_keeps hx1) hs6'
      have hs8 : Keeps s s8 := putEntry_keeps hs7
      have hs9 : Keeps s s9 := by
        unfold s9
        split <;> exact sendAbort_keeps hs8
      exact raise_keeps (raise_keeps hs9)

theorem abortEach_keeps {s i l u} (h : Keeps s u) : Keeps s (abortEach i l u) := by
  unfold abortEach
  refine foldl_keeps (fun x1 a hx1 => ?_) h
  split
  · exact abortEntry_keeps hx1
  · exact hx1

theorem abortWhere_keeps {s c i u} (h : Keeps s u) : Keeps s (abortWhere c i u) := abortEach_keeps h

theorem damagedAbort_keeps {s u h' i} (h : Keeps s u) : Keeps s (damagedAbort u h' i) := by
  unfold damagedAbort
  split
  · exact abortWhere_keeps h
  · split
    · exact h
    · exact ite_keeps (abortEntry_keeps h) (ite_keeps (putEntry_keeps h) h)

theorem grantPort_keeps {s u port} (h : Keeps s u) : Keeps s (grantPort u port) := by
  unfold grantPort
  extract_lets c _ s1
  have hs1 : Keeps s s1 := .frame h
  exact ite_keeps h (giveCredits_keeps (giveCredits_keeps hs1))

theorem sendOn_keeps {s u port vc b} (h : Keeps s u) : Keeps s (sendOn u port vc b) := by
  unfold sendOn
  extract_lets c n c' _ s1 _
  have hs1 : Keeps s s1 := .frame h
  exact ite_keeps (.frame hs1) (emit_keeps hs1)

theorem sendBytes_keeps {s u k f} (h : Keeps s u) : Keeps s (sendBytes u k f) := by
  unfold sendBytes
  extract_lets s1
  have hs1 : Keeps s s1 := foldl_keeps (fun _ _ hx => sendOn_keeps hx) h
  exact ite_keeps hs1 (larkCount_keeps (larkCount_keeps (larkCount_keeps hs1)))

theorem flushSome_keeps {s u n} (h : Keeps s u) : Keeps s (flushSome n u) := by
  induction n generalizing u with
  | zero => exact h
  | succ n ih =>
    unfold flushSome
    split
    · exact h
    · exact ih (sendBytes_keeps (setPipe_keeps h))

theorem flushFabric_keeps {s u} (h : Keeps s u) : Keeps s (flushFabric u) := flushSome_keeps h

theorem plannedFall_keeps {s u detail} (h : Keeps s u) : Keeps s (plannedFall u detail) := by
  unfold plannedFall
  extract_lets _ _
  exact .within (flushFabric_keeps (abortWhere_keeps h))

theorem updateLive_keeps {s u} (h : Keeps s u) : Keeps s (updateLive u) := by
  unfold updateLive
  split
  · exact ite_keeps h (foldl_keeps (fun _ _ hx => grantPort_keeps hx) (.within h))
  · exact ite_keeps (plannedFall_keeps h) h

/-! ### Checks -/

theorem latchFail_keeps {s u k part group ticket tile f} (h : Keeps s u) : Keeps s (latchFail u k part group ticket tile f) := by
  unfold latchFail
  extract_lets s1 _
  have hs1 : Keeps s s1 := raise_keeps (sndCount_keeps h)
  exact ite_keeps (.frame hs1) (.frame hs1)

theorem latchFails_keeps {s u k part group ticket tile fs} (h : Keeps s u) : Keeps s (latchFails u k part group ticket tile fs) :=
  foldl_keeps (fun _ _ hx => latchFail_keeps hx) h

theorem latchOutcome_keeps {s u k part group ticket tile q outcome} (h : Keeps s u) : Keeps s (latchOutcome u k part group ticket tile q outcome) :=
  ite_keeps (.frame h) h

/-! ### Groups -/

theorem grpDone_keeps {s u a st stepFailed} (h : Keeps s u) : Keeps s (grpDone u a st stepFailed) := by
  unfold grpDone
  extract_lets _ s1
  have hs1 : Keeps s s1 := .frame h
  exact noteCmd_keeps (raise_keeps hs1)

theorem grpCmd_keeps {s u a v' k} (h : Keeps s u) (hk : ∀ x, Keeps s x → Keeps s (k x)) : Keeps s (grpCmd u a v' k) := regWrite_keeps h hk

theorem grpTagCmd_keeps {s u a v' k} (h : Keeps s u) (hk : ∀ x, Keeps s x → Keeps s (k x)) : Keeps s (grpTagCmd u a v' k) :=
  ite_keeps (regWrite_keeps h hk) (grpCmd_keeps h hk)

theorem grpDescWrite_keeps {s u a n v'} (h : Keeps s u) : Keeps s (grpDescWrite u a n v') :=
  ite_keeps (regWrite_keeps h (fun _ hx1 => hx1)) (regWrite_keeps h (fun _ hx => ite_keeps (refuse_keeps (raise_keeps hx)) (setDesc_keeps hx)))

theorem invalidateHolding_keeps {s u i} (h : Keeps s u) : Keeps s (invalidateHolding u i) := .frame h

theorem mbrAdvance_keeps {s u a} (h : Keeps s u) : Keeps s (mbrAdvance u a) := .frame h

theorem mbrWrite_keeps {s u a v'} (h : Keeps s u) : Keeps s (mbrWrite u a v') :=
  regWrite_keeps h (fun _ hx => mbrAdvance_keeps (invalidateHolding_keeps (.frame hx)))

theorem mbrRead_keeps {s u a} (h : Keeps s u) : Keeps s (mbrRead u a) := regRead_keeps h (fun _ hx => mbrAdvance_keeps hx)

theorem grpCommitOp_keeps {s u a} (h : Keeps s u) : Keeps s (grpCommitOp u a) := by
  unfold grpCommitOp
  extract_lets g d off
  split <;> exact grpDone_keeps (setDesc_keeps h)

theorem grpClearOp_keeps {s u a} (h : Keeps s u) : Keeps s (grpClearOp u a) := grpDone_keeps (setDesc_keeps h)

theorem grpEditCmd_keeps {s u a v' k} (h : Keeps s u) (hk : ∀ x, Keeps s x → Keeps s (k x)) : Keeps s (grpEditCmd u a v' k) :=
  ite_keeps (regWrite_keeps h hk) (regWrite_keeps h hk)

theorem grpCommitCmd_keeps {s u a v'} (h : Keeps s u) : Keeps s (grpCommitCmd u a v') := grpEditCmd_keeps h (fun _ hx1 => grpCommitOp_keeps hx1)

theorem grpClearCmd_keeps {s u a v'} (h : Keeps s u) : Keeps s (grpClearCmd u a v') := grpEditCmd_keeps h (fun _ hx1 => grpClearOp_keeps hx1)

theorem launchStep6_keeps {s u l d x} (h : Keeps s u) (e : launchStep6 u l d = .ok x) : Keeps s x.2 := by
  unfold launchStep6 at e
  dsimp only at e
  split at e
  · cases e; exact h
  · split at e
    · cases e
    · split at e
      · split at e
        · cases e; exact setBudget_keeps h
        · cases e
      · cases e; exact h

theorem launchAdmit_keeps {s u l d c old charge} (h : Keeps s u) : Keeps s (launchAdmit u l d c old charge) := by
  unfold launchAdmit
  extract_lets base e es1 es2 needPrev es3 r s1 _
  have hs1 : Keeps s s1 := setGrpRec_keeps (setEntries_keeps h)
  exact ite_keeps (setPart_keeps hs1) hs1

theorem latchMismatch_keeps {s u g h'} (h : Keeps s u) : Keeps s (latchMismatch u g h') := ite_keeps h (raise_keeps (setGrpRec_keeps h))

theorem launchWindow_keeps {s u l d} (h : Keeps s u) : Keeps s (launchWindow u l d).2 := by
  unfold launchWindow
  split
  · extract_lets r
    have hr : Keeps s r.2 := allocWindow_keeps h
    exact winDone_keeps hr
  · exact h

theorem undoWindow_keeps {s u v d} (h : Keeps s u) : Keeps s (undoWindow u v d) := ite_keeps (winDone_keeps h) h

theorem launchJudge_keeps {s u a l} (h : Keeps s u) : Keeps s (launchJudge u a l) := by
  unfold launchJudge
  split
  · exact grpDone_keeps h
  · split
    · exact grpDone_keeps (abortEntry_keeps (latchMismatch_keeps h))
    · exact grpDone_keeps h

theorem launchDropped_keeps {s u a l e st} (h : Keeps s u) : Keeps s (launchDropped u a l e st) := grpDone_keeps (delEntry_keeps (abortEntry_keeps h))

theorem launchRest_keeps {s u v a l d c old} (h : Keeps s u) (hv : Keeps s v) : Keeps s (launchRest u v a l d c old) := by
  unfold launchRest
  extract_lets w
  have hw : Keeps s w.2 := launchWindow_keeps hv
  split
  · exact grpDone_keeps (.frame hw)
  · split
    · have hs1 : Keeps s (undoWindow u w.2 d) := undoWindow_keeps h
      exact grpDone_keeps (ite_keeps (raise_keeps (raise_keeps hs1)) hs1)
    · next r e => exact launchJudge_keeps (launchAdmit_keeps (launchStep6_keeps hw e))

theorem launchOp_keeps {s u a role} (h : Keeps s u) : Keeps s (launchOp u a role) := by
  unfold launchOp
  extract_lets l
  split
  · exact grpDone_keeps h
  · split
    · exact grpDone_keeps h
    · split
      · exact grpDone_keeps (ite_keeps (delEntry_keeps h) h)
      · split
        · exact launchDropped_keeps h
        · exact launchRest_keeps h (ite_keeps (delEntry_keeps h) h)

theorem launchOrHold_keeps {s u a held role} (h : Keeps s u) : Keeps s (launchOrHold u a held role) := ite_keeps (.within h) (launchOp_keeps h)

theorem grpAbortOp_keeps {s u a} (h : Keeps s u) : Keeps s (grpAbortOp u a) := by
  unfold grpAbortOp
  extract_lets p g t info e
  split
  · split
    · exact grpDone_keeps h
    · exact ite_keeps (grpDone_keeps h) (grpDone_keeps (abortEntry_keeps (putEntry_keeps h)))
  · split
    · exact grpDone_keeps h
    · exact ite_keeps (grpDone_keeps (ite_keeps h (delEntry_keeps h))) (grpDone_keeps (abortEntry_keeps h))

theorem setEpochNow_keeps {s u e} (h : Keeps s u) : Keeps s (setEpochNow u e) := .frame h

theorem grpRefused_keeps {s u a st} (h : Keeps s u) : Keeps s (grpRefused u a st) := refuse_keeps (.frame h)

theorem setEpochCmd_keeps {s u a v'} (h : Keeps s u) : Keeps s (setEpochCmd u a v') := by
  unfold setEpochCmd
  extract_lets w
  refine regWrite_keeps h (fun x1 hx1 => ?_)
  split
  · exact grpRefused_keeps hx1
  · exact grpDone_keeps (setEpochNow_keeps hx1)

theorem stationWrite_keeps {s u a v'} (h : Keeps s u) : Keeps s (stationWrite u a v') :=
  regWrite_keeps h (fun _ hx => updateLive_keeps (.frame (ite_keeps (plannedFall_keeps hx) hx)))

theorem expireEntry_keeps {s u v p x'} (hv : Keeps s v) : Keeps s (expireEntry u v p x') := by
  unfold expireEntry
  split
  · exact ite_keeps (abortEntry_keeps (.frame hv)) hv
  · exact hv

theorem expireDeadlines_keeps {s u} (h : Keeps s u) : Keeps s (expireDeadlines u) :=
  foldl_keeps (fun _ _ hx => foldl_keeps (fun _ _ hx1 => expireEntry_keeps hx1) hx) h

theorem markAbsent_keeps {s u p e silent ranks} (h : Keeps s u) : Keeps s (markAbsent u p e silent ranks) := by
  unfold markAbsent
  split
  · exact h
  · extract_lets _ fl e1 s1 n
    have hs1 : Keeps s s1 := putEntry_keeps h
    split
    · exact hs1
    · exact ite_keeps (abortEntry_keeps hs1) hs1

theorem cutEntry_keeps {s u p e} (h : Keeps s u) : Keeps s (cutEntry u p e) := by
  unfold cutEntry
  split
  · exact h
  · extract_lets ss quiet gone
    split
    · exact abortEntry_keeps h
    · exact markAbsent_keeps h

theorem cutAbsent_keeps {s u} (h : Keeps s u) : Keeps s (cutAbsent u) := by
  unfold cutAbsent
  refine foldl_keeps (fun x a hx => foldl_keeps (fun x1 a1 hx1 => ?_) hx) h
  split
  · exact hx1
  · split
    · exact ite_keeps (cutEntry_keeps hx1) hx1
    · exact hx1

/-- The wall time counts modulo 2^64 (09 R297). -/
theorem passTime_keeps {s u us} (h : Keeps s u) : Keeps s (passTime u us) :=
  h.trans ⟨rfl, rfl, rfl, id, fun _ => Nat.mod_lt _ (by decide), fun w => ⟨w, fun _ => id⟩, id, fun _ _ => ⟨id, id, id⟩, fun _ _ => id, fun _ _ => id⟩

theorem afterTime_keeps {s u us act} (h : Keeps s u) (hact : ∀ x, Keeps s x → Keeps s (act x)) : Keeps s (afterTime u us act) :=
  whenSec_keeps (passTime_keeps h) hact

theorem trackWrite_keeps {s u a v'} (h : Keeps s u) : Keeps s (trackWrite u a v') := by
  unfold trackWrite
  extract_lets addr g r
  refine regWrite_keeps h (fun x hx => ?_)
  split
  · split
    · exact hx
    · split
      · exact setGrpRec_keeps hx
      · exact refuse_keeps hx
  · exact setGrpRec_keeps hx

theorem strgClearWrite_keeps {s u a v'} (h : Keeps s u) : Keeps s (strgClearWrite u a v') := by
  unfold strgClearWrite
  exact regWrite_keeps h (fun _ hx => ite_keeps (setGrpRec_keeps hx) hx)

theorem recordStraggler_keeps {s u e} (h : Keeps s u) : Keeps s (recordStraggler u e) := setGrpRec_keeps h

theorem execGrpDescWrite_keeps {s a word v' u} (h : Keeps s u) : KeepsNext s (execGrpDescWrite a word v' u) := .next (grpDescWrite_keeps h)

theorem execMbrDataAccess_keeps {s a write v' u} (h : Keeps s u) : KeepsNext s (execMbrDataAccess a write v' u) :=
  .next (ite_keeps (mbrWrite_keeps h) (mbrRead_keeps h))

theorem execGrpCommit_keeps {s a v' u} (h : Keeps s u) : KeepsNext s (execGrpCommit a v' u) := .next (grpCommitCmd_keeps h)

theorem execGrpClear_keeps {s a v' u} (h : Keeps s u) : KeepsNext s (execGrpClear a v' u) := .next (grpClearCmd_keeps h)

theorem execLaunch_keeps {s a v' u} (h : Keeps s u) : KeepsNext s (execLaunch a v' u) := .next (grpTagCmd_keeps h (fun _ hx1 => launchOrHold_keeps hx1))

theorem execGrpAbort_keeps {s a v' u} (h : Keeps s u) : KeepsNext s (execGrpAbort a v' u) := .next (grpTagCmd_keeps h (fun _ hx1 => grpAbortOp_keeps hx1))

theorem execResyncSend_keeps {s a v' u} (h : Keeps s u) : KeepsNext s (execResyncSend a v' u) := .next (grpTagCmd_keeps h (fun _ hx1 => launchOrHold_keeps hx1))

theorem execResyncRecv_keeps {s a v' u} (h : Keeps s u) : KeepsNext s (execResyncRecv a v' u) := .next (grpTagCmd_keeps h (fun _ hx1 => launchOrHold_keeps hx1))

theorem execSetEpoch_keeps {s a v' u} (h : Keeps s u) : KeepsNext s (execSetEpoch a v' u) := .next (setEpochCmd_keeps h)

theorem execGrpStationWrite_keeps {s a v' u} (h : Keeps s u) : KeepsNext s (execGrpStationWrite a v' u) := .next (stationWrite_keeps h)

theorem execStrgTrackWrite_keeps {s a v' u} (h : Keeps s u) : KeepsNext s (execStrgTrackWrite a v' u) := .next (trackWrite_keeps h)

theorem execStrgClear_keeps {s a v' u} (h : Keeps s u) : KeepsNext s (execStrgClear a v' u) := .next (strgClearWrite_keeps h)

/-! ### Ingress -/

theorem recordStream_keeps {s u h'} (h : Keeps s u) : Keeps s (recordStream u h') := .frame h

theorem setStreamNext_keeps {s u h' b n} (h : Keeps s u) : Keeps s (setStreamNext u h' b n) := .frame h

theorem recordFrame_keeps {s u k f st} (h : Keeps s u) : Keeps s (recordFrame u k f st) := by
  unfold recordFrame
  extract_lets pg e e' s1
  have hs1 : Keeps s s1 := setPage_keeps id h
  exact ite_keeps hs1 (setPipe_keeps hs1)

theorem dropLate_keeps {s u k id} (h : Keeps s u) : Keeps s (dropLate u k id) := larkCount_keeps (leaveBuffer_keeps h)

theorem damaged_keeps {s u k f i record} (h : Keeps s u) : Keeps s (damaged u k f i record) := by
  unfold damaged
  extract_lets h1 s1 s2 s3
  have hs1 : Keeps s s1 := leaveBuffer_keeps h
  have hs2 : Keeps s s2 := by
    unfold s2
    split
    · exact larkCount_keeps hs1
    · exact hs1
  have hs3 : Keeps s s3 := ite_keeps (recordFrame_keeps hs2) hs2
  exact ite_keeps (dropLate_keeps h) (damagedAbort_keeps hs3)

theorem droppedOnly_keeps {s u k f st} (h : Keeps s u) : Keeps s (droppedOnly u k f st) := by
  unfold droppedOnly
  extract_lets s1 s2
  have hs1 : Keeps s s1 := leaveBuffer_keeps h
  have hs2 : Keeps s s2 := by
    unfold s2
    split
    · exact larkCount_keeps hs1
    · exact hs1
  exact recordFrame_keeps hs2

theorem kcPush_keeps {s u k r key} (h : Keeps s u) : Keeps s (kcPush u k r key).1 := by
  unfold kcPush
  extract_lets p e
  split
  · exact h
  · exact .frame (setPipe_keeps h)

theorem modHeld_keeps {s u k id g} (h : Keeps s u) : Keeps s (modHeld u k id g) := setPipe_keeps h

theorem kcHold_keeps {s u k id i} (h : Keeps s u) : Keeps s (kcHold u k id i) := by
  unfold kcHold
  extract_lets p e s1 _
  have hs1 : Keeps s s1 := setPipe_keeps h
  exact modHeld_keeps (.frame hs1)

theorem kcMiss_keeps {s u k id r} (h : Keeps s u) : Keeps s (kcMiss u k id r) := larkCount_keeps (modHeld_keeps (.frame h))

theorem lookupKeys_keeps {s u k id l} (h : Keeps s u) : Keeps s (lookupKeys u k id l).1 := by
  induction l generalizing u with
  | nil => exact h
  | cons r l ih =>
    unfold lookupKeys
    split
    · exact ih h
    · split
      · exact ih (larkCount_keeps (kcHold_keeps h))
      · exact kcMiss_keeps h

theorem countTaken_keeps {s u k f} (h : Keeps s u) : Keeps s (countTaken u k f) := ite_keeps h (larkCount_keeps (larkCount_keeps h))

theorem parkLow_keeps {s u v} (hv : Keeps s v) : Keeps s (parkLow u v) := ite_keeps (raise_keeps hv) hv

theorem parkFrame_keeps {s u k f why plain rec} (h : Keeps s u) : Keeps s (parkFrame u k f why plain rec) := by
  unfold parkFrame
  extract_lets h1 u1 s1 s2 _ quotaHit
  have hs1 : Keeps s s1 := ite_keeps (recordStream_keeps h) h
  have hs2 : Keeps s s2 := leaveBuffer_keeps hs1
  exact ite_keeps (parkLow_keeps (countTaken_keeps (.frame hs2))) (damaged_keeps (ite_keeps (raise_keeps h) h))

theorem hearFrame_keeps {s u h' rk d e1} (h : Keeps s u) : Keeps s (hearFrame u h' rk d e1).2 := by
  unfold hearFrame
  extract_lets s1 _ _ _ fl e2 s2 s3
  have hs1 : Keeps s s1 := putEntry_keeps h
  have hs2 : Keeps s s2 := putEntry_keeps hs1
  have hs3 : Keeps s s3 := by
    unfold s3
    split
    · exact ite_keeps hs2 (raise_keeps (markAbsent_keeps hs2))
    · exact hs2
  split
  · exact .frame (latchMismatch_keeps hs1)
  · split
    · exact hs1
    · split <;> exact hs3

theorem check10_keeps {s u h'} (h : Keeps s u) : Keeps s (check10 u h').2 := by
  unfold check10
  split
  · exact h
  · extract_lets rk e0 q m e1
    split
    · exact h
    · split
      · exact h
      · split
        · exact h
        · split
          · exact setPart_keeps h
          · exact hearFrame_keeps h

theorem settleScale_keeps {s u p e d c wi} (h : Keeps s u) : Keeps s (settleScale u p e d c wi) :=
  ite_keeps h (putEntry_keeps (foldl_keeps (fun _ _ hx => setTileRec_keeps hx) h))

theorem progress_keeps {s u p g t} (h : Keeps s u) : Keeps s (progress u p g t) := by
  unfold progress
  split
  · split
    · exact h
    · extract_lets s1 _
      have hs1 : Keeps s s1 := settleScale_keeps h
      split
      · exact hs1
      · exact setWin_keeps hs1
  · exact h

theorem doSwap_keeps {s u p e wi} (h : Keeps s u) : Keeps s (doSwap u p e wi) := by
  unfold doSwap
  extract_lets s1 _ s2
  have hs1 : Keeps s s1 := swapWindow_keeps h
  have hs2 : Keeps s s2 := putEntry_keeps hs1
  exact recordStraggler_keeps (recordLast_keeps hs2)

theorem finishIfSent_keeps {s u p g t} (h : Keeps s u) : Keeps s (finishIfSent u p g t) := by
  unfold finishIfSent
  split
  · exact ite_keeps (ite_keeps (delEntry_keeps h) (putEntry_keeps h)) h
  · exact h

theorem swapIfWritten_keeps {s u p g t} (h : Keeps s u) : Keeps s (swapIfWritten u p g t) := by
  unfold swapIfWritten
  split
  · split
    · exact h
    · exact ite_keeps (finishIfSent_keeps (doSwap_keeps h)) h
  · exact h

theorem countHop0_keeps {s u d xs} (h : Keeps s u) : Keeps s (countHop0 u d xs) := by
  unfold countHop0
  extract_lets segs cut _ s1 ties _
  have hs1 : Keeps s s1 := ite_keeps (.frame h) h
  exact ite_keeps (.frame hs1) (ite_keeps (.frame hs1) hs1)

theorem countHopN_keeps {s u d xs} (h : Keeps s u) : Keeps s (countHopN u d xs) := ite_keeps (.frame h) (ite_keeps (.frame h) h)

theorem addFed_keeps {s u h' d wi xs} (h : Keeps s u) : Keeps s (addFed u h' d wi xs) := by
  unfold addFed
  extract_lets s1
  have hs1 : Keeps s s1 := foldl_keeps (fun _ _ hx1 => addTile_keeps hx1) h
  exact ite_keeps (countHop0_keeps hs1) (countHopN_keeps hs1)

theorem writeResult_keeps {s u wi h' xs} (h : Keeps s u) : Keeps s (writeResult u wi h' xs) := by
  unfold writeResult
  extract_lets s1 _
  have hs1 : Keeps s s1 := foldl_keeps (fun _ _ hx1 => setTileRec_keeps (setLanes_keeps hx1)) h
  exact setWin_keeps hs1

theorem noteTiles_keeps {s u v k f wi h' d c xs} (hv : Keeps s v) : Keeps s (noteTiles u v k f wi h' d c xs) := by
  unfold noteTiles
  extract_lets idxs upto full new _ s1 s2 src
  have hs1 : Keeps s s1 := .frame hv
  have hs2 : Keeps s s2 := setStreamNext_keeps hs1
  split
  · exact hs2
  · exact putEntry_keeps hs2

theorem releaseKeys_keeps {s u k id} (h : Keeps s u) : Keeps s (releaseKeys u k id) := by
  unfold releaseKeys
  split
  · exact h
  · exact modHeld_keeps (setPipe_keeps h)

theorem putTiles_keeps {s u k f h' d c wi ts} (h : Keeps s u) : Keeps s (putTiles u k f h' d c wi ts) := by
  unfold putTiles
  extract_lets rk xs s1
  have hs1 : Keeps s s1 := ite_keeps (writeResult_keeps h) (addFed_keeps h)
  exact releaseKeys_keeps (noteTiles_keeps (recordStream_keeps hs1))

theorem takeTiles_keeps {s u k f h' plain d c wi first} (h : Keeps s u) : Keeps s (takeTiles u k f h' plain d c wi first) := by
  unfold takeTiles
  extract_lets bad _ relays
  have hbad : Keeps s bad := damaged_keeps h
  split
  · exact hbad
  · extract_lets rd ts s2 s3 s4 s5
    have hs2 : Keeps s s2 := putTiles_keeps h
    have hs3 : Keeps s s3 := countTaken_keeps (modHeld_keeps hs2)
    have hs4 : Keeps s s4 := ite_keeps (modFlow_keeps hs3) hs3
    have hs5 : Keeps s s5 := by
      unfold s5
      split
      · exact markAbsent_keeps hs4
      · exact hs4
    split
    · exact hbad
    · split
      · exact parkFrame_keeps h
      · exact ite_keeps (damaged_keeps (raise_keeps (.frame h))) (ite_keeps hbad (progress_keeps hs5))

theorem takeScale_keeps {s u k f h' plain d wi e} (h : Keeps s u) : Keeps s (takeScale u k f h' plain d wi e) := by
  unfold takeScale
  extract_lets dist n want upto s0 s2 _ sm fl s1
  have hs0 : Keeps s s0 := recordStream_keeps h
  have hs2 : Keeps s s2 := foldl_keeps (fun _ _ hx => setTileRec_keeps hx) hs0
  have hs1 : Keeps s s1 := ite_keeps (putEntry_keeps hs2) (putEntry_keeps hs0)
  exact ite_keeps (damaged_keeps h) (progress_keeps (countTaken_keeps (leaveBuffer_keeps hs1)))

theorem takeActive_keeps {s u k f h' plain} (h : Keeps s u) : Keeps s (takeActive u k f h' plain) := by
  unfold takeActive
  split
  · exact ite_keeps (takeScale_keeps h) (takeTiles_keeps h)
  · exact dropLate_keeps h

theorem dropReserve_keeps {s u no} (h : Keeps s u) : Keeps s (dropReserve u no) := .frame h

theorem replayDamaged_keeps {s u k f r st record} (h : Keeps s u) : Keeps s (replayDamaged u k f r st record) := damaged_keeps (dropReserve_keeps h)

theorem replayWrite_keeps {s k f h' d wi r u x'} (h : Keeps s u) : Keeps s (replayWrite k f h' d wi r u x') := by
  unfold replayWrite
  extract_lets t _ job ls rec0 rec1 s1 ck _
  have hs1 : Keeps s s1 := setTileRec_keeps (setLanes_keeps h)
  exact .frame hs1

theorem replayTiles_keeps {s u k f h' r plain} (h : Keeps s u) : Keeps s (replayTiles u k f h' r plain) := by
  unfold replayTiles
  split
  · exact ite_keeps (replayDamaged_keeps h) (ite_keeps (modHeld_keeps (releaseKeys_keeps (foldl_keeps (fun _ _ hx1 => replayWrite_keeps hx1) h)))
      (replayDamaged_keeps h))
  · exact leaveBuffer_keeps (dropReserve_keeps h)

theorem replayFrame_keeps {s u k f no} (h : Keeps s u) : Keeps s (replayFrame u k f no) := by
  unfold replayFrame
  extract_lets h1 l
  have hl : Keeps s l.1 := lookupKeys_keeps h
  split
  · exact leaveBuffer_keeps h
  · split
    · exact replayDamaged_keeps h
    · split
      · exact replayDamaged_keeps h
      · exact replayDamaged_keeps h
      · split
        · exact hl
        · split
          · exact replayDamaged_keeps hl
          · exact replayTiles_keeps hl

theorem admitFrame_keeps {s u k f h' plain} (h : Keeps s u) : Keeps s (admitFrame u k f h' plain) := by
  unfold admitFrame
  extract_lets r s1 _
  have hr : Keeps s r.2 := check10_keeps h
  have hs1 : Keeps s s1 := leaveBuffer_keeps hr
  split
  · exact damaged_keeps hr
  · exact dropLate_keeps hr
  · exact .frame hs1
  · exact .frame hs1
  · exact parkFrame_keeps hr
  · exact takeActive_keeps hr

theorem openedFrame_keeps {s fab u k f h' plain} (hfab : ∀ x a1, Keeps s x → Keeps s (fab x a1)) (h : Keeps s u) :
    Keeps s (openedFrame fab u k f h' plain) := by
  unfold openedFrame
  split
  · exact damaged_keeps h
  · exact ite_keeps (admitFrame_keeps h) (hfab _ _ (countTaken_keeps (leaveBuffer_keeps h)))

theorem keyedFrame_keeps {s fab u k f h'} (hfab : ∀ x a1, Keeps s x → Keeps s (fab x a1)) (h : Keeps s u) : Keeps s (keyedFrame fab u k f h') := by
  unfold keyedFrame
  split
  · exact damaged_keeps h
  · exact parkFrame_keeps h
  · extract_lets l key
    have hl : Keeps s l.1 := lookupKeys_keeps h
    split
    · exact hl
    · split
      · exact damaged_keeps hl
      · exact openedFrame_keeps hfab hl

theorem resumeFrame_keeps {s u k f h' plain} (h : Keeps s u) : Keeps s (resumeFrame u k f h' plain) :=
  ite_keeps (damaged_keeps h) (ite_keeps (takeActive_keeps (lookupKeys_keeps h)) (lookupKeys_keeps h))

theorem runFrame_keeps {s fab u k f} (hfab : ∀ x a1, Keeps s x → Keeps s (fab x a1)) (h : Keeps s u) : Keeps s (runFrame fab u k f) := by
  unfold runFrame
  extract_lets h1
  split
  · exact replayFrame_keeps h
  · exact resumeFrame_keeps h
  · split
    · exact damaged_keeps h
    · exact droppedOnly_keeps h
    · exact keyedFrame_keeps hfab h

theorem pumpPipe_keeps {s fab n u k} (hfab : ∀ x a, Keeps s x → Keeps s (fab x a)) (h : Keeps s u) : Keeps s (pumpPipe fab n u k) := by
  induction n generalizing u with
  | zero => exact h
  | succ n ih =>
    unfold pumpPipe
    split
    · exact h
    · split
      · exact h
      · exact ih (runFrame_keeps hfab h)

theorem dropAtPort_keeps {s u f} (h : Keeps s u) : Keeps s (dropAtPort u f) := giveCredits_keeps (useCredits_keeps h)

theorem overrunAtPort_keeps {s u f} (h : Keeps s u) : Keeps s (overrunAtPort u f) := by
  unfold overrunAtPort
  extract_lets h1 s1
  have hs1 : Keeps s s1 := dropAtPort_keeps h
  exact ite_keeps hs1 (damagedAbort_keeps hs1)

theorem enterPort_keeps {s fab u f} (hfab : ∀ x a1, Keeps s x → Keeps s (fab x a1)) (h : Keeps s u) : Keeps s (enterPort fab u f) := by
  unfold enterPort
  extract_lets port s0
  have hs0 : Keeps s s0 := useCredits_keeps h
  split
  · exact dropAtPort_keeps h
  · split
    · exact overrunAtPort_keeps h
    · extract_lets p _ _ s1
      have hs1 : Keeps s s1 := .frame (setPipe_keeps hs0)
      exact pumpPipe_keeps hfab hs1

theorem reinject_keeps {s fab u x'} (hfab : ∀ x a1, Keeps s x → Keeps s (fab x a1)) (h : Keeps s u) : Keeps s (reinject fab u x') := by
  unfold reinject
  split
  · exact .frame h
  · extract_lets id p f _ _
    exact pumpPipe_keeps hfab (.frame (setPipe_keeps h))

theorem capIdle_keeps {s u k ready} (h : Keeps s u) : Keeps s (capIdle u k ready) := setPipe_keeps h

theorem servePipe_keeps {s u k ready} (h : Keeps s u) : Keeps s (servePipe u k ready).2 := by
  unfold servePipe
  extract_lets s0 q r
  have hs0 : Keeps s s0 := capIdle_keeps h
  split
  · exact setPipe_keeps hs0
  · exact hs0

theorem spendAllow_keeps {s u k p beats} (h : Keeps s u) : Keeps s (spendAllow u k p beats) := setPipe_keeps h

theorem returnVia_keeps {s fab k n l u} (hfab : ∀ x a, Keeps s x → Keeps s (fab x a)) (h : Keeps s u) : Keeps s (returnVia fab k n l u) := by
  induction n generalizing l u with
  | zero => exact foldl_keeps (fun _ _ hx => reinject_keeps hfab hx) (capIdle_keeps h)
  | succ n ih =>
    unfold returnVia
    split
    · next s1 e => exact foldl_keeps (fun _ _ hx => reinject_keeps hfab hx) (keeps_snd (servePipe_keeps h) e)
    · next p s1 e =>
      have hs1 : Keeps s s1 := keeps_snd (servePipe_keeps h) e
      split
      · exact hs1
      · exact ih (reinject_keeps hfab (spendAllow_keeps hs1))

theorem returnParked_keeps {s fab c u} (hfab : ∀ x a1, Keeps s x → Keeps s (fab x a1)) (h : Keeps s u) : Keeps s (returnParked fab c u) := by
  unfold returnParked
  extract_lets l _ s1
  have hs1 : Keeps s s1 := .frame h
  exact foldl_keeps (fun _ _ hx => returnVia_keeps hfab hx) hs1

theorem returnScaled_keeps {s fab u p g t} (hfab : ∀ x a1, Keeps s x → Keeps s (fab x a1)) (h : Keeps s u) : Keeps s (returnScaled fab u p g t) := by
  unfold returnScaled
  split
  · exact h
  · exact returnParked_keeps hfab h

theorem takeFrame_keeps {s fab u f} (hfab : ∀ x a1, Keeps s x → Keeps s (fab x a1)) (h : Keeps s u) : Keeps s (takeFrame fab u f) :=
  ite_keeps (returnScaled_keeps hfab (enterPort_keeps hfab h)) (dropAtPort_keeps h)

theorem ingressFrame_keeps {s fab u f} (hfab : ∀ x a1, Keeps s x → Keeps s (fab x a1)) (h : Keeps s u) : Keeps s (ingressFrame fab u f) :=
  ite_keeps h (ite_keeps h (takeFrame_keeps hfab h))

/-! ### Larkspur -/

theorem setPipeSt_keeps {s u k st} (h : Keeps s u) : Keeps s (setPipeSt u k st) :=
  ite_keeps h (ite_keeps (sendWaiting_keeps (raise_keeps (setPipe_keeps h))) (raise_keeps (setPipe_keeps h)))

theorem csDataWrite_keeps {s u a k v'} (h : Keeps s u) : Keeps s (csDataWrite u a k v') := regWrite_keeps h (fun _ hx => setPipe_keeps hx)

theorem csTake_keeps {s a k v' u} (h : Keeps s u) : Keeps s (csTake a k v' u) := ite_keeps (setPipeSt_keeps (setPipe_keeps h)) (noteCmd_keeps h)

theorem csCommit_keeps {s u a k v'} (h : Keeps s u) : Keeps s (csCommit u a k v') := regWrite_keeps h (fun _ hx => csTake_keeps hx)

theorem setInBind_keeps {s u k m} (h : Keeps s u) : Keeps s (setInBind u k m) := by
  unfold setInBind
  extract_lets p gone dr p1 s1
  have hs1 : Keeps s s1 := setPipeSt_keeps (setPipe_keeps h)
  exact foldl_keeps (fun _ _ hx => grantPort_keeps (.frame hx)) hs1

theorem setOutBind_keeps {s u k m} (h : Keeps s u) : Keeps s (setOutBind u k m) := setPipeSt_keeps (setPipe_keeps h)

theorem setBind_keeps {s u k m} (h : Keeps s u) : Keeps s (setBind u k m) := ite_keeps (setInBind_keeps h) (setOutBind_keeps h)

theorem bindWrite_keeps {s u a k v'} (h : Keeps s u) : Keeps s (bindWrite u a k v') := regWrite_keeps h (fun _ hx => updateLive_keeps (setBind_keeps hx))

theorem giveUpPort_keeps {s u k b} (h : Keeps s u) : Keeps s (giveUpPort u k b) := by
  unfold giveUpPort
  split
  · exact h
  · exact ite_keeps h (setBind_keeps h)

theorem bindBack_keeps {s u k} (h : Keeps s u) : Keeps s (bindBack u k) :=
  foldl_keeps (fun _ _ hx => ite_keeps (giveUpPort_keeps hx) (setBind_keeps (.frame (giveUpPort_keeps hx)))) h

theorem bindBackAll_keeps {s u} (h : Keeps s u) : Keeps s (bindBackAll u) := foldl_keeps (fun _ _ hx => ite_keeps (bindBack_keeps hx) hx) h

theorem drainEnd_keeps {s u k port} (h : Keeps s u) : Keeps s (drainEnd u k port) := by
  unfold drainEnd
  extract_lets p p1 s1
  have hs1 : Keeps s s1 := ite_keeps (setPipeSt_keeps (setPipe_keeps h)) (setPipe_keeps h)
  exact ite_keeps (updateLive_keeps (bindBackAll_keeps hs1)) h

theorem kcFlushWrite_keeps {s u a k v'} (h : Keeps s u) : Keeps s (kcFlushWrite u a k v') := regWrite_keeps h (fun _ hx => setPipe_keeps hx)

theorem zeroAllCaches_keeps {s u c} (h : Keeps s u) : Keeps s (zeroAllCaches u c) := .frame h

theorem flushAllCaches_keeps {s u c} (h : Keeps s u) : Keeps s (flushAllCaches u c) := .frame h

theorem movePorts_keeps {s u k ports} (h : Keeps s u) : Keeps s (movePorts u k ports) := by
  unfold movePorts
  refine foldl_keeps (fun x a hx => ?_) h
  split
  · exact hx
  · split
    · exact setBind_keeps hx
    · exact hx

theorem dropPorts_keeps {s u k} (h : Keeps s u) : Keeps s (dropPorts u k) := setPipe_keeps h

theorem roundOver_keeps {s u v} (hv : Keeps s v) : Keeps s (roundOver u v) := ite_keeps (raise_keeps hv) hv

theorem leaveRound_keeps {s u k} (h : Keeps s u) : Keeps s (leaveRound u k) := roundOver_keeps (.frame h)

theorem setClass_keeps {s u k c} (h : Keeps s u) : Keeps s (setClass u k c) := setSndPipe_keeps h

theorem retirePipe_keeps {s u k} (h : Keeps s u) : Keeps s (retirePipe u k) := by
  unfold retirePipe
  split
  · exact h
  · extract_lets ports s1 _ s2 hit s3 s4 _ s5 s6
    have hs1 : Keeps s s1 := setClass_keeps (setPipeSt_keeps h)
    have hs2 : Keeps s s2 := leaveRound_keeps (.frame hs1)
    have hs3 : Keeps s s3 := foldl_keeps (fun _ _ hx => leaveBuffer_keeps hx) hs2
    have hs4 : Keeps s s4 := abortEach_keeps (dropPorts_keeps hs3)
    have hs5 : Keeps s s5 := setPipe_keeps hs4
    have hs6 : Keeps s s6 := movePorts_keeps hs5
    exact updateLive_keeps (raise_keeps (raise_keeps hs6))

theorem execCsDataWrite_keeps {s a pipe v' u} (h : Keeps s u) : KeepsNext s (execCsDataWrite a pipe v' u) := .next (csDataWrite_keeps h)

theorem execCsCommit_keeps {s a pipe v' u} (h : Keeps s u) : KeepsNext s (execCsCommit a pipe v' u) := .next (csCommit_keeps h)

theorem execBindWrite_keeps {s a pipe v' u} (h : Keeps s u) : KeepsNext s (execBindWrite a pipe v' u) := .next (bindWrite_keeps h)

theorem execDrainEnd_keeps {s pipe port u} (h : Keeps s u) : KeepsNext s (execDrainEnd pipe port u) :=
  .next (whenArith_keeps h (fun _ hx1 => drainEnd_keeps hx1))

theorem execKcFlush_keeps {s a pipe v' u} (h : Keeps s u) : KeepsNext s (execKcFlush a pipe v' u) := .next (kcFlushWrite_keeps h)

/-! ### Context -/

theorem saveKeyPush_keeps {s u pipe part group epoch salt} (h : Keeps s u) : Keeps s (saveKeyPush u pipe part group epoch salt).1 := by
  unfold saveKeyPush
  split
  · exact h
  · extract_lets s1
    have hs1 : Keeps s s1 := noteBad_keeps h
    split
    · exact hs1
    · split
      · exact hs1
      · extract_lets key s2 _
        have hs2 : Keeps s s2 := kcPush_keeps hs1
        exact .frame hs2

theorem ctxEndCode_keeps {s u x' code} (h : Keeps s u) : Keeps s (ctxEndCode u x' code) := by
  unfold ctxEndCode
  extract_lets _ s1
  have hs1 : Keeps s s1 := raise_keeps (.frame h)
  exact ite_keeps hs1 (pageErrorCode_keeps hs1)

theorem ctxEnd_keeps {s u x' st} (h : Keeps s u) : Keeps s (ctxEnd u x' st) := ctxEndCode_keeps h

theorem ctxLatch_keeps {s u x' t fs} (h : Keeps s u) : Keeps s (ctxLatch u x' t fs) := latchFails_keeps h

theorem savePassed_keeps {s u x' p} (h : Keeps s u) : Keeps s (savePassed u x' p) := by
  unfold savePassed
  extract_lets n y _
  split
  · exact ctxEnd_keeps (ctxLatch_keeps h)
  · exact ite_keeps (ctxEnd_keeps h) (.frame h)

theorem restoreWipe_keeps {s u wi} (h : Keeps s u) : Keeps s (restoreWipe u wi) := by
  unfold restoreWipe
  extract_lets w s1
  have hs1 : Keeps s s1 := foldl_keeps (fun _ _ hx => setLanes_keeps hx) h
  exact setWin_keeps (mapRecs_keeps hs1)

theorem restoreFail_keeps {s u x' st} (h : Keeps s u) : Keeps s (restoreFail u x' st) := ctxEnd_keeps (ite_keeps (restoreWipe_keeps h) h)

theorem chunkWrite_keeps {s u x' plain} (h : Keeps s u) : Keeps s (chunkWrite u x' plain) := foldl_keeps (fun _ _ hx => setTileRec_keeps (setLanes_keeps hx)) h

theorem restoreTake_keeps {s n u} (h : Keeps s u) : Keeps s (restoreTake n u) := by
  induction n generalizing u with
  | zero => exact h
  | succ n ih =>
    unfold restoreTake
    split
    · exact h
    · dsimp only
      split
      · split
        · exact h
        · split
          · exact ctxEnd_keeps h
          · split
            · next e => exact restoreFail_keeps (keeps_fst (saveKeyPush_keeps (ite_keeps (setWin_keeps h) h)) e)
            · next e => exact ih (.frame (keeps_fst (saveKeyPush_keeps (ite_keeps (setWin_keeps h) h)) e))
      · split
        · exact h
        · split
          · exact restoreFail_keeps h
          · split
            · exact restoreFail_keeps (ctxLatch_keeps h)
            · split
              · exact ctxEnd_keeps (chunkWrite_keeps h)
              · exact ih (.frame (chunkWrite_keeps h))

theorem restoreFeed_keeps {s u x' b} (h : Keeps s u) : Keeps s (restoreFeed u x' b) := restoreTake_keeps (.frame h)

theorem restoreAhead_keeps {s n u} (h : Keeps s u) : Keeps s (restoreAhead n u) := by
  induction n generalizing u with
  | zero => exact h
  | succ n ih =>
    unfold restoreAhead
    split
    · exact h
    · split
      · exact h
      · exact ih (restoreFeed_keeps (.frame h))

theorem restoreAt_keeps {s u x' off b} (h : Keeps s u) : Keeps s (restoreAt u x' off b) := restoreAhead_keeps (.frame h)

theorem ctxCut_keeps {s u ch st} (h : Keeps s u) : Keeps s (ctxCut u ch st) := by
  unfold ctxCut
  split
  · exact h
  · split
    · exact h
    · extract_lets s1 d
      have hs1 : Keeps s s1 := ite_keeps (restoreWipe_keeps h) h
      have hd : Keeps s d.2 := freeDraw_keeps hs1
      exact ite_keeps (ctxEnd_keeps hd) (ctxEndCode_keeps hs1)

/-! ### Ecc -/

theorem eccCorrected_keeps {s u n} (h : Keeps s u) : Keeps s (eccCorrected u n) := ite_keeps h (raise_keeps (.frame h))

theorem eccLatch_keeps {s u h'} (h : Keeps s u) : Keeps s (eccLatch u h') := by
  unfold eccLatch
  extract_lets a _ s1 w
  have hs1 : Keeps s s1 := raise_keeps (.frame h)
  exact ite_keeps (setWin_keeps hs1) hs1

theorem eccAbort_keeps {s u p g t} (h : Keeps s u) : Keeps s (eccAbort u p g t) := by
  unfold eccAbort
  split
  · exact abortEntry_keeps h
  · exact h

theorem eccAdded_keeps {s u v e} (hv : Keeps s v) : Keeps s (eccAdded u v e) := by
  unfold eccAdded
  extract_lets new s2
  have hs2 : Keeps s s2 := eccCorrected_keeps hv
  split
  · exact hv
  · split
    · exact hs2
    · split
      · exact eccAbort_keeps (eccLatch_keeps hs2)
      · exact hs2

theorem eccRead_keeps {s u f e} (h : Keeps s u) : Keeps s (eccRead u f e) := by
  unfold eccRead
  extract_lets s1
  have hs1 : Keeps s s1 := eccCorrected_keeps h
  split
  · exact hs1
  · exact ite_keeps (eccAbort_keeps (eccLatch_keeps hs1)) hs1

theorem eccBuilt_keeps {s u v k e} (hv : Keeps s v) : Keeps s (eccBuilt u v k e) := by
  unfold eccBuilt
  split
  · exact hv
  · split
    · exact hv
    · exact eccRead_keeps hv

theorem eccReplayed_keeps {s u v k e} (hv : Keeps s v) : Keeps s (eccReplayed u v k e) := by
  unfold eccReplayed
  split
  · exact hv
  · exact ite_keeps (eccRead_keeps hv) hv

theorem eccContext_keeps {s u v e} (hv : Keeps s v) : Keeps s (eccContext u v e) := by
  unfold eccContext
  split
  · exact hv
  · extract_lets s2
    have hs2 : Keeps s s2 := eccCorrected_keeps hv
    split
    · exact hs2
    · exact ite_keeps (ctxEnd_keeps (ite_keeps (eccLatch_keeps hs2) (restoreWipe_keeps (eccLatch_keeps hs2)))) hs2

/-! ### Sounding -/

theorem suspendPipe_keeps {s u k} (h : Keeps s u) : Keeps s (suspendPipe u k) := by
  unfold suspendPipe
  extract_lets ports s1 _ s2 s3 s4
  have hs1 : Keeps s s1 := setClass_keeps h
  have hs2 : Keeps s s2 := .frame hs1
  have hs3 : Keeps s s3 := dropPorts_keeps hs2
  have hs4 : Keeps s s4 := ite_keeps (setPipeSt_keeps hs3) hs3
  exact updateLive_keeps (movePorts_keeps hs4)

theorem replayPassed_keeps {s u k internal} (h : Keeps s u) : Keeps s (replayPassed u k internal) := by
  unfold replayPassed
  split
  · exact raise_keeps (sndCount_keeps h)
  · extract_lets p p1 s1
    have hs1 : Keeps s s1 := raise_keeps (sndCount_keeps (setSndPipe_keeps h))
    exact ite_keeps (retirePipe_keeps hs1) (ite_keeps (setClass_keeps hs1) (ite_keeps (suspendPipe_keeps hs1) hs1))

theorem suspectPipe_keeps {s u k} (h : Keeps s u) : Keeps s (suspectPipe u k) := ite_keeps (setClass_keeps h) h

theorem abortTile_keeps {s u k part group ticket tile reason} (h : Keeps s u) : Keeps s (abortTile u k part group ticket tile reason) := by
  unfold abortTile
  split
  · exact abortEntry_keeps h
  · exact h

theorem unattributed_keeps {s u k part group ticket tile q reason both} (h : Keeps s u) : Keeps s (unattributed u k part group ticket tile q reason both) := by
  unfold unattributed
  extract_lets s1 s2
  have hs1 : Keeps s s1 := raise_keeps (sndCount_keeps h)
  have hs2 : Keeps s s2 := suspectPipe_keeps (ite_keeps (suspectPipe_keeps hs1) hs1)
  exact abortTile_keeps (latchOutcome_keeps hs2)

theorem leaveIfDone_keeps {s u k id} (h : Keeps s u) : Keeps s (leaveIfDone u k id) := by
  unfold leaveIfDone
  split
  · exact ite_keeps (leaveBuffer_keeps h) h
  · exact h

theorem checkOver_keeps {s u c} (h : Keeps s u) : Keeps s (checkOver u c) := leaveIfDone_keeps (modHeld_keeps h)

theorem relayOver_keeps {s u k id} (h : Keeps s u) : Keeps s (relayOver u k id) := leaveIfDone_keeps (modHeld_keeps h)

theorem dropUnchecked_keeps {s u c} (h : Keeps s u) : Keeps s (dropUnchecked u c) := modFlow_keeps h

theorem modReserve_keeps {s u no g} (h : Keeps s u) : Keeps s (modReserve u no g) := .frame h

theorem tileKept_keeps {s u r tile} (h : Keeps s u) : Keeps s (tileKept u r tile) := ite_keeps (dropReserve_keeps h) (modReserve_keeps h)

theorem faultWrite_keeps {s u c w'} (h : Keeps s u) : Keeps s (faultWrite u c w') := by
  unfold faultWrite
  extract_lets w
  split
  · exact h
  · split
    · exact h
    · exact setLanes_keeps h

theorem joinReserve_keeps {s u r c t} (h : Keeps s u) : Keeps s (joinReserve u r c t) := modReserve_keeps h

theorem keepForReplay_keeps {s u c internal w'} (h : Keeps s u) : Keeps s (keepForReplay u c internal w') := by
  have fail {x : State} (hx : Keeps s x) : Keeps s (if c.replay.isSome then x else
      modFlow x c.part c.group c.ticket (fun fl => { fl with failed := fl.failed ++ [c.tile] })) := ite_keeps hx (modFlow_keeps hx)
  unfold keepForReplay
  dsimp only
  split
  · exact leaveBuffer_keeps (fail (joinReserve_keeps h))
  · split
    · exact unattributed_keeps (checkOver_keeps h)
    · exact parkLow_keeps (leaveBuffer_keeps (fail (.frame h)))

theorem inputPassed_keeps {s u c} (h : Keeps s u) : Keeps s (inputPassed u c) := swapIfWritten_keeps (progress_keeps (checkOver_keeps h))

theorem inputFailed_keeps {s u c x'} (h : Keeps s u) : Keeps s (inputFailed u c x') := by
  unfold inputFailed
  extract_lets s1
  have hs1 : Keeps s s1 := latchFails_keeps h
  split
  · exact unattributed_keeps (checkOver_keeps hs1)
  · exact ite_keeps (unattributed_keeps (checkOver_keeps hs1)) (progress_keeps (keepForReplay_keeps hs1))

theorem replayChecked_keeps {s u c r x'} (h : Keeps s u) : Keeps s (replayChecked u c r x') := by
  unfold replayChecked
  extract_lets internal s1 s2 s3
  have hs1 : Keeps s s1 := tileKept_keeps h
  have hs2 : Keeps s s2 := modFlow_keeps hs1
  have hs3 : Keeps s s3 := latchOutcome_keeps hs2
  split
  · exact unattributed_keeps (checkOver_keeps hs1)
  · exact ite_keeps (unattributed_keeps (checkOver_keeps hs1)) (replayPassed_keeps (inputPassed_keeps hs3))

theorem inputCheckDone_keeps {s u k fault} (h : Keeps s u) : Keeps s (inputCheckDone u k fault) := by
  unfold inputCheckDone
  split
  · exact h
  · extract_lets _ s1 x s2 s3
    have hs1 : Keeps s s1 := sndCount_keeps (.frame h)
    have hs2 : Keeps s s2 := faultWrite_keeps hs1
    have hs3 : Keeps s s3 := ite_keeps hs2 (dropUnchecked_keeps hs2)
    split
    · exact replayChecked_keeps (latchFails_keeps hs2)
    · exact ite_keeps (inputPassed_keeps hs3) (inputFailed_keeps hs3)

theorem ingressReplay_keeps {s u k} (h : Keeps s u) : Keeps s (ingressReplay u k) := by
  unfold ingressReplay
  split
  · exact h
  · extract_lets q id f _ _ _ _ s1
    have hs1 : Keeps s s1 := .frame (setPipe_keeps h)
    exact replayFrame_keeps hs1

theorem modOut_keeps {s u k f g} (h : Keeps s u) : Keeps s (modOut u k f g) := setPipe_keeps h

theorem releaseWrites_keeps {s u f} (h : Keeps s u) : Keeps s (releaseWrites u f) := by
  unfold releaseWrites
  split
  · exact h
  · extract_lets s1 _
    have hs1 : Keeps s s1 := foldl_keeps (fun _ _ hx => setTileRec_keeps (setLanes_keeps hx)) h
    exact setWin_keeps hs1

theorem swapIfReleased_keeps {s u p g t} (h : Keeps s u) : Keeps s (swapIfReleased u p g t) := by
  unfold swapIfReleased
  split
  · split
    · exact h
    · exact ite_keeps (doSwap_keeps h) h
  · exact h

theorem frameChecked_keeps {s u k f} (h : Keeps s u) : Keeps s (frameChecked u k f) := by
  unfold frameChecked
  extract_lets s1
  have hs1 : Keeps s s1 := by
    unfold s1
    split
    · exact relayOver_keeps h
    · exact h
  exact ite_keeps hs1 (ite_keeps (swapIfReleased_keeps hs1) (modOut_keeps (releaseWrites_keeps hs1)))

theorem redoPassed_keeps {s u k f} (h : Keeps s u) : Keeps s (redoPassed u k f) := by
  unfold redoPassed
  split
  · exact h
  · exact replayPassed_keeps (latchOutcome_keeps h)

theorem outTilePassed_keeps {s u k f} (h : Keeps s u) : Keeps s (outTilePassed u k f) :=
  ite_keeps (modOut_keeps h) (redoPassed_keeps (frameChecked_keeps (modOut_keeps h)))

theorem faultStore_keeps {s u f x'} (h : Keeps s u) : Keeps s (faultStore u f x') := by
  unfold faultStore
  split
  · exact ite_keeps h (setLanes_keeps h)
  · exact h

theorem outputCheckDone_keeps {s u k fault} (h : Keeps s u) : Keeps s (outputCheckDone u k fault) := by
  unfold outputCheckDone
  split
  · exact h
  · extract_lets s1
    have hs1 : Keeps s s1 := sndCount_keeps h
    split
    · exact outTilePassed_keeps hs1
    · extract_lets fs s2 s3
      have hs2 : Keeps s s2 := faultStore_keeps hs1
      have hs3 : Keeps s s3 := latchFails_keeps hs2
      split
      · exact outTilePassed_keeps hs2
      · split
        · exact unattributed_keeps hs3
        · exact modOut_keeps hs3

theorem egressReplay_keeps {s u k} (h : Keeps s u) : Keeps s (egressReplay u k) := by
  unfold egressReplay
  split
  · exact h
  · exact ite_keeps (unattributed_keeps h) (modOut_keeps (ite_keeps (releaseWrites_keeps h) h))

theorem soundingCheckDone_keeps {s u k fault} (h : Keeps s u) : Keeps s (soundingCheckDone u k fault) :=
  ite_keeps (inputCheckDone_keeps h) (outputCheckDone_keeps h)

theorem startRound_keeps {s u mask} (h : Keeps s u) : Keeps s (startRound u mask) := by
  unfold startRound
  extract_lets l _ s1
  have hs1 : Keeps s s1 := .frame h
  exact ite_keeps hs1 (raise_keeps hs1)

theorem selfTestEvent_keeps {s u} (h : Keeps s u) : Keeps s (selfTestEvent u) := ite_keeps (startRound_keeps (ite_keeps (sndCount_keeps h) h)) h

theorem sndStCmd_keeps {s u a v'} (h : Keeps s u) : Keeps s (sndStCmd u a v') := regWrite_keeps h (fun _ hx => startRound_keeps hx)

theorem failTest_keeps {s u k} (h : Keeps s u) : Keeps s (failTest u k) := retirePipe_keeps (raise_keeps (sndCount_keeps (setSndPipe_keeps h)))

theorem passTest_keeps {s u k} (h : Keeps s u) : Keeps s (passTest u k) := by
  unfold passTest
  extract_lets _ s1 s2
  have hs1 : Keeps s s1 := setSndPipe_keeps h
  have hs2 : Keeps s s2 := ite_keeps (setPipeSt_keeps hs1) hs1
  exact updateLive_keeps (bindBack_keeps hs2)

theorem unitOutcome_keeps {s u k q t x'} (h : Keeps s u) : Keeps s (unitOutcome u k q t x') := by
  unfold unitOutcome
  split
  · exact h
  · split
    · exact failTest_keeps h
    · exact raise_keeps (sndCount_keeps h)

theorem unitRun_keeps {s u u' q t x'} (h : Keeps s u) : Keeps s (unitRun u u' q t x') := by
  unfold unitRun
  extract_lets p d s1 outs left _ s2 s3 _ s4
  have hd : Keeps s d.2 := drbgDraw_keeps h
  have hs1 : Keeps s s1 := sndCount_keeps (setSndPipe_keeps hd)
  have hs2 : Keeps s s2 := .frame hs1
  have hs3 : Keeps s s3 := unitOutcome_keeps hs2
  have hs4 : Keeps s s4 := ite_keeps (passTest_keeps (.frame hs3)) hs3
  exact roundOver_keeps hs4

theorem selfTestUnit_keeps {s u x'} (h : Keeps s u) : Keeps s (selfTestUnit u x') := by
  unfold selfTestUnit
  split
  · exact h
  · split
    · exact h
    · exact ite_keeps (unitRun_keeps h) h

theorem moveUnstarted_keeps {s fab u k} (hfab : ∀ x a1, Keeps s x → Keeps s (fab x a1)) (h : Keeps s u) : Keeps s (moveUnstarted fab u k) := by
  unfold moveUnstarted
  extract_lets q p waiting l p1 s1 _ s2
  have hs1 : Keeps s s1 := setPipe_keeps h
  have hs2 : Keeps s s2 := setPipe_keeps hs1
  exact ite_keeps h (pumpPipe_keeps hfab hs2)

theorem reloadStore_keeps {s u k stuck} (h : Keeps s u) : Keeps s (reloadStore u k stuck) := ite_keeps h (ite_keeps (setPipe_keeps h) (retirePipe_keeps h))

theorem csParityError_keeps {s fab u k stuck} (hfab : ∀ x a1, Keeps s x → Keeps s (fab x a1)) (h : Keeps s u) : Keeps s (csParityError fab u k stuck) := by
  unfold csParityError
  extract_lets st s1 s2 _ s3 s4
  have hs1 : Keeps s s1 := raise_keeps (setPipeSt_keeps h)
  have hs2 : Keeps s s2 := foldl_keeps (fun _ _ hx => keepForReplay_keeps (ite_keeps (.frame hx) (dropUnchecked_keeps (.frame hx)))) hs1
  have hs3 : Keeps s s3 := setPipe_keeps hs2
  have hs4 : Keeps s s4 := suspendPipe_keeps hs3
  exact ite_keeps h (reloadStore_keeps (ite_keeps (moveUnstarted_keeps hfab hs4) hs4))

theorem execSoundingCheckDone_keeps {s pipe fault u} (h : Keeps s u) : KeepsNext s (execSoundingCheckDone pipe fault u) :=
  .next (whenArith_keeps h (fun _ hx1 => soundingCheckDone_keeps hx1))

theorem execSndStCmd_keeps {s a v' u} (h : Keeps s u) : KeepsNext s (execSndStCmd a v' u) := .next (sndStCmd_keeps h)

theorem execSelfTestUnit_keeps {s fault u} (h : Keeps s u) : KeepsNext s (execSelfTestUnit fault u) :=
  .next (whenArith_keeps h (fun _ hx1 => selfTestUnit_keeps hx1))

/-! ### Egress -/

theorem holdBuilt_keeps {s u k p e key b} (h : Keeps s u) : Keeps s (holdBuilt u k p e key b) := by
  unfold holdBuilt
  extract_lets _ fl s1 bytes q s2 _ _ _ s3
  have hs1 : Keeps s s1 := putEntry_keeps h
  have hs2 : Keeps s s2 := setPipe_keeps hs1
  have hs3 : Keeps s s3 := .frame (sndCount_keeps (spendAllow_keeps hs2))
  exact ite_keeps hs3 (larkCount_keeps hs3)

theorem touchKey_keeps {s u k p e} (h : Keeps s u) : Keeps s (touchKey u k p e) := by
  unfold touchKey
  split
  · exact h
  · exact kcTouch_keeps h

theorem buildFor_keeps {s u k p e} (h : Keeps s u) : Keeps s (buildFor u k p e) := by
  unfold buildFor
  dsimp only
  split
  · exact h
  · split
    · exact abortEntry_keeps h
    · split
      · exact larkCount_keeps (.frame (setPipe_keeps h))
      · split
        · refine abortEntry_keeps ?_
          split
          · exact ite_keeps (noteNoise_keeps h) h
          · exact h
        · split
          · exact ite_keeps (noteNoise_keeps h) h
          · exact h
        · split
          · refine abortEntry_keeps ?_
            split
            · exact ite_keeps (noteNoise_keeps h) h
            · exact h
          · refine holdBuilt_keeps (touchKey_keeps ?_)
            split
            · exact ite_keeps (noteNoise_keeps h) h
            · exact h

theorem egressBuild_keeps {s u k} (h : Keeps s u) : Keeps s (egressBuild u k) := by
  unfold egressBuild
  split
  · exact h
  · split
    next x s1 e =>
      have hs1 : Keeps s s1 := keeps_snd (servePipe_keeps h) e
      exact hs1
    next x p s1 e =>
      have hs1 : Keeps s s1 := keeps_snd (servePipe_keeps h) e
      split
      · exact hs1
      · extract_lets s2
        have hs2 : Keeps s s2 := buildFor_keeps hs1
        exact capIdle_keeps hs2

theorem resyncSent_keeps {s u p e} (h : Keeps s u) : Keeps s (resyncSent u p e) := by
  unfold resyncSent
  extract_lets s1
  have hs1 : Keeps s s1 := by
    unfold s1
    split
    · exact idleWindow_keeps h
    · exact h
  exact recordLast_keeps (putEntry_keeps hs1)

theorem afterSend_keeps {s u f} (h : Keeps s u) : Keeps s (afterSend u f) := by
  unfold afterSend
  split
  · exact h
  · split
    · exact h
    · extract_lets _ e1 s1
      have hs1 : Keeps s s1 := putEntry_keeps h
      exact ite_keeps (resyncSent_keeps hs1) (finishIfSent_keeps hs1)

theorem frameSend_keeps {s u k} (h : Keeps s u) : Keeps s (frameSend u k) := by
  unfold frameSend
  dsimp only
  split
  · exact h
  · split
    · exact h
    · split
      · exact bindBackAll_keeps (afterSend_keeps (sendBytes_keeps (setPipe_keeps h)))
      · exact ite_keeps (larkCount_keeps h) h

theorem creditGrant_keeps {s u port vc n} (h : Keeps s u) : Keeps s (creditGrant u port vc n) := ite_keeps h (.frame h)

theorem execEgressFrameBuild_keeps {s pipe e u} (h : Keeps s u) : KeepsNext s (execEgressFrameBuild pipe e u) := .next (eccBuilt_keeps (egressBuild_keeps h))

theorem execFrameSend_keeps {s pipe u} (h : Keeps s u) : KeepsNext s (execFrameSend pipe u) := .next (frameSend_keeps h)

theorem execCreditGrantReceive_keeps {s port vc n u} (h : Keeps s u) : KeepsNext s (execCreditGrantReceive port vc n u) := .next (creditGrant_keeps h)

/-! ### Chartroom -/

theorem flushDerived_keeps {s u i} (h : Keeps s u) : Keeps s (flushDerived u i) := by
  unfold flushDerived
  extract_lets attr active _ s1
  have hs1 : Keeps s s1 := .frame h
  exact ite_keeps (flushAllCaches_keeps hs1) hs1

theorem zeroSlot_keeps {s u i} (h : Keeps s u) : Keeps s (zeroSlot u i) := setSlot_keeps (flushDerived_keeps h)

theorem zeroSlots_keeps {s u c} (h : Keeps s u) : Keeps s (zeroSlots u c) := foldl_keeps (fun _ _ hx => zeroSlot_keeps hx) h

theorem zeroAllSlots_keeps {s u} (h : Keeps s u) : Keeps s (zeroAllSlots u) := flushAllCaches_keeps (.frame h)

theorem zeroKeyCaches_keeps {s u} (h : Keeps s u) : Keeps s (zeroKeyCaches u) := .frame h

theorem chrtDone_keeps {s u a st stage slot} (h : Keeps s u) : Keeps s (chrtDone u a st stage slot) := noteCmd_keeps (raise_keeps (.frame h))

theorem chrtRefused_keeps {s u a st slot} (h : Keeps s u) : Keeps s (chrtRefused u a st slot) := refuse_keeps (.frame h)

theorem chrtCmd_keeps {s u a v' bad k} (h : Keeps s u) (hk : ∀ x, Keeps s x → Keeps s (k x)) : Keeps s (chrtCmd u a v' bad k) := by
  unfold chrtCmd
  refine regWrite_keeps h (fun x1 hx1 => ?_)
  split
  · exact chrtRefused_keeps hx1
  · exact hk _ hx1

theorem importStages_keeps {s u b policy x} (h : Keeps s u) (e : importStages u b policy = .ok x) : Keeps s x.2 := by
  unfold importStages at e
  extract_lets g now keys at e
  clear_value keys
  split at e
  · cases e
  · split at e
    · cases e
    · split at e
      · cases e
      · split at e
        · cases e
        · split at e
          · cases e
          · split at e
            · cases e
            · cases keys with
              | error st => cases e
              | ok ks =>
                dsimp only at e
                split at e
                · cases e
                · split at e
                  · cases e
                  · obtain rfl := Except.ok.inj e
                    refine .frame ?_
                    split
                    · exact setSlot_keeps (setSlot_keeps (putSlot_keeps h))
                    · exact setSlot_keeps (putSlot_keeps h)

theorem quotaCause_keeps {s u g} (h : Keeps s u) : Keeps s (quotaCause u g) := ite_keeps (raise_keeps h) h

theorem importOp_keeps {s u a pkg policy} (h : Keeps s u) : Keeps s (importOp u a pkg policy) := by
  unfold importOp
  dsimp only
  split
  · exact chrtDone_keeps h
  · split
    · exact chrtDone_keeps h
    · split
      · exact chrtDone_keeps (ite_keeps (engineRuns_keeps (noteBad_keeps h))
          (ite_keeps (engineUp_keeps h) (ite_keeps (quotaCause_keeps h) h)))
      · next e => exact chrtDone_keeps (engineRuns_keeps (importStages_keeps h e))

theorem confirmOp_keeps {s u a} (h : Keeps s u) : Keeps s (confirmOp u a) := by
  unfold confirmOp
  extract_lets t
  split
  · exact chrtRefused_keeps h
  · extract_lets x mac _ _
    exact ite_keeps (chrtDone_keeps (noteBad_keeps h)) (chrtDone_keeps (.frame (setSlot_keeps h)))

theorem formSecret_keeps {s u t} (h : Keeps s u) : Keeps s (formSecret u t) := by
  unfold formSecret
  extract_lets attr p e owners shares ks secret s1
  have hs1 : Keeps s s1 := foldl_keeps (fun _ _ hx => ite_keeps hx (zeroSlot_keeps hx)) h
  exact ite_keeps h (ite_keeps h (putSlot_keeps hs1))

theorem commitOp_keeps {s u a} (h : Keeps s u) : Keeps s (commitOp u a) := by
  unfold commitOp
  extract_lets t old s1
  have hs1 : Keeps s s1 := flushDerived_keeps h
  split
  · exact chrtRefused_keeps h
  · extract_lets x s2 s3 s4
    have hs2 : Keeps s s2 := setSlot_keeps hs1
    have hs3 : Keeps s s3 := ite_keeps hs2 (setSlot_keeps hs2)
    have hs4 : Keeps s s4 := ite_keeps (formSecret_keeps hs3) hs3
    split
    · exact chrtDone_keeps (noteBad_keeps h)
    · split
      · exact chrtDone_keeps (noteBad_keeps h)
      · split
        · exact chrtDone_keeps (foldl_keeps (fun _ _ hx1 => noteBad_keeps hx1) h)
        · exact chrtDone_keeps hs4

theorem discardOp_keeps {s u a} (h : Keeps s u) : Keeps s (discardOp u a) := by
  unfold discardOp
  extract_lets t
  split
  · exact chrtRefused_keeps h
  · split
    · exact chrtDone_keeps h
    · extract_lets s1 _
      have hs1 : Keeps s s1 := zeroSlot_keeps h
      exact chrtDone_keeps (ite_keeps hs1 (setSlot_keeps hs1))

theorem deleteNow_keeps {s u t} (h : Keeps s u) : Keeps s (deleteNow u t) := by
  unfold deleteNow
  extract_lets s1
  have hs1 : Keeps s s1 := by
    unfold s1
    split
    · exact ite_keeps (setSlot_keeps h) (zeroSlot_keeps h)
    · exact h
  exact zeroSlot_keeps hs1

theorem deleteOp_keeps {s u a} (h : Keeps s u) : Keeps s (deleteOp u a) := ite_keeps (.frame h) (chrtDone_keeps (deleteNow_keeps h))

theorem generateOp_keeps {s u a} (h : Keeps s u) : Keeps s (generateOp u a) := by
  unfold generateOp
  extract_lets w c bad d
  have hd : Keeps s d.2 := drbgDraw_keeps h
  split
  · exact chrtRefused_keeps h
  · exact ite_keeps (chrtRefused_keeps h) (chrtDone_keeps (putSlot_keeps hd))

theorem deliveryEnd_keeps {s u st} (h : Keeps s u) : Keeps s (deliveryEnd u st) := by
  unfold deliveryEnd
  split
  · exact h
  · extract_lets _ s1 s2 _
    have hs1 : Keeps s s1 := .frame h
    have hs2 : Keeps s s2 := noteCmd_keeps (raise_keeps hs1)
    split
    · exact ite_keeps (raise_keeps (.frame (deleteNow_keeps (.frame hs2)))) hs2
    · exact hs2

theorem deliverOp_keeps {s u a} (h : Keeps s u) : Keeps s (deliverOp u a) := by
  unfold deliverOp
  extract_lets t d _ s1
  have hs1 : Keeps s s1 := .frame h
  split
  · exact noteBad_keeps hs1
  · exact deliveryEnd_keeps hs1
  · exact chrtRefused_keeps (noteBad_keeps h)

theorem deliverBeats_keeps {s u} (h : Keeps s u) : Keeps s (deliverBeats u) := by
  unfold deliverBeats
  split
  · exact h
  · exact foldl_keeps (fun _ _ hx => emit_keeps hx) (.frame h)

theorem deliverDenied_keeps {s u} (h : Keeps s u) : Keeps s (deliverDenied u) := deliveryEnd_keeps h

theorem cancelDelivery_keeps {s u} (h : Keeps s u) : Keeps s (cancelDelivery u) := by
  unfold cancelDelivery
  split
  · exact ite_keeps (.within h) (.frame h)
  · exact h

theorem kdpAnswer_keeps {s u ack nack dest cycle} (h : Keeps s u) : Keeps s (kdpAnswer u ack nack dest cycle) := by
  unfold kdpAnswer
  split
  · exact ite_keeps (ite_keeps (deliveryEnd_keeps h) (deliveryEnd_keeps (.frame h))) h
  · exact h

theorem kdpTimeout_keeps {s u cycle} (h : Keeps s u) : Keeps s (kdpTimeout u cycle) := by
  unfold kdpTimeout
  split
  · exact ite_keeps (deliveryEnd_keeps (.within h)) h
  · exact h

theorem remaskSlot_keeps {s u i} (h : Keeps s u) : Keeps s (remaskSlot u i) := by
  unfold remaskSlot
  extract_lets s1 x d r _ _
  have hs1 : Keeps s s1 := noteBad_keeps h
  have hd : Keeps s d.2 := drbgDraw_keeps hs1
  exact ite_keeps hs1 (.frame (setSlot_keeps hd))

theorem remaskWhere_keeps {s u c} (h : Keeps s u) : Keeps s (remaskWhere u c) := foldl_keeps (fun _ _ hx => remaskSlot_keeps hx) h

theorem remaskEvent_keeps {s u arg} (h : Keeps s u) : Keeps s (remaskEvent u arg) := remaskWhere_keeps h

theorem remaskFloorOp_keeps {s u} (h : Keeps s u) : Keeps s (remaskFloorOp u) := remaskWhere_keeps h

theorem rollContext_keeps {s u p} (h : Keeps s u) : Keeps s (rollContext u p) := by
  unfold rollContext
  split
  · exact h
  · extract_lets cur prv s1 x s2 c _ s3
    have hs1 : Keeps s s1 := zeroSlot_keeps h
    have hs2 : Keeps s s2 := setSlot_keeps hs1
    have hs3 : Keeps s s3 := .frame hs2
    exact ite_keeps h (putSlot_keeps hs3)

theorem derivePart_keeps {s u p} (h : Keeps s u) : Keeps s (derivePart u p) := by
  unfold derivePart
  split
  · exact h
  · exact .frame (setSlot_keeps (putSlot_keeps (putSlot_keeps (putSlot_keeps h))))

theorem deriveBlock_keeps {s u} (h : Keeps s u) : Keeps s (deriveBlock u) := by
  unfold deriveBlock
  split
  · exact h
  · exact .frame (putSlot_keeps (putSlot_keeps (putSlot_keeps h)))

theorem formRoot_keeps {s u test} (h : Keeps s u) : Keeps s (formRoot u test) := .frame h

theorem freeOldEpoch_keeps {s u p old} (h : Keeps s u) : Keeps s (freeOldEpoch u p old) := zeroSlots_keeps h

theorem execChrtImport_keeps {s a v' pkg policy u} (h : Keeps s u) : KeepsNext s (execChrtImport a v' pkg policy u) :=
  .next (chrtCmd_keeps h (fun _ hx => importOp_keeps hx))

theorem execChrtConfirm_keeps {s a v' u} (h : Keeps s u) : KeepsNext s (execChrtConfirm a v' u) := .next (chrtCmd_keeps h (fun _ hx => confirmOp_keeps hx))

theorem execChrtCommit_keeps {s a v' u} (h : Keeps s u) : KeepsNext s (execChrtCommit a v' u) := .next (chrtCmd_keeps h (fun _ hx => commitOp_keeps hx))

theorem execChrtDiscard_keeps {s a v' u} (h : Keeps s u) : KeepsNext s (execChrtDiscard a v' u) := .next (chrtCmd_keeps h (fun _ hx => discardOp_keeps hx))

theorem execChrtDelete_keeps {s a v' u} (h : Keeps s u) : KeepsNext s (execChrtDelete a v' u) := .next (chrtCmd_keeps h (fun _ hx => deleteOp_keeps hx))

theorem execChrtGenerate_keeps {s a v' u} (h : Keeps s u) : KeepsNext s (execChrtGenerate a v' u) := .next (chrtCmd_keeps h (fun _ hx => generateOp_keeps hx))

theorem execChrtDeliver_keeps {s a v' u} (h : Keeps s u) : KeepsNext s (execChrtDeliver a v' u) :=
  .next (ite_keeps (regWrite_keeps h (fun _ hx => hx)) (chrtCmd_keeps h (fun _ hx => deliverOp_keeps hx)))

theorem execKdpAnswer_keeps {s ack nack dest cycle u} (h : Keeps s u) : KeepsNext s (execKdpAnswer ack nack dest cycle u) :=
  .next (whenSec_keeps h (fun _ hx1 => kdpAnswer_keeps hx1))

theorem execKdpAckTimeout_keeps {s cycle u} (h : Keeps s u) : KeepsNext s (execKdpAckTimeout cycle u) :=
  .next (whenSec_keeps h (fun _ hx1 => kdpTimeout_keeps hx1))

theorem execRemaskFloor_keeps {s us u} (h : Keeps s u) : KeepsNext s (execRemaskFloor us u) := .next (afterTime_keeps h (fun _ hx => remaskFloorOp_keeps hx))

/-! ### Meridian -/

theorem raisePipes_keeps {s u c} (h : Keeps s u) : Keeps s (raisePipes u c) := foldl_keeps (fun _ _ hx => ite_keeps hx (raise_keeps hx)) h

theorem closeEpoch_keeps {s u i} (h : Keeps s u) : Keeps s (closeEpoch u i) := by
  unfold closeEpoch
  extract_lets c hit any s1 s2 s3 _
  have hs1 : Keeps s s1 := abortWhere_keeps h
  have hs2 : Keeps s s2 := ite_keeps (raisePipes_keeps hs1) hs1
  have hs3 : Keeps s s3 := zeroAllCaches_keeps hs2
  exact freeOldEpoch_keeps (setClock_keeps hs3)

theorem fireKeyEpoch_keeps {s u e bit} (h : Keeps s u) : Keeps s (fireKeyEpoch u e bit) :=
  ite_keeps (setClock_keeps h) (ite_keeps (setClock_keeps h) (closeEpoch_keeps h))

theorem swapCopies_keeps {s u step} (h : Keeps s u) : Keeps s (swapCopies u step) := .frame h

theorem keepLimits_keeps {s u} (h : Keeps s u) : Keeps s (keepLimits u) := .frame h

theorem retireCopy_keeps {s u} (h : Keeps s u) : Keeps s (retireCopy u) := by
  unfold retireCopy
  extract_lets old s1 gone s2 _
  have hs1 : Keeps s s1 := abortWhere_keeps (keepLimits_keeps h)
  have hs2 : Keeps s s2 := foldl_keeps (fun _ _ hx => freeWindowCmd_keeps hx) hs1
  exact .frame hs2

theorem fireSwap_keeps {s u e bit} (h : Keeps s u) : Keeps s (fireSwap u e bit) := ite_keeps (raise_keeps (swapCopies_keeps h)) (retireCopy_keeps h)

theorem firePeriod_keeps {s u e k} (h : Keeps s u) : Keeps s (firePeriod u e k) := setBudget_keeps h

theorem fireAction_keeps {s u e bit k} (h : Keeps s u) : Keeps s (fireAction u e bit k) := by
  unfold fireAction
  split
  · exact fireKeyEpoch_keeps h
  · split
    · exact fireSwap_keeps h
    · split
      · exact remaskEvent_keeps h
      · split
        · exact firePeriod_keeps h
        · split
          · exact rollContext_keeps h
          · exact ite_keeps (selfTestEvent_keeps h) (ite_keeps (raise_keeps (raise_keeps h)) h)

theorem firePhase_keeps {s u d} (h : Keeps s u) : Keeps s (firePhase u d) := fireAction_keeps (setSched_keeps h)

theorem firePhases_keeps {s n u} (h : Keeps s u) : Keeps s (firePhases n u) := by
  induction n generalizing u with
  | zero => exact h
  | succ n ih =>
    unfold firePhases
    split
    · exact h
    · exact ih (firePhase_keeps h)

theorem sendStep_keeps {s u b pay hop} (h : Keeps s u) : Keeps s (sendStep u b pay hop) :=
  ite_keeps h (ite_keeps (fabricGive_keeps (noteFabric_keeps h)) (noteFabric_keeps h))

theorem sendHeldAborts_keeps {s u} (h : Keeps s u) : Keeps s (sendHeldAborts u) := foldl_keeps (fun _ _ hx1 => sendHeldAbort_keeps hx1) (.frame h)

theorem dropRelays_keeps {s u b} (h : Keeps s u) : Keeps s (dropRelays u b) := .within h

theorem enterSteps_keeps {s u b} (h : Keeps s u) : Keeps s (enterSteps u b) := .frame h

theorem startBoundary_keeps {s u b out} (h : Keeps s u) : Keeps s (startBoundary u b out) := by
  unfold startBoundary
  extract_lets a _ s1 s2
  have hs1 : Keeps s s1 := .within h
  have hs2 : Keeps s s2 := sendHeldAborts_keeps (enterSteps_keeps (dropRelays_keeps hs1))
  split
  · exact sendStep_keeps hs2
  · exact hs2

theorem stepSetNow_keeps {s u v'} (h : Keeps s u) : Keeps s (stepSetNow u v') := by
  have hd : Keeps s (dropRelays u (fld v' 47 0)) := dropRelays_keeps h
  unfold stepSetNow
  dsimp only
  generalize dropRelays u (fld v' 47 0) = x at hd ⊢
  exact dropHoldQ_keeps (.within hd)

theorem schedNow_keeps {s u i v'} (h : Keeps s u) : Keeps s (schedNow u i v') := by
  unfold schedNow
  extract_lets old s1 _
  have hs1 : Keeps s s1 := setSched_keeps h
  exact .frame hs1

theorem schedStage_keeps {s u i v'} (h : Keeps s u) : Keeps s (schedStage u i v') := setSched_keeps h

theorem runHeld_keeps {s u c} (h : Keeps s u) : Keeps s (runHeld u c) := by
  unfold runHeld
  split
  · exact launchOp_keeps h
  · exact launchOp_keeps h
  · exact launchOp_keeps h
  · exact schedStage_keeps h
  · exact ite_keeps (pageError_keeps h) (ite_keeps (pageError_keeps h) (schedNow_keeps h))
  · exact ite_keeps (pageError_keeps h) (stepSetNow_keeps h)

theorem runHeldAll_keeps {s u} (h : Keeps s u) : Keeps s (runHeldAll u) := foldl_keeps (fun _ _ hx => runHeld_keeps hx) (.within h)

theorem meetWaits_keeps {s u} (h : Keeps s u) : Keeps s (meetWaits u) := .frame h

theorem returnEpoch_keeps {s fab u} (hfab : ∀ x a1, Keeps s x → Keeps s (fab x a1)) (h : Keeps s u) : Keeps s (returnEpoch fab u) :=
  ite_keeps (returnParked_keeps hfab h) h

theorem boundaryEnd_keeps {s fab u a} (hfab : ∀ x a1, Keeps s x → Keeps s (fab x a1)) (h : Keeps s u) : Keeps s (boundaryEnd fab u a) := by
  unfold boundaryEnd
  extract_lets _ s1 s3
  have hs1 : Keeps s s1 := raise_keeps (.within h)
  have hs3 : Keeps s s3 := returnEpoch_keeps hfab (meetWaits_keeps (ite_keeps (raise_keeps hs1) hs1))
  exact ite_keeps hs3 (runHeldAll_keeps hs3)

theorem finishBoundary_keeps {s fab u} (hfab : ∀ x a1, Keeps s x → Keeps s (fab x a1)) (h : Keeps s u) : Keeps s (finishBoundary fab u) := by
  unfold finishBoundary
  split
  · exact h
  · exact ite_keeps (boundaryEnd_keeps hfab h) h

theorem runBoundary_keeps {s fab u b out n} (hfab : ∀ x a1, Keeps s x → Keeps s (fab x a1)) (h : Keeps s u) : Keeps s (runBoundary fab u b out n) :=
  finishBoundary_keeps hfab (firePhases_keeps (startBoundary_keeps h))

theorem pendStep_keeps {s u b out} (h : Keeps s u) : Keeps s (pendStep u b out) := by
  unfold pendStep
  extract_lets _ s1 _
  have hs1 : Keeps s s1 := ite_keeps (.within h) h
  exact .within hs1

theorem advanceOne_keeps {s fab u n} (hfab : ∀ x a1, Keeps s x → Keeps s (fab x a1)) (h : Keeps s u) : Keeps s (advanceOne fab u n) :=
  ite_keeps (pendStep_keeps h) (runBoundary_keeps hfab h)

theorem stopBoundary_keeps {s u} (h : Keeps s u) : Keeps s (stopBoundary u) := .within h

theorem pendingBoundary_keeps {s fab u n} (hfab : ∀ x a1, Keeps s x → Keeps s (fab x a1)) (h : Keeps s u) : Keeps s (pendingBoundary fab u n) := by
  unfold pendingBoundary
  split
  · exact h
  · extract_lets s1 _
    have hs1 : Keeps s s1 := finishBoundary_keeps hfab (ite_keeps (firePhases_keeps h) h)
    split
    · exact hs1
    · extract_lets out s2
      have hs2 : Keeps s s2 := .within hs1
      exact ite_keeps (runHeldAll_keeps hs2) (runBoundary_keeps hfab hs2)

theorem stepDamaged_keeps {s u f} (h : Keeps s u) : Keeps s (stepDamaged u f) := recordFrame_keeps (larkCount_keeps h)

theorem stepFrame_keeps {s fab pendOnly n u f} (hfab : ∀ x a1, Keeps s x → Keeps s (fab x a1)) (h : Keeps s u) : Keeps s (stepFrame fab pendOnly n u f) := by
  unfold stepFrame
  split
  · exact stepDamaged_keeps h
  · split
    · exact .within h
    · extract_lets out s1
      have hs1 : Keeps s s1 := recordStream_keeps h
      exact ite_keeps (pendStep_keeps hs1) (runBoundary_keeps hfab hs1)

theorem mrdAdvance_keeps {s fab u a v' n} (hfab : ∀ x a1, Keeps s x → Keeps s (fab x a1)) (h : Keeps s u) : Keeps s (mrdAdvance fab u a v' n) :=
  regWrite_keeps h (fun _ hx => ite_keeps (advanceOne_keeps hfab hx) hx)

theorem mrdStepSet_keeps {s u a v'} (h : Keeps s u) : Keeps s (mrdStepSet u a v') :=
  ite_keeps (regWrite_keeps h (fun _ hx => .within hx)) (regWrite_keeps h (fun _ hx => stepSetNow_keeps hx))

theorem schedWrite_keeps {s u a i v'} (h : Keeps s u) : Keeps s (schedWrite u a i v') :=
  ite_keeps (regWrite_keeps h (fun _ hx => .within hx)) (regWrite_keeps h (fun _ hx => schedNow_keeps hx))

theorem stepMark_keeps {s fab u n} (hfab : ∀ x a1, Keeps s x → Keeps s (fab x a1)) (h : Keeps s u) : Keeps s (stepMark fab u n) :=
  ite_keeps (.within h) (ite_keeps h (ite_keeps (ite_keeps (advanceOne_keeps hfab h) (pendStep_keeps h)) h))

theorem stepTimeout_keeps {s u us} (h : Keeps s u) : Keeps s (stepTimeout u us) := afterTime_keeps h (fun _ hx => ite_keeps (raise_keeps (.within hx)) hx)

theorem refillDone_keeps {s u} (h : Keeps s u) : Keeps s (refillDone u) := ite_keeps (.frame h) h

theorem execMrdStepSet_keeps {s a v' u} (h : Keeps s u) : KeepsNext s (execMrdStepSet a v' u) := .next (mrdStepSet_keeps h)

theorem execScheduleEntryWrite_keeps {s a idx v' u} (h : Keeps s u) : KeepsNext s (execScheduleEntryWrite a idx v' u) := .next (schedWrite_keeps h)

theorem execStepTimeout_keeps {s us u} (h : Keeps s u) : KeepsNext s (execStepTimeout us u) := .next (stepTimeout_keeps h)

theorem execRefillDone_keeps {s u} (h : Keeps s u) : KeepsNext s (execRefillDone u) := .next (whenArith_keeps h (fun _ hx => refillDone_keeps hx))

/-! ### Images -/

theorem writeRecord_keeps {s u backOk r} (h : Keeps s u) : Keeps s (writeRecord u backOk r).2 := by
  cases backOk with
  | false => exact .frame (emit_keeps h)
  | true => exact emit_keeps h

theorem writeRecord_some_keeps {s u backOk r t} (h : Keeps s u) (e : (writeRecord u backOk r).1 = some t) : Keeps s t := by
  cases backOk with
  | false => cases e
  | true => obtain rfl := Option.some.inj e; exact .frame (emit_keeps h)

/-! ### Logbook -/

/-- A programmed bit reads 1 from then on (14 R410). -/
theorem addBits_keeps {s u phys m lo nom st wd} (h : Keeps s u) : Keeps s (addBits u phys m lo nom st wd) := by
  refine h.trans ⟨rfl, rfl, rfl, id, id, fun w => ⟨w, fun _ => id⟩, tset_wf _ _ _ _, fun ph b => ?_, fun _ _ => id, fun _ _ => id⟩
  simp only [addBits, tget_tset]
  split
  · next e =>
    subst e
    simp only [Nat.testBit_or, Bool.or_eq_true]
    exact ⟨.inl, .inl, .inl⟩
  · exact ⟨id, id, id⟩

theorem testBit_setBit {t : Table Nat} {r q e b : Nat} (h : (tget 0 t q).testBit b = true) :
    (tget 0 (tset 0 t r (setBit (tget 0 t r) e)) q).testBit b = true := by
  rw [tget_tset]
  split
  · next i => subst i; simp only [setBit, Nat.testBit_or, h, Bool.true_or]
  · exact h

/-- A lock element, once blown, stays blown (14 R419). -/
theorem blowElement_keeps {s u rd r e} (h : Keeps s u) : Keeps s (blowElement u rd r e) := by
  unfold blowElement
  split
  · exact h.trans ⟨rfl, rfl, rfl, id, id, fun w => ⟨w, fun _ => id⟩, id, fun _ _ => ⟨id, id, id⟩, fun _ _ => id, fun _ _ => testBit_setBit⟩
  · exact h.trans ⟨rfl, rfl, rfl, id, id, fun w => ⟨w, fun _ => id⟩, id, fun _ _ => ⟨id, id, id⟩, fun _ _ => testBit_setBit, fun _ _ => id⟩

theorem landPulse_keeps {s miss u p} (h : Keeps s u) : Keeps s (landPulse miss u p) := by
  unfold landPulse
  split
  · exact addBits_keeps h
  · exact blowElement_keeps h

theorem cutPulse_keeps {s u c p} (h : Keeps s u) : Keeps s (cutPulse u c p) := by
  unfold cutPulse
  split
  · exact addBits_keeps h
  · exact ite_keeps h (blowElement_keeps h)

theorem cutPulses_keeps {s u c} (h : Keeps s u) : Keeps s (cutPulses u c) := by
  unfold cutPulses
  split
  · exact h
  · extract_lets s1
    have hs1 : Keeps s s1 := foldl_keeps (fun _ _ hx => landPulse_keeps hx) h
    split
    · exact hs1
    · exact cutPulse_keeps hs1

theorem progCut_keeps {s u c} (h : Keeps s u) : Keeps s (progCut u c) := by
  unfold progCut
  extract_lets s1 _
  have hs1 : Keeps s s1 := cutPulses_keeps h
  exact .within hs1

theorem progStop_keeps {s u c} (h : Keeps s u) : Keeps s (progStop u c) := by
  unfold progStop
  extract_lets s1 _
  have hs1 : Keeps s s1 := cutPulses_keeps h
  exact .within hs1

theorem senseWord_keeps {s u ph} (h : Keeps s u) : Keeps s (senseWord u ph) := .within h

theorem progFinish_keeps {s u o} (h : Keeps s u) : Keeps s (progFinish u o).2 := by
  unfold progFinish
  split
  · exact h
  · extract_lets s1 s2 k _ s3
    have hs1 : Keeps s s1 := foldl_keeps (fun _ _ hx => landPulse_keeps hx) h
    have hs2 : Keeps s s2 := foldl_keeps (fun _ _ hx => senseWord_keeps hx) hs1
    have hs3 : Keeps s s3 := .within hs2
    exact hs3

theorem logbResult_keeps {s u op st pulses} (h : Keeps s u) : Keeps s (logbResult u op st pulses) := raise_keeps (.within h)

theorem logbDone_keeps {s u a op st} (h : Keeps s u) : Keeps s (logbDone u a op st) := noteCmd_keeps (logbResult_keeps h)

theorem logbCmd_keeps {s u a v' op state k} (h : Keeps s u) (hk : ∀ x, Keeps s x → Keeps s (k x)) : Keeps s (logbCmd u a v' op state k) := by
  unfold logbCmd
  refine regWrite_keeps h (fun x1 hx1 => ?_)
  split
  · exact logbDone_keeps hx1
  · split
    · exact refuse_keeps hx1
    · exact hk _ hx1

theorem logbHelmCmd_keeps {s u a v' op state k} (h : Keeps s u) (hk : ∀ x, Keeps s x → Keeps s (k x)) : Keeps s (logbHelmCmd u a v' op state k) :=
  ite_keeps (logbCmd_keeps h hk) (regWrite_keeps h hk)

theorem startProg_keeps {s u a op ps ws} (h : Keeps s u) : Keeps s (startProg u a op ps ws) := .within h

theorem programOp_keeps {s u a} (h : Keeps s u) : Keeps s (programOp u a) :=
  ite_keeps (logbDone_keeps h) (ite_keeps (logbDone_keeps h) (ite_keeps (logbDone_keeps h) (startProg_keeps h)))

theorem reinforceOp_keeps {s u a} (h : Keeps s u) : Keeps s (reinforceOp u a) := ite_keeps (logbDone_keeps h) (startProg_keeps h)

theorem lockWriteOp_keeps {s u a} (h : Keeps s u) : Keeps s (lockWriteOp u a) := ite_keeps (logbDone_keeps h) (ite_keeps (logbDone_keeps h) (startProg_keeps h))

theorem lockReadOp_keeps {s u a} (h : Keeps s u) : Keeps s (lockReadOp u a) := ite_keeps (logbDone_keeps h) (startProg_keeps h)

theorem advanceOp_keeps {s u a c v'} (h : Keeps s u) : Keeps s (advanceOp u a c v') :=
  ite_keeps (logbDone_keeps h) (ite_keeps (logbDone_keeps h) (startProg_keeps h))

theorem revokeOp_keeps {s u a k} (h : Keeps s u) : Keeps s (revokeOp u a k) := startProg_keeps h

theorem genDusOp_keeps {s u a} (h : Keeps s u) : Keeps s (genDusOp u a) := by
  unfold genDusOp
  extract_lets d n dig last
  have hd : Keeps s d.2 := drbgDraw_keeps h
  exact startProg_keeps hd

theorem marginScanOp_keeps {s u a} (h : Keeps s u) : Keeps s (marginScanOp u a) := logbDone_keeps (.within h)

theorem startHelmProg_keeps {s u p} (h : Keeps s u) : Keeps s (startHelmProg u p) := by
  unfold startHelmProg
  split
  · exact logbDone_keeps h
  · split
    · exact advanceOp_keeps h
    · exact revokeOp_keeps h

theorem helmProgram_keeps {s u p} (h : Keeps s u) : Keeps s (helmProgram u p) := ite_keeps (.within h) (startHelmProg_keeps h)

theorem nextProg_keeps {s n u} (h : Keeps s u) : Keeps s (nextProg n u) := by
  induction n generalizing u with
  | zero => exact h
  | succ n ih =>
    unfold nextProg
    split
    · exact h
    · split
      · exact h
      · exact ih (startHelmProg_keeps (.within h))

theorem execLogbProgram_keeps {s a v' u} (h : Keeps s u) : KeepsNext s (execLogbProgram a v' u) := .next (logbCmd_keeps h (fun _ hx1 => programOp_keeps hx1))

theorem execLogbReinforce_keeps {s a v' u} (h : Keeps s u) : KeepsNext s (execLogbReinforce a v' u) :=
  .next (logbCmd_keeps h (fun _ hx1 => reinforceOp_keeps hx1))

theorem execLockWrite_keeps {s a v' u} (h : Keeps s u) : KeepsNext s (execLockWrite a v' u) := .next (logbCmd_keeps h (fun _ hx1 => lockWriteOp_keeps hx1))

theorem execLockRead_keeps {s a v' u} (h : Keeps s u) : KeepsNext s (execLockRead a v' u) := .next (logbCmd_keeps h (fun _ hx1 => lockReadOp_keeps hx1))

theorem execAdvance_keeps {s a v' u} (h : Keeps s u) : KeepsNext s (execAdvance a v' u) := .next (logbHelmCmd_keeps h (fun _ hx1 => advanceOp_keeps hx1))

theorem execLogbRevoke_keeps {s a v' u} (h : Keeps s u) : KeepsNext s (execLogbRevoke a v' u) := .next (logbHelmCmd_keeps h (fun _ hx1 => revokeOp_keeps hx1))

theorem execGenDus_keeps {s a v' u} (h : Keeps s u) : KeepsNext s (execGenDus a v' u) := .next (logbHelmCmd_keeps h (fun _ hx1 => genDusOp_keeps hx1))

theorem execMarginScan_keeps {s a v' u} (h : Keeps s u) : KeepsNext s (execMarginScan a v' u) := .next (logbCmd_keeps h (fun _ hx1 => marginScanOp_keeps hx1))

/-! ### Update -/

theorem setMeas_keeps {s u m v'} (h : Keeps s u) : Keeps s (setMeas u m v') := .frame h

theorem extendMeas_keeps {s u m e} (h : Keeps s u) : Keeps s (extendMeas u m e) := setMeas_keeps h

theorem extendCommand_keeps {s u} (h : Keeps s u) : Keeps s (extendCommand u) := by
  unfold extendCommand
  extract_lets d
  have hd : Keeps s d.2 := freeDraw_keeps h
  exact extendMeas_keeps hd

theorem helmDone_keeps {s u a op st step} (h : Keeps s u) : Keeps s (helmDone u a op st step) := noteCmd_keeps (raise_keeps (.frame h))

theorem helmCmd_keeps {s u a v' inRecovery k} (h : Keeps s u) (hk : ∀ x, Keeps s x → Keeps s (k x)) : Keeps s (helmCmd u a v' inRecovery k) :=
  regWrite_keeps h hk

theorem updBeginCore_keeps {s u backOk ring bundle} (h : Keeps s u) : Keeps s (updBeginCore u backOk ring bundle).2 := by
  unfold updBeginCore
  split
  · exact h
  · extract_lets t
    split
    · next e => exact keeps_snd (writeRecord_keeps h) e
    · next e => exact .frame (writeRecord_some_keeps h (congrArg Prod.fst e))

theorem updBlockCore_keeps {s u st unit crc bytes} (h : Keeps s u) : Keeps s (updBlockCore u st unit crc bytes).2 := by
  unfold updBlockCore
  extract_lets u1 s1 _
  have hs1 : Keeps s s1 := emit_keeps h
  split
  · exact h
  · split
    · exact h
    · split
      · (repeat' split) <;> exact h
      · split
        · exact .frame hs1
        · exact hs1

theorem updFinishCore_keeps {s u st} (h : Keeps s u) : Keeps s (updFinishCore u st).2.2 := by
  unfold updFinishCore
  dsimp only
  split
  · exact h
  · split
    · exact h
    · split
      · exact ite_keeps h (engineUp_keeps h)
      · split
        · next e => exact keeps_snd (writeRecord_keeps (engineUp_keeps h)) e
        · next e => exact extendCommand_keeps (.frame (writeRecord_some_keeps (engineUp_keeps h) (congrArg Prod.fst e)))

theorem endSessionUpd_keeps {s u} (h : Keeps s u) : Keeps s (endSessionUpd u) := ite_keeps (.frame h) h

theorem updAbortOp_keeps {s u a} (h : Keeps s u) : Keeps s (updAbortOp u a) := ite_keeps (helmDone_keeps (endSessionUpd_keeps h)) (helmDone_keeps h)

theorem updTimeout_keeps {s u} (h : Keeps s u) : Keeps s (updTimeout u) := ite_keeps (endSessionUpd_keeps h) h

theorem activateCore_keeps {s u backOk} (h : Keeps s u) : Keeps s (activateCore u backOk).2 := by
  unfold activateCore
  dsimp only
  split
  · exact h
  · split
    · next e => exact keeps_snd (writeRecord_keeps h) e
    · next e => exact extendCommand_keeps (writeRecord_some_keeps h (congrArg Prod.fst e))

theorem advanceCounters_keeps {s u} (h : Keeps s u) : Keeps s (advanceCounters u) := helmProgram_keeps (helmProgram_keeps (helmProgram_keeps h))

theorem completeMigration_keeps {s u} (h : Keeps s u) : Keeps s (completeMigration u) := ite_keeps h (.frame (emit_keeps (emit_keeps h)))

theorem confirmEnd_keeps {s u} (h : Keeps s u) : Keeps s (confirmEnd u) := by
  unfold confirmEnd
  split
  · exact ite_keeps h (helmDone_keeps (extendCommand_keeps (completeMigration_keeps (.frame h))))
  · exact h

theorem confirmTrial_keeps {s u a st} (h : Keeps s u) : Keeps s (confirmTrial u a st) := by
  unfold confirmTrial
  extract_lets
  split
  · exact helmDone_keeps h
  · split
    · next e => exact helmDone_keeps (keeps_snd (writeRecord_keeps h) e)
    · next e => exact confirmEnd_keeps (advanceCounters_keeps (.frame (writeRecord_some_keeps h (congrArg Prod.fst e))))

theorem revokeReq_keeps {s u a mem} (h : Keeps s u) : Keeps s (revokeReq u a mem) := by
  unfold revokeReq
  extract_lets len s1
  have hs1 : Keeps s s1 := engineUp_keeps h
  split
  · exact helmDone_keeps h
  · extract_lets keys
    split
    · exact helmDone_keeps h
    · split
      · exact helmDone_keeps h
      · split
        · exact helmDone_keeps h
        · split
          · exact helmDone_keeps hs1
          · exact ite_keeps (helmDone_keeps hs1) (helmDone_keeps (extendCommand_keeps (helmProgram_keeps hs1)))

theorem forwardOp_keeps {s u a st} (h : Keeps s u) : Keeps s (forwardOp u a st) := by
  unfold forwardOp
  split
  · exact helmDone_keeps h
  · split
    · exact helmDone_keeps h
    · extract_lets s1 us
      have hs1 : Keeps s s1 := noteFabric_keeps h
      exact ite_keeps (helmDone_keeps hs1) (helmDone_keeps (foldl_keeps (fun _ _ hx1 => fabricSend_keeps hx1) hs1))

theorem settingsOp_keeps {s u a st} (h : Keeps s u) : Keeps s (settingsOp u a st) := by
  unfold settingsOp
  extract_lets u1 all _ area new _ _ s1 s2
  have hs1 : Keeps s s1 := .frame (emit_keeps h)
  have hs2 : Keeps s s2 := ite_keeps hs1 (emit_keeps hs1)
  split
  · exact helmDone_keeps h
  · split
    · exact helmDone_keeps (.frame h)
    · split
      · exact helmDone_keeps (.frame h)
      · exact ite_keeps (helmDone_keeps (.frame h)) (helmDone_keeps (extendCommand_keeps hs2))

theorem verifyHostOp_keeps {s u a mem body} (h : Keeps s u) : Keeps s (verifyHostOp u a mem body) := by
  unfold verifyHostOp
  extract_lets len s1
  have hs1 : Keeps s s1 := engineUp_keeps h
  split
  · exact helmDone_keeps h
  · extract_lets keys n
    split
    · exact helmDone_keeps h
    · split
      · exact helmDone_keeps h
      · split
        · exact helmDone_keeps hs1
        · split
          · exact helmDone_keeps hs1
          · exact ite_keeps (helmDone_keeps hs1) (helmDone_keeps (extendMeas_keeps hs1))

theorem updDrop_keeps {s u} (h : Keeps s u) : Keeps s (updDrop u) := .frame h

theorem ringUnit_keeps {s u st total unit crc bytes} (h : Keeps s u) : Keeps s (ringUnit u st total unit crc bytes) := by
  unfold ringUnit
  split
  next x s1 e =>
    have hs1 : Keeps s s1 := keeps_snd (updBlockCore_keeps h) e
    extract_lets s2
    have hs2 : Keeps s s2 := ite_keeps hs1 (raise_keeps hs1)
    exact ite_keeps (updFinishCore_keeps hs2) hs2
  next x fst s1 e e1' =>
    have hs1 : Keeps s s1 := keeps_snd (updBlockCore_keeps h) e1'
    exact hs1

theorem updateFrame_keeps {s u st rank plain} (h : Keeps s u) : Keeps s (updateFrame u st rank plain) := by
  unfold updateFrame
  extract_lets w0 total bundle bytes
  split
  · exact updDrop_keeps h
  · split
    · exact ringUnit_keeps h
    · split
      next x s1 e =>
        have hs1 : Keeps s s1 := keeps_snd (updBeginCore_keeps h) e
        exact ringUnit_keeps hs1
      next x fst s1 e e1' =>
        have hs1 : Keeps s s1 := keeps_snd (updBeginCore_keeps h) e1'
        exact hs1

theorem measExtendOp_keeps {s u a m} (h : Keeps s u) : Keeps s (measExtendOp u a m) := by
  unfold measExtendOp
  extract_lets done
  split
  · exact noteCmd_keeps (.frame h)
  · split
    · exact noteCmd_keeps (.frame h)
    · exact ite_keeps (noteCmd_keeps (.frame h)) (noteCmd_keeps (.frame (extendMeas_keeps h)))

theorem stageAccess_keeps {s u a write v'} (h : Keeps s u) : Keeps s (stageAccess u a write v') := by
  unfold stageAccess
  extract_lets addr next
  exact ite_keeps (regWrite_keeps h (fun _ hx1 => .frame (.frame hx1))) (regRead_keeps h (fun _ hx1 => .frame hx1))

theorem execUpdBegin_keeps {s a v' st u} (h : Keeps s u) : KeepsNext s (execUpdBegin a v' st u) :=
  .next (helmCmd_keeps h (fun _ hx1 => helmDone_keeps (updBeginCore_keeps hx1)))

theorem execUpdBlock_keeps {s a v' st u} (h : Keeps s u) : KeepsNext s (execUpdBlock a v' st u) :=
  .next (helmCmd_keeps h (fun _ hx1 => helmDone_keeps (updBlockCore_keeps hx1)))

theorem execUpdFinish_keeps {s a v' st u} (h : Keeps s u) : KeepsNext s (execUpdFinish a v' st u) :=
  .next (helmCmd_keeps h (fun _ hx1 => helmDone_keeps (updFinishCore_keeps hx1)))

theorem execUpdAbort_keeps {s a v' u} (h : Keeps s u) : KeepsNext s (execUpdAbort a v' u) := .next (helmCmd_keeps h (fun _ hx1 => updAbortOp_keeps hx1))

theorem execUpdSessionTimeout_keeps {s us u} (h : Keeps s u) : KeepsNext s (execUpdSessionTimeout us u) :=
  .next (afterTime_keeps h (fun _ hx => updTimeout_keeps hx))

theorem execHelmConfirm_keeps {s a v' st u} (h : Keeps s u) : KeepsNext s (execHelmConfirm a v' st u) :=
  .next (helmCmd_keeps h (fun _ hx1 => confirmTrial_keeps hx1))

theorem execHelmRevoke_keeps {s a v' mem u} (h : Keeps s u) : KeepsNext s (execHelmRevoke a v' mem u) :=
  .next (helmCmd_keeps h (fun _ hx1 => revokeReq_keeps hx1))

theorem execForward_keeps {s a v' st u} (h : Keeps s u) : KeepsNext s (execForward a v' st u) := .next (helmCmd_keeps h (fun _ hx1 => forwardOp_keeps hx1))

theorem execSettings_keeps {s a v' st u} (h : Keeps s u) : KeepsNext s (execSettings a v' st u) := .next (helmCmd_keeps h (fun _ hx1 => settingsOp_keeps hx1))

theorem execVerifyHost_keeps {s a v' mem body u} (h : Keeps s u) : KeepsNext s (execVerifyHost a v' mem body u) :=
  .next (helmCmd_keeps h (fun _ hx1 => verifyHostOp_keeps hx1))

theorem execHelmStageDataAccess_keeps {s a write v' u} (h : Keeps s u) : KeepsNext s (execHelmStageDataAccess a write v' u) := .next (stageAccess_keeps h)

theorem execExtend_keeps {s a v' u} (h : Keeps s u) : KeepsNext s (execExtend a v' u) := .next (regWrite_keeps h (fun _ hx1 => measExtendOp_keeps hx1))

/-! ### Deliver -/

theorem abortUnknown_keeps {s u f} (h : Keeps s u) : Keeps s (abortUnknown u f) := by
  unfold abortUnknown
  extract_lets p g t i q below m _ _ s1 s2 _
  have hs1 : Keeps s s1 := putEntry_keeps (recordStream_keeps h)
  have hs2 : Keeps s s2 := noteAborted_keeps (latchAbort_keeps hs1)
  exact ite_keeps (.frame (setPart_keeps h)) (raise_keeps (raise_keeps (.frame hs2)))

theorem abortFrame_keeps {s u f} (h : Keeps s u) : Keeps s (abortFrame u f) := by
  unfold abortFrame
  extract_lets p g i late s1
  have hlate : Keeps s late := larkCount_keeps h
  have hs1 : Keeps s s1 := recordStream_keeps h
  split
  · exact ite_keeps hlate (abortUnknown_keeps h)
  · extract_lets e s2 s3 ports
    have hs2 : Keeps s s2 := abortEntry_keeps hs1
    have hs3 : Keeps s s3 := by
      unfold s3
      split
      · exact hs2
      · exact putEntry_keeps hs2
    exact ite_keeps hlate (ite_keeps (sendAbort_keeps hs3) (abortEntry_keeps hs1))

theorem unanswered_keeps {s u} (h : Keeps s u) : Keeps s (unanswered u) := .frame h

theorem answerFrame_keeps {s u f cls group payload} (h : Keeps s u) : Keeps s (answerFrame u f cls group payload) := by
  unfold answerFrame
  extract_lets ports s1
  have hs1 : Keeps s s1 := noteFabric_keeps (recordStream_keeps h)
  exact ite_keeps (unanswered_keeps h) (ite_keeps (fabricSend_keeps hs1) (unanswered_keeps hs1))

theorem probeFrame_keeps {s u f} (h : Keeps s u) : Keeps s (probeFrame u f) := ite_keeps (recordStream_keeps h) (answerFrame_keeps h)

theorem mgmtFrame_keeps {s u f} (h : Keeps s u) : Keeps s (mgmtFrame u f) :=
  ite_keeps (recordStream_keeps h) (ite_keeps (.frame h) (ite_keeps (recordStream_keeps h) (answerFrame_keeps h)))

theorem fabInner_keeps {s x' u f} (h : Keeps s u) : Keeps s (fabInner x' u f) := by
  unfold fabInner
  split
  · exact abortFrame_keeps h
  · split
    · exact stepFrame_keeps (fun _ _ hx => hx) h
    · split
      · exact mgmtFrame_keeps h
      · exact ite_keeps (updateFrame_keeps (ite_keeps (recordStream_keeps h) h)) (ite_keeps (probeFrame_keeps h) h)

theorem fab_keeps {s x' u f} (h : Keeps s u) : Keeps s (fab x' u f) := ite_keeps (stepFrame_keeps (fun _ _ hx => fabInner_keeps hx) h) (fabInner_keeps h)

theorem cacheKey_keeps {s u r key slot} (h : Keeps s u) : Keeps s (cacheKey u r key slot) := .frame h

theorem keyArrives_keeps {s x' u r key} (h : Keeps s u) : Keeps s (keyArrives x' u r key) := by
  unfold keyArrives
  extract_lets ws s1 _ s2 s3 q
  have hs1 : Keeps s s1 := ite_keeps h (kcPush_keeps h)
  have hs2 : Keeps s s2 := .frame hs1
  have hs3 : Keeps s s3 := by
    refine foldl_keeps (fun x a hx => modHeld_keeps ?_) hs2
    split
    · exact kcHold_keeps hx
    · exact hx
  split
  · exact pumpPipe_keeps (fun _ _ hx => fab_keeps hx) hs3
  · exact ite_keeps (sendWaiting_keeps hs2) (setPipe_keeps hs2)

theorem fabricRefused_keeps {s u r} (h : Keeps s u) : Keeps s (fabricRefused u r) := by
  unfold fabricRefused
  split
  · exact ite_keeps (fabricLost_keeps (.frame h)) h
  · exact h

theorem keyRefused_keeps {s x' u r st} (h : Keeps s u) : Keeps s (keyRefused x' u r st) := by
  unfold keyRefused
  extract_lets _ s1 s2 q s2'
  have hs1 : Keeps s s1 := .frame h
  have hs2 : Keeps s s2 := foldl_keeps (fun _ _ hx => damaged_keeps hx) hs1
  have hs2' : Keeps s s2' := setPipe_keeps hs1
  split
  · exact pumpPipe_keeps (fun _ _ hx => fab_keeps hx) hs2
  · split
    · exact sendWaiting_keeps (fabricRefused_keeps hs1)
    · split
      · exact hs2'
      · split
        · exact abortEntry_keeps hs2'
        · exact hs2'

theorem returnAllScaled_keeps {s x' u} (h : Keeps s u) : Keeps s (returnAllScaled x' u) :=
  foldl_keeps (fun _ _ hx => foldl_keeps (fun _ _ hx1 => returnScaled_keeps (fun _ _ hx2 => fab_keeps hx2) hx1) hx) h

theorem engineRefused_keeps {s u st} (h : Keeps s u) : Keeps s (engineRefused u st) := .frame h

theorem serveEngine_keeps {s u i} (h : Keeps s u) : Keeps s (serveEngine u i) := by
  unfold serveEngine
  extract_lets u1
  have hu1 : Keeps s u1 := noteBad_keeps h
  split
  · exact engineRefused_keeps hu1
  · split
    · exact engineRefused_keeps hu1
    · next t e => exact .frame (astrPush_keeps hu1 e)

theorem cutEngine_keeps {s u i} (h : Keeps s u) : Keeps s (cutEngine u i) := by
  unfold cutEngine
  extract_lets s1
  have hs1 : Keeps s s1 := noteBad_keeps h
  split
  next x x1' a a1' e e1' =>
    have ha1' : Keeps s a1' := astrPush_keeps hs1 e1'
    exact putWords_keeps hs1
  next x x1' e =>
    exact hs1

theorem cutPush_keeps {s u r} (h : Keeps s u) : Keeps s (cutPush u r) := by
  unfold cutPush
  split
  · exact h
  · exact setPipe_keeps h

theorem serveKey_keeps {s u x' cut ask} (h : Keeps s u) : Keeps s (serveKey u x' cut ask) := by
  unfold serveKey
  split
  · exact h
  · split
    · exact ite_keeps (cutEngine_keeps h) (serveEngine_keeps h)
    · exact h
    · split
      · exact cutPush_keeps h
      · split
        · exact h
        · extract_lets _ s1 s2
          have hs1 : Keeps s s1 := .frame h
          have hs2 : Keeps s s2 := by
            unfold s2
            split
            · exact noteBad_keeps hs1
            · exact hs1
          refine returnAllScaled_keeps ?_
          split
          · exact keyRefused_keeps hs2
          · exact keyArrives_keeps (ite_keeps (cacheKey_keeps hs2) hs2)

theorem activate_keeps {s u p e} (h : Keeps s u) : Keeps s (activate u p e) := by
  unfold activate
  split
  · exact h
  · extract_lets y r s1 s2 s3 s4
    have hr : Keeps s r.2 := by
      unfold r
      split
      · exact h
      · exact winDone_keeps (allocWindow_keeps h)
    have hs3 : Keeps s s3 := progress_keeps (putEntry_keeps (winDone_keeps (openWindow_keeps hr)))
    exact ite_keeps (abortEntry_keeps hr) (returnAllScaled_keeps (returnParked_keeps (fun _ _ hx => fab_keeps hx) hs3))

theorem entryActivate_keeps {s u p} (h : Keeps s u) : Keeps s (entryActivate u p) := by
  unfold entryActivate
  split
  · exact h
  · extract_lets s1
    have hs1 : Keeps s s1 := by
      unfold s1
      split
      · exact activate_keeps h
      · exact h
    exact returnAllScaled_keeps (returnParked_keeps (fun _ _ hx => fab_keeps hx) hs1)

theorem execDataFrameReceive_keeps {s f e u} (h : Keeps s u) : KeepsNext s (execDataFrameReceive f e u) :=
  .next (eccAdded_keeps (ingressFrame_keeps (fun _ _ hx => fab_keeps hx) h))

theorem execScaleFrameReceive_keeps {s f u} (h : Keeps s u) : KeepsNext s (execScaleFrameReceive f u) :=
  .next (eccAdded_keeps (ingressFrame_keeps (fun _ _ hx => fab_keeps hx) h))

theorem execResultFrameReceive_keeps {s f u} (h : Keeps s u) : KeepsNext s (execResultFrameReceive f u) :=
  .next (ingressFrame_keeps (fun _ _ hx => fab_keeps hx) h)

theorem execAbortFrameReceive_keeps {s f u} (h : Keeps s u) : KeepsNext s (execAbortFrameReceive f u) :=
  .next (ingressFrame_keeps (fun _ _ hx => fab_keeps hx) h)

theorem execStepFrameReceive_keeps {s f x' u} (h : Keeps s u) : KeepsNext s (execStepFrameReceive f x' u) :=
  .next (eccAdded_keeps (ingressFrame_keeps (fun _ _ hx => fab_keeps hx) h))

theorem execProbeFrameReceive_keeps {s f u} (h : Keeps s u) : KeepsNext s (execProbeFrameReceive f u) :=
  .next (ingressFrame_keeps (fun _ _ hx => fab_keeps hx) h)

theorem execMgmtFrameReceive_keeps {s f u} (h : Keeps s u) : KeepsNext s (execMgmtFrameReceive f u) := .next (ingressFrame_keeps (fun _ _ hx => fab_keeps hx) h)

theorem execUpdateFrameReceive_keeps {s f x' u} (h : Keeps s u) : KeepsNext s (execUpdateFrameReceive f x' u) :=
  .next (ingressFrame_keeps (fun _ _ hx => fab_keeps hx) h)

theorem execKeyRequestServe_keeps {s x' u} (h : Keeps s u) : KeepsNext s (execKeyRequestServe x' u) := .next (eccAdded_keeps (serveKey_keeps h))

theorem execCsParityError_keeps {s pipe x' u} (h : Keeps s u) : KeepsNext s (execCsParityError pipe x' u) :=
  .next (eccAdded_keeps (whenArith_keeps h (fun _ hx => csParityError_keeps (fun _ _ hx1 => fab_keeps hx1) hx)))

theorem execIngressReplay_keeps {s pipe e u} (h : Keeps s u) : KeepsNext s (execIngressReplay pipe e u) :=
  .next (eccAdded_keeps (whenArith_keeps h (fun _ hx1 => ingressReplay_keeps hx1)))

theorem execEgressReplay_keeps {s pipe e u} (h : Keeps s u) : KeepsNext s (execEgressReplay pipe e u) :=
  .next (eccReplayed_keeps (whenArith_keeps h (fun _ hx1 => egressReplay_keeps hx1)))

theorem execEntryActivate_keeps {s x' u} (h : Keeps s u) : KeepsNext s (execEntryActivate x' u) := .next (eccAdded_keeps (entryActivate_keeps h))

theorem execMrdAdvance_keeps {s a v' x' u} (h : Keeps s u) : KeepsNext s (execMrdAdvance a v' x' u) :=
  .next (eccAdded_keeps (mrdAdvance_keeps (fun _ _ hx => fabInner_keeps hx) h))

theorem execStepMarkPulse_keeps {s x' u} (h : Keeps s u) : KeepsNext s (execStepMarkPulse x' u) :=
  .next (eccAdded_keeps (stepMark_keeps (fun _ _ hx => fabInner_keeps hx) h))

theorem execPendingBoundary_keeps {s x' u} (h : Keeps s u) : KeepsNext s (execPendingBoundary x' u) :=
  .next (eccAdded_keeps (pendingBoundary_keeps (fun _ _ hx => fabInner_keeps hx) h))

theorem progressAll_keeps {s u} (h : Keeps s u) : Keeps s (progressAll u) := foldl_keeps (fun _ _ hx => foldl_keeps (fun _ _ hx1 => progress_keeps hx1) hx) h

theorem execAbsenceCut_keeps {s x' u} (h : Keeps s u) : KeepsNext s (execAbsenceCut x' u) :=
  .next (eccAdded_keeps (afterTime_keeps h (fun _ hx => returnAllScaled_keeps (progressAll_keeps (cutAbsent_keeps hx)))))

theorem execDeadlineExpire_keeps {s us u} (h : Keeps s u) : KeepsNext s (execDeadlineExpire us u) :=
  .next (afterTime_keeps h (fun _ hx => expireDeadlines_keeps hx))

/-! ### Rhumb -/

theorem setChan_keeps {s u k c} (h : Keeps s u) : Keeps s (u.setChan k c) := .frame h

theorem modChan_keeps {s u k f} (h : Keeps s u) : Keeps s (modChan u k f) := setChan_keeps h

theorem issue_keeps {s u k kind addr n data} (h : Keeps s u) : Keeps s (issue u k kind addr n data) := by
  unfold issue
  split
  · exact h
  · exact emit_keeps (.frame h)

theorem detach_keeps {s u c} (h : Keeps s u) : Keeps s (detach u c) := .frame h

theorem chanReg_keeps {s bus u a write addr v'} (hbus : ∀ x a1 a2 a3 a4, Keeps s x → Keeps s (bus x a1 a2 a3 a4)) (h : Keeps s u) :
    Keeps s (chanReg bus u a write addr v').1 := by
  unfold chanReg
  extract_lets keep _ s1 r _
  have hs1 : Keeps s s1 := hbus _ _ _ _ _ (.within h)
  exact .within hs1

theorem chanReads_keeps {s bus a n addr u acc} (hbus : ∀ x a1 a2 a3 a4, Keeps s x → Keeps s (bus x a1 a2 a3 a4)) (h : Keeps s u) :
    Keeps s (chanReads bus a n addr u acc).1 := by
  induction n generalizing addr u acc with
  | zero => exact h
  | succ n ih =>
    unfold chanReads
    extract_lets r
    have hr : Keeps s r.1 := chanReg_keeps hbus h
    split
    · exact hr
    · exact ih hr

theorem stageWrite_keeps {s u off b} (h : Keeps s u) : Keeps s (stageWrite u off b) := foldl_keeps (fun _ _ hx => .frame hx) h

theorem setJob_keeps {s u k j} (h : Keeps s u) : Keeps s (setJob u k j) := modChan_keeps h

theorem claim_keeps {s u k j} (h : Keeps s u) : Keeps s (claim u k j) := .frame h

theorem takeReleased_keeps {s u k} (h : Keeps s u) : Keeps s (takeReleased u k) := by
  unfold takeReleased
  extract_lets c
  split
  · exact ite_keeps (claim_keeps h) h
  · exact h

theorem unclaim_keeps {s u k} (h : Keeps s u) : Keeps s (unclaim u k) := foldl_keeps (fun _ _ hx => takeReleased_keeps hx) (.frame h)

theorem pullMem_keeps {s u k j second g t} (h : Keeps s u) (e : pullMem u k j second g = some t) : Keeps s t :=
  keeps_of_ite_none (setJob_keeps (issue_keeps h)) e

theorem pullOther_keeps {s bus u k j second g t} (hbus : ∀ x a1 a2 a3 a4, Keeps s x → Keeps s (bus x a1 a2 a3 a4)) (h : Keeps s u)
    (e : pullOther bus u k j second g = some t) : Keeps s t := by
  unfold pullOther at e
  dsimp only at e
  split at e
  · split at e
    · cases e
    · cases e; exact setJob_keeps (chanReads_keeps hbus h)
  · split at e
    · split at e
      · split at e
        · cases e; exact setJob_keeps h
        · split at e
          · cases e
          · cases e; exact savePassed_keeps (setJob_keeps h)
      · cases e; exact setJob_keeps h
    · split at e
      · split at e
        · cases e
        · cases e; exact setJob_keeps h
      · split at e
        · cases e
        · split at e
          · cases e
          · cases e; exact setJob_keeps h

theorem pullPart_keeps {s u k j t} (h : Keeps s u) (e : pullPart u k j = some t) : Keeps s t := by
  unfold pullPart at e
  split at e
  · cases e
  · dsimp only at e
    split at e
    · cases e
    · cases e; exact setJob_keeps h

theorem pullSide_keeps {s bus port u k j second t} (hbus : ∀ x a1 a2 a3 a4, Keeps s x → Keeps s (bus x a1 a2 a3 a4)) (h : Keeps s u)
    (e : pullSide bus port u k j second = some t) : Keeps s t := by
  unfold pullSide at e
  split at e
  · cases e
  · split at e
    · split at e
      · exact pullMem_keeps h e
      · cases e
    · split at e
      · cases e
      · exact pullOther_keeps hbus h e

theorem pullOne_keeps {s bus port u k t} (hbus : ∀ x a1 a2 a3 a4, Keeps s x → Keeps s (bus x a1 a2 a3 a4)) (h : Keeps s u)
    (e : pullOne bus port u k = some t) : Keeps s t := by
  unfold pullOne at e
  dsimp only at e
  split at e
  · cases e
  · split at e
    · cases e
    · split at e
      · split at e
        · cases e
        · exact pullPart_keeps h e
      · split at e
        · next e1 => cases e; exact pullSide_keeps hbus (claim_keeps h) e1
        · split at e
          · exact pullSide_keeps hbus (claim_keeps h) e
          · cases e

theorem consumeFrames_keeps {s port f n u l} (h : Keeps s u) : Keeps s (consumeFrames port f n u l).1 := by
  induction f generalizing n u l with
  | zero => exact h
  | succ f ih =>
    cases l with
    | nil => exact h
    | cons x l =>
      unfold consumeFrames
      dsimp only
      split
      · refine ih (.frame ?_)
        exact ite_keeps h (.frame h)
      · exact ite_keeps h (.frame h)

theorem acked_keeps {s u k n} (h : Keeps s u) : Keeps s (acked u k n) := by
  unfold acked
  dsimp only
  split
  · exact h
  · refine setChan_keeps ?_
    split
    · split
      · exact consumeFrames_keeps h
      · exact h
    · exact h

theorem pushMem_keeps {s u k j g t} (h : Keeps s u) (e : pushMem u k j g = some t) : Keeps s t :=
  keeps_of_ite_none (setJob_keeps (issue_keeps h)) e

theorem stopJob_keeps {s u k j st} (h : Keeps s u) : Keeps s (stopJob u k j st) := setJob_keeps (detach_keeps h)

theorem sendFrame_keeps {s u k j g wire m} (h : Keeps s u) : Keeps s (sendFrame u k j g wire m) := by
  unfold sendFrame
  extract_lets b vc n c c1 _ s1 f
  have hs1 : Keeps s s1 := acked_keeps (setJob_keeps (.frame h))
  exact takeFrame_keeps (fun _ _ hx => fab_keeps hx) hs1

theorem pushFrame_keeps {s u k j g t} (h : Keeps s u) (e : pushFrame u k j g = some t) : Keeps s t := by
  have wait {c d : Prop} [Decidable c] [Decidable d] {j1 st} (e : (if c then none else if d then some (setJob u k j1) else some (stopJob u k j st)) = some t) :
      Keeps s t := by
    split at e
    · cases e
    · split at e
      · cases e; exact setJob_keeps h
      · cases e; exact stopJob_keeps h
  unfold pushFrame at e
  dsimp only at e
  split at e
  · exact wait e
  · split at e
    · cases e; exact stopJob_keeps h
    · split at e
      · cases e
      · split at e
        · cases e
        · split at e
          · cases e; exact sendFrame_keeps h
          · split at e
            · exact wait e
            · cases e; exact setJob_keeps h

theorem pushOther_keeps {s bus u k j g t} (hbus : ∀ x a1 a2 a3 a4, Keeps s x → Keeps s (bus x a1 a2 a3 a4)) (h : Keeps s u)
    (e : pushOther bus u k j g = some t) : Keeps s t := by
  unfold pushOther at e
  split at e
  · exact pushFrame_keeps h e
  · extract_lets n b r at e
    have hr : Keeps s r.1 := chanReg_keeps hbus h
    clear_value n r
    split at e
    · cases e
    · split at e
      · split at e
        · cases e; exact hr
        · cases e; exact stopJob_keeps hr
        · cases e; exact acked_keeps (setJob_keeps hr)
      · split at e
        · cases e; exact acked_keeps (setJob_keeps (stageWrite_keeps h))
        · split at e
          · split at e
            · cases e; exact acked_keeps (setJob_keeps (restoreAt_keeps h))
            · cases e; exact stopJob_keeps h
          · cases e; exact stopJob_keeps h

theorem pushOne_keeps {s bus port u k t} (hbus : ∀ x a1 a2 a3 a4, Keeps s x → Keeps s (bus x a1 a2 a3 a4)) (h : Keeps s u)
    (e : pushOne bus port u k = some t) : Keeps s t := by
  unfold pushOne at e
  dsimp only at e
  split at e
  · cases e
  · split at e
    · cases e
    · split at e
      · cases e
      · split at e
        · split at e
          · exact pushMem_keeps h e
          · cases e
        · split at e
          · cases e
          · exact pushOther_keeps hbus (claim_keeps h) e

theorem goIdle_keeps {s u k st cause} (h : Keeps s u) : Keeps s (goIdle u k st cause) := by
  unfold goIdle
  extract_lets s1
  have hs1 : Keeps s s1 := modChan_keeps h
  exact raise_keeps (ctxCut_keeps (unclaim_keeps (detach_keeps hs1)))

theorem goStopped_keeps {s u k} (h : Keeps s u) : Keeps s (goStopped u k) := goIdle_keeps (modChan_keeps h)

theorem haltChan_keeps {s u k st} (h : Keeps s u) : Keeps s (haltChan u k st) := by
  unfold haltChan
  extract_lets c g keep s1
  have hs1 : Keeps s s1 := setChan_keeps h
  exact ite_keeps (goStopped_keeps h) (raise_keeps (ctxCut_keeps (detach_keeps hs1)))

theorem insDone_keeps {s u k} (h : Keeps s u) : Keeps s (insDone u k) := by
  unfold insDone
  extract_lets i s1
  have hs1 : Keeps s s1 := unclaim_keeps (modChan_keeps h)
  exact ite_keeps (raise_keeps hs1) hs1

theorem fetchIns_keeps {s u k} (h : Keeps s u) : Keeps s (fetchIns u k) := ite_keeps h (ite_keeps (haltChan_keeps h) (issue_keeps (modChan_keeps h)))

theorem startJob_keeps {s u k j} (h : Keeps s u) : Keeps s (startJob u k j) := modChan_keeps h

theorem startDesc_keeps {s u k addr left} (h : Keeps s u) : Keeps s (startDesc u k addr left) :=
  ite_keeps (haltChan_keeps (startJob_keeps h)) (startJob_keeps h)

theorem jobDone_keeps {s u k j} (h : Keeps s u) : Keeps s (jobDone u k j) := by
  unfold jobDone
  split
  · extract_lets s1 s2
    have hs1 : Keeps s s1 := ite_keeps (raise_keeps h) h
    have hs2 : Keeps s s2 := modChan_keeps hs1
    exact ite_keeps (insDone_keeps hs2) (startDesc_keeps hs2)
  · exact insDone_keeps (modChan_keeps h)
  · exact insDone_keeps h

theorem descRead_keeps {s u k j left} (h : Keeps s u) : Keeps s (descRead u k j left) := by
  unfold descRead
  extract_lets i w len nxt kind src
  split
  · exact haltChan_keeps h
  · split
    · exact haltChan_keeps h
    · split
      · exact jobDone_keeps h
      · split
        · exact haltChan_keeps h
        · exact modChan_keeps (startJob_keeps h)

theorem pairsRead_keeps {s u k j nS nD} (h : Keeps s u) : Keeps s (pairsRead u k j nS nD) := by
  unfold pairsRead
  extract_lets len
  split
  · exact ite_keeps (haltChan_keeps h) (ite_keeps (haltChan_keeps h) (startJob_keeps h))
  · exact haltChan_keeps h

theorem compareStep_keeps {s u k j} (h : Keeps s u) : Keeps s (compareStep u k j) := by
  unfold compareStep
  extract_lets r s1 s2 s3
  have hs1 : Keeps s s1 := acked_keeps (setJob_keeps h)
  have hs2 : Keeps s s2 := detach_keeps (modChan_keeps hs1)
  have hs3 : Keeps s s3 := raise_keeps hs2
  split
  · exact hs1
  · split
    · exact goIdle_keeps (modChan_keeps (ite_keeps (raise_keeps hs3) hs3))
    · exact insDone_keeps hs3

theorem settle_keeps {s u k} (h : Keeps s u) : Keeps s (settle u k) := by
  unfold settle
  split
  · exact h
  · split
    · split
      · exact h
      · split
        · extract_lets s1
          have hs1 : Keeps s s1 := compareStep_keeps h
          exact ite_keeps (haltChan_keeps hs1) hs1
        · exact ite_keeps (haltChan_keeps h) h
    · split
      · exact ite_keeps (descRead_keeps h) h
      · exact ite_keeps (pairsRead_keeps h) h
      · extract_lets s1
        have hs1 : Keeps s s1 := compareStep_keeps h
        split
        · exact ite_keeps (jobDone_keeps hs1) hs1
        · exact hs1
      · exact ite_keeps (jobDone_keeps h) h

theorem moveInside_keeps {s bus k n u} (hbus : ∀ x a1 a2 a3 a4, Keeps s x → Keeps s (bus x a1 a2 a3 a4)) (h : Keeps s u) :
    Keeps s (moveInside bus k n u) := by
  induction n generalizing u with
  | zero => exact h
  | succ n ih =>
    unfold moveInside
    split
    · next e => exact ih (pullOne_keeps hbus h e)
    · split
      · next e => exact ih (pushOne_keeps hbus h e)
      · exact h

theorem insideRound_keeps {s bus u k} (hbus : ∀ x a1 a2 a3 a4, Keeps s x → Keeps s (bus x a1 a2 a3 a4)) (h : Keeps s u) : Keeps s (insideRound bus u k) := by
  unfold insideRound
  extract_lets c s1 big s2 d
  have hs1 : Keeps s s1 := ite_keeps (setChan_keeps h) h
  have hs2 : Keeps s s2 := settle_keeps (moveInside_keeps hbus hs1)
  exact ite_keeps (goStopped_keeps hs2) (ite_keeps (setChan_keeps hs2) hs2)

theorem insideChan_keeps {s bus u k} (hbus : ∀ x a1 a2 a3 a4, Keeps s x → Keeps s (bus x a1 a2 a3 a4)) (h : Keeps s u) : Keeps s (insideChan bus u k) :=
  ite_keeps (insideRound_keeps hbus (insideRound_keeps hbus (insideRound_keeps hbus h))) h

theorem insideAll_keeps {s bus u} (hbus : ∀ x a1 a2 a3 a4, Keeps s x → Keeps s (bus x a1 a2 a3 a4)) (h : Keeps s u) : Keeps s (insideAll bus u) :=
  foldl_keeps (fun _ _ hx => insideChan_keeps hbus hx) h

theorem portBeat_keeps {s bus u k t} (hbus : ∀ x a1 a2 a3 a4, Keeps s x → Keeps s (bus x a1 a2 a3 a4)) (h : Keeps s u)
    (e : portBeat bus u k = some t) : Keeps s t := by
  unfold portBeat at e
  split at e
  · next e1 => cases e; exact pullOne_keeps hbus h e1
  · split at e
    · next e1 => cases e; exact pushOne_keeps hbus h e1
    · split at e
      · cases e; exact fetchIns_keeps h
      · cases e

theorem nextBeat_keeps {s bus u t} (hbus : ∀ x a1 a2 a3 a4, Keeps s x → Keeps s (bus x a1 a2 a3 a4)) (h : Keeps s u)
    (e : nextBeat bus u = some t) : Keeps s t := by
  obtain ⟨p, -, ep⟩ := List.exists_of_findSome?_eq_some e
  obtain ⟨k, -, ek⟩ := List.exists_of_findSome?_eq_some ep
  split at ek
  · obtain ⟨s1, e1, rfl⟩ := Option.map_eq_some_iff.1 ek
    exact .frame (portBeat_keeps hbus h e1)
  · cases ek

theorem serveBeats_keeps {s bus n u} (hbus : ∀ x a1 a2 a3 a4, Keeps s x → Keeps s (bus x a1 a2 a3 a4)) (h : Keeps s u) :
    Keeps s (serveBeats bus n u) := by
  induction n generalizing u with
  | zero => exact h
  | succ n ih =>
    unfold serveBeats
    split
    · exact h
    · next e => exact ih (insideAll_keeps hbus (nextBeat_keeps hbus h e))

theorem latchErr_keeps {s u k write addr} (h : Keeps s u) : Keeps s (latchErr u k write addr) := modChan_keeps h

theorem insArrives_keeps {s u k b} (h : Keeps s u) : Keeps s (insArrives u k b) := by
  unfold insArrives
  extract_lets l s1 op
  have hs1 : Keeps s s1 := modChan_keeps h
  exact ite_keeps (haltChan_keeps hs1) hs1

theorem takeAnswer_keeps {s u k r a} (h : Keeps s u) : Keeps s (takeAnswer u k r a) := by
  unfold takeAnswer
  extract_lets _ s1 bad s2
  have hs1 : Keeps s s1 := .frame h
  have hbad : Keeps s bad := latchErr_keeps hs1
  have hs2 : Keeps s s2 := detach_keeps (modChan_keeps hbad)
  split
  · exact insArrives_keeps hs1
  · exact haltChan_keeps hbad
  · exact acked_keeps hs1
  · exact haltChan_keeps hs2
  · exact modChan_keeps hs1
  · exact modChan_keeps (detach_keeps hbad)

theorem takeAll_keeps {s k n u} (h : Keeps s u) : Keeps s (takeAll k n u) := by
  induction n generalizing u with
  | zero => exact h
  | succ n ih =>
    unfold takeAll
    split
    · exact ih (takeAnswer_keeps h)
    · split
      · exact ih (takeAnswer_keeps h)
      · exact h

theorem pumpAll_keeps {s bus u} (hbus : ∀ x a1 a2 a3 a4, Keeps s x → Keeps s (bus x a1 a2 a3 a4)) (h : Keeps s u) : Keeps s (pumpAll bus u) := by
  unfold pumpAll
  split
  · exact h
  · extract_lets s1
    have hs1 : Keeps s s1 := insideAll_keeps hbus (foldl_keeps (fun _ _ hx => takeAll_keeps hx) h)
    exact ite_keeps (serveBeats_keeps hbus hs1) hs1

theorem endReq_keeps {s bus u r a} (hbus : ∀ x a1 a2 a3 a4, Keeps s x → Keeps s (bus x a1 a2 a3 a4)) (h : Keeps s u) : Keeps s (endReq bus u r a) :=
  ite_keeps (pumpAll_keeps hbus (.frame h)) (pumpAll_keeps hbus (.frame h))

theorem answerReq_keeps {s bus u id write a} (hbus : ∀ x a1 a2 a3 a4, Keeps s x → Keeps s (bus x a1 a2 a3 a4)) (h : Keeps s u) :
    Keeps s (answerReq bus u id write a) := by
  unfold answerReq
  split
  · exact h
  · split
    · exact .frame h
    · split
      · exact h
      · exact endReq_keeps hbus h

theorem timeoutReq_keeps {s bus u id us} (hbus : ∀ x a1 a2 a3 a4, Keeps s x → Keeps s (bus x a1 a2 a3 a4)) (h : Keeps s u) :
    Keeps s (timeoutReq bus u id us) := by
  unfold timeoutReq
  extract_lets s1 _
  have hs1 : Keeps s s1 := passTime_keeps h
  split
  · exact hs1
  · exact ite_keeps (endReq_keeps hbus (.frame hs1)) hs1

/-! ### Channels -/

theorem runIns_keeps {s bus u k op body} (hbus : ∀ x a1 a2 a3 a4, Keeps s x → Keeps s (bus x a1 a2 a3 a4)) (h : Keeps s u)
    (hbody : ∀ x a1, Keeps s x → Keeps s (body x a1)) : Keeps s (runIns bus u k op body) := ite_keeps (pumpAll_keeps hbus (hbody _ _ h)) h

theorem startOr_keeps {s u k len r} (h : Keeps s u) : Keeps s (startOr u k len r) := by
  unfold startOr
  split
  · exact haltChan_keeps h
  · exact ite_keeps (insDone_keeps h) (startJob_keeps h)

theorem insMove_keeps {s u i k} (h : Keeps s u) : Keeps s (insMove u i k) :=
  ite_keeps (haltChan_keeps h) (ite_keeps (haltChan_keeps h) (ite_keeps (ite_keeps (insDone_keeps h) (haltChan_keeps h)) (startOr_keeps h)))

theorem insMoveSg_keeps {s u i k} (h : Keeps s u) : Keeps s (insMoveSg u i k) :=
  ite_keeps (haltChan_keeps h) (ite_keeps (haltChan_keeps h) (ite_keeps (insDone_keeps h) (ite_keeps (haltChan_keeps h) (startJob_keeps h))))

theorem insFill_keeps {s u i k} (h : Keeps s u) : Keeps s (insFill u i k) := by
  unfold insFill
  split
  · exact haltChan_keeps h
  · exact ite_keeps (haltChan_keeps h) (ite_keeps (insDone_keeps h) (ite_keeps (haltChan_keeps h) (startJob_keeps h)))

theorem insCompare_keeps {s u i k} (h : Keeps s u) : Keeps s (insCompare u i k) := by
  unfold insCompare
  split
  · exact haltChan_keeps h
  · split
    · exact haltChan_keeps h
    · exact ite_keeps (insDone_keeps (modChan_keeps h)) (ite_keeps (haltChan_keeps h) (startJob_keeps h))

theorem insShuffle_keeps {s u i k} (h : Keeps s u) : Keeps s (insShuffle u i k) :=
  ite_keeps (haltChan_keeps h) (ite_keeps (haltChan_keeps h) (ite_keeps (insDone_keeps h) (ite_keeps (ite_keeps (haltChan_keeps h) (startJob_keeps h))
  (ite_keeps (haltChan_keeps h) (startJob_keeps h)))))

theorem insLoop_keeps {s u i k} (h : Keeps s u) : Keeps s (insLoop u i k) := by
  unfold insLoop
  extract_lets c back a b l put l1 _ _ s1
  have hs1 : Keeps s s1 := setChan_keeps h
  split
  · exact haltChan_keeps h
  · split
    · exact haltChan_keeps h
    · exact ite_keeps (haltChan_keeps h) (ite_keeps (insDone_keeps (setChan_keeps h)) (ite_keeps (raise_keeps hs1) hs1))

theorem insWait_keeps {s u i k} (h : Keeps s u) : Keeps s (insWait u i k) := by
  unfold insWait
  extract_lets hold
  split
  · exact haltChan_keeps h
  · split
    · exact haltChan_keeps h
    · split
      · exact ite_keeps (haltChan_keeps h) (modChan_keeps h)
      · split
        · exact ite_keeps (haltChan_keeps h) (ite_keeps (haltChan_keeps h) (modChan_keeps h))
        · exact ite_keeps (haltChan_keeps h) (modChan_keeps h)

theorem judgeWait_keeps {s u k} (h : Keeps s u) : Keeps s (judgeWait u k) := by
  unfold judgeWait
  extract_lets c _
  split
  · exact h
  · split
    · exact insDone_keeps h
    · exact ite_keeps (insDone_keeps (.frame h)) h
    · exact ite_keeps (insDone_keeps (setChan_keeps h)) h
    · exact h

theorem judgeWaits_keeps {s bus u} (hbus : ∀ x a1 a2 a3 a4, Keeps s x → Keeps s (bus x a1 a2 a3 a4)) (h : Keeps s u) : Keeps s (judgeWaits bus u) :=
  pumpAll_keeps hbus (foldl_keeps (fun _ _ hx => judgeWait_keeps hx) h)

theorem ringBell_keeps {s u k} (h : Keeps s u) : Keeps s (ringBell u k) := modChan_keeps h

theorem insSignal_keeps {s u i k} (h : Keeps s u) : Keeps s (insSignal u i k) := by
  unfold insSignal
  split
  · exact haltChan_keeps h
  · split
    · exact haltChan_keeps h
    · split
      · exact ite_keeps (haltChan_keeps h) (ite_keeps (haltChan_keeps h) (insDone_keeps (.frame h)))
      · split
        · exact ite_keeps (haltChan_keeps h) (ite_keeps (haltChan_keeps h) (insDone_keeps (ringBell_keeps h)))
        · split
          · exact ite_keeps (haltChan_keeps h) (insDone_keeps (raise_keeps h))
          · exact ite_keeps (haltChan_keeps h) (ite_keeps (haltChan_keeps h) (ite_keeps (haltChan_keeps h) (startJob_keeps h)))

theorem insList_keeps {s u i k} (h : Keeps s u) : Keeps s (insList u i k) :=
  ite_keeps (haltChan_keeps h) (ite_keeps (haltChan_keeps h) (ite_keeps (insDone_keeps h) (startDesc_keeps h)))

theorem insEnd_keeps {s u i k} (h : Keeps s u) : Keeps s (insEnd u i k) :=
  ite_keeps (haltChan_keeps h) (ite_keeps (haltChan_keeps h) (goIdle_keeps (ite_keeps (raise_keeps h) h)))

theorem startRun_keeps {s u k mgmt} (h : Keeps s u) : Keeps s (startRun u k mgmt) := modChan_keeps h

theorem chanStart_keeps {s u a k v'} (h : Keeps s u) : Keeps s (chanStart u a k v') := regWrite_keeps h (fun _ hx => startRun_keeps hx)

theorem paused_keeps {s u k} (h : Keeps s u) : Keeps s (paused u k) := raise_keeps (modChan_keeps h)

theorem chanPause_keeps {s u a k v'} (h : Keeps s u) : Keeps s (chanPause u a k v') :=
  regWrite_keeps h (fun _ hx => ite_keeps (paused_keeps (detach_keeps hx)) (setChan_keeps hx))

theorem pauseDrained_keeps {s bus u k} (hbus : ∀ x a1 a2 a3 a4, Keeps s x → Keeps s (bus x a1 a2 a3 a4)) (h : Keeps s u) : Keeps s (pauseDrained bus u k) := by
  unfold pauseDrained
  extract_lets s1
  have hs1 : Keeps s s1 := ite_keeps (pumpAll_keeps hbus h) h
  exact ite_keeps (paused_keeps hs1) hs1

theorem resumeJob_keeps {s u k j} (h : Keeps s u) : Keeps s (resumeJob u k j) := by
  unfold resumeJob
  split
  · exact startDesc_keeps h
  · exact modChan_keeps h

theorem resumeRun_keeps {s u k} (h : Keeps s u) : Keeps s (resumeRun u k) := by
  unfold resumeRun
  extract_lets c
  split
  · exact resumeJob_keeps (setChan_keeps h)
  · exact setChan_keeps h
  · exact setChan_keeps h
  · exact resumeJob_keeps (setChan_keeps h)
  · exact setChan_keeps h

theorem chanResume_keeps {s u a k v'} (h : Keeps s u) : Keeps s (chanResume u a k v') := regWrite_keeps h (fun _ hx => resumeRun_keeps hx)

theorem dropBegun_keeps {s u j} (h : Keeps s u) : Keeps s (dropBegun u j) := by
  unfold dropBegun
  split
  · exact ite_keeps (consumeFrames_keeps h) h
  · exact h

theorem stopNow_keeps {s u k} (h : Keeps s u) : Keeps s (stopNow u k) := by
  unfold stopNow
  extract_lets c
  split
  · exact h
  · refine goStopped_keeps ?_
    split
    · exact dropBegun_keeps h
    · exact h

theorem stopChan_keeps {s u k} (h : Keeps s u) : Keeps s (stopChan u k) := ite_keeps (modChan_keeps h) (stopNow_keeps h)

theorem chanStop_keeps {s u a k v'} (h : Keeps s u) : Keeps s (chanStop u a k v') := regWrite_keeps h (fun _ hx => stopChan_keeps hx)

theorem chanBell_keeps {s u a k v'} (h : Keeps s u) : Keeps s (chanBell u a k v') := regWrite_keeps h (fun _ hx => ite_keeps (ringBell_keeps hx) hx)

theorem gctrlWrite_keeps {s u a v'} (h : Keeps s u) : Keeps s (gctrlWrite u a v') := regWrite_keeps h (fun _ hx => .frame hx)

theorem semWrite_keeps {s u a v'} (h : Keeps s u) : Keeps s (semWrite u a v') := by
  unfold semWrite
  exact regWrite_keeps h (fun _ hx => .frame hx)

theorem ctxCmd_keeps {s u a v fault} (h : Keeps s u) : Keeps s (ctxCmd u a v fault) := by
  unfold ctxCmd
  refine regWrite_keeps h (fun s1 hs1 => ?_)
  extract_lets d
  have hd : Keeps s d.2 := by
    unfold d
    split
    · exact drbgDraw_keeps hs1
    · exact hs1
  split
  · exact startRun_keeps (.frame hd)
  · split
    · next e => exact ctxEnd_keeps (.frame (keeps_fst (saveKeyPush_keeps hd) e))
    · next e => exact startRun_keeps (.frame (keeps_fst (saveKeyPush_keeps hd) e))

/-! ### Certs -/

theorem issuePair_keeps {s u c issuer ec ml} (h : Keeps s u) : Keeps s (issuePair u c issuer ec ml).2 := by
  unfold issuePair
  extract_lets d
  have hd : Keeps s d.2 := drbgDraws_keeps h
  clear_value d
  exact hd

/-! ### Identity -/

theorem formIdentity_keeps {s u area} (h : Keeps s u) : Keeps s (formIdentity u area) := by
  unfold formIdentity
  extract_lets s0 s1
  have hs0 : Keeps s s0 := noteBad_keeps (noteBad_keeps h)
  have hs1 : Keeps s s1 := engineRuns_keeps hs0
  clear_value s1 s0
  split
  · extract_lets r x
    have hx : Keeps s x := issuePair_keeps hs1
    clear_value x
    exact .frame hx
  · exact .frame hs0

theorem issuePart_keeps {s u p} (h : Keeps s u) : Keeps s (issuePart u p) := by
  unfold issuePart
  extract_lets s0 s1
  have hs0 : Keeps s s0 := noteBad_keeps (noteBad_keeps h)
  have hs1 : Keeps s s1 := engineRuns_keeps hs0
  split
  · extract_lets r x _
    have hr : Keeps s r.2 := issuePair_keeps hs1
    exact .frame hr
  · exact hs0

theorem needPart_keeps {s u p} (h : Keeps s u) : Keeps s (needPart u p) := ite_keeps (issuePart_keeps h) h

theorem dropPart_keeps {s u p} (h : Keeps s u) : Keeps s (dropPart u p) := .frame h

/-! ### Zinnia -/

theorem zinDone_keeps {s u a st stage signer} (h : Keeps s u) : Keeps s (zinDone u a st stage signer) := by
  unfold zinDone
  extract_lets _ s1
  have hs1 : Keeps s s1 := .frame h
  exact noteCmd_keeps (raise_keeps hs1)

theorem applyRequest_keeps {s u p b} (h : Keeps s u) : Keeps s (applyRequest u p b) := by
  unfold applyRequest
  extract_lets x y s1
  have hs1 : Keeps s s1 := setBudget_keeps h
  exact ite_keeps (raise_keeps (raise_keeps hs1)) hs1

theorem budgetStages_keeps {s u mem policy t} (h : Keeps s u) (e : budgetStages u mem policy = .ok t) : Keeps s t := by
  unfold budgetStages at e
  dsimp only at e
  split at e
  · cases e
  · split at e
    · cases e
    · split at e
      · cases e
      · split at e
        · cases e
        · split at e
          · cases e
          · split at e
            · cases e
            · split at e
              · cases e
              · split at e
                · cases e
                · cases e; exact applyRequest_keeps h

theorem zinRun_keeps {s u a mem policy} (h : Keeps s u) : Keeps s (zinRun u a mem policy) := by
  unfold zinRun
  split
  · exact zinDone_keeps (ite_keeps (engineUp_keeps h) h)
  · next e => exact zinDone_keeps (engineUp_keeps (budgetStages_keeps h e))

theorem zinCmd_keeps {s u a v' mem policy} (h : Keeps s u) : Keeps s (zinCmd u a v' mem policy) :=
  regWrite_keeps h (fun _ hx => ite_keeps (.frame hx) (zinRun_keeps hx))

theorem zinResume_keeps {s u} (h : Keeps s u) : Keeps s (zinResume u) := by
  unfold zinResume
  split
  · exact ite_keeps h (zinRun_keeps (.frame h))
  · exact h

theorem execAstrOpEnd_keeps {s how u} (h : Keeps s u) : KeepsNext s (execAstrOpEnd how u) :=
  .next (whenArith_keeps h (fun _ hx1 => zinResume_keeps (astrOpEnd_keeps hx1)))

theorem astrAbort_keeps {s u a v'} (h : Keeps s u) : Keeps s (astrAbort u a v') := astrCmd_keeps h (fun _ hx1 => zinResume_keeps (astrAbortNow_keeps hx1))

theorem execAstrAbort_keeps {s a v' u} (h : Keeps s u) : KeepsNext s (execAstrAbort a v' u) := .next (astrAbort_keeps h)

theorem execZinBudget_keeps {s a v' mem policy u} (h : Keeps s u) : KeepsNext s (execZinBudget a v' mem policy u) := .next (zinCmd_keeps h)

/-! ### Partitions -/

theorem regionWrite_keeps {s u a p w' limit v'} (h : Keeps s u) : Keeps s (regionWrite u a p w' limit v') := regWrite_keeps h (fun _ hx => setPart_keeps hx)

theorem mgmtRegionWrite_keeps {s u a w' limit v'} (h : Keeps s u) : Keeps s (mgmtRegionWrite u a w' limit v') := regWrite_keeps h (fun _ hx => .frame hx)

theorem regionDisableDone_keeps {s u p w'} (h : Keeps s u) : Keeps s (regionDisableDone u p w') := setPart_keeps h

theorem closeMgmt_keeps {s u} (h : Keeps s u) : Keeps s (closeMgmt u) := .frame h

theorem partDone_keeps {s u a p st step} (h : Keeps s u) : Keeps s (partDone u a p st step) := noteCmd_keeps (setPart_keeps h)

theorem assignOp_keeps {s u a p mem} (h : Keeps s u) : Keeps s (assignOp u a p mem) := by
  unfold assignOp
  split
  · exact partDone_keeps (ite_keeps (engineUp_keeps (noteBad_keeps h)) h)
  · extract_lets q s1
    have hs1 : Keeps s s1 := setPart_keeps h
    exact raise_keeps (partDone_keeps (issuePart_keeps (engineRuns_keeps (derivePart_keeps hs1))))

theorem partAssign_keeps {s u a p v' mem} (h : Keeps s u) : Keeps s (partAssign u a p v' mem) := regWrite_keeps h (fun _ hx => assignOp_keeps hx)

theorem partRelease_keeps {s u a p v'} (h : Keeps s u) : Keeps s (partRelease u a p v') := by
  unfold partRelease
  refine regWrite_keeps h (fun x hx => ?_)
  extract_lets q
  split
  · exact refuse_keeps (setPart_keeps hx)
  · split
    · exact refuse_keeps hx
    · exact raise_keeps (partDone_keeps (setPart_keeps hx))

theorem wipeTraffic_keeps {s u p} (h : Keeps s u) : Keeps s (wipeTraffic u p) := by
  unfold wipeTraffic
  extract_lets s1 s2
  have hs1 : Keeps s s1 := abortWhere_keeps h
  have hs2 : Keeps s s2 := foldl_keeps (fun _ _ hx => stopChan_keeps hx) hs1
  exact flushAllCaches_keeps hs2

theorem wipeSecrets_keeps {s u p} (h : Keeps s u) : Keeps s (wipeSecrets u p) := by
  unfold wipeSecrets
  extract_lets s1 _ s2
  have hs1 : Keeps s s1 := zeroSlots_keeps h
  have hs2 : Keeps s s2 := astrWipe_keeps (.frame hs1)
  exact foldl_keeps (fun _ _ hx => freeWindowCmd_keeps hx) hs2

theorem wipeTables_keeps {s u p} (h : Keeps s u) : Keeps s (wipeTables u p) := by
  unfold wipeTables
  extract_lets own q s1 _ _ _
  have hs1 : Keeps s s1 := setPart_keeps h
  exact .frame hs1

theorem wipeDescs_keeps {s u p} (h : Keeps s u) : Keeps s (wipeDescs u p) := .frame h

theorem wipeEnd_keeps {s u p} (h : Keeps s u) : Keeps s (wipeEnd u p) := by
  unfold wipeEnd
  extract_lets q s1 _
  have hs1 : Keeps s s1 := setPart_keeps (setBudget_keeps (dropPart_keeps h))
  exact raise_keeps (.frame hs1)

theorem wipeRest_keeps {s u p} (h : Keeps s u) : Keeps s (wipeRest u p) := wipeEnd_keeps (wipeDescs_keeps (wipeTables_keeps (wipeSecrets_keeps h)))

theorem wipeDone_keeps {s u p} (h : Keeps s u) : Keeps s (wipeDone u p) :=
  ite_keeps (ite_keeps (zinResume_keeps (wipeRest_keeps (wipeTraffic_keeps h))) (wipeTraffic_keeps h)) h

theorem mbrRangeWrite_keeps {s u a p v'} (h : Keeps s u) : Keeps s (mbrRangeWrite u a p v') := regWrite_keeps h (fun _ hx => setPart_keeps hx)

theorem channelsWrite_keeps {s u a p v'} (h : Keeps s u) : Keeps s (channelsWrite u a p v') := by
  unfold channelsWrite
  exact regWrite_keeps h (fun _ hx => setPart_keeps hx)

theorem quotaWrite_keeps {s u a p second v'} (h : Keeps s u) : Keeps s (quotaWrite u a p second v') := by
  unfold quotaWrite
  exact regWrite_keeps h (fun _ hx => setPart_keeps hx)

/-! ### Reset -/

theorem giveBack_keeps {s port u b} (h : Keeps s u) : Keeps s (giveBack port u b) := .frame h

theorem dropSink_keeps {s u} (h : Keeps s u) : Keeps s (dropSink u) := by
  unfold dropSink
  extract_lets _ _
  exact .frame (foldl_keeps (fun _ _ hx1 => foldl_keeps (fun _ _ hx => giveBack_keeps hx) hx1) h)

theorem dropBuffers_keeps {s u} (h : Keeps s u) : Keeps s (dropBuffers u) := foldl_keeps (fun _ _ hx1 => foldl_keeps (fun _ _ hx => leaveBuffer_keeps hx) hx1) h

theorem settleTraffic_keeps {s u} (h : Keeps s u) : Keeps s (settleTraffic u) :=
  dropSink_keeps (cancelDelivery_keeps (foldl_keeps (fun _ _ hx => stopNow_keeps hx) (dropBuffers_keeps (plannedFall_keeps h))))

/-- A reset that keeps `PD00` keeps the locks, the lifecycle state, the wall time and the fuses (Table 2.25). -/
theorem softState_keeps {s u} (h : Keeps s u) : Keeps s (softState u) := by
  have hs : Keeps s (settleTraffic u) := settleTraffic_keeps h
  unfold softState
  generalize settleTraffic u = v at hs
  refine hs.trans ⟨rfl, rfl, rfl, id, id, fun w => ⟨tmap_wf {} (fun _ p => { lock := p.lock }) v.bus.pages w, fun q hq => ?_⟩, id, fun _ _ =>
    ⟨id, id, id⟩, fun _ _ => id, fun _ _ => id⟩
  have e := tget_tmap (d := ({} : Page)) (f := fun _ p => { lock := p.lock }) (fun _ => rfl) w q
  exact (congrArg Page.lock e).trans hq

/-! ### Retained -/

theorem restoreGroup_keeps {s u b} (h : Keeps s u) : Keeps s (restoreGroup u b) := by
  unfold restoreGroup
  extract_lets d e n both g _ _
  exact .frame (setDesc_keeps (setDesc_keeps h))

theorem restoreGroups_keeps {s u l} (h : Keeps s u) : Keeps s (restoreGroups u l) := by
  unfold restoreGroups
  split
  · exact h
  · exact foldl_keeps (fun _ _ hx => restoreGroup_keeps hx) (.frame h)

/-! ### Domains -/

theorem loadPipe_keeps {s u k b} (h : Keeps s u) : Keeps s (loadPipe u k b) := ite_keeps h (setPipeSt_keeps (setPipe_keeps h))

theorem reloadPipe_keeps {s u k i b} (h : Keeps s u) : Keeps s (reloadPipe u k i b) := ite_keeps h (ite_keeps (loadPipe_keeps h) (.frame h))

theorem reloadPair_keeps {s u n} (h : Keeps s u) : Keeps s (reloadPair u n) := reloadPipe_keeps (reloadPipe_keeps h)

theorem loadWaiting_keeps {s u} (h : Keeps s u) : Keeps s (loadWaiting u) := foldl_keeps (fun _ _ hx => reloadPair_keeps hx) (ite_keeps (reloadAstr_keeps h) h)

theorem pipeOn_keeps {s u k} (h : Keeps s u) : Keeps s (pipeOn u k) := by
  unfold pipeOn
  split
  · exact h
  · extract_lets s1
    have hs1 : Keeps s s1 := setPipeSt_keeps (setPipe_keeps h)
    exact ite_keeps (setClass_keeps hs1) hs1

theorem domainUp_keeps {s u d} (h : Keeps s u) : Keeps s (domainUp u d) :=
  ite_keeps (reloadAstr_keeps (.frame h)) (ite_keeps (reloadPair_keeps (pipeOn_keeps (pipeOn_keeps h))) h)

theorem powerUp_keeps {s u d} (h : Keeps s u) : Keeps s (powerUp u d) := ite_keeps h (domainUp_keeps (handshake_keeps h))

theorem pipeOff_keeps {s u k} (h : Keeps s u) : Keeps s (pipeOff u k) := by
  unfold pipeOff
  extract_lets s1
  have hs1 : Keeps s s1 := leaveRound_keeps h
  exact ite_keeps (setPipe_keeps hs1) (setClass_keeps (setPipe_keeps hs1))

theorem domainDown_keeps {s u d} (h : Keeps s u) : Keeps s (domainDown u d) := by
  unfold domainDown
  split
  · extract_lets _
    exact .frame (flushAllCaches_keeps h)
  · split
    · exact .frame h
    · split
      · exact .frame h
      · split
        · exact pipeOff_keeps (pipeOff_keeps h)
        · exact ite_keeps (.frame h) (ite_keeps (.frame h) (ite_keeps (.frame h) h))

theorem dropDomain_keeps {s u d} (h : Keeps s u) : Keeps s (dropDomain u d) := domainDown_keeps (.frame h)

theorem enterSleep_keeps {s u} (h : Keeps s u) : Keeps s (enterSleep u) := by
  unfold enterSleep
  extract_lets d key s1 _ _ _
  have hd : Keeps s d.2 := drbgDraw_keeps h
  clear_value d
  have hs1 : Keeps s s1 := softState_keeps hd
  clear_value s1
  exact .within hs1

theorem restoreSlot_keeps {s u r i m} (h : Keeps s u) : Keeps s (restoreSlot u r i m) := by
  unfold restoreSlot
  extract_lets x s1 _
  have hs1 : Keeps s s1 := putSlot_keeps h
  exact setSlot_keeps hs1

theorem wakeSlot_keeps {s r marks u i} (h : Keeps s u) : Keeps s (wakeSlot r marks u i) := ite_keeps (setSlot_keeps h) (ite_keeps (restoreSlot_keeps h) h)

theorem restoreRecords_keeps {s u} (h : Keeps s u) : Keeps s (restoreRecords u) := by
  unfold restoreRecords
  extract_lets r _ _ s1 marks s2
  have hs1 : Keeps s s1 := by
    unfold s1
    split
    · exact .frame h
    · exact h
  have hs2 : Keeps s s2 := foldl_keeps (fun _ _ hx => wakeSlot_keeps hx) hs1
  exact restoreGroups_keeps hs2

/-! ### Gate -/

theorem lifeDone_keeps {s u a op st step} (h : Keeps s u) : Keeps s (lifeDone u a op st step) := noteCmd_keeps (raise_keeps (.within h))

theorem lifeCmd_keeps {s u a v' completes k} (h : Keeps s u) (hk : ∀ x, Keeps s x → Keeps s (k x)) : Keeps s (lifeCmd u a v' completes k) := regWrite_keeps h hk

theorem startWipe_keeps {s u p} (h : Keeps s u) : Keeps s (startWipe u p) := ite_keeps (raise_keeps (setPart_keeps h)) h

theorem wipeTenants_keeps {s u} (h : Keeps s u) : Keeps s (wipeTenants u) := foldl_keeps (fun _ _ hx1 => wipeDone_keeps (startWipe_keeps hx1)) h

theorem gateProg_keeps {s u k ps ws} (h : Keeps s u) : Keeps s (gateProg u k ps ws) := .within h

theorem eventProg_keeps {s u k w'} (h : Keeps s u) : Keeps s (eventProg u k w') := gateProg_keeps h

theorem wipeProg_keeps {s u} (h : Keeps s u) : Keeps s (wipeProg u) := gateProg_keeps h

theorem lifePump_keeps {s u} (h : Keeps s u) : Keeps s (lifePump u) := by
  unfold lifePump
  split
  · exact h
  · split
    · exact ite_keeps (eventProg_keeps h) (lifeDone_keeps (.within h))
    · exact ite_keeps (eventProg_keeps h) (.within h)
    · exact ite_keeps (wipeProg_keeps h) (.within h)
    · exact ite_keeps (eventProg_keeps h) (.within h)
    · exact h

theorem scrapErase_keeps {s u} (h : Keeps s u) : Keeps s (scrapErase u) := by
  unfold scrapErase
  extract_lets s1 _ _ _ _
  have hs1 : Keeps s s1 := zeroKeyCaches_keeps (zeroAllSlots_keeps (cancelDelivery_keeps (plannedFall_keeps h)))
  exact .within hs1

theorem scrapGo_keeps {s u} (h : Keeps s u) : Keeps s (scrapGo u) := by
  unfold scrapGo
  extract_lets s1 _
  have hs1 : Keeps s s1 := scrapErase_keeps h
  exact lifePump_keeps (.within hs1)

theorem scrapResume_keeps {s u} (h : Keeps s u) : Keeps s (scrapResume u) := ite_keeps (scrapGo_keeps h) h

theorem grantCheck_keeps {s u mem target} (h : Keeps s u) : Keeps s (grantCheck u mem target).after := by
  unfold grantCheck
  extract_lets len _ s1
  have hs1 : Keeps s s1 := .within h
  split
  · exact h
  · split
    · exact h
    · extract_lets keys f epoch s2
      have hs2 : Keeps s s2 := ite_keeps (engineUp_keeps hs1) hs1
      exact ite_keeps (helmProgram_keeps hs2) hs2

theorem extendGate_keeps {s u} (h : Keeps s u) : Keeps s (extendGate u) := by
  unfold extendGate
  extract_lets d
  have hd : Keeps s d.2 := freeDraw_keeps h
  exact extendMeas_keeps hd

theorem firstOpening_keeps {s u} (h : Keeps s u) : Keeps s (firstOpening u) := by
  unfold firstOpening
  extract_lets _ s1 s2 _
  have hs1 : Keeps s s1 := zeroAllSlots_keeps (.within h)
  have hs2 : Keeps s s2 := formIdentity_keeps (deriveBlock_keeps (formRoot_keeps hs1))
  exact .frame hs2

theorem openRights_keeps {s u r} (h : Keeps s u) : Keeps s (openRights u r) := by
  unfold openRights
  split
  · exact h
  · extract_lets s1 s2 s3 _
    have hs1 : Keeps s s1 := wipeTenants_keeps h
    have hs2 : Keeps s s2 := ite_keeps (firstOpening_keeps hs1) hs1
    have hs3 : Keeps s s3 := foldl_keeps (fun _ _ hx1 => extendGate_keeps hx1) hs2
    exact raise_keeps (.within hs3)

theorem passwordOp_keeps {s u} (h : Keeps s u) : Keeps s (passwordOp u).2 := by
  unfold passwordOp
  extract_lets r _
  split
  · exact h
  · split
    · exact h
    · split
      · exact h
      · split
        · exact h
        · split
          · exact openRights_keeps h
          · split
            · exact .within h
            · split
              · exact h
              · exact openRights_keeps h

theorem unlockPwOp_keeps {s u a} (h : Keeps s u) : Keeps s (unlockPwOp u a) := by
  unfold unlockPwOp
  extract_lets x _ _
  have hx : Keeps s x.2 := passwordOp_keeps h
  exact lifeDone_keeps (.within hx)

theorem challengeOp_keeps {s u a} (h : Keeps s u) : Keeps s (challengeOp u a) := ite_keeps (lifeDone_keeps h) (lifeDone_keeps (.within (drbgDraw_keeps h)))

theorem unlockGrantOp_keeps {s u a mem} (h : Keeps s u) : Keeps s (unlockGrantOp u a mem) := by
  unfold unlockGrantOp
  split
  · exact lifeDone_keeps h
  · extract_lets g
    have hg : Keeps s g.after := grantCheck_keeps h
    split
    · exact lifeDone_keeps hg
    · exact lifeDone_keeps (openRights_keeps hg)

theorem transitionGo_keeps {s u a t} (h : Keeps s u) : Keeps s (transitionGo u a t) :=
  ite_keeps (lifeDone_keeps h) (.within (ite_keeps (wipeTenants_keeps h) h))

theorem transitionOp_keeps {s u a mem} (h : Keeps s u) : Keeps s (transitionOp u a mem) := by
  unfold transitionOp
  extract_lets t g
  have hg : Keeps s g.after := grantCheck_keeps h
  split
  · exact lifeDone_keeps h
  · split
    · split
      · exact lifeDone_keeps hg
      · exact transitionGo_keeps hg
    · exact transitionGo_keeps h

theorem lifeVerdict_keeps {s u opens} (h : Keeps s u) : Keeps s (lifeVerdict u opens) := by
  unfold lifeVerdict
  split
  · exact ite_keeps (lifeDone_keeps (.within h)) (ite_keeps (lifePump_keeps (.within h)) (lifePump_keeps (.within h)))
  · exact ite_keeps (lifePump_keeps (.within h)) (lifeDone_keeps (.within h))
  · exact h

theorem wordEnd_keeps {s u t} (h : Keeps s u) : Keeps s (wordEnd u t) := by
  unfold wordEnd
  extract_lets _ s1 _ _
  have hs1 : Keeps s s1 := .within h
  exact ite_keeps (lifeDone_keeps (.within hs1)) (lifeDone_keeps (.within hs1))

theorem gateEnd_keeps {s u k} (h : Keeps s u) : Keeps s (gateEnd u k) := by
  unfold gateEnd
  split
  · exact wordEnd_keeps h
  · exact ite_keeps (scrapGo_keeps h) (.within h)
  · exact .within h
  · dsimp only
    split
    · exact .within (.setLife (life := { u.life with st := 5, running := none, scrapping := false }) h (Nat.le_refl 5))
    · exact .within h
  · exact h

theorem afterLogb_keeps {s u} (h : Keeps s u) : Keeps s (afterLogb u) := ite_keeps (lifePump_keeps (nextProg_keeps h)) h

theorem progEnd_keeps {s u o} (h : Keeps s u) : Keeps s (progEnd u o) := by
  unfold progEnd
  split
  · exact h
  · extract_lets r _ _
    have hr : Keeps s r.2 := progFinish_keeps h
    refine afterLogb_keeps ?_
    split
    · exact noteCmd_keeps (logbResult_keeps hr)
    · exact ite_keeps (gateEnd_keeps hr) (.within hr)

theorem gateResume_keeps {s u} (h : Keeps s u) : Keeps s (gateResume u) := by
  unfold gateResume
  split
  · exact gateEnd_keeps (.within h)
  · exact h

theorem execTransition_keeps {s a v' grant u} (h : Keeps s u) : KeepsNext s (execTransition a v' grant u) :=
  .next (lifeCmd_keeps h (fun _ hx1 => transitionOp_keeps hx1))

theorem execLifeChallenge_keeps {s a v' u} (h : Keeps s u) : KeepsNext s (execLifeChallenge a v' u) :=
  .next (lifeCmd_keeps h (fun _ hx1 => challengeOp_keeps hx1))

theorem execUnlockPw_keeps {s a v' u} (h : Keeps s u) : KeepsNext s (execUnlockPw a v' u) := .next (lifeCmd_keeps h (fun _ hx1 => unlockPwOp_keeps hx1))

theorem execUnlockGrant_keeps {s a v' grant u} (h : Keeps s u) : KeepsNext s (execUnlockGrant a v' grant u) :=
  .next (lifeCmd_keeps h (fun _ hx1 => unlockGrantOp_keeps hx1))

/-! ### Regs -/

theorem readReg_keeps {s u a p off} (h : Keeps s u) : Keeps s (readReg u a p off).2 := by
  unfold readReg
  split
  · exact h
  · extract_lets b ws _
    split
    · exact .within h
    · exact h

/-! ### Writes -/

theorem causeWrite_keeps {s u p v} (h : Keeps s u) : Keeps s (causeWrite u p v) := setPage_keeps id h

theorem intSet_keeps {s u p v} (h : Keeps s u) : Keeps s (intSet u p v) := setPage_keeps id h

theorem lockPage_keeps {s u p v} (h : Keeps s u) : Keeps s (lockPage u p v) := ite_keeps (setPage_keeps (fun _ => rfl) h) h

/-- What the writes of a register do, where there are any, keeps the relation (02 R53). -/
def QuietWr (s : State) (o : Option Wr) : Prop := ∀ w, o = some w → ∀ x, Keeps s x → Keeps s (w.eff x)

theorem QuietWr.none {s} : QuietWr s none := fun _ e => nomatch e

theorem QuietWr.some {s st arg f} (hf : ∀ x, Keeps s x → Keeps s (f x)) : QuietWr s (some { st := st, arg := arg, eff := f }) :=
  fun _ e => Option.some.inj e ▸ hf

theorem QuietWr.wr {s f} (hf : ∀ x, Keeps s x → Keeps s (f x)) : QuietWr s (wr f) := .some hf

theorem QuietWr.wrIf {s bad f} (hf : ∀ x, Keeps s x → Keeps s (f x)) : QuietWr s (wrIf bad f) := .some hf

theorem QuietWr.wrLock {s u p bad f} (hf : ∀ x, Keeps s x → Keeps s (f x)) : QuietWr s (wrLock u p bad f) := .some hf

theorem QuietWr.ite {s o o'} {c : Prop} [Decidable c] (h : QuietWr s o) (h' : QuietWr s o') : QuietWr s (if c then o else o') := by
  split
  · exact h
  · exact h'

theorem headerWrite_quiet {s p off v} : QuietWr s (headerWrite p off v) := by
  unfold headerWrite
  refine .ite (.wr fun _ h => causeWrite_keeps h) (.ite (.wr fun _ h => setPage_keeps id h) (.ite (.wr fun _ h => intSet_keeps h)
    (.ite (.wr fun _ h => lockPage_keeps h) (.ite (.wr fun _ h => setPage_keeps id h) .none))))

theorem plainA_quiet {s u a p off v} : QuietWr s (plainA u a p off v) := by
  unfold plainA
  refine .ite (.ite (.wr fun _ h => .within h) .none) (.ite ?_ (.ite (.ite (.wr fun _ h => .frame h) .none) (.ite ?_ (.ite ?_ .none))))
  · exact .ite (.wr fun _ h => .frame h) (.ite (.wrIf fun _ h => .frame h) (.ite (.wr fun _ h => .frame h) .none))
  · exact .ite (.wrLock fun _ h => .within h) (.ite (.wr fun _ h => .within h) .none)
  · exact .ite (.wr fun _ h => ite_keeps (.within h) (schedStage_keeps h)) .none

theorem plainB_quiet {s u p off v} : QuietWr s (plainB u p off v) := by
  unfold plainB
  refine .ite (.ite (.wrLock fun _ h => .frame h) .none) (.ite (.ite (.wr fun _ h => .frame h) .none) (.ite ?_ (.ite ?_ (.ite ?_ (.ite ?_ (.ite ?_ .none))))))
  · exact .ite (.wrIf fun _ h => .frame h) (.ite (.wr fun _ h => .frame h) (.ite (.wr fun _ h => .frame h) (.ite (.wr fun _ h => .frame h) .none)))
  · exact .ite (.wr fun _ h => .frame h) (.ite (.wrIf fun _ h => .frame h) .none)
  · exact .ite (.wr fun _ h => .frame h) (.ite (.wr fun _ h => .frame h) (.ite (.wr fun _ h => .frame h) (.ite (.wr fun _ h => .frame h) .none)))
  · exact .ite (.wr fun _ h => .frame h) (.ite (.wr fun _ h => .frame h) .none)
  · exact .ite (.wrIf fun _ h => .frame h) .none

theorem plainC_quiet {s u p off v} : QuietWr s (plainC u p off v) := by
  unfold plainC
  refine .ite ?_ (.ite (.ite (.wr fun _ h => .within h) .none) (.ite ?_ (.ite (.ite (.wr fun _ h => .frame h) .none) (.ite ?_
    (.ite (.ite (.wr fun _ h => .frame h) .none) .none)))))
  · exact .ite (.wr fun _ h => .within h) (.ite (.wr fun _ h => .within h) (.ite (.wr fun _ h => .within h) .none))
  · exact .ite (.wr fun _ h => .within h) (.ite (.wr fun _ h => .within h) (.ite (.wrIf fun _ h => .within h) .none))
  · exact .ite (.wr fun _ h => modChan_keeps h) (.ite (.some fun _ h => modChan_keeps h) (.ite (.wr fun _ h => modChan_keeps h) .none))

theorem plainD_quiet {s u p off v} : QuietWr s (plainD u p off v) := by
  unfold plainD
  refine .ite ?_ (.ite (.ite (.wr fun _ h => .frame h) .none) (.ite ?_ (.ite (.ite (.wr fun _ h => .frame h) .none) (.ite ?_ (.ite ?_
    (.ite (.ite (.wr fun _ h => .frame h) .none) .none))))))
  · exact .ite (.wr fun _ h => setPipe_keeps h) (.ite (.wr fun _ h => setPipe_keeps h) (.ite (.wrIf fun _ h => setPipe_keeps h) .none))
  · exact .ite (.wr fun _ h => .frame h) (.ite (.wr fun _ h => .frame h) .none)
  · exact .ite (.wr fun _ h => .frame h) (.ite (.wrIf fun _ h => .frame h) .none)
  · exact .ite (.wrLock fun _ h => .frame h) (.ite (.wr fun _ h => .frame h) (.ite (.wr fun _ h => .frame h) .none))

theorem plainE_quiet {s u a p off v} : QuietWr s (plainE u a p off v) := by
  unfold plainE
  refine .ite ?_ (.ite ?_ (.ite ?_ .none))
  · exact .ite (.wr fun _ h => .frame h) (.ite (.wr fun _ h => .frame h) (.ite (.wr fun _ h => .frame h)
      (.ite (.wr fun _ h => ite_keeps (setGrpRec_keeps h) h) .none)))
  · exact .ite (.wr fun _ h => .frame h) (.ite (.wr fun _ h => .frame h) .none)
  · exact .ite (.wr fun _ h => .frame h) (.ite (.wr fun _ h => .frame h) .none)

theorem plainF_quiet {s u p off v} : QuietWr s (plainF u p off v) := by
  unfold plainF
  refine .ite ?_ (.ite (.ite (.wr fun _ h => .frame h) .none) (.ite (.ite (.wrLock fun _ h => .within h) .none) .none))
  exact .ite (.wr fun _ h => setPart_keeps h) (.ite (.some fun _ h => setPart_keeps h) .none)

theorem plainWr_quiet {s u a p off v} : QuietWr s (plainWr u a p off v) := by
  unfold plainWr
  exact .ite headerWrite_quiet (.ite plainA_quiet (.ite plainB_quiet (.ite plainC_quiet (.ite plainD_quiet (.ite plainE_quiet plainF_quiet)))))

theorem plainWrite_keeps {s u a addr v'} (h : Keeps s u) : Keeps s (plainWrite u a addr v') := by
  unfold plainWrite
  split
  · exact regWrite_keeps h fun _ hx => hx
  · next w e => exact regWrite_keeps h (plainWr_quiet w e)

/-! ### Boot -/

theorem seedDrbg_keeps {s u i} (h : Keeps s u) : Keeps s (seedDrbg u i) := .frame h

theorem noisePass_keeps {s u l} (h : Keeps s u) : Keeps s (noisePass u l) := by
  unfold noisePass
  extract_lets _ s1 _
  have hs1 : Keeps s s1 := .frame h
  exact ite_keeps hs1 (seedDrbg_keeps (seedDrbg_keeps (.frame hs1)))

theorem noiseFail_keeps {s u} (h : Keeps s u) : Keeps s (noiseFail u) := by
  unfold noiseFail
  extract_lets _ s1 _
  have hs1 : Keeps s s1 := raise_keeps (.frame h)
  exact ite_keeps (raise_keeps (.frame hs1)) hs1

theorem noiseBlock_keeps {s u l} (h : Keeps s u) : Keeps s (noiseBlock u l) := ite_keeps h (ite_keeps (noiseFail_keeps (.frame h)) (noisePass_keeps (.frame h)))

theorem readyRise_keeps {s u} (h : Keeps s u) : Keeps s (readyRise u) := by
  unfold readyRise
  extract_lets s1 _ _ s1'
  have hs1 : Keeps s s1 := foldl_keeps (fun _ _ hx => wipeDone_keeps hx) h
  clear_value s1
  have hs1' : Keeps s s1' := raise_keeps (.within hs1)
  clear_value s1'
  exact updateLive_keeps (ite_keeps (raise_keeps hs1') hs1')

theorem readyOrWait_keeps {s u r} (h : Keeps s u) : Keeps s (readyOrWait u r) := ite_keeps (.frame h) (readyRise_keeps h)

theorem enterRecovery_keeps {s u} (h : Keeps s u) : Keeps s (enterRecovery u) := by
  unfold enterRecovery
  extract_lets _ _ s1
  have hs1 : Keeps s s1 := wipeTenants_keeps (loadAstr_keeps (.within h))
  exact readyOrWait_keeps hs1

theorem beginSlot_keeps {s u r b trial second} (h : Keeps s u) : Keeps s (beginSlot u r b trial second) := by
  unfold beginSlot
  split
  · exact .frame h
  · extract_lets slot fast st s1 _
    have hs1 : Keeps s s1 := ite_keeps (extendMeas_keeps h) h
    exact .frame hs1

theorem tryOther_keeps {s u r} (h : Keeps s u) : Keeps s (tryOther u r) := ite_keeps (beginSlot_keeps h) (enterRecovery_keeps h)

theorem slotFails_keeps {s u r st} (h : Keeps s u) : Keeps s (slotFails u r st) := tryOther_keeps (.frame h)

theorem startTrial_keeps {s u r t} (h : Keeps s u) : Keeps s (startTrial u r t) := by
  unfold startTrial
  split
  · next e => exact beginSlot_keeps (writeRecord_some_keeps h (congrArg Prod.fst e))
  · next e => exact slotFails_keeps (keeps_snd (writeRecord_keeps h) e)

theorem bootRecorded_keeps {s u r b} (h : Keeps s u) : Keeps s (bootRecorded u r b) := ite_keeps (beginSlot_keeps h) (tryOther_keeps h)

theorem chooseSlot_keeps {s u r} (h : Keeps s u) : Keeps s (chooseSlot u r) := by
  unfold chooseSlot
  split
  · exact beginSlot_keeps h
  · split
    · split
      · exact startTrial_keeps h
      · extract_lets _ w
        refine bootRecorded_keeps ?_
        rcases e : w.1 with _ | t
        · exact writeRecord_keeps h
        · exact writeRecord_some_keeps h e
    · exact bootRecorded_keeps h

theorem readRecord_keeps {s u store} (h : Keeps s u) : Keeps s (readRecord u store) := by
  unfold readRecord
  split
  · exact .frame h
  · exact h

theorem zeroStartMeas_keeps {s u} (h : Keeps s u) : Keeps s (zeroStartMeas u) := .frame h

theorem afterPower_keeps {s u} (h : Keeps s u) : Keeps s (afterPower u) := by
  unfold afterPower
  extract_lets d _ _
  have hd : Keeps s d.2 := drbgDraw_keeps (setMeas_keeps h)
  exact restoreRecords_keeps (extendMeas_keeps (.frame hd))

theorem romGo_keeps {s u r fresh} (h : Keeps s u) : Keeps s (romGo u r fresh) := by
  unfold romGo
  extract_lets s1 s2 _ s3 _
  have hs1 : Keeps s s1 := zeroStartMeas_keeps h
  have hs2 : Keeps s s2 := ite_keeps (afterPower_keeps hs1) hs1
  have hs3 : Keeps s s3 := loadAstr_keeps (.frame (setLive_keeps hs2))
  exact chooseSlot_keeps (readRecord_keeps (.frame hs3))

theorem romStart_keeps {s u inp fresh wake} (h : Keeps s u) : Keeps s (romStart u inp fresh wake) := by
  unfold romStart
  extract_lets r s1 _
  have hs1 : Keeps s s1 := foldl_keeps (fun _ _ hx => noiseBlock_keeps hx) h
  exact ite_keeps (ite_keeps (romGo_keeps hs1) (.frame hs1)) (romGo_keeps h)

theorem noiseArrives_keeps {s u l} (h : Keeps s u) : Keeps s (noiseArrives u l) := by
  unfold noiseArrives
  extract_lets s1
  have hs1 : Keeps s s1 := noiseBlock_keeps h
  split
  · exact ite_keeps (romGo_keeps hs1) hs1
  · exact hs1

theorem loadItem_keeps {s u b i} (h : Keeps s u) : Keeps s (loadItem u b i) := by
  unfold loadItem
  extract_lets x d _ _ s1 ks s2 _
  have hs1 : Keeps s s1 := foldl_keeps (fun _ _ hx1 => powerUp_keeps hx1) h
  have hs2 : Keeps s s2 := foldl_keeps (fun _ _ hx1 => loadPipe_keeps hx1) hs1
  split
  · exact extendMeas_keeps h
  · split
    · exact extendMeas_keeps (.frame (loadAstr_keeps (powerUp_keeps h)))
    · exact extendMeas_keeps (ite_keeps (.frame hs2) (.frame hs2))

theorem loadItems_keeps {s u b fast l} (h : Keeps s u) : Keeps s (loadItems u b fast l).2 := by
  induction l generalizing u with
  | nil => exact h
  | cons i l ih =>
    unfold loadItems
    split
    · exact h
    · exact ih (loadItem_keeps h)

theorem settingsStep_keeps {s u r store slot} (h : Keeps s u) : Keeps s (settingsStep u r store slot) := by
  unfold settingsStep
  dsimp only
  refine .frame (extendMeas_keeps (extendMeas_keeps ?_))
  split <;> exact .frame h

theorem armTrial_keeps {s u r} (h : Keeps s u) : Keeps s (armTrial u r) := ite_keeps (.frame h) h

theorem manifestStep_keeps {s u r store slot} (h : Keeps s u) : Keeps s (manifestStep u r store slot) := by
  unfold manifestStep
  extract_lets j l d signer pairs _
  split
  · exact slotFails_keeps h
  · split
    · exact slotFails_keeps h
    · split
      next x s1 e =>
        have hs1 : Keeps s s1 := keeps_snd (loadItems_keeps (extendMeas_keeps (.frame h))) e
        exact slotFails_keeps hs1
      next x s1 e =>
        have hs1 : Keeps s s1 := keeps_snd (loadItems_keeps (extendMeas_keeps (.frame h))) e
        exact settingsStep_keeps hs1

theorem loaderOpen_keeps {s u r} (h : Keeps s u) : Keeps s (loaderOpen u r) := by
  unfold loaderOpen
  split
  · exact manifestStep_keeps (armTrial_keeps (.frame h))
  · exact slotFails_keeps h
  · exact slotFails_keeps h

theorem migrate_keeps {s u} (h : Keeps s u) : Keeps s (migrate u) := ite_keeps h (.frame (emit_keeps h))

theorem settingWrite_keeps {s u p off v'} (h : Keeps s u) : Keeps s (settingWrite u p off v') := by
  unfold settingWrite
  split
  · exact gctrlWrite_keeps h
  · split
    · exact semWrite_keeps h
    · split
      · exact mgmtRegionWrite_keeps h
      · exact ite_keeps (stationWrite_keeps h) (ite_keeps (grpDescWrite_keeps h) (plainWrite_keeps h))

theorem settingEntry_keeps {s u e} (h : Keeps s u) : Keeps s (settingEntry u e) := ite_keeps (settingWrite_keeps h) (.frame h)

theorem applySettings_keeps {s u} (h : Keeps s u) : Keeps s (applySettings u) := by
  unfold applySettings
  split
  · exact h
  · extract_lets b _ s1
    have hs1 : Keeps s s1 := foldl_keeps (fun _ _ hx => settingEntry_keeps hx) (.within h)
    clear_value s1
    exact .within hs1

theorem identityStep_keeps {s u r} (h : Keeps s u) : Keeps s (identityStep u r) := by
  unfold identityStep
  extract_lets s1 pair _ s2 s3
  have hs1 : Keeps s s1 := noteBad_keeps (formRoot_keeps h)
  have hs2 : Keeps s s2 := deriveBlock_keeps (.frame hs1)
  have hs3 : Keeps s s3 := formIdentity_keeps hs2
  split
  · exact .frame hs1
  · refine foldl_keeps (fun x1 a hx1 => ?_) hs3
    split
    · exact ite_keeps (putSlot_keeps (.frame hx1)) hx1
    · exact hx1

theorem restoreMeas_keeps {s u r} (h : Keeps s u) : Keeps s (restoreMeas u r) := ite_keeps (foldl_keeps (fun _ _ hx1 => setMeas_keeps hx1) h) h

theorem readyStep_keeps {s u r} (h : Keeps s u) : Keeps s (readyStep u r) := by
  unfold readyStep
  extract_lets s1 s3 s4
  have hs1 : Keeps s s1 := restoreMeas_keeps (identityStep_keeps h)
  have hs3 : Keeps s s3 := applySettings_keeps (migrate_keeps hs1)
  have hs4 : Keeps s s4 := ite_keeps (advanceCounters_keeps hs3) hs3
  exact readyOrWait_keeps (seedDrbg_keeps hs4)

theorem firmwareOpen_keeps {s u r} (h : Keeps s u) : Keeps s (firmwareOpen u r) := readyStep_keeps (loadWaiting_keeps (.frame h))

theorem afterProgram_keeps {s u} (h : Keeps s u) : Keeps s (afterProgram u) := by
  unfold afterProgram
  split
  · exact h
  · extract_lets s1
    have hs1 : Keeps s s1 := confirmEnd_keeps h
    split
    · exact ite_keeps (readyRise_keeps hs1) hs1
    · exact hs1

theorem bootVerdict_keeps {s u j} (h : Keeps s u) : Keeps s (bootVerdict u j) := by
  unfold bootVerdict
  split
  · exact ite_keeps h (enterRecovery_keeps h)
  · split
    · exact ite_keeps (slotFails_keeps h) h
    · exact h
  · split
    · exact ite_keeps (loaderOpen_keeps h) (ite_keeps (firmwareOpen_keeps h) h)
    · exact h

theorem startBlock_keeps {s u inp wake} (h : Keeps s u) : Keeps s (startBlock u inp wake) :=
  ite_keeps h (ite_keeps (.frame h) (ite_keeps (scrapResume_keeps h) (romStart_keeps h)))

theorem softStart_keeps {s u cause inp} (h : Keeps s u) : Keeps s (softStart u cause inp) := by
  have hs : Keeps s (softState u) := softState_keeps h
  unfold softStart
  generalize softState u = v at hs
  exact startBlock_keeps (.within hs)

theorem execNoiseSampleBlock_keeps {s samples u} (h : Keeps s u) : KeepsNext s (execNoiseSampleBlock samples u) :=
  .next (whenSec_keeps h (fun _ hx1 => noiseArrives_keeps hx1))

theorem execBlkSoftReset_keeps {s a v' boot u} (h : Keeps s u) : KeepsNext s (execBlkSoftReset a v' boot u) :=
  .next (regWrite_keeps h (fun _ hx1 => softStart_keeps hx1))

theorem execTrialWatchdogExpire_keeps {s us boot u} (h : Keeps s u) : KeepsNext s (execTrialWatchdogExpire us boot u) := by
  unfold execTrialWatchdogExpire
  refine .next ?_
  refine afterTime_keeps h (fun x hx => ?_)
  split
  · exact ite_keeps (softStart_keeps hx) hx
  · exact hx

theorem execActivate_keeps {s a v' st boot u} (h : Keeps s u) : KeepsNext s (execActivate a v' st boot u) :=
  .next (helmCmd_keeps h (fun _ hx1 => ite_keeps (softStart_keeps (helmDone_keeps (activateCore_keeps hx1))) (helmDone_keeps (activateCore_keeps hx1))))

/-! ### Phlox -/

theorem freeCmd_keeps {s u wi} (h : Keeps s u) : Keeps s (freeCmd u wi).2 := by
  unfold freeCmd
  extract_lets w
  split
  · exact h
  · split
    · exact h
    · exact freeWindowNow_keeps h

theorem openCmd_keeps {s u wi efix} (h : Keeps s u) : Keeps s (openCmd u wi efix).2 := by
  unfold openCmd
  extract_lets w
  split
  · exact h
  · split
    · exact h
    · exact openWindow_keeps h

theorem invalidateCmd_keeps {s u wi} (h : Keeps s u) : Keeps s (invalidateCmd u wi).2 := by
  unfold invalidateCmd
  extract_lets w
  split
  · exact h
  · exact setWin_keeps h

theorem winWork_keeps {s u op v'} (h : Keeps s u) : Keeps s (winWork u op v').2 := by
  unfold winWork
  split
  · exact allocWindow_keeps h
  · exact freeCmd_keeps h
  · exact openCmd_keeps h
  · exact invalidateCmd_keeps h

theorem winStart_keeps {s u a op v'} (h : Keeps s u) : Keeps s (winStart u a op v') := by
  unfold winStart
  extract_lets r _ _ s2
  have hr : Keeps s r.2 := winWork_keeps h
  have hs2 : Keeps s s2 := .frame hr
  exact ite_keeps hs2 (pageErrorCode_keeps hs2)

theorem winCmd_keeps {s u a op v' arg} (h : Keeps s u) : Keeps s (winCmd u a op v' arg) :=
  regWrite_keeps h (fun _ hx => ite_keeps (winStart_keeps hx) (.frame hx))

theorem phlxAlloc_keeps {s u a v'} (h : Keeps s u) : Keeps s (phlxAlloc u a v') := winCmd_keeps h

theorem phlxFree_keeps {s u a v'} (h : Keeps s u) : Keeps s (phlxFree u a v') := winCmd_keeps h

theorem phlxOpen_keeps {s u a v'} (h : Keeps s u) : Keeps s (phlxOpen u a v') := winCmd_keeps h

theorem phlxInvalidate_keeps {s u a v'} (h : Keeps s u) : Keeps s (phlxInvalidate u a v') := winCmd_keeps h

theorem winResume_keeps {s u} (h : Keeps s u) : Keeps s (winResume u) := by
  unfold winResume
  split
  · exact winStart_keeps h
  · exact h

theorem winCmdDone_keeps {s u} (h : Keeps s u) : Keeps s (winCmdDone u) := by
  unfold winCmdDone
  split
  · exact winDone_keeps (.frame h)
  · exact h

theorem execPhlxAlloc_keeps {s a v' u} (h : Keeps s u) : KeepsNext s (execPhlxAlloc a v' u) := .next (phlxAlloc_keeps h)

theorem execPhlxFree_keeps {s a v' u} (h : Keeps s u) : KeepsNext s (execPhlxFree a v' u) := .next (phlxFree_keeps h)

theorem execPhlxOpen_keeps {s a v' u} (h : Keeps s u) : KeepsNext s (execPhlxOpen a v' u) := .next (phlxOpen_keeps h)

theorem execPhlxInvalidate_keeps {s a v' u} (h : Keeps s u) : KeepsNext s (execPhlxInvalidate a v' u) := .next (phlxInvalidate_keeps h)

theorem execPhlxWinCmdDone_keeps {s u} (h : Keeps s u) : KeepsNext s (execPhlxWinCmdDone u) := .next (whenArith_keeps h (fun _ hx => winCmdDone_keeps hx))

/-! ### Pins -/

theorem setVerdictReg_keeps {s u k v'} (h : Keeps s u) : Keeps s (setVerdictReg u k v') := by
  unfold setVerdictReg
  split <;> exact .frame h

theorem keyVerdict_keeps {s u j} (h : Keeps s u) : Keeps s (keyVerdict u j) := by
  unfold keyVerdict
  split
  · split
    · exact h
    · split
      · exact deliverDenied_keeps h
      · split
        · exact deliveryEnd_keeps (noteBad_keeps h)
        · exact deliverBeats_keeps h
  · exact h

theorem judged_keeps {s u k j} (h : Keeps s u) : Keeps s (judged u k j) := by
  unfold judged
  extract_lets s1 _ s2
  have hs1 : Keeps s s1 := setVerdictReg_keeps h
  have hs2 : Keeps s s2 := ite_keeps (.frame hs1) hs1
  split
  · exact bootVerdict_keeps hs2
  · exact afterProgram_keeps (lifeVerdict_keeps hs2)
  · exact keyVerdict_keeps hs2

theorem verdictWrite_keeps {s u k pathB w' gap} (h : Keeps s u) : Keeps s (verdictWrite u k pathB w' gap) := by
  unfold verdictWrite
  split
  · exact h
  · split
    · exact setVerdictReg_keeps h
    · exact judged_keeps h
    · exact judged_keeps h
    · exact judged_keeps h

theorem verdictExpire_keeps {s u k} (h : Keeps s u) : Keeps s (verdictExpire u k) := ite_keeps (judged_keeps h) h

theorem porstDecide_keeps {s u} (h : Keeps s u) : Keeps s (porstDecide u) := by
  unfold porstDecide
  extract_lets d s' hold marginal
  have hs' : Keeps s s' := .setLife h (lifeDecide_st_le _)
  clear_value hold marginal d s'
  exact .within hs'

theorem mainDomains_keeps {s u} (h : Keeps s u) : Keeps s (mainDomains u) := foldl_keeps (fun _ _ hx => setLive_keeps hx) h

theorem cutLife_keeps {s u} (h : Keeps s u) : Keeps s (cutLife u) := .within h

theorem tamperProg_keeps {s u c} (h : Keeps s u) : Keeps s (tamperProg u c) := by
  unfold tamperProg
  split
  · exact cutLife_keeps (.within h)
  · extract_lets s1 s2 y _ _ _
    have hs1 : Keeps s s1 := progCut_keeps h
    have hs2 : Keeps s s2 := foldl_keeps (fun _ _ hx => senseWord_keeps hx) hs1
    have hy : Keeps s y := cutLife_keeps hs2
    split
    · exact ite_keeps (.within hy) (ite_keeps (.within hy) hy)
    · exact cutLife_keeps (.within hs2)
    · exact cutLife_keeps hs2

theorem tamperAssert_keeps {s u c} (h : Keeps s u) : Keeps s (tamperAssert u c) := by
  unfold tamperAssert
  split
  · exact h
  · extract_lets s1 _ _ _ _ _
    have hs1 : Keeps s s1 := stopBoundary_keeps (tamperProg_keeps (cancelDelivery_keeps (zeroAllSlots_keeps h)))
    exact .within (zeroKeyCaches_keeps hs1)

theorem tamperRelease_keeps {s u inp} (h : Keeps s u) : Keeps s (tamperRelease u inp) := by
  unfold tamperRelease
  split
  · exact h
  · extract_lets _ s1 _ s2 _
    have hs1 : Keeps s s1 := wipeTenants_keeps (softState_keeps (.within h))
    clear_value s1
    have hs2 : Keeps s s2 := ite_keeps hs1 (mainDomains_keeps (.frame hs1))
    clear_value s2
    exact startBlock_keeps (.within hs2)

theorem lockLoss_keeps {s u arith} (h : Keeps s u) : Keeps s (lockLoss u arith) := by
  unfold lockLoss
  split <;> exact ite_keeps h (.within (abortEach_keeps (.frame (raise_keeps (.frame h)))))

theorem arithResume_keeps {s u} (h : Keeps s u) : Keeps s (arithResume u) :=
  returnEpoch_keeps (fun _ _ hx => fab_keeps hx) (winResume_keeps (loadWaiting_keeps h))

theorem liftRun_keeps {s u inp} (h : Keeps s u) : Keeps s (liftRun u inp) := foldl_keeps (fun _ _ hx => noiseBlock_keeps hx) (extendGate_keeps h)

theorem wipeStarted_keeps {s u} (h : Keeps s u) : Keeps s (wipeStarted u) := foldl_keeps (fun _ _ hx => wipeDone_keeps hx) h

theorem secResume_keeps {s u} (h : Keeps s u) : Keeps s (secResume u) := by
  unfold secResume
  extract_lets _ s1
  have hs1 : Keeps s s1 := by
    unfold s1
    split
    · exact ite_keeps (ite_keeps (liftRun_keeps (.frame h)) (startBlock_keeps (wipeStarted_keeps (.frame h)))) h
    · exact h
  exact afterProgram_keeps (afterLogb_keeps (loadWaiting_keeps (scrapResume_keeps (gateResume_keeps hs1))))

theorem lockRegain_keeps {s u arith} (h : Keeps s u) : Keeps s (lockRegain u arith) := by
  unfold lockRegain
  split
  · exact h
  · extract_lets _ s1
    have hs1 : Keeps s s1 := ite_keeps (.frame h) (.frame h)
    exact ite_keeps hs1 (updateLive_keeps (ite_keeps (arithResume_keeps hs1) (secResume_keeps hs1)))

theorem portMeasure_keeps {s u mhz} (h : Keeps s u) : Keeps s (portMeasure u mhz) := by
  unfold portMeasure
  extract_lets _ s1
  have hs1 : Keeps s s1 := .frame h
  exact ite_keeps h (ite_keeps (raise_keeps hs1) hs1)

theorem vppChange_keeps {s u ok c} (h : Keeps s u) : Keeps s (vppChange u ok c) :=
  ite_keeps (ite_keeps (.within h) (scrapResume_keeps (.within h))) (ite_keeps (.within (progStop_keeps h)) h)

theorem liftHold_keeps {s u inp} (h : Keeps s u) : Keeps s (liftHold u inp) := by
  unfold liftHold
  extract_lets _ s1 _ _ s1' _
  have hs1 : Keeps s s1 := .within h
  have hs1' : Keeps s s1' := .within hs1
  exact ite_keeps hs1 (ite_keeps (liftRun_keeps hs1') (.frame hs1'))

theorem tapMbox_keeps {s u w'} (h : Keeps s u) : Keeps s (tapMbox u w') := by
  unfold tapMbox
  extract_lets _ s1 d _ _
  have hs1 : Keeps s s1 := .within h
  clear_value s1
  have hd : Keeps s d.2 := freeDraw_keeps hs1
  clear_value d
  exact ite_keeps hs1 (.within (emit_keeps hd))

theorem execTamperAssert_keeps {s cut u} (h : Keeps s u) : KeepsNext s (execTamperAssert cut u) := .next (tamperAssert_keeps h)

theorem execTamperRelease_keeps {s boot u} (h : Keeps s u) : KeepsNext s (execTamperRelease boot u) := .next (tamperRelease_keeps h)

theorem execLoopLockLoss_keeps {s arith u} (h : Keeps s u) : KeepsNext s (execLoopLockLoss arith u) := .next (lockLoss_keeps h)

theorem execPortRange_keeps {s mhz u} (h : Keeps s u) : KeepsNext s (execPortRange mhz u) := .next (portMeasure_keeps h)

theorem execVppChange_keeps {s inRange cut u} (h : Keeps s u) : KeepsNext s (execVppChange inRange cut u) := .next (vppChange_keeps h)

theorem execVerdictWrite_keeps {s kind pathB w' gap u} (h : Keeps s u) : KeepsNext s (execVerdictWrite kind pathB w' gap u) := .next (verdictWrite_keeps h)

theorem execVerdictWindowExpire_keeps {s kind u} (h : Keeps s u) : KeepsNext s (execVerdictWindowExpire kind u) := .next (verdictExpire_keeps h)

theorem execTapLiftHold_keeps {s lift boot u} (h : Keeps s u) : KeepsNext s (execTapLiftHold lift boot u) := .next (ite_keeps (liftHold_keeps h) (.within h))

theorem execTapMbox_keeps {s w' u} (h : Keeps s u) : KeepsNext s (execTapMbox w' u) := .next (tapMbox_keeps h)

theorem execLogbCmdDone_keeps {s out u} (h : Keeps s u) : KeepsNext s (execLogbCmdDone out u) := .next (afterProgram_keeps (progEnd_keeps h))

/-! ### Power -/

theorem pwrRefused_keeps {s u a d st} (h : Keeps s u) : Keeps s (pwrRefused u a d st) := refuse_keeps (.frame h)

theorem pwrCmd_keeps {s u a v' bad k} (h : Keeps s u) (hk : ∀ x, Keeps s x → Keeps s (k x)) : Keeps s (pwrCmd u a v' bad k) := by
  unfold pwrCmd
  refine regWrite_keeps h (fun x1 hx1 => ?_)
  split
  · exact pwrRefused_keeps hx1
  · exact hk _ hx1

theorem raiseReq_keeps {s u d} (h : Keeps s u) : Keeps s (raiseReq u d) := ite_keeps (.frame h) (.frame h)

theorem pwrOnOp_keeps {s u a d} (h : Keeps s u) : Keeps s (pwrOnOp u a d) :=
  ite_keeps (pwrDone_keeps h) (.frame (raiseReq_keeps (ite_keeps (powerUp_keeps h) h)))

theorem pwrOffOp_keeps {s u a d} (h : Keeps s u) : Keeps s (pwrOffOp u a d) := ite_keeps (pwrDone_keeps h) (.frame (dropDomain_keeps h))

theorem ackRise_keeps {s u d us} (h : Keeps s u) : Keeps s (ackRise u d us) := by
  unfold ackRise
  split
  · exact h
  · extract_lets _ s1 s2
    have hs1 : Keeps s s1 := .frame h
    have hs2 : Keeps s s2 := domainUp_keeps (setLive_keeps (ite_keeps (raise_keeps hs1) hs1))
    exact ite_keeps (pwrDone_keeps hs2) hs2

theorem riseAgain_keeps {s u d} (h : Keeps s u) : Keeps s (riseAgain u d) := ite_keeps (raiseReq_keeps (.frame h)) h

theorem ackFall_keeps {s u d} (h : Keeps s u) : Keeps s (ackFall u d) :=
  ite_keeps h (ite_keeps (pwrDone_keeps (riseAgain_keeps (.frame h))) (riseAgain_keeps (.frame h)))

theorem losePair_keeps {s u n} (h : Keeps s u) : Keeps s (losePair u n) := by
  unfold losePair
  extract_lets hit s1
  have hs1 : Keeps s s1 := foldl_keeps (fun _ _ hx => leaveBuffer_keeps hx) h
  exact abortEach_keeps hs1

theorem losePhlox_keeps {s u} (h : Keeps s u) : Keeps s (losePhlox u) := by
  unfold losePhlox
  extract_lets s1 _
  have hs1 : Keeps s s1 := abortWhere_keeps h
  exact .frame hs1

theorem loseMain_keeps {s u} (h : Keeps s u) : Keeps s (loseMain u) := by
  unfold loseMain
  extract_lets s0 s1 _ _ _ _
  have hs0 : Keeps s s0 := foldl_keeps (fun _ _ hx1 => ite_keeps (dropDomain_keeps hx1) hx1) (cancelDelivery_keeps h)
  have hs1 : Keeps s s1 := stopBoundary_keeps hs0
  exact .within hs1

theorem losePairNow_keeps {s u d} (h : Keeps s u) : Keeps s (losePairNow u d) := by
  unfold losePairNow
  extract_lets s1 _
  have hs1 : Keeps s s1 := dropDomain_keeps (losePair_keeps h)
  exact updateLive_keeps (ite_keeps hs1 (.within hs1))

theorem powerLoss_keeps {s u d} (h : Keeps s u) : Keeps s (powerLoss u d) := by
  unfold powerLoss
  split
  · exact h
  · extract_lets _ s1
    have hs1 : Keeps s s1 := raise_keeps (.frame h)
    split
    · exact zinResume_keeps (dropDomain_keeps (ite_keeps (astrAbortNow_keeps hs1) hs1))
    · split
      · exact losePairNow_keeps hs1
      · exact ite_keeps (dropDomain_keeps (losePhlox_keeps hs1)) (loseMain_keeps (dropDomain_keeps hs1))

theorem wakeUp_keeps {s u inp} (h : Keeps s u) : Keeps s (wakeUp u inp) := ite_keeps h (startBlock_keeps (mainDomains_keeps (.frame h)))

theorem execPwrOn_keeps {s a v' u} (h : Keeps s u) : KeepsNext s (execPwrOn a v' u) := .next (pwrCmd_keeps h (fun _ hx1 => pwrOnOp_keeps hx1))

theorem execPwrOff_keeps {s a v' u} (h : Keeps s u) : KeepsNext s (execPwrOff a v' u) := .next (pwrCmd_keeps h (fun _ hx1 => pwrOffOp_keeps hx1))

theorem execPwrSleep_keeps {s a v' u} (h : Keeps s u) : KeepsNext s (execPwrSleep a v' u) := .next (pwrCmd_keeps h (fun _ hx => enterSleep_keeps hx))

theorem execPwrAckFall_keeps {s d u} (h : Keeps s u) : KeepsNext s (execPwrAckFall d u) := .next (ackFall_keeps h)

theorem execPowerLoss_keeps {s d u} (h : Keeps s u) : KeepsNext s (execPowerLoss d u) := .next (powerLoss_keeps h)

theorem execWakeReq_keeps {s boot u} (h : Keeps s u) : KeepsNext s (execWakeReq boot u) := .next (wakeUp_keeps h)

/-! ### Bus -/

theorem freeMem_keeps {s u} (h : Keeps s u) : Keeps s (freeMem u).2 := .frame h

theorem freeFault_keeps {s u} (h : Keeps s u) : Keeps s (freeFault u).2 := .frame h

theorem freeStore_keeps {s u} (h : Keeps s u) : Keeps s (freeStore u).2 := by
  unfold freeStore
  extract_lets m d
  have hm : Keeps s m.2 := freeMem_keeps h
  have hd : Keeps s d.2 := freeDraw_keeps hm
  exact hd

theorem freeStep_keeps {s u} (h : Keeps s u) : Keeps s (freeStep u).2 := by
  unfold freeStep
  extract_lets x _
  have hx : Keeps s x.2 := freeStore_keeps h
  exact hx

theorem freeBoot_keeps {s u} (h : Keeps s u) : Keeps s (freeBoot u).2 := by
  unfold freeBoot
  extract_lets x
  have hx : Keeps s x.2 := freeStore_keeps h
  exact hx

theorem nextOf_keeps {s u o} (h : Keeps s u) (ho : KeepsNext s o) : Keeps s (nextOf u o) := by
  unfold nextOf
  split
  · exact ho _ rfl
  · exact h

theorem badCode_keeps {s u a addr busy} (h : Keeps s u) : Keeps s (badCode u a addr busy) := regWrite_keeps h (fun _ hx => hx)

theorem helmOp_keeps {s u a v'} (h : Keeps s u) : Keeps s (helmOp u a v') := by
  unfold helmOp
  extract_lets op x s1 m m2 b
  have hx : Keeps s x.2 := freeStore_keeps h
  have hm : Keeps s m.2 := freeMem_keeps hx
  have hm2 : Keeps s m2.2 := freeMem_keeps hm
  have hb : Keeps s b.2 := freeBoot_keeps hx
  split
  · exact nextOf_keeps hx (execUpdBegin_keeps hx)
  · split
    · exact nextOf_keeps hx (execUpdBlock_keeps hx)
    · split
      · exact nextOf_keeps hx (execUpdFinish_keeps hx)
      · split
        · exact nextOf_keeps hx (execUpdAbort_keeps hx)
        · split
          · exact nextOf_keeps hx (execActivate_keeps hb)
          · split
            · exact nextOf_keeps hx (execHelmConfirm_keeps hx)
            · split
              · exact nextOf_keeps hx (execHelmRevoke_keeps hm)
              · split
                · exact nextOf_keeps hx (execForward_keeps hx)
                · split
                  · exact nextOf_keeps hx (execSettings_keeps hx)
                  · exact ite_keeps (nextOf_keeps hx (execVerifyHost_keeps hm2)) (badCode_keeps hx)

theorem chrtOp_keeps {s u a v'} (h : Keeps s u) : Keeps s (chrtOp u a v') := by
  unfold chrtOp
  extract_lets op m p s1
  have hm : Keeps s m.2 := freeMem_keeps h
  have hp : Keeps s p.2 := freeMem_keeps hm
  split
  · exact nextOf_keeps hp (execChrtImport_keeps hp)
  · split
    · exact nextOf_keeps hp (execChrtConfirm_keeps hp)
    · split
      · exact nextOf_keeps hp (execChrtCommit_keeps hp)
      · split
        · exact nextOf_keeps hp (execChrtDiscard_keeps hp)
        · split
          · exact nextOf_keeps hp (execChrtDelete_keeps hp)
          · split
            · exact nextOf_keeps hp (execChrtGenerate_keeps hp)
            · exact ite_keeps (nextOf_keeps hp (execChrtDeliver_keeps hp)) (badCode_keeps hp)

theorem astrOp_keeps {s u a v'} (h : Keeps s u) : Keeps s (astrOp u a v') :=
  ite_keeps (nextOf_keeps h (execAstrRun_keeps h)) (ite_keeps (nextOf_keeps h (execAstrAbort_keeps h)) (astrBadOp_keeps h))

theorem logbOp_keeps {s u a v'} (h : Keeps s u) : Keeps s (logbOp u a v') :=
  ite_keeps (nextOf_keeps h (execLogbProgram_keeps h)) (ite_keeps (nextOf_keeps h (execLogbReinforce_keeps h))
  (ite_keeps (nextOf_keeps h (execLockWrite_keeps h)) (ite_keeps (nextOf_keeps h (execLockRead_keeps h)) (ite_keeps (nextOf_keeps h (execAdvance_keeps h))
  (ite_keeps (nextOf_keeps h (execLogbRevoke_keeps h)) (ite_keeps (nextOf_keeps h (execGenDus_keeps h))
  (ite_keeps (nextOf_keeps h (execMarginScan_keeps h)) (badCode_keeps h))))))))

theorem lifeOp_keeps {s u a v'} (h : Keeps s u) : Keeps s (lifeOp u a v') := by
  unfold lifeOp
  extract_lets op m s1
  have hm : Keeps s m.2 := freeMem_keeps h
  split
  · exact nextOf_keeps hm (execTransition_keeps hm)
  · split
    · exact nextOf_keeps hm (execLifeChallenge_keeps hm)
    · split
      · exact nextOf_keeps hm (execUnlockPw_keeps hm)
      · exact ite_keeps (nextOf_keeps hm (execUnlockGrant_keeps hm)) (badCode_keeps hm)

theorem chanOp_keeps {s u a k v'} (h : Keeps s u) : Keeps s (chanOp u a k v') :=
  ite_keeps (chanStart_keeps h) (ite_keeps (chanPause_keeps h) (ite_keeps (chanResume_keeps h) (ite_keeps (chanStop_keeps h) (badCode_keeps h))))

theorem phlxOp_keeps {s u a v'} (h : Keeps s u) : Keeps s (phlxOp u a v') :=
  ite_keeps (nextOf_keeps h (execPhlxAlloc_keeps h)) (ite_keeps (nextOf_keeps h (execPhlxFree_keeps h)) (ite_keeps (nextOf_keeps h (execPhlxOpen_keeps h))
  (ite_keeps (nextOf_keeps h (execPhlxInvalidate_keeps h)) (badCode_keeps h))))

theorem grpOp_keeps {s u a v'} (h : Keeps s u) : Keeps s (grpOp u a v') :=
  ite_keeps (nextOf_keeps h (execGrpCommit_keeps h)) (ite_keeps (nextOf_keeps h (execGrpClear_keeps h)) (ite_keeps (nextOf_keeps h (execLaunch_keeps h))
  (ite_keeps (nextOf_keeps h (execGrpAbort_keeps h)) (ite_keeps (nextOf_keeps h (execResyncSend_keeps h)) (ite_keeps (nextOf_keeps h (execResyncRecv_keeps h))
  (ite_keeps (nextOf_keeps h (execSetEpoch_keeps h)) (badCode_keeps h)))))))

theorem partOp_keeps {s u a p v'} (h : Keeps s u) : Keeps s (partOp u a p v') := by
  unfold partOp
  extract_lets op m f
  have hm : Keeps s m.2 := freeMem_keeps h
  have hf : Keeps s f.2 := freeFault_keeps hm
  exact ite_keeps (partAssign_keeps hf) (ite_keeps (partRelease_keeps h) (badCode_keeps h))

theorem pwrOp_keeps {s u a v'} (h : Keeps s u) : Keeps s (pwrOp u a v') :=
  ite_keeps (nextOf_keeps h (execPwrOn_keeps h)) (ite_keeps (nextOf_keeps h (execPwrOff_keeps h))
  (ite_keeps (nextOf_keeps h (execPwrSleep_keeps h)) (badCode_keeps h)))

theorem writeLow_keeps {s u a p off v'} (h : Keeps s u) : Keeps s (writeLow u a p off v') := by
  unfold writeLow
  exact ite_keeps (nextOf_keeps h (execBlkSoftReset_keeps (freeBoot_keeps h))) (ite_keeps (helmOp_keeps h) (ite_keeps (stageAccess_keeps h)
    (ite_keeps (nextOf_keeps h (execMrdAdvance_keeps (freeStep_keeps h))) (ite_keeps (mrdStepSet_keeps h) (ite_keeps (schedWrite_keeps h)
      (ite_keeps (chrtOp_keeps h)
    (ite_keeps (astrCsData_keeps h) (ite_keeps (astrCsCommit_keeps h) (ite_keeps (astrOp_keeps h) (ite_keeps (astrSlotDesc_keeps h)
      (ite_keeps (astrData_keeps h)
    (ite_keeps (astrZero_keeps h) (ite_keeps (logbOp_keeps h) (ite_keeps (lifeOp_keeps h)
    (ite_keeps (ite_keeps (nextOf_keeps h (execExtend_keeps h)) (badCode_keeps h)) (ite_keeps (chanOp_keeps h) (ite_keeps (chanBell_keeps h)
    (ite_keeps (gctrlWrite_keeps h) (ite_keeps (semWrite_keeps h) (ite_keeps (mgmtRegionWrite_keeps h) (plainWrite_keeps h)))))))))))))))))))))

theorem writeMid_keeps {s u a p off v'} (h : Keeps s u) : Keeps s (writeMid u a p off v') := by
  unfold writeMid
  exact ite_keeps (bindWrite_keeps h) (ite_keeps (csDataWrite_keeps h) (ite_keeps (csCommit_keeps h) (ite_keeps (kcFlushWrite_keeps h)
    (ite_keeps (phlxOp_keeps h) (ite_keeps (zinCmd_keeps (freeMem_keeps (freeMem_keeps h))) (ite_keeps (sndStCmd_keeps h) (ite_keeps (ctxCmd_keeps h)
    (ite_keeps (grpDescWrite_keeps h) (ite_keeps (grpOp_keeps h) (ite_keeps (stationWrite_keeps h) (ite_keeps (mbrWrite_keeps h) (ite_keeps (trackWrite_keeps h)
    (ite_keeps (strgClearWrite_keeps h) (plainWrite_keeps h))))))))))))))

theorem writeHigh_keeps {s u a p off v'} (h : Keeps s u) : Keeps s (writeHigh u a p off v') := by
  unfold writeHigh
  split
  · exact partOp_keeps h
  · split
    · exact quotaWrite_keeps h
    · split
      · exact mbrRangeWrite_keeps h
      · split
        · exact channelsWrite_keeps h
        · exact ite_keeps (regionWrite_keeps h) (ite_keeps (pwrOp_keeps h) (plainWrite_keeps h))

theorem writeAt_keeps {s u a p off v'} (h : Keeps s u) : Keeps s (writeAt u a p off v') :=
  ite_keeps (writeLow_keeps h) (ite_keeps (writeMid_keeps h) (writeHigh_keeps h))

theorem busWrite_keeps {s u a addr be v'} (h : Keeps s u) : Keeps s (busWrite u a addr be v') := by
  unfold busWrite
  split
  · exact h
  · exact decodeError_keeps h
  · exact refuse_keeps h
  · exact writeAt_keeps h

theorem readAt_keeps {s u a addr} (h : Keeps s u) : Keeps s (readAt u a addr) := by
  unfold readAt
  extract_lets p off r
  have hr : Keeps s r.2 := readReg_keeps h
  split
  · exact stageAccess_keeps h
  · split
    · exact astrData_keeps h
    · split
      · exact mbrRead_keeps h
      · split
        · exact regRead_keeps h (fun _ hx1 => .frame hx1)
        · split
          · exact regRead_keeps h (fun _ hx1 => .within hx1)
          · exact regRead_keeps h (fun _ hx => hx)
          · exact regRead_keeps h (fun _ hx => hx)

theorem busRead_keeps {s u a addr be} (h : Keeps s u) : Keeps s (busRead u a addr be) := by
  unfold busRead
  split
  · exact h
  · exact decodeError_keeps h
  · exact refuse_keeps h
  · exact readAt_keeps h

theorem busFn_keeps {s u a a' a'' a'''} (h : Keeps s u) : Keeps s (busFn u a a' a'' a''') := ite_keeps (busWrite_keeps h) (busRead_keeps h)

theorem pumpReached_keeps {s u a addr be v} (hv : Keeps s v) : Keeps s (pumpReached u a addr be v) := by
  unfold pumpReached
  split
  · exact pumpAll_keeps (fun _ _ _ _ _ hx => busFn_keeps hx) hv
  · exact hv

theorem hostWrite_keeps {s u a addr be v'} (h : Keeps s u) : Keeps s (hostWrite u a addr be v') := by
  unfold hostWrite
  extract_lets s1
  have hs1 : Keeps s s1 := busWrite_keeps h
  exact ite_keeps (pumpReached_keeps hs1) hs1

theorem execRegisterWrite_keeps {s a addr be v' u} (h : Keeps s u) : KeepsNext s (execRegisterWrite a addr be v' u) := .ite .refused (.next (hostWrite_keeps h))

theorem execRegisterRead_keeps {s a addr be u} (h : Keeps s u) : KeepsNext s (execRegisterRead a addr be u) := .ite .refused (.next (busRead_keeps h))

theorem execWideReadLatch_keeps {s a addr u} (h : Keeps s u) : KeepsNext s (execWideReadLatch a addr u) := .ite .refused (.next (busRead_keeps h))

theorem execIntSetWrite_keeps {s a page v' u} (h : Keeps s u) : KeepsNext s (execIntSetWrite a page v' u) :=
  .next (regWrite_keeps h (fun _ hx1 => intSet_keeps hx1))

theorem execPageLockWrite_keeps {s a page v' u} (h : Keeps s u) : KeepsNext s (execPageLockWrite a page v' u) :=
  .next (regWrite_keeps h (fun _ hx1 => lockPage_keeps hx1))

/-! ### Dma -/

theorem execLoopLockRegain_keeps {s arith u} (h : Keeps s u) : KeepsNext s (execLoopLockRegain arith u) :=
  .next (pumpAll_keeps (fun _ _ _ _ _ hx => busFn_keeps hx) (lockRegain_keeps h))

theorem execPwrAckRise_keeps {s d us u} (h : Keeps s u) : KeepsNext s (execPwrAckRise d us u) :=
  .next (pumpAll_keeps (fun _ _ _ _ _ hx => busFn_keeps hx) (ackRise_keeps h))

theorem execSndCtxSave_keeps {s a v' e u} (h : Keeps s u) : KeepsNext s (execSndCtxSave a v' e u) :=
  .next (pumpReached_keeps (eccContext_keeps (ctxCmd_keeps h)))

theorem execSndCtxRestore_keeps {s a v' e u} (h : Keeps s u) : KeepsNext s (execSndCtxRestore a v' e u) :=
  .next (pumpReached_keeps (eccContext_keeps (ctxCmd_keeps h)))

theorem execAssign_keeps {s a part v' mem u} (h : Keeps s u) : KeepsNext s (execAssign a part v' mem u) := .next (partAssign_keeps h)

theorem execPartCmdRelease_keeps {s a part v' u} (h : Keeps s u) : KeepsNext s (execPartCmdRelease a part v' u) := .next (partRelease_keeps h)

theorem execWipeDone_keeps {s part u} (h : Keeps s u) : KeepsNext s (execWipeDone part u) :=
  .next (pumpAll_keeps (fun _ _ _ _ _ hx => busFn_keeps hx) (wipeDone_keeps h))

theorem execPartRegionWrite_keeps {s a part w' limit v' u} (h : Keeps s u) : KeepsNext s (execPartRegionWrite a part w' limit v' u) :=
  .next (regionWrite_keeps h)

theorem execRegionDisableDone_keeps {s part w' u} (h : Keeps s u) : KeepsNext s (execRegionDisableDone part w' u) :=
  .next (whenSec_keeps h (fun _ hx1 => regionDisableDone_keeps hx1))

theorem execPartMbrRangeWrite_keeps {s a part v' u} (h : Keeps s u) : KeepsNext s (execPartMbrRangeWrite a part v' u) := .next (mbrRangeWrite_keeps h)

theorem execPartChannelsWrite_keeps {s a part v' u} (h : Keeps s u) : KeepsNext s (execPartChannelsWrite a part v' u) := .next (channelsWrite_keeps h)

theorem execPartQuotaWrite_keeps {s a part second v' u} (h : Keeps s u) : KeepsNext s (execPartQuotaWrite a part second v' u) := .next (quotaWrite_keeps h)

theorem execRhmbStart_keeps {s a ch v' u} (h : Keeps s u) : KeepsNext s (execRhmbStart a ch v' u) := .next (pumpReached_keeps (chanStart_keeps h))

theorem execRhmbPause_keeps {s a ch v' u} (h : Keeps s u) : KeepsNext s (execRhmbPause a ch v' u) := .next (chanPause_keeps h)

theorem execPauseDrained_keeps {s ch u} (h : Keeps s u) : KeepsNext s (execPauseDrained ch u) :=
  .next (whenSec_keeps h (fun _ hx1 => pauseDrained_keeps (fun _ _ _ _ _ hx => busFn_keeps hx) hx1))

theorem execRhmbResume_keeps {s a ch v' u} (h : Keeps s u) : KeepsNext s (execRhmbResume a ch v' u) := .next (pumpReached_keeps (chanResume_keeps h))

theorem execRhmbStop_keeps {s a ch v' u} (h : Keeps s u) : KeepsNext s (execRhmbStop a ch v' u) := .next (pumpReached_keeps (chanStop_keeps h))

theorem execRhmbChDoorbell_keeps {s a ch v' u} (h : Keeps s u) : KeepsNext s (execRhmbChDoorbell a ch v' u) := .next (chanBell_keeps h)

theorem execRhmbGctrlWrite_keeps {s a v' u} (h : Keeps s u) : KeepsNext s (execRhmbGctrlWrite a v' u) := .next (gctrlWrite_keeps h)

theorem execRhmbSemWrite_keeps {s a v' u} (h : Keeps s u) : KeepsNext s (execRhmbSemWrite a v' u) := .next (semWrite_keeps h)

theorem execMove_keeps {s ch u} (h : Keeps s u) : KeepsNext s (execMove ch u) :=
  .next (runIns_keeps (fun _ _ _ _ _ hx => busFn_keeps hx) h (fun _ _ hx1 => insMove_keeps hx1))

theorem execMoveSg_keeps {s ch u} (h : Keeps s u) : KeepsNext s (execMoveSg ch u) :=
  .next (runIns_keeps (fun _ _ _ _ _ hx => busFn_keeps hx) h (fun _ _ hx1 => insMoveSg_keeps hx1))

theorem execFill_keeps {s ch u} (h : Keeps s u) : KeepsNext s (execFill ch u) :=
  .next (runIns_keeps (fun _ _ _ _ _ hx => busFn_keeps hx) h (fun _ _ hx1 => insFill_keeps hx1))

theorem execCompare_keeps {s ch u} (h : Keeps s u) : KeepsNext s (execCompare ch u) :=
  .next (runIns_keeps (fun _ _ _ _ _ hx => busFn_keeps hx) h (fun _ _ hx1 => insCompare_keeps hx1))

theorem execShuffle_keeps {s ch u} (h : Keeps s u) : KeepsNext s (execShuffle ch u) :=
  .next (runIns_keeps (fun _ _ _ _ _ hx => busFn_keeps hx) h (fun _ _ hx1 => insShuffle_keeps hx1))

theorem execLoop_keeps {s ch u} (h : Keeps s u) : KeepsNext s (execLoop ch u) :=
  .next (runIns_keeps (fun _ _ _ _ _ hx => busFn_keeps hx) h (fun _ _ hx1 => insLoop_keeps hx1))

theorem execWait_keeps {s ch u} (h : Keeps s u) : KeepsNext s (execWait ch u) :=
  .next (runIns_keeps (fun _ _ _ _ _ hx => busFn_keeps hx) h (fun _ _ hx1 => insWait_keeps hx1))

theorem execWaitSatisfied_keeps {s u} (h : Keeps s u) : KeepsNext s (execWaitSatisfied u) :=
  .next (whenSec_keeps h (fun _ hx => judgeWaits_keeps (fun _ _ _ _ _ hx1 => busFn_keeps hx1) hx))

theorem execSignal_keeps {s ch u} (h : Keeps s u) : KeepsNext s (execSignal ch u) :=
  .next (runIns_keeps (fun _ _ _ _ _ hx => busFn_keeps hx) h (fun _ _ hx1 => insSignal_keeps hx1))

theorem execList_keeps {s ch u} (h : Keeps s u) : KeepsNext s (execList ch u) :=
  .next (runIns_keeps (fun _ _ _ _ _ hx => busFn_keeps hx) h (fun _ _ hx1 => insList_keeps hx1))

theorem execEndRun_keeps {s ch u} (h : Keeps s u) : KeepsNext s (execEndRun ch u) :=
  .next (runIns_keeps (fun _ _ _ _ _ hx => busFn_keeps hx) h (fun _ _ hx1 => insEnd_keeps hx1))

theorem execMmpReadResponse_keeps {s id data u} (h : Keeps s u) : KeepsNext s (execMmpReadResponse id data u) :=
  .next (answerReq_keeps (fun _ _ _ _ _ hx => busFn_keeps hx) h)

theorem execMmpWriteResponse_keeps {s id ok u} (h : Keeps s u) : KeepsNext s (execMmpWriteResponse id ok u) :=
  .next (answerReq_keeps (fun _ _ _ _ _ hx => busFn_keeps hx) h)

theorem execMmpTimeout_keeps {s id us u} (h : Keeps s u) : KeepsNext s (execMmpTimeout id us u) :=
  .next (timeoutReq_keeps (fun _ _ _ _ _ hx => busFn_keeps hx) h)

/-! ### Spdm -/

theorem semSet_keeps {s u i n} (h : Keeps s u) : Keeps s (semSet u i n) := .frame h

theorem mailAnswer_keeps {s u base seq secured msg} (h : Keeps s u) : Keeps s (mailAnswer u base seq secured msg) := semSet_keeps (emit_keeps (semSet_keeps h))

theorem setSess_keeps {s u i x'} (h : Keeps s u) : Keeps s (setSess u i x') := ite_keeps (.frame h) (.frame h)

theorem putSecret_keeps {s u i which k} (h : Keeps s u) : Keeps s (putSecret u i which k) := putSlot_keeps h

theorem closeSess_keeps {s u i} (h : Keeps s u) : Keeps s (closeSess u i) := setSess_keeps (foldl_keeps (fun _ _ hx1 => zeroSlot_keeps hx1) h)

theorem answers_keeps {s u msg} (h : Keeps s u) : Keeps s (answers u msg).st := h

theorem fails_keeps {s u code} (h : Keeps s u) : Keeps s (fails u code).st := answers_keeps h

theorem noteSess_keeps {s u i rsp} (h : Keeps s u) : Keeps s (noteSess u i rsp) := noteBad_keeps h

theorem noteRequest_keeps {s u m} (h : Keeps s u) : Keeps s (noteRequest u m) := by
  unfold noteRequest
  split
  · exact h
  · split
    · exact noteSess_keeps h
    · exact h

theorem openRequest_keeps {s u m x} (h : Keeps s u) (e : openRequest u m = .ok x) : Keeps s x.1 := by
  unfold openRequest at e
  dsimp only at e
  split at e
  · cases e; exact h
  · split at e
    · cases e
    · split at e
      · cases e
      · split at e
        · cases e
        · cases e; exact setSess_keeps h

theorem afterReply_keeps {s u r} (h : Keeps s u) : Keeps s (afterReply u r) := by
  unfold afterReply
  split
  · exact closeSess_keeps h
  · extract_lets x s1
    have hs1 : Keeps s s1 := putSecret_keeps (putSecret_keeps h)
    exact setSess_keeps (zeroSlot_keeps (zeroSlot_keeps hs1))
  · exact h

theorem sendReply_keeps {s base seq sess r} (hr : Keeps s r.st) : Keeps s (sendReply base seq sess r) := by
  unfold sendReply
  split
  · exact afterReply_keeps (mailAnswer_keeps hr)
  · extract_lets s1 x
    have hs1 : Keeps s s1 := noteSess_keeps hr
    split
    · exact afterReply_keeps (mailAnswer_keeps hs1)
    · exact afterReply_keeps (mailAnswer_keeps (setSess_keeps hs1))

theorem spdmOp_keeps {s u m named body} (h : Keeps s u) (hbody : ∀ x a1 a2, Keeps s x → Keeps s (body x a1 a2).st) : Keeps s (spdmOp u m named body) := by
  unfold spdmOp
  split
  · exact h
  · extract_lets seq s1
    have hs1 : Keeps s s1 := noteRequest_keeps h
    split
    · exact mailAnswer_keeps h
    · split
      next x e e1' =>
        exact mailAnswer_keeps hs1
      next x x1' e =>
        have hx1' : Keeps s x1'.1 := openRequest_keeps hs1 e
        exact ite_keeps (sendReply_keeps (fails_keeps hx1')) (ite_keeps (sendReply_keeps (hbody _ _ _ hx1')) hs1)

theorem formedReq_keeps {s u b ver len k} (h : Keeps s u) (hk : Keeps s k.st) : Keeps s (formedReq u b ver len k).st := by
  unfold formedReq
  split
  · exact fails_keeps h
  · split
    · exact fails_keeps h
    · exact hk

theorem versionBody_keeps {s u sess b} (h : Keeps s u) : Keeps s (versionBody u sess b).st := by
  have h1 : Keeps s (closeSess (closeSess u 0) 1) := closeSess_keeps (closeSess_keeps h)
  unfold versionBody
  split
  · exact fails_keeps h
  · exact formedReq_keeps h (answers_keeps (.frame h1))

theorem capabilitiesBody_keeps {s u sess b} (h : Keeps s u) : Keeps s (capabilitiesBody u sess b).st := by
  unfold capabilitiesBody
  split
  · exact fails_keeps h
  · exact formedReq_keeps h (answers_keeps (.frame h))

theorem algorithmsBody_keeps {s u sess b} (h : Keeps s u) : Keeps s (algorithmsBody u sess b).st := by
  unfold algorithmsBody
  split
  · exact fails_keeps h
  · refine formedReq_keeps h ?_
    split
    · exact fails_keeps h
    · split
      · exact fails_keeps h
      · exact answers_keeps (.frame h)

theorem digestsBody_keeps {s area u x' b} (h : Keeps s u) : Keeps s (digestsBody area u x' b).st := by
  unfold digestsBody
  split
  · exact fails_keeps h
  · exact formedReq_keeps h (answers_keeps (.frame h))

theorem certificateBody_keeps {s area u sess b} (h : Keeps s u) : Keeps s (certificateBody area u sess b).st := by
  unfold certificateBody
  split
  · exact fails_keeps h
  · refine formedReq_keeps h ?_
    split
    · exact fails_keeps h
    · extract_lets off n r _
      split
      · exact fails_keeps h
      · exact answers_keeps (.frame h)

theorem summary_keeps {s u ty} (h : Keeps s u) : Keeps s (summary u ty).2 := by
  unfold summary
  split
  · exact h
  · split
    · exact h
    · extract_lets d
      have hd : Keeps s d.2 := freeDraw_keeps h
      exact hd

theorem noteReport_keeps {s u p} (h : Keeps s u) : Keeps s (noteReport u p) := noteBad_keeps (noteBad_keeps h)

theorem report_keeps {s u p nonce fail x} (h : Keeps s u) (e : report u p nonce fail = some x) : Keeps s x.2 := by
  unfold report at e
  split at e
  · split at e
    · cases e
    · extract_lets b g at e
      have hg : Keeps s g.2 := hybridSign_keeps (engineUp_keeps h)
      clear_value b g
      exact Option.some.inj e ▸ hg
  · cases e

theorem spdmSign_keeps {s u context tr fail x} (h : Keeps s u) (e : spdmSign u context tr fail = some x) : Keeps s x.2 := by
  unfold spdmSign at e
  split at e
  · split at e
    · cases e; exact ecSign_keeps (engineUp_keeps h)
    · cases e
  · cases e

theorem pairOrFail_keeps {s u p fail} (h : Keeps s u) : Keeps s (pairOrFail u p fail) := ite_keeps h (needPart_keeps h)

theorem measRecord_keeps {s u i nonce fail x} (h : Keeps s u) (e : measRecord u i nonce fail = .ok x) : Keeps s x.2.2 := by
  have rep {p : Option Nat} {v : State} (hv : Keeps s v)
      (e : (match report v p nonce fail with | some r => Except.ok (1, measBlock i 0x84 r.1, r.2) | none => .error 0x05) = .ok x) : Keeps s x.2.2 := by
    split at e
    · next r er =>
      rw [← Except.ok.inj e]
      exact report_keeps (x := r) hv er
    · cases e
  unfold measRecord at e
  dsimp only at e
  split at e
  · obtain rfl := Except.ok.inj e; exact h
  · split at e
    · obtain rfl := Except.ok.inj e; exact h
    · split at e
      · obtain rfl := Except.ok.inj e; exact h
      · split at e
        · obtain rfl := Except.ok.inj e; exact h
        · split at e
          · exact rep h e
          · split at e
            · split at e
              · exact rep (pairOrFail_keeps h) e
              · cases e
            · split at e
              · split at e
                · split at e
                  · cases e
                  · obtain rfl := Except.ok.inj e; exact pairOrFail_keeps h
                · cases e
              · cases e

theorem noteMeas_keeps {s u i} (h : Keeps s u) : Keeps s (noteMeas u i) := ite_keeps (noteReport_keeps h) (ite_keeps (noteReport_keeps h) h)

theorem measurementsBody_keeps {s fail u x' b} (h : Keeps s u) : Keeps s (measurementsBody fail u x' b).st := by
  unfold measurementsBody
  extract_lets sign s1
  have hs1 : Keeps s s1 := noteMeas_keeps h
  split
  · exact fails_keeps h
  · refine formedReq_keeps h ?_
    split
    · exact fails_keeps h
    · split
      · exact fails_keeps h
      · split
        next x e e1' =>
          exact fails_keeps hs1
        next x n blocks s11 e =>
          have hs11 : Keeps s s11 := measRecord_keeps hs1 e
          extract_lets d r t _ _
          have hd : Keeps s d.2 := drbgDraw_keeps hs11
          split
          · exact answers_keeps (.frame hd)
          · split
            next x1 e1 =>
              exact fails_keeps (noteBad_keeps hs1)
            next x1 g e1 =>
              have hg : Keeps s g.2 := spdmSign_keeps (noteBad_keeps hd) e1
              exact answers_keeps (.frame hg)

theorem challengeBody_keeps {s area fail u sess b} (h : Keeps s u) : Keeps s (challengeBody area fail u sess b).st := by
  unfold challengeBody
  extract_lets ty s1 h1 d
  have hs1 : Keeps s s1 := noteBad_keeps h
  have hh1 : Keeps s h1.2 := summary_keeps hs1
  have hd : Keeps s d.2 := drbgDraw_keeps hh1
  split
  · exact fails_keeps h
  · refine formedReq_keeps h ?_
    split
    · exact fails_keeps h
    · split
      · exact fails_keeps h
      · split
        · exact fails_keeps h
        · extract_lets r
          split
          next x e =>
            exact fails_keeps hs1
          next x g e =>
            have hg : Keeps s g.2 := spdmSign_keeps hd e
            exact answers_keeps (.frame hg)

theorem exchange_keeps {s u i ty c b q fail} (h : Keeps s u) : Keeps s (exchange u i ty c b q fail).st := by
  unfold exchange
  split
  · exact fails_keeps (noteBad_keeps h)
  · extract_lets s1 h1 n d shared x opq r t
    have hs1 : Keeps s s1 := noteBad_keeps h
    have hh1 : Keeps s h1.2 := summary_keeps hs1
    have hn : Keeps s n.2 := drbgDraws_keeps (engineUp_keeps hh1)
    split
    next x1 e =>
      exact fails_keeps hs1
    next x1 g e =>
      have hg : Keeps s g.2 := spdmSign_keeps hn e
      exact answers_keeps (setSess_keeps (putSecret_keeps (putSecret_keeps hg)))

theorem exchangeBody_keeps {s area fail u sess b} (h : Keeps s u) : Keeps s (exchangeBody area fail u sess b).st := by
  unfold exchangeBody
  extract_lets ty
  split
  · exact fails_keeps h
  · refine formedReq_keeps h ?_
    split
    · split
      · exact fails_keeps h
      · split
        · exact exchange_keeps h
        · split
          · exact exchange_keeps h
          · exact fails_keeps h
    · exact fails_keeps h

theorem finishBody_keeps {s u sess b} (h : Keeps s u) : Keeps s (finishBody u sess b).st := by
  unfold finishBody
  split
  · exact fails_keeps h
  · extract_lets x r
    split
    · exact fails_keeps h
    · refine formedReq_keeps h ?_
      split
      · exact fails_keeps h
      · split <;> exact h

theorem updateDir_keeps {s u i rsp} (h : Keeps s u) : Keeps s (updateDir u i rsp) := by
  unfold updateDir
  extract_lets s1
  have hs1 : Keeps s s1 := noteBad_keeps h
  split
  · exact hs1
  · extract_lets s11 x
    have hs11 : Keeps s s11 := putSecret_keeps hs1
    exact setSess_keeps hs11

theorem updateBody_keeps {s u sess b} (h : Keeps s u) : Keeps s (updateBody u sess b).st := by
  unfold updateBody
  split
  · exact fails_keeps h
  · extract_lets op r
    split
    · exact fails_keeps h
    · split
      · split
        · exact fails_keeps h
        · refine formedReq_keeps h ?_
          split
          · exact answers_keeps (updateDir_keeps h)
          · exact answers_keeps (updateDir_keeps (updateDir_keeps h))
      · split
        · exact fails_keeps h
        · refine formedReq_keeps h ?_
          split
          · exact answers_keeps (updateDir_keeps h)
          · split
            · exact answers_keeps h
            · exact fails_keeps h

theorem endBody_keeps {s u sess b} (h : Keeps s u) : Keeps s (endBody u sess b).st := by
  unfold endBody
  split
  · exact fails_keeps h
  · split
    · exact fails_keeps h
    · exact formedReq_keeps h h

theorem execGetVersion_keeps {s m u} (h : Keeps s u) : KeepsNext s (execGetVersion m u) := .next (spdmOp_keeps h (fun _ _ _ hx => versionBody_keeps hx))

theorem execGetCapabilities_keeps {s m u} (h : Keeps s u) : KeepsNext s (execGetCapabilities m u) :=
  .next (spdmOp_keeps h (fun _ _ _ hx => capabilitiesBody_keeps hx))

theorem execNegotiateAlgorithms_keeps {s m u} (h : Keeps s u) : KeepsNext s (execNegotiateAlgorithms m u) :=
  .next (spdmOp_keeps h (fun _ _ _ hx => algorithmsBody_keeps hx))

theorem execGetDigests_keeps {s m area u} (h : Keeps s u) : KeepsNext s (execGetDigests m area u) :=
  .next (spdmOp_keeps h (fun _ _ _ hx => digestsBody_keeps hx))

theorem execGetCertificate_keeps {s m area u} (h : Keeps s u) : KeepsNext s (execGetCertificate m area u) :=
  .next (spdmOp_keeps h (fun _ _ _ hx => certificateBody_keeps hx))

theorem execSpdmChallenge_keeps {s m area u} (h : Keeps s u) : KeepsNext s (execSpdmChallenge m area u) :=
  .next (spdmOp_keeps h (fun _ _ _ hx => challengeBody_keeps hx))

theorem execGetMeasurements_keeps {s m u} (h : Keeps s u) : KeepsNext s (execGetMeasurements m u) :=
  .next (spdmOp_keeps h (fun _ _ _ hx => measurementsBody_keeps hx))

theorem execKeyExchange_keeps {s m area u} (h : Keeps s u) : KeepsNext s (execKeyExchange m area u) :=
  .next (spdmOp_keeps h (fun _ _ _ hx => exchangeBody_keeps hx))

theorem execFinish_keeps {s m u} (h : Keeps s u) : KeepsNext s (execFinish m u) := .next (spdmOp_keeps h (fun _ _ _ hx => finishBody_keeps hx))

theorem execKeyUpdate_keeps {s m u} (h : Keeps s u) : KeepsNext s (execKeyUpdate m u) := .next (spdmOp_keeps h (fun _ _ _ hx => updateBody_keeps hx))

theorem execEndSession_keeps {s m u} (h : Keeps s u) : KeepsNext s (execEndSession m u) := .next (spdmOp_keeps h (fun _ _ _ hx => endBody_keeps hx))

theorem execUnsupportedRequest_keeps {s m u} (h : Keeps s u) : KeepsNext s (execUnsupportedRequest m u) :=
  .next (spdmOp_keeps h (fun _ _ _ hx1 => answers_keeps hx1))

/-! ### Time -/

theorem levelsFall_keeps {s u} (h : Keeps s u) : Keeps s (levelsFall u) := .within h

theorem idleTick_keeps {s u} (h : Keeps s u) : Keeps s (idleTick u) := closeMgmt_keeps (levelsFall_keeps (passTime_keeps h))

end Sys2Proof.Machine
end

section
/-! A step keeps a legal state legal: a command other than `PORST` and an idle microsecond by the relation, and `PORST` since it samples the
straps and builds the rest of the state anew. -/

namespace Sys2Proof.Machine

/-- Every command but `PORST` keeps the relation. -/
theorem exec_keeps {c : Instr} {s : State} (hc : ∀ profile base cut boot, c ≠ .porst profile base cut boot) : KeepsNext s (exec c s) := by
  cases c with
  | porst profile base cut boot => exact absurd rfl (hc profile base cut boot)
  | tamperAssert => exact execTamperAssert_keeps (.refl s)
  | tamperRelease => exact execTamperRelease_keeps (.refl s)
  | blkSoftReset => exact execBlkSoftReset_keeps (.refl s)
  | loopLockLoss => exact execLoopLockLoss_keeps (.refl s)
  | portRange => exact execPortRange_keeps (.refl s)
  | vppChange => exact execVppChange_keeps (.refl s)
  | verdictWrite => exact execVerdictWrite_keeps (.refl s)
  | verdictWindowExpire => exact execVerdictWindowExpire_keeps (.refl s)
  | registerWrite => exact execRegisterWrite_keeps (.refl s)
  | wideReadLatch => exact execWideReadLatch_keeps (.refl s)
  | intSetWrite => exact execIntSetWrite_keeps (.refl s)
  | pageLockWrite => exact execPageLockWrite_keeps (.refl s)
  | dataFrameReceive => exact execDataFrameReceive_keeps (.refl s)
  | scaleFrameReceive => exact execScaleFrameReceive_keeps (.refl s)
  | resultFrameReceive => exact execResultFrameReceive_keeps (.refl s)
  | abortFrameReceive => exact execAbortFrameReceive_keeps (.refl s)
  | stepFrameReceive => exact execStepFrameReceive_keeps (.refl s)
  | probeFrameReceive => exact execProbeFrameReceive_keeps (.refl s)
  | mgmtFrameReceive => exact execMgmtFrameReceive_keeps (.refl s)
  | updateFrameReceive => exact execUpdateFrameReceive_keeps (.refl s)
  | creditGrantReceive => exact execCreditGrantReceive_keeps (.refl s)
  | egressFrameBuild => exact execEgressFrameBuild_keeps (.refl s)
  | frameSend => exact execFrameSend_keeps (.refl s)
  | csDataWrite => exact execCsDataWrite_keeps (.refl s)
  | csCommit => exact execCsCommit_keeps (.refl s)
  | bindWrite => exact execBindWrite_keeps (.refl s)
  | drainEnd => exact execDrainEnd_keeps (.refl s)
  | kcFlush => exact execKcFlush_keeps (.refl s)
  | keyRequestServe => exact execKeyRequestServe_keeps (.refl s)
  | csParityError => exact execCsParityError_keeps (.refl s)
  | phlxAlloc => exact execPhlxAlloc_keeps (.refl s)
  | phlxFree => exact execPhlxFree_keeps (.refl s)
  | phlxOpen => exact execPhlxOpen_keeps (.refl s)
  | phlxInvalidate => exact execPhlxInvalidate_keeps (.refl s)
  | phlxWinCmdDone => exact execPhlxWinCmdDone_keeps (.refl s)
  | soundingCheckDone => exact execSoundingCheckDone_keeps (.refl s)
  | ingressReplay => exact execIngressReplay_keeps (.refl s)
  | egressReplay => exact execEgressReplay_keeps (.refl s)
  | sndStCmd => exact execSndStCmd_keeps (.refl s)
  | selfTestUnit => exact execSelfTestUnit_keeps (.refl s)
  | sndCtxSave => exact execSndCtxSave_keeps (.refl s)
  | sndCtxRestore => exact execSndCtxRestore_keeps (.refl s)
  | grpDescWrite => exact execGrpDescWrite_keeps (.refl s)
  | mbrDataAccess => exact execMbrDataAccess_keeps (.refl s)
  | grpCommit => exact execGrpCommit_keeps (.refl s)
  | grpClear => exact execGrpClear_keeps (.refl s)
  | launch => exact execLaunch_keeps (.refl s)
  | grpAbort => exact execGrpAbort_keeps (.refl s)
  | resyncSend => exact execResyncSend_keeps (.refl s)
  | resyncRecv => exact execResyncRecv_keeps (.refl s)
  | setEpoch => exact execSetEpoch_keeps (.refl s)
  | grpStationWrite => exact execGrpStationWrite_keeps (.refl s)
  | entryActivate => exact execEntryActivate_keeps (.refl s)
  | deadlineExpire => exact execDeadlineExpire_keeps (.refl s)
  | absenceCut => exact execAbsenceCut_keeps (.refl s)
  | refillDone => exact execRefillDone_keeps (.refl s)
  | strgTrackWrite => exact execStrgTrackWrite_keeps (.refl s)
  | strgClear => exact execStrgClear_keeps (.refl s)
  | zinBudget => exact execZinBudget_keeps (.refl s)
  | mrdAdvance => exact execMrdAdvance_keeps (.refl s)
  | mrdStepSet => exact execMrdStepSet_keeps (.refl s)
  | stepMarkPulse => exact execStepMarkPulse_keeps (.refl s)
  | pendingBoundary => exact execPendingBoundary_keeps (.refl s)
  | scheduleEntryWrite => exact execScheduleEntryWrite_keeps (.refl s)
  | stepTimeout => exact execStepTimeout_keeps (.refl s)
  | remaskFloor => exact execRemaskFloor_keeps (.refl s)
  | assign => exact execAssign_keeps (.refl s)
  | wipeDone => exact execWipeDone_keeps (.refl s)
  | partRegionWrite => exact execPartRegionWrite_keeps (.refl s)
  | regionDisableDone => exact execRegionDisableDone_keeps (.refl s)
  | partMbrRangeWrite => exact execPartMbrRangeWrite_keeps (.refl s)
  | partChannelsWrite => exact execPartChannelsWrite_keeps (.refl s)
  | partQuotaWrite => exact execPartQuotaWrite_keeps (.refl s)
  | rhmbStart => exact execRhmbStart_keeps (.refl s)
  | rhmbPause => exact execRhmbPause_keeps (.refl s)
  | pauseDrained => exact execPauseDrained_keeps (.refl s)
  | rhmbResume => exact execRhmbResume_keeps (.refl s)
  | rhmbStop => exact execRhmbStop_keeps (.refl s)
  | rhmbChDoorbell => exact execRhmbChDoorbell_keeps (.refl s)
  | move => exact execMove_keeps (.refl s)
  | moveSg => exact execMoveSg_keeps (.refl s)
  | fill => exact execFill_keeps (.refl s)
  | compare => exact execCompare_keeps (.refl s)
  | shuffle => exact execShuffle_keeps (.refl s)
  | loop => exact execLoop_keeps (.refl s)
  | wait => exact execWait_keeps (.refl s)
  | waitSatisfied => exact execWaitSatisfied_keeps (.refl s)
  | signal => exact execSignal_keeps (.refl s)
  | list => exact execList_keeps (.refl s)
  | endRun => exact execEndRun_keeps (.refl s)
  | mmpReadResponse => exact execMmpReadResponse_keeps (.refl s)
  | mmpWriteResponse => exact execMmpWriteResponse_keeps (.refl s)
  | mmpTimeout => exact execMmpTimeout_keeps (.refl s)
  | rhmbGctrlWrite => exact execRhmbGctrlWrite_keeps (.refl s)
  | rhmbSemWrite => exact execRhmbSemWrite_keeps (.refl s)
  | chrtImport => exact execChrtImport_keeps (.refl s)
  | chrtConfirm => exact execChrtConfirm_keeps (.refl s)
  | chrtCommit => exact execChrtCommit_keeps (.refl s)
  | chrtDiscard => exact execChrtDiscard_keeps (.refl s)
  | chrtDelete => exact execChrtDelete_keeps (.refl s)
  | chrtGenerate => exact execChrtGenerate_keeps (.refl s)
  | chrtDeliver => exact execChrtDeliver_keeps (.refl s)
  | kdpAnswer => exact execKdpAnswer_keeps (.refl s)
  | kdpAckTimeout => exact execKdpAckTimeout_keeps (.refl s)
  | noiseSampleBlock => exact execNoiseSampleBlock_keeps (.refl s)
  | astrCsDataWrite => exact execAstrCsDataWrite_keeps (.refl s)
  | astrCsCommit => exact execAstrCsCommit_keeps (.refl s)
  | astrSlotDescWrite => exact execAstrSlotDescWrite_keeps (.refl s)
  | astrDataAccess => exact execAstrDataAccess_keeps (.refl s)
  | astrZero => exact execAstrZero_keeps (.refl s)
  | astrRun => exact execAstrRun_keeps (.refl s)
  | astrAbort => exact execAstrAbort_keeps (.refl s)
  | astrOpEnd => exact execAstrOpEnd_keeps (.refl s)
  | logbProgram => exact execLogbProgram_keeps (.refl s)
  | logbReinforce => exact execLogbReinforce_keeps (.refl s)
  | lockWrite => exact execLockWrite_keeps (.refl s)
  | lockRead => exact execLockRead_keeps (.refl s)
  | advance => exact execAdvance_keeps (.refl s)
  | logbRevoke => exact execLogbRevoke_keeps (.refl s)
  | genDus => exact execGenDus_keeps (.refl s)
  | marginScan => exact execMarginScan_keeps (.refl s)
  | logbCmdDone => exact execLogbCmdDone_keeps (.refl s)
  | transition => exact execTransition_keeps (.refl s)
  | lifeChallenge => exact execLifeChallenge_keeps (.refl s)
  | unlockPw => exact execUnlockPw_keeps (.refl s)
  | unlockGrant => exact execUnlockGrant_keeps (.refl s)
  | tapLiftHold => exact execTapLiftHold_keeps (.refl s)
  | tapMbox => exact execTapMbox_keeps (.refl s)
  | updBegin => exact execUpdBegin_keeps (.refl s)
  | updBlock => exact execUpdBlock_keeps (.refl s)
  | updFinish => exact execUpdFinish_keeps (.refl s)
  | updAbort => exact execUpdAbort_keeps (.refl s)
  | updSessionTimeout => exact execUpdSessionTimeout_keeps (.refl s)
  | activate => exact execActivate_keeps (.refl s)
  | helmConfirm => exact execHelmConfirm_keeps (.refl s)
  | trialWatchdogExpire => exact execTrialWatchdogExpire_keeps (.refl s)
  | helmRevoke => exact execHelmRevoke_keeps (.refl s)
  | forward => exact execForward_keeps (.refl s)
  | settings => exact execSettings_keeps (.refl s)
  | verifyHost => exact execVerifyHost_keeps (.refl s)
  | helmStageDataAccess => exact execHelmStageDataAccess_keeps (.refl s)
  | extend => exact execExtend_keeps (.refl s)
  | getVersion => exact execGetVersion_keeps (.refl s)
  | getCapabilities => exact execGetCapabilities_keeps (.refl s)
  | negotiateAlgorithms => exact execNegotiateAlgorithms_keeps (.refl s)
  | getDigests => exact execGetDigests_keeps (.refl s)
  | getCertificate => exact execGetCertificate_keeps (.refl s)
  | spdmChallenge => exact execSpdmChallenge_keeps (.refl s)
  | getMeasurements => exact execGetMeasurements_keeps (.refl s)
  | keyExchange => exact execKeyExchange_keeps (.refl s)
  | finish => exact execFinish_keeps (.refl s)
  | keyUpdate => exact execKeyUpdate_keeps (.refl s)
  | endSession => exact execEndSession_keeps (.refl s)
  | pwrOn => exact execPwrOn_keeps (.refl s)
  | pwrOff => exact execPwrOff_keeps (.refl s)
  | pwrSleep => exact execPwrSleep_keeps (.refl s)
  | pwrAckRise => exact execPwrAckRise_keeps (.refl s)
  | pwrAckFall => exact execPwrAckFall_keeps (.refl s)
  | powerLoss => exact execPowerLoss_keeps (.refl s)
  | wakeReq => exact execWakeReq_keeps (.refl s)
  | partCmdRelease => exact execPartCmdRelease_keeps (.refl s)
  | registerRead => exact execRegisterRead_keeps (.refl s)
  | unsupportedRequest => exact execUnsupportedRequest_keeps (.refl s)
  | loopLockRegain => exact execLoopLockRegain_keeps (.refl s)

theorem Legal.of_keeps {s t : State} (l : Legal s) (h : Keeps s t) : Legal t := by
  obtain ⟨hprofile, hbase, hst, hwall, hpages, harray⟩ := l
  exact ⟨h.profile ▸ hprofile, h.bootBase ▸ hbase, h.lifeSt hst, h.wall hwall, (h.pages hpages).1, h.array harray⟩

/-- The queue plays no part. -/
theorem Legal.withPending {s : State} {cs} (l : Legal s) : Legal { s with pending := cs } := l

/-- `PORST` samples the straps, keeps the array and leaves the rest at its reset value (18 R531, R534). -/
theorem porstState_legal {s profile base} (hp : profile < 4) (hb : base < 2 ^ 32) (ha : tableWf {} s.logb.array = true) :
    Legal (porstState s profile base) :=
  ⟨hp, hb, show ({} : Life).st ≤ 5 by decide, show ({} : Mrd).wall < 2 ^ 64 by decide, rfl, ha⟩

theorem execPorst_legal {s t profile base cut boot} (l : Legal s) (e : execPorst profile base cut boot s = .next t) : Legal t := by
  obtain ⟨-, -, -, -, -, harray⟩ := l.of_keeps (progCut_keeps (c := cut) (.refl s))
  obtain rfl := Host.Outcome.next.inj e
  exact (porstState_legal profile.isLt base.isLt harray).of_keeps (startBlock_keeps (mainDomains_keeps (porstDecide_keeps (.refl _))))

theorem exec_legal {c : Instr} {s t : State} (l : Legal s) (e : exec c s = .next t) : Legal t := by
  by_cases hc : ∃ profile base cut boot, c = .porst profile base cut boot
  · obtain ⟨profile, base, cut, boot, rfl⟩ := hc
    exact execPorst_legal l e
  · exact l.of_keeps (exec_keeps (fun profile base cut boot h => hc ⟨profile, base, cut, boot, h⟩) t e)

/-- Settles O58: the empty queue idles for a microsecond, which keeps the relation, and a command runs on the state with the queue's rest. -/
theorem legalStatesStayLegal : Obligations.LegalStatesStayLegal := by
  intro s t l e
  unfold step at e
  split at e
  · obtain rfl := Host.Outcome.next.inj e
    exact l.of_keeps (idleTick_keeps (.refl s))
  · exact exec_legal l.withPending e

end Sys2Proof.Machine
end

section
/-! The state after reset is legal. -/

namespace Sys2Proof.Machine

/-- Settles O57: the reset state holds no page and no fuse word, and its codes and its wall time are 0. -/
theorem resetIsLegal : Obligations.ResetIsLegal := by
  refine ⟨?_, ?_, ?_, ?_, rfl, rfl⟩ <;> decide

end Sys2Proof.Machine
end

section
/-! `PORST` of a block in `SCRAPPED`. Its start reads the words of regions 5, 8 and 15 alone, at ±20 % (14 R424, `startReading`), and so
senses less than the whole array at its spread, which the statement about the resets names for every block. -/

namespace Sys2Proof.Machine

/-- A block whose event word `TO_SCRAPPED` is complete in both copies, with one programmed bit in a word of region 0. -/
def scrappedBlock : State :=
  let w : PhysWord := { loose := codeword (eventCode 3), nominal := codeword (eventCode 3), strict := codeword (eventCode 3) }
  { State.reset with logb.array := [(0, { loose := 1, nominal := 1, strict := 1 }), (190, w), (191, w)] }

/-- No pulse is cut. -/
def uncutPulses : ProgCut := { pulses := 0, loose := 0, nominal := 0 }

/-- A start that waits for the host die: no store is read and no noise is given. -/
def waitingStart : BootIn := { store := none, backOk := true, noise := [] }

/-- The state that `PORST` leaves of it. -/
def scrappedAfterPorst : State := porstOp scrappedBlock (1 : BitVec 2).toNat (0 : BitVec 32).toNat uncutPulses waitingStart

theorem exec_porst_scrappedBlock : exec (.porst 1 0 uncutPulses waitingStart) scrappedBlock = .next scrappedAfterPorst := rfl

/-- The word of region 0 is programmed in the array, and the start of a scrapped block does not read it. -/
theorem scrappedAfterPorst_sensed : scrappedAfterPorst.life.st = 5 ∧ (tget {} scrappedAfterPorst.logb.sensed 0).nominal = 0
    ∧ (tget {} (senseAll scrappedAfterPorst.logb.spread scrappedBlock.logb.array) 0).nominal = 1 := by
  decide +kernel

/-- Refutes O55: after `PORST` of a block in `SCRAPPED`, `t.logb.sensed` is not `senseAll t.logb.spread s.logb.array`, since the start of
such a block reads the words of regions 5, 8 and 15 alone (14 R424). -/
theorem not_resetsLeaveTheirState : ¬ Obligations.ResetsLeaveTheirState := by
  intro h
  obtain ⟨hporst, -⟩ := h scrappedBlock uncutPulses waitingStart rfl rfl
  obtain ⟨t, e, -, -, -, -, -, -, hsensed, -⟩ := hporst 1 0 rfl
  rw [exec_porst_scrappedBlock] at e
  obtain rfl := Host.Outcome.next.inj e
  obtain ⟨-, hblank, hbit⟩ := scrappedAfterPorst_sensed
  rw [← hsensed, hblank] at hbit
  cases hbit

end Sys2Proof.Machine
end

section
/-! What the control bus leaves of the state where an access does not reach its register. -/

namespace Sys2Proof.Machine

/-- A refusal leaves the answer and the error record of the page of its address, and sets the cause of that page (R59, R514). -/
theorem refuse_eq (s : State) (a : Access) (w : Bool) (addr : Nat) (st : Status) :
    refuse s a w addr st = { s with bus := { s.bus with
      pages := tset {} s.bus.pages (addr / 4096) { s.page (addr / 4096) with
        cause := (s.page (addr / 4096)).cause ||| bitWord 63, err := recordErr (s.page (addr / 4096)).err a w (addr % 4096) (stCode st) }
      resp := { refused := true, stat := stCode st, rdata := 0 } } } := rfl

/-- What a refusal leaves of each page. -/
theorem refuse_page (s : State) (a : Access) (w : Bool) (addr : Nat) (st : Status) (p : Nat) :
    (refuse s a w addr st).page p = if p = addr / 4096 then { s.page (addr / 4096) with
        cause := (s.page (addr / 4096)).cause ||| bitWord 63, err := recordErr (s.page (addr / 4096)).err a w (addr % 4096) (stCode st) }
      else s.page p := by
  rw [refuse_eq]
  exact tget_tset ..

/-- An access that no page takes leaves the answer, `BLK_DECODE_ERR`, and page 0 alone of the pages (R65, R514). -/
theorem decodeError_frame (s : State) (a : Access) (w : Bool) (addr : Nat) (st : Status) :
    decodeError s a w addr st = { s with bus := { s.bus with
      pages := (decodeError s a w addr st).bus.pages, decode := recordErr s.bus.decode a w addr (stCode st)
      resp := { refused := true, stat := stCode st, rdata := 0 } } } := by
  unfold decodeError
  dsimp only
  split <;> rfl

/-- The cause of `BLK_DECODE_ERR` rises with a first record only (log 115). -/
theorem decodeError_page (s : State) (a : Access) (w : Bool) (addr : Nat) (st : Status) (p : Nat) :
    (decodeError s a w addr st).page p = if p = 0 then
        { s.page 0 with cause := if s.bus.decode.valid then (s.page 0).cause else (s.page 0).cause ||| bitWord 62 }
      else s.page p := by
  unfold decodeError
  dsimp only
  split
  · split
    · next hp => exact hp ▸ rfl
    · rfl
  · exact tget_tset ..

/-- Settles O3: a command whose access does not pass does what the bus says (`exec_stopped`), in each of the three ways. -/
theorem theBusDecidesBeforeTheRegister : Obligations.TheBusDecidesBeforeTheRegister := by
  intro c s a w addr be hc
  have stopped {g : Gate} (hg : gate s a addr be w = g) (hp : g ≠ .pass) : exec c s = .next (busSays s a w addr g) :=
    hg ▸ exec_stopped c s a w addr be hc (hg ▸ hp)
  refine ⟨fun hg => stopped hg nofun, fun st hg => ⟨_, stopped hg nofun, rfl, ?_, fun p hp => ?_⟩,
    fun st hg => ⟨_, stopped hg nofun, ?_, ?_, ?_, fun p hp => ?_⟩⟩
  · exact (refuse_page ..).trans (if_pos rfl)
  · exact (refuse_page ..).trans (if_neg hp)
  · rw [busSays, decodeError_frame]
  · rw [busSays, decodeError_frame]
    rfl
  · exact (decodeError_page ..).trans (if_pos rfl)
  · exact (decodeError_page ..).trans (if_neg hp)

end Sys2Proof.Machine
end

section
/-! A budget request that waits for Astrolabe runs on when Astrolabe's domain loses its power. -/

namespace Sys2Proof.Machine

/-- A budget request of a `RAISE` of partition 1, signed by its one owner, for every block (07 Table 7.10). -/
def waitingRequest : Bytes :=
  ascii "ORPV-BG1" ++ zeros 16 ++ [1, 1] ++ zeros 6 ++ [1] ++ zeros 7 ++ [1] ++ zeros 23

/-- Partition 1 is owned, with a region for reading where its budget requests lie. -/
def budgetOwner : Part := { st := .owned, owners := 1, regions := [(0, { en := true, rd := true, limit := 0x10000 })] }

/-- Every domain is powered and both loops are locked; Astrolabe runs, and that request waits for it (07 R258). -/
def requestWaits : State :=
  { State.reset with
    blk.ready := true, blk.profile := 1, clkr.arithLock := true, clkr.secLock := true
    pwr.live := 0xFFFFF, pwr.req := 0xFFFFF, pwr.ack := 0xFFFFF
    astr.st := .running, parts := [(1, budgetOwner)], zin.cmdAddr := 0x1000000000000
    zin.waiting := some ({ src := .helm, tagged := true, ptag := 0, mgmt := true }, some waitingRequest, none) }

/-- The loss of Astrolabe's domain ends its program, the request runs to stage 5, and that stage powers the domain again (18 R538). -/
theorem requestWaits_powerLoss : (powerLoss requestWaits 3).pwr.ack.testBit 3 = true := by
  decide +kernel

/-- Refutes O53: where a budget request waits for Astrolabe, an unrequested loss of `PD03` ends with the acknowledge of `PD03` high, since
the request that runs on powers the domain again (18 R538); the statement has it low after every loss. -/
theorem not_domainsArePoweredAndLost : ¬ Obligations.DomainsArePoweredAndLost := by
  intro h
  obtain ⟨-, hpins, -⟩ := h requestWaits { src := .helm, tagged := true, ptag := 0, mgmt := true } 0 3
  obtain ⟨-, -, -, -, -, -, hloss⟩ := hpins 3 0 rfl
  obtain ⟨t, e, -, hack, -⟩ := hloss (by decide) (by decide) (by decide)
  obtain rfl : powerLoss requestWaits 3 = t := Host.Outcome.next.inj e
  have hlow : (clrBit requestWaits.pwr.ack 3).testBit 3 = false := by decide
  have hhigh := requestWaits_powerLoss
  rw [hack, hlow] at hhigh
  cases hhigh

end Sys2Proof.Machine
end

section
/-! A loop that locks again caps the allowances of its pipes. -/

namespace Sys2Proof.Machine

/-- A block whose arithmetic loop has lost its lock. Partition 0 has `WEIGHT` 1, and an allowance of 32 beats on pipe 0 from frames that were
waiting there (10 R321). -/
def allowanceStands : State :=
  { State.reset with
    blk.profile := 1, clkr.secLock := true, astr.st := .ready, parts := [(0, { st := .owned, weight := 1 })]
    lark.pipes := [(0, { allow := [(0, 32)] })] }

/-- That block once the loop has its lock again. -/
def allowanceRelocked : State := { allowanceStands with clkr.arithLock := true }

theorem allowanceStands_pipes (k : Nat) : (allowanceStands.pipe k).st ≠ .loading := by
  have hoff : (allowanceStands.pipe k).st = .offline := by
    unfold State.pipe allowanceStands tget
    split <;> rfl
  rw [hoff]
  decide

/-- The return of the frames that a boundary let go caps the allowance of a partition without one. -/
theorem allowanceStands_regain : tget 0 ((pumpAll busFn (lockRegain allowanceStands true)).pipe 0).allow 0 = 16 := by
  decide +kernel

theorem allowanceRelocked_pump : tget 0 ((pumpAll busFn allowanceRelocked).pipe 0).allow 0 = 32 := by
  decide +kernel

/-- Refutes O54: with no parked frame and `STATION_LIVE` low, the return of the arithmetic loop's lock still caps the allowances of the
pipes at `WEIGHT` × 16 (10 R321); the statement has it change nothing but the lock. -/
theorem not_pinsVerdictsAndTapAct : ¬ Obligations.PinsVerdictsAndTapAct := by
  intro h
  obtain ⟨-, -, -, -, -, hregain, -⟩ := h.1 allowanceStands .boot 0 0
  obtain ⟨-, hawake⟩ := hregain true
  obtain ⟨-, harith, -⟩ := hawake allowanceRelocked rfl rfl
  obtain ⟨t, e, -, -, hsame⟩ := harith (by decide) rfl rfl rfl (by decide) allowanceStands_pipes rfl
  have hpump : pumpAll busFn (lockRegain allowanceStands true) = pumpAll busFn allowanceRelocked :=
    (Host.Outcome.next.inj e).trans (congrArg _ (hsame (by decide)))
  have hcap := allowanceStands_regain
  rw [hpump, allowanceRelocked_pump] at hcap
  cases hcap

end Sys2Proof.Machine
end

section
/-! What a block held in reset does: no register is reachable, and no event lets it go or raises `STATION_LIVE`. -/

namespace Sys2Proof.Machine

set_option Elab.async false

/-- The block is held in reset with `STATION_LIVE` low. -/
structure HeldLow (s : State) : Prop where
  held : s.blk.held = true
  low : s.pins.stationLive = false

/-- A change that leaves the hold and the pin. -/
theorem HeldLow.within {u t : State} (h : HeldLow u) (h0 : t.blk.held = u.blk.held := by rfl)
    (h1 : t.pins.stationLive = u.pins.stationLive := by rfl) : HeldLow t := ⟨h0.trans h.held, h1.trans h.low⟩

/-- A change of whole parts of the state. -/
theorem HeldLow.frame {u : State} {bus clkr pwr verdict retained lark phlx grp park aster zin snd mrd keyClock parts chrt hashu astr logb life rhmb
    helm meas spdm free out} (h : HeldLow u) :
    HeldLow { u with
      bus := bus, clkr := clkr, pwr := pwr, verdict := verdict, retained := retained, lark := lark, phlx := phlx, grp := grp, park := park
      aster := aster, zin := zin, snd := snd, mrd := mrd, keyClock := keyClock, parts := parts, chrt := chrt, hashu := hashu, astr := astr
      logb := logb, life := life, rhmb := rhmb, helm := helm, meas := meas, spdm := spdm, free := free, out := out } := ⟨h.held, h.low⟩

/-- `STATION_LIVE` falls. -/
theorem HeldLow.falls {u : State} (h : HeldLow u) : HeldLow { u with pins.stationLive := false } := ⟨h.held, rfl⟩

theorem ite_heldLow {a b : State} {c : Prop} [Decidable c] (ha : HeldLow a) (hb : HeldLow b) : HeldLow (if c then a else b) := by
  split
  · exact ha
  · exact hb

theorem foldl_heldLow {α : Type} {u : State} {f : State → α → State} {l : List α}
    (hf : ∀ x a, HeldLow x → HeldLow (f x a)) (h : HeldLow u) :
    HeldLow (l.foldl f u) := by
  induction l generalizing u with
  | nil => exact h
  | cons a l ih => exact ih (hf u a h)

/-! ### Nothing is clocked -/

theorem inReset_held {s : State} (h : s.blk.held = true) : inReset s = true := by
  simp [inReset, h]

theorem secRuns_held {s : State} (h : s.blk.held = true) : secRuns s = false := by
  simp [secRuns, inReset_held h]

theorem arithRuns_held {s : State} (h : s.blk.held = true) : arithRuns s = false := by
  simp [arithRuns, inReset_held h]

theorem helmRuns_held {s : State} (h : s.blk.held = true) : helmRuns s = false := by
  simp [helmRuns, secRuns_held h]

theorem dead_held {s : State} (h : s.blk.held = true) : dead s = true := by
  simp [dead, inReset_held h]

theorem whenSec_held {s : State} {f : State → State} (h : s.blk.held = true) : whenSec s f = s := by
  simp [whenSec, secRuns_held h]

theorem whenArith_held {s : State} {f : State → State} (h : s.blk.held = true) : whenArith s f = s := by
  simp [whenArith, arithRuns_held h]

theorem gate_held {s : State} (h : s.blk.held = true) (a : Access) (addr be : Nat) (w : Bool) : gate s a addr be w = .dead := by
  simp [gate, secRuns_held h]

theorem pumpAll_held {s : State} (h : s.blk.held = true) (bus : BusFn) : pumpAll bus s = s := by
  simp [pumpAll, secRuns_held h]

theorem startBlock_held {s : State} (h : s.blk.held = true) (inp : BootIn) (wake : Bool) : startBlock s inp wake = s := by
  simp [startBlock, h]

theorem startBlock_heldLow {s inp wake} (h : HeldLow s) : HeldLow (startBlock s inp wake) := by
  rwa [startBlock_held h.held]

theorem wipeDone_held {s : State} (h : s.blk.held = true) (p : Nat) : wipeDone s p = s := by
  simp [wipeDone, secRuns_held h]

theorem runIns_held {s : State} (h : s.blk.held = true) (bus : BusFn) (k op : Nat) (body : State → Ins → State) : runIns bus s k op body = s := by
  simp [runIns, secRuns_held h]

theorem pumpAll_heldLow {s bus} (h : HeldLow s) : HeldLow (pumpAll bus s) := by
  rwa [pumpAll_held h.held]

theorem reloadAstr_held {s : State} (h : s.blk.held = true) : reloadAstr s = s := by
  simp [reloadAstr, secRuns_held h]

theorem reloadPipe_held {s : State} (h : s.blk.held = true) (k i : Nat) (b : Bytes) : reloadPipe s k i b = s := by
  simp [reloadPipe, secRuns_held h]

theorem updateLive_held {s : State} (h : HeldLow s) : updateLive s = s := by
  simp [updateLive, liveCond, arithRuns_held h.held, h.low]

theorem spdmOp_held {s : State} (h : s.blk.held = true) (m : Bytes) (named : Nat → Bool) (body : State → Option Nat → Bytes → Reply) :
    spdmOp s m named body = s := by
  have hm : mailOpen s = none := by simp [mailOpen, helmRuns_held h]
  unfold spdmOp
  rw [hm]

/-- Every access of one register leaves the state (R35). -/
theorem exec_held {c : Instr} {s : State} (h : s.blk.held = true) {x} (hx : accessOf c = some x) : exec c s = .next s := by
  obtain ⟨a, w, addr, be⟩ := x
  have hg := gate_held h a addr be w
  exact (exec_stopped c s a w addr be hx (by rw [hg]; nofun)).trans (by rw [hg]; rfl)

/-! ### Writes of the state, and the error record of a page -/

theorem setPage_heldLow {u p v} (h : HeldLow u) : HeldLow (u.setPage p v) := .frame h

theorem setPart_heldLow {u p v'} (h : HeldLow u) : HeldLow (u.setPart p v') := .frame h

theorem setPipe_heldLow {u k v'} (h : HeldLow u) : HeldLow (u.setPipe k v') := .frame h

theorem setWin_heldLow {u w' v'} (h : HeldLow u) : HeldLow (u.setWin w' v') := .frame h

theorem setGrpRec_heldLow {u g v'} (h : HeldLow u) : HeldLow (u.setGrpRec g v') := .frame h

theorem setEntries_heldLow {u p l} (h : HeldLow u) : HeldLow (u.setEntries p l) := .frame h

theorem setBudget_heldLow {u p v'} (h : HeldLow u) : HeldLow (u.setBudget p v') := .frame h

theorem setSndPipe_heldLow {u k v'} (h : HeldLow u) : HeldLow (u.setSndPipe k v') := .frame h

theorem emit_heldLow {u e} (h : HeldLow u) : HeldLow (u.emit e) := .frame h

theorem setSlot_heldLow {u i v'} (h : HeldLow u) : HeldLow (u.setSlot i v') := .frame h

theorem setAstrSlot_heldLow {u i v'} (h : HeldLow u) : HeldLow (u.setAstrSlot i v') := .frame h

theorem setChan_heldLow {u k c} (h : HeldLow u) : HeldLow (u.setChan k c) := .frame h

theorem freeDraw_heldLow {u} (h : HeldLow u) : HeldLow (freeDraw u).2 := .frame h

theorem setLive_heldLow {u d} (h : HeldLow u) : HeldLow (setLive u d) := .frame h

theorem raise_heldLow {u p i} (h : HeldLow u) : HeldLow (raise u p i) := setPage_heldLow h

theorem pageErrorCode_heldLow {u a write addr code} (h : HeldLow u) : HeldLow (pageErrorCode u a write addr code) := setPage_heldLow h

theorem pageError_heldLow {u a write addr st} (h : HeldLow u) : HeldLow (pageError u a write addr st) := pageErrorCode_heldLow h

theorem noteCmd_heldLow {u a addr st} (h : HeldLow u) : HeldLow (noteCmd u a addr st) := ite_heldLow h (pageError_heldLow h)

theorem pwrDone_heldLow {u a d st} (h : HeldLow u) : HeldLow (pwrDone u a d st) := noteCmd_heldLow (raise_heldLow (.frame h))

theorem handshake_heldLow {u d} (h : HeldLow u) : HeldLow (handshake u d) :=
  ite_heldLow h (ite_heldLow (pwrDone_heldLow (setLive_heldLow h)) (setLive_heldLow h))

theorem larkCount_heldLow {u k off n} (h : HeldLow u) : HeldLow (larkCount u k off n) := setPipe_heldLow h

/-! ### Key slots and Astrolabe -/

theorem noteBad_heldLow {u i} (h : HeldLow u) : HeldLow (noteBad u i) := by
  unfold noteBad
  extract_lets x _ _
  exact ite_heldLow (raise_heldLow (.frame (setSlot_heldLow h))) (ite_heldLow (setSlot_heldLow h) h)

theorem putWords_heldLow {u base l} (h : HeldLow u) : HeldLow (putWords u base l) := .frame h

theorem zeroWords_heldLow {u base n} (h : HeldLow u) : HeldLow (zeroWords u base n) := .frame h

theorem zeroAstrSlot_heldLow {u i} (h : HeldLow u) : HeldLow (zeroAstrSlot u i) := setAstrSlot_heldLow (zeroWords_heldLow h)

theorem putResult_heldLow {u o l} (h : HeldLow u) : HeldLow (putResult u o l) := by
  unfold putResult
  generalize opndSlots o = is
  induction is generalizing u l with
  | nil => exact h
  | cons i is ih => exact ih (putWords_heldLow h)

theorem zeroAstrSlots_heldLow {u l} (h : HeldLow u) : HeldLow (zeroAstrSlots u l) := foldl_heldLow (fun _ _ hx => zeroAstrSlot_heldLow hx) h

theorem takeOwner_heldLow {u g} (h : HeldLow u) : HeldLow (takeOwner u g) := foldl_heldLow (fun _ _ hx => setAstrSlot_heldLow hx) h

theorem flagSlots_heldLow {u o f} (h : HeldLow u) : HeldLow (flagSlots u o f) := foldl_heldLow (fun _ _ hx => setAstrSlot_heldLow hx) h

theorem markSecret_heldLow {u g} (h : HeldLow u) : HeldLow (markSecret u g) := by
  unfold markSecret
  extract_lets m
  exact ite_heldLow (flagSlots_heldLow h) (ite_heldLow (flagSlots_heldLow h) h)

theorem markSealed_heldLow {u g on} (h : HeldLow u) : HeldLow (markSealed u g on) := ite_heldLow (flagSlots_heldLow h) h

theorem bothResults_heldLow {u g} (h : HeldLow u) : HeldLow (bothResults u g) :=
  foldl_heldLow (fun _ _ hx => foldl_heldLow (fun _ _ hx1 => .frame (freeDraw_heldLow hx1)) hx) h

theorem writeResults_heldLow {u g v'} (h : HeldLow u) : HeldLow (writeResults u g v') := by
  unfold writeResults
  extract_lets s1 s2
  have hs1 : HeldLow s1 := ite_heldLow (putResult_heldLow h) h
  have hs2 : HeldLow s2 := bothResults_heldLow (ite_heldLow (putResult_heldLow hs1) hs1)
  exact markSealed_heldLow (markSecret_heldLow hs2)

theorem endSlots_heldLow {u g v'} (h : HeldLow u) : HeldLow (endSlots u g v') := by
  unfold endSlots
  extract_lets keys s1 s2
  have hs1 : HeldLow s1 := takeOwner_heldLow h
  have hs2 : HeldLow s2 := by
    unfold s2
    split
    · exact markSealed_heldLow (writeResults_heldLow hs1)
    · exact ite_heldLow (zeroAstrSlots_heldLow hs1) (zeroAstrSlots_heldLow (ite_heldLow (writeResults_heldLow hs1) hs1))
  exact zeroAstrSlots_heldLow hs2

theorem astrEnd_heldLow {u v'} (hv : HeldLow v'.after) : HeldLow (astrEnd u v') := by
  unfold astrEnd
  extract_lets g cyc s1 fault _ _ s2 s3
  have hs1 : HeldLow s1 := endSlots_heldLow hv
  have hs2 : HeldLow s2 := .frame (zeroWords_heldLow hs1)
  have hs3 : HeldLow s3 := raise_heldLow hs2
  exact noteCmd_heldLow (ite_heldLow (raise_heldLow hs3) hs3)

theorem astrAbortNow_heldLow {u} (h : HeldLow u) : HeldLow (astrAbortNow u) := by
  unfold astrAbortNow
  extract_lets d s1 _
  have hd : HeldLow d.2 := freeDraw_heldLow h
  have hs1 : HeldLow s1 := astrEnd_heldLow hd
  exact .frame hs1

theorem reloadAstr_heldLow {u} (h : HeldLow u) : HeldLow (reloadAstr u) := by
  rwa [reloadAstr_held h.held]

theorem engineUp_heldLow {u} (h : HeldLow u) : HeldLow (engineUp u) := ite_heldLow h (reloadAstr_heldLow (.frame (handshake_heldLow h)))

/-! ### Windows -/

theorem setLanes_heldLow {u wi t l} (h : HeldLow u) : HeldLow (setLanes u wi t l) := .frame h

theorem setTileRec_heldLow {u wi t r} (h : HeldLow u) : HeldLow (setTileRec u wi t r) := .frame h

theorem mapRecs_heldLow {u wi f} (h : HeldLow u) : HeldLow (mapRecs u wi f) := foldl_heldLow (fun _ _ hx => setTileRec_heldLow hx) h

theorem idleWindow_heldLow {u wi} (h : HeldLow u) : HeldLow (idleWindow u wi) := mapRecs_heldLow (setWin_heldLow h)

/-! ### Collectives, and the frames and credits of the ports -/

theorem putEntry_heldLow {u p e} (h : HeldLow u) : HeldLow (putEntry u p e) := setEntries_heldLow h

theorem delEntry_heldLow {u p g t} (h : HeldLow u) : HeldLow (delEntry u p g t) := setEntries_heldLow h

theorem creditReturn_heldLow {u f port vc n} (h : HeldLow u) : HeldLow (creditReturn f u port vc n) := by
  induction f generalizing u n with
  | zero => exact h
  | succ f ih => exact ite_heldLow h (ite_heldLow (.frame h) (ih (emit_heldLow h)))

theorem giveCredits_heldLow {u port vc n} (h : HeldLow u) : HeldLow (giveCredits u port vc n) := creditReturn_heldLow (.frame h)

theorem returnCredits_heldLow {u a} (h : HeldLow u) : HeldLow (returnCredits u a) := giveCredits_heldLow h

theorem leaveBuffer_heldLow {u pipe id} (h : HeldLow u) : HeldLow (leaveBuffer u pipe id) := by
  unfold leaveBuffer
  extract_lets p
  split
  · exact h
  · exact ite_heldLow (setPipe_heldLow h) (returnCredits_heldLow (setPipe_heldLow h))

theorem queueOut_heldLow {u k f} (h : HeldLow u) : HeldLow (queueOut u k f) := setPipe_heldLow h

theorem kcTouch_heldLow {u k i} (h : HeldLow u) : HeldLow (kcTouch u k i) := by
  unfold kcTouch
  extract_lets p _ _ _
  exact .frame (setPipe_heldLow h)

theorem noteFabric_heldLow {u} (h : HeldLow u) : HeldLow (noteFabric u) := by
  unfold noteFabric
  split
  · exact noteBad_heldLow h
  · exact h

theorem fabricSeal_heldLow {u key k w'} (h : HeldLow u) : HeldLow (fabricSeal u key k w') := by
  unfold fabricSeal
  extract_lets st now n h1 f0 _ s1
  have hs1 : HeldLow s1 := ite_heldLow (.frame h) h
  exact queueOut_heldLow hs1

theorem abortUnsent_heldLow {u} (h : HeldLow u) : HeldLow (abortUnsent u) := .frame h

theorem fabricLost_heldLow {u w'} (h : HeldLow u) : HeldLow (fabricLost u w') := ite_heldLow (abortUnsent_heldLow h) (ite_heldLow (.frame h) h)

theorem startFabric_heldLow {n u} (h : HeldLow u) : HeldLow (startFabric n u) := by
  induction n generalizing u with
  | zero => exact h
  | succ n ih =>
    unfold startFabric
    split
    · exact h
    · split
      · exact h
      · extract_lets _ s0 r s1
        have hs0 : HeldLow s0 := .frame h
        split
        · exact ih (fabricLost_heldLow hs0)
        · split
          · exact ih (fabricSeal_heldLow (kcTouch_heldLow (ite_heldLow hs0 (larkCount_heldLow hs0))))
          · exact ite_heldLow h (larkCount_heldLow (.frame h))

theorem sendWaiting_heldLow {u} (h : HeldLow u) : HeldLow (sendWaiting u) := startFabric_heldLow h

theorem fabricGive_heldLow {u w'} (h : HeldLow u) : HeldLow (fabricGive u w') := sendWaiting_heldLow (.frame h)

theorem fabricSend_heldLow {u cls ports part group hop payload} (h : HeldLow u) : HeldLow (fabricSend u cls ports part group hop payload) :=
  fabricGive_heldLow h

theorem sendAbort_heldLow {u ports part group hop payload} (h : HeldLow u) : HeldLow (sendAbort u ports part group hop payload) := by
  unfold sendAbort
  split
  · exact h
  · split
    · exact ite_heldLow (.frame h) (abortUnsent_heldLow h)
    · extract_lets s1
      have hs1 : HeldLow s1 := noteFabric_heldLow h
      exact ite_heldLow (fabricSend_heldLow hs1) (abortUnsent_heldLow hs1)

/-! ### Aborts -/

theorem latchAbort_heldLow {u g code origin detail dl dr} (h : HeldLow u) : HeldLow (latchAbort u g code origin detail dl dr) :=
  ite_heldLow h (setGrpRec_heldLow h)

theorem recordLast_heldLow {u g t ep outcome} (h : HeldLow u) : HeldLow (recordLast u g t ep outcome) := setGrpRec_heldLow h

theorem noteAborted_heldLow {u p g t ep} (h : HeldLow u) : HeldLow (noteAborted u p g t ep) := ite_heldLow h (setGrpRec_heldLow h)

theorem dropParked_heldLow {u p g t} (h : HeldLow u) : HeldLow (dropParked u p g t) := by
  unfold dropParked
  extract_lets mine s1 _
  have hs1 : HeldLow s1 := foldl_heldLow (fun _ _ hx => larkCount_heldLow hx) h
  exact .frame hs1

theorem discardOuts_heldLow {u p g t} (h : HeldLow u) : HeldLow (discardOuts u p g t) := by
  unfold discardOuts
  extract_lets mine all _ s1 rel
  have hs1 : HeldLow s1 := .frame h
  exact foldl_heldLow (fun _ _ hx => leaveBuffer_heldLow hx) hs1

theorem refund_heldLow {u p e} (h : HeldLow u) : HeldLow (refund u p e) := ite_heldLow h (.frame (setBudget_heldLow h))

theorem abortEntry_heldLow {u p e i} (h : HeldLow u) : HeldLow (abortEntry u p e i) := by
  unfold abortEntry
  split
  · split
    · exact h
    · extract_lets s1 _ s2
      have hs1 : HeldLow s1 := discardOuts_heldLow h
      have hs2 : HeldLow s2 := ite_heldLow (delEntry_heldLow hs1) (putEntry_heldLow hs1)
      exact recordLast_heldLow hs2
  · split
    · exact h
    · extract_lets origin code s1 s2 _ s3 s4 s5 s6 mine _ s6' s7 s8 ports s9
      have hs1 : HeldLow s1 := ite_heldLow (noteAborted_heldLow (latchAbort_heldLow h)) h
      have hs2 : HeldLow s2 := ite_heldLow (recordLast_heldLow hs1) hs1
      have hs3 : HeldLow s3 := .frame hs2
      have hs4 : HeldLow s4 := discardOuts_heldLow (dropParked_heldLow hs3)
      have hs5 : HeldLow s5 := by
        unfold s5
        split
        · exact idleWindow_heldLow hs4
        · exact hs4
      have hs6 : HeldLow s6 := refund_heldLow hs5
      have hs6' : HeldLow s6' := .frame hs6
      have hs7 : HeldLow s7 := foldl_heldLow (fun _ _ hx1 => leaveBuffer_heldLow hx1) hs6'
      have hs8 : HeldLow s8 := putEntry_heldLow hs7
      have hs9 : HeldLow s9 := by
        unfold s9
        split <;> exact sendAbort_heldLow hs8
      exact raise_heldLow (raise_heldLow hs9)

theorem abortEach_heldLow {i l u} (h : HeldLow u) : HeldLow (abortEach i l u) := by
  unfold abortEach
  refine foldl_heldLow (fun x1 a hx1 => ?_) h
  split
  · exact abortEntry_heldLow hx1
  · exact hx1

theorem abortWhere_heldLow {c i u} (h : HeldLow u) : HeldLow (abortWhere c i u) := abortEach_heldLow h

theorem sendOn_heldLow {u port vc b} (h : HeldLow u) : HeldLow (sendOn u port vc b) := by
  unfold sendOn
  extract_lets c n c' _ s1 _
  have hs1 : HeldLow s1 := .frame h
  exact ite_heldLow (.frame hs1) (emit_heldLow hs1)

theorem sendBytes_heldLow {u k f} (h : HeldLow u) : HeldLow (sendBytes u k f) := by
  unfold sendBytes
  extract_lets s1
  have hs1 : HeldLow s1 := foldl_heldLow (fun _ _ hx => sendOn_heldLow hx) h
  exact ite_heldLow hs1 (larkCount_heldLow (larkCount_heldLow (larkCount_heldLow hs1)))

theorem flushSome_heldLow {u n} (h : HeldLow u) : HeldLow (flushSome n u) := by
  induction n generalizing u with
  | zero => exact h
  | succ n ih =>
    unfold flushSome
    split
    · exact h
    · exact ih (sendBytes_heldLow (setPipe_heldLow h))

theorem flushFabric_heldLow {u} (h : HeldLow u) : HeldLow (flushFabric u) := flushSome_heldLow h

theorem plannedFall_heldLow {u detail} (h : HeldLow u) : HeldLow (plannedFall u detail) := by
  unfold plannedFall
  extract_lets _ _
  exact .falls (flushFabric_heldLow (abortWhere_heldLow h))

theorem updateLive_heldLow {u} (h : HeldLow u) : HeldLow (updateLive u) := by
  rwa [updateLive_held h]

/-! ### Pipes and contexts -/

theorem flushAllCaches_heldLow {u c} (h : HeldLow u) : HeldLow (flushAllCaches u c) := .frame h

theorem roundOver_heldLow {u v} (hv : HeldLow v) : HeldLow (roundOver u v) := ite_heldLow (raise_heldLow hv) hv

theorem leaveRound_heldLow {u k} (h : HeldLow u) : HeldLow (leaveRound u k) := roundOver_heldLow (.frame h)

theorem setClass_heldLow {u k c} (h : HeldLow u) : HeldLow (setClass u k c) := setSndPipe_heldLow h

theorem ctxEndCode_heldLow {u x' code} (h : HeldLow u) : HeldLow (ctxEndCode u x' code) := by
  unfold ctxEndCode
  extract_lets _ s1
  have hs1 : HeldLow s1 := raise_heldLow (.frame h)
  exact ite_heldLow hs1 (pageErrorCode_heldLow hs1)

theorem ctxEnd_heldLow {u x' st} (h : HeldLow u) : HeldLow (ctxEnd u x' st) := ctxEndCode_heldLow h

theorem restoreWipe_heldLow {u wi} (h : HeldLow u) : HeldLow (restoreWipe u wi) := by
  unfold restoreWipe
  extract_lets w s1
  have hs1 : HeldLow s1 := foldl_heldLow (fun _ _ hx => setLanes_heldLow hx) h
  exact setWin_heldLow (mapRecs_heldLow hs1)

theorem ctxCut_heldLow {u ch st} (h : HeldLow u) : HeldLow (ctxCut u ch st) := by
  unfold ctxCut
  split
  · exact h
  · split
    · exact h
    · extract_lets s1 d
      have hs1 : HeldLow s1 := ite_heldLow (restoreWipe_heldLow h) h
      have hd : HeldLow d.2 := freeDraw_heldLow hs1
      exact ite_heldLow (ctxEnd_heldLow hd) (ctxEndCode_heldLow hs1)

theorem zeroAllSlots_heldLow {u} (h : HeldLow u) : HeldLow (zeroAllSlots u) := flushAllCaches_heldLow (.frame h)

theorem cancelDelivery_heldLow {u} (h : HeldLow u) : HeldLow (cancelDelivery u) := by
  unfold cancelDelivery
  split
  · exact ite_heldLow (.within h) (.frame h)
  · exact h

/-! ### Channels -/

theorem modChan_heldLow {u k f} (h : HeldLow u) : HeldLow (modChan u k f) := setChan_heldLow h

theorem detach_heldLow {u c} (h : HeldLow u) : HeldLow (detach u c) := .frame h

theorem claim_heldLow {u k j} (h : HeldLow u) : HeldLow (claim u k j) := .frame h

theorem takeReleased_heldLow {u k} (h : HeldLow u) : HeldLow (takeReleased u k) := by
  unfold takeReleased
  extract_lets c
  split
  · exact ite_heldLow (claim_heldLow h) h
  · exact h

theorem unclaim_heldLow {u k} (h : HeldLow u) : HeldLow (unclaim u k) := foldl_heldLow (fun _ _ hx => takeReleased_heldLow hx) (.frame h)

theorem consumeFrames_heldLow {port f n u l} (h : HeldLow u) : HeldLow (consumeFrames port f n u l).1 := by
  induction f generalizing n u l with
  | zero => exact h
  | succ f ih =>
    cases l with
    | nil => exact h
    | cons x l =>
      unfold consumeFrames
      dsimp only
      split
      · refine ih (.frame ?_)
        exact ite_heldLow h (.frame h)
      · exact ite_heldLow h (.frame h)

theorem goIdle_heldLow {u k st cause} (h : HeldLow u) : HeldLow (goIdle u k st cause) := by
  unfold goIdle
  extract_lets s1
  have hs1 : HeldLow s1 := modChan_heldLow h
  exact raise_heldLow (ctxCut_heldLow (unclaim_heldLow (detach_heldLow hs1)))

theorem goStopped_heldLow {u k} (h : HeldLow u) : HeldLow (goStopped u k) := goIdle_heldLow (modChan_heldLow h)

theorem dropBegun_heldLow {u j} (h : HeldLow u) : HeldLow (dropBegun u j) := by
  unfold dropBegun
  split
  · exact ite_heldLow (consumeFrames_heldLow h) h
  · exact h

theorem stopNow_heldLow {u k} (h : HeldLow u) : HeldLow (stopNow u k) := by
  unfold stopNow
  extract_lets c
  split
  · exact h
  · refine goStopped_heldLow ?_
    split
    · exact dropBegun_heldLow h
    · exact h

/-! ### Budget requests -/

theorem zinDone_heldLow {u a st stage signer} (h : HeldLow u) : HeldLow (zinDone u a st stage signer) := by
  unfold zinDone
  extract_lets _ s1
  have hs1 : HeldLow s1 := .frame h
  exact noteCmd_heldLow (raise_heldLow hs1)

theorem applyRequest_heldLow {u p b} (h : HeldLow u) : HeldLow (applyRequest u p b) := by
  unfold applyRequest
  extract_lets x y s1
  have hs1 : HeldLow s1 := setBudget_heldLow h
  exact ite_heldLow (raise_heldLow (raise_heldLow hs1)) hs1

theorem budgetStages_heldLow {u mem policy t} (h : HeldLow u) (e : budgetStages u mem policy = .ok t) : HeldLow t := by
  unfold budgetStages at e
  dsimp only at e
  repeat' split at e
  all_goals cases e
  exact applyRequest_heldLow h

theorem zinRun_heldLow {u a mem policy} (h : HeldLow u) : HeldLow (zinRun u a mem policy) := by
  unfold zinRun
  split
  · exact zinDone_heldLow (ite_heldLow (engineUp_heldLow h) h)
  · next e => exact zinDone_heldLow (engineUp_heldLow (budgetStages_heldLow h e))

theorem zinResume_heldLow {u} (h : HeldLow u) : HeldLow (zinResume u) := by
  unfold zinResume
  split
  · exact ite_heldLow h (zinRun_heldLow (.frame h))
  · exact h

theorem wipeDone_heldLow {u p} (h : HeldLow u) : HeldLow (wipeDone u p) := by
  rwa [wipeDone_held h.held]

/-! ### What a soft reset and a lost domain settle -/

theorem giveBack_heldLow {port u b} (h : HeldLow u) : HeldLow (giveBack port u b) := .frame h

theorem dropSink_heldLow {u} (h : HeldLow u) : HeldLow (dropSink u) := by
  unfold dropSink
  extract_lets _ _
  exact .frame (foldl_heldLow (fun _ _ hx1 => foldl_heldLow (fun _ _ hx => giveBack_heldLow hx) hx1) h)

theorem dropBuffers_heldLow {u} (h : HeldLow u) : HeldLow (dropBuffers u) :=
  foldl_heldLow (fun _ _ hx1 => foldl_heldLow (fun _ _ hx => leaveBuffer_heldLow hx) hx1) h

theorem settleTraffic_heldLow {u} (h : HeldLow u) : HeldLow (settleTraffic u) :=
  dropSink_heldLow (cancelDelivery_heldLow (foldl_heldLow (fun _ _ hx => stopNow_heldLow hx) (dropBuffers_heldLow (plannedFall_heldLow h))))

theorem pipeOff_heldLow {u k} (h : HeldLow u) : HeldLow (pipeOff u k) := by
  unfold pipeOff
  extract_lets s1
  have hs1 : HeldLow s1 := leaveRound_heldLow h
  exact ite_heldLow (setPipe_heldLow hs1) (setClass_heldLow (setPipe_heldLow hs1))

theorem domainDown_heldLow {u d} (h : HeldLow u) : HeldLow (domainDown u d) := by
  unfold domainDown
  split
  · extract_lets _
    exact .frame (flushAllCaches_heldLow h)
  · split
    · exact .frame h
    · split
      · exact .frame h
      · split
        · exact pipeOff_heldLow (pipeOff_heldLow h)
        · exact ite_heldLow (.frame h) (ite_heldLow (.frame h) (ite_heldLow (.frame h) h))

theorem dropDomain_heldLow {u d} (h : HeldLow u) : HeldLow (dropDomain u d) := domainDown_heldLow (.frame h)

theorem startWipe_heldLow {u p} (h : HeldLow u) : HeldLow (startWipe u p) := ite_heldLow (raise_heldLow (setPart_heldLow h)) h

theorem wipeTenants_heldLow {u} (h : HeldLow u) : HeldLow (wipeTenants u) := foldl_heldLow (fun _ _ hx1 => wipeDone_heldLow (startWipe_heldLow hx1)) h

theorem losePair_heldLow {u n} (h : HeldLow u) : HeldLow (losePair u n) := by
  unfold losePair
  extract_lets hit s1
  have hs1 : HeldLow s1 := foldl_heldLow (fun _ _ hx => leaveBuffer_heldLow hx) h
  exact abortEach_heldLow hs1

/-! ### Frames that arrive -/

theorem creditReturn_snd (port : Nat) (vc : Bool) (f : Nat) (s : State) (n : Nat) : (creditReturn f s port vc n).snd = s.snd := by
  induction f generalizing s n with
  | zero => rfl
  | succ f ih =>
    unfold creditReturn
    split
    · rfl
    · dsimp only
      split
      · rfl
      · exact ih ..

theorem dropAtPort_heldLow {u f} (h : HeldLow u) : HeldLow (dropAtPort u f) := giveCredits_heldLow (.within h)

/-- A frame that reaches a held block is dropped at its port. -/
theorem ingressFrame_held {s : State} (h : s.blk.held = true) (fab : State → FabIn → State) (f : Arrival) :
    ingressFrame fab s f = s ∨ ingressFrame fab s f = dropAtPort s f := by
  unfold ingressFrame takeFrame
  split
  · exact .inl rfl
  · split
    · exact .inl rfl
    · simp [arithRuns_held h]

theorem ingressFrame_heldLow {s : State} (h : HeldLow s) (fab : State → FabIn → State) (f : Arrival) : HeldLow (ingressFrame fab s f) := by
  rcases ingressFrame_held h.held fab f with e | e
  · rwa [e]
  · rw [e]
    exact dropAtPort_heldLow h

theorem ingressFrame_snd {s : State} (h : s.blk.held = true) (fab : State → FabIn → State) (f : Arrival) :
    (ingressFrame fab s f).snd = s.snd := by
  rcases ingressFrame_held h fab f with e | e
  · rw [e]
  · rw [e]
    exact creditReturn_snd ..

/-! ### Programs of Logbook -/

theorem landPulse_heldLow {miss s p} (h : HeldLow s) : HeldLow (landPulse miss s p) := by
  cases p with
  | bits ph m => exact .within h
  | lock rd r e => exact ite_heldLow (.within h) (.within h)

theorem cutPulse_heldLow {s c p} (h : HeldLow s) : HeldLow (cutPulse s c p) := by
  cases p with
  | bits ph m => exact .within h
  | lock rd r e => exact ite_heldLow h (ite_heldLow (.within h) (.within h))

theorem cutPulses_heldLow {s c} (h : HeldLow s) : HeldLow (cutPulses s c) := by
  unfold cutPulses
  split
  · exact h
  · extract_lets s1
    have hs1 : HeldLow s1 := foldl_heldLow (fun _ _ hx => landPulse_heldLow hx) h
    split
    · exact hs1
    · exact cutPulse_heldLow hs1

theorem senseWord_heldLow {s ph} (h : HeldLow s) : HeldLow (senseWord s ph) := .within h

theorem progFinish_heldLow {s o} (h : HeldLow s) : HeldLow (progFinish s o).2 := by
  unfold progFinish
  split
  · exact h
  · extract_lets s1 s2 k s3
    have hs1 : HeldLow s1 := foldl_heldLow (fun _ _ hx => landPulse_heldLow hx) h
    have hs2 : HeldLow s2 := foldl_heldLow (fun _ _ hx => senseWord_heldLow hx) hs1
    exact .within hs2

theorem afterLogb_held {s : State} (h : s.blk.held = true) : afterLogb s = s := by
  simp [afterLogb, secRuns_held h]

theorem afterProgram_held {s : State} (h : s.blk.held = true) : afterProgram s = s := by
  simp [afterProgram, secRuns_held h]

/-- A program ends in a held block: what it programmed is read, and the gate's next step waits. -/
theorem progEnd_heldLow {s o} (h : HeldLow s) : HeldLow (progEnd s o) := by
  unfold progEnd
  split
  · exact h
  · extract_lets r
    have hr : HeldLow r.2 := progFinish_heldLow h
    have hresult {op st n a} : HeldLow (noteCmd (logbResult r.2 op st n) a logbCmdAddr st) :=
      noteCmd_heldLow (raise_heldLow (.within hr))
    have hgate {k : ProgKind} : HeldLow (if secRuns r.2 then gateEnd r.2 k else { r.2 with life.ended := some k }) := by
      rw [secRuns_held hr.held]
      exact .within hr
    split
    · rw [afterLogb_held hresult.held]
      exact hresult
    · rw [afterLogb_held hgate.held]
      exact hgate

/-! ### Pins, clocks, power and the TAP -/

theorem cutLife_heldLow {s} (h : HeldLow s) : HeldLow (cutLife s) := .within h

theorem tamperProg_heldLow {s c} (h : HeldLow s) : HeldLow (tamperProg s c) := by
  unfold tamperProg
  split
  · exact cutLife_heldLow (.within h)
  · extract_lets s1 s2
    have hs1 : HeldLow s1 := .within (cutPulses_heldLow h)
    have hs2 : HeldLow s2 := foldl_heldLow (fun _ _ hx => senseWord_heldLow hx) hs1
    have hy : HeldLow (cutLife s2) := cutLife_heldLow hs2
    split
    · exact ite_heldLow (.within hy) (ite_heldLow (.within hy) hy)
    · exact cutLife_heldLow (.within hs2)
    · exact hy

theorem tamperAssert_heldLow {s c} (h : HeldLow s) : HeldLow (tamperAssert s c) := by
  have hprog : HeldLow (tamperProg (cancelDelivery (zeroAllSlots s)) c) :=
    tamperProg_heldLow (cancelDelivery_heldLow (zeroAllSlots_heldLow h))
  unfold tamperAssert
  exact ite_heldLow h ⟨hprog.held, rfl⟩

theorem softState_heldLow {s} (h : HeldLow s) : HeldLow (softState s) := by
  have hs : HeldLow (settleTraffic s) := settleTraffic_heldLow h
  unfold softState
  generalize settleTraffic s = v at hs
  exact ⟨hs.held, rfl⟩

theorem tamperRelease_heldLow {s inp} (h : HeldLow s) : HeldLow (tamperRelease s inp) := by
  unfold tamperRelease
  split
  · exact h
  · extract_lets _ s1 _ s2 _
    have hsoft : HeldLow (softState { s with blk.tamper := false }) := softState_heldLow (.within h)
    have hs1 : HeldLow s1 := wipeTenants_heldLow hsoft
    have hs2 : HeldLow s2 := by
      unfold s2
      rw [if_pos hs1.held]
      exact hs1
    clear_value s2
    exact startBlock_heldLow (.within hs2)

theorem lockLoss_heldLow {u arith} (h : HeldLow u) : HeldLow (lockLoss u arith) := by
  unfold lockLoss
  split <;> exact ite_heldLow h (abortEach_heldLow (.frame (raise_heldLow (.frame h)))).falls

theorem lockRegain_heldLow {s arith} (h : HeldLow s) : HeldLow (lockRegain s arith) := by
  unfold lockRegain
  split
  · exact h
  · extract_lets _ s1
    have hs1 : HeldLow s1 := ite_heldLow (.within h) (.within h)
    rw [if_pos (inReset_held hs1.held)]
    exact hs1

theorem vppChange_heldLow {s ok c} (h : HeldLow s) : HeldLow (vppChange s ok c) := by
  unfold vppChange
  have hstop : HeldLow (progStop s c) := .within (cutPulses_heldLow h)
  split
  · simp only [h.held, Bool.true_or, if_true]
    exact .within h
  · exact ite_heldLow (.within hstop) h

theorem noisePass_heldLow {u l} (h : HeldLow u) : HeldLow (noisePass u l) := by
  unfold noisePass
  extract_lets _ s1 _
  have hs1 : HeldLow s1 := .frame h
  exact ite_heldLow hs1 (.frame (.frame (.frame hs1)))

theorem noiseFail_heldLow {u} (h : HeldLow u) : HeldLow (noiseFail u) := by
  unfold noiseFail
  extract_lets _ s1 _
  have hs1 : HeldLow s1 := raise_heldLow (.frame h)
  exact ite_heldLow (raise_heldLow (.frame hs1)) hs1

theorem noiseBlock_heldLow {u l} (h : HeldLow u) : HeldLow (noiseBlock u l) :=
  ite_heldLow h (ite_heldLow (noiseFail_heldLow (.frame h)) (noisePass_heldLow (.frame h)))

theorem liftRun_heldLow {u inp} (h : HeldLow u) : HeldLow (liftRun u inp) :=
  foldl_heldLow (fun _ _ hx => noiseBlock_heldLow hx) (.frame (freeDraw_heldLow h))

/-- A profile strap of `0b00` or `0b11` is bad (R35). -/
theorem strapsBad_profile {s : State} (hp : s.blk.profile = 0 ∨ s.blk.profile = 3) : strapsBad s = true := by
  rcases hp with e | e <;> simp [strapsBad, e]

/-- The TAP lifts the hold of Logbook alone: a bad profile strap holds the block all the same (R35, R429). -/
theorem liftHold_heldLow {s inp} (h : HeldLow s) (hp : s.blk.profile = 0 ∨ s.blk.profile = 3) : HeldLow (liftHold s inp) := by
  unfold liftHold
  extract_lets _ u _ _ s1 _
  have hu : HeldLow u := .within h
  have hs1 : HeldLow s1 := ⟨strapsBad_profile hp, h.low⟩
  exact ite_heldLow hu (ite_heldLow (liftRun_heldLow hs1) (.within hs1))

theorem tapMbox_heldLow {s w} (h : HeldLow s) : HeldLow (tapMbox s w) := ite_heldLow (.within h) (.within h)

theorem setPipeSt_heldLow {u k st} (h : HeldLow u) : HeldLow (setPipeSt u k st) :=
  ite_heldLow h (ite_heldLow (sendWaiting_heldLow (raise_heldLow (setPipe_heldLow h))) (raise_heldLow (setPipe_heldLow h)))

theorem pipeOn_heldLow {u k} (h : HeldLow u) : HeldLow (pipeOn u k) := by
  have hst : HeldLow (setPipeSt (u.setPipe k { st := (u.pipe k).st, ctr := (u.pipe k).ctr }) k .loading) := setPipeSt_heldLow (setPipe_heldLow h)
  exact ite_heldLow h (ite_heldLow (setClass_heldLow hst) hst)

theorem reloadPipe_heldLow {u k i b} (h : HeldLow u) : HeldLow (reloadPipe u k i b) := by
  rwa [reloadPipe_held h.held]

theorem domainUp_heldLow {u d} (h : HeldLow u) : HeldLow (domainUp u d) :=
  ite_heldLow (reloadAstr_heldLow (.frame h)) (ite_heldLow (reloadPipe_heldLow (reloadPipe_heldLow (pipeOn_heldLow (pipeOn_heldLow h)))) h)

theorem ackRise_heldLow {u d us} (h : HeldLow u) : HeldLow (ackRise u d us) := by
  unfold ackRise
  split
  · exact h
  · extract_lets _ s1 s2
    have hs1 : HeldLow s1 := .frame h
    have hs2 : HeldLow s2 := domainUp_heldLow (setLive_heldLow (ite_heldLow (raise_heldLow hs1) hs1))
    exact ite_heldLow (pwrDone_heldLow hs2) hs2

theorem riseAgain_heldLow {u d} (h : HeldLow u) : HeldLow (riseAgain u d) := ite_heldLow (ite_heldLow (.frame (.frame h)) (.frame (.frame h))) h

theorem ackFall_heldLow {u d} (h : HeldLow u) : HeldLow (ackFall u d) :=
  ite_heldLow h (ite_heldLow (pwrDone_heldLow (riseAgain_heldLow (.frame h))) (riseAgain_heldLow (.frame h)))

theorem losePhlox_heldLow {u} (h : HeldLow u) : HeldLow (losePhlox u) := .frame (abortWhere_heldLow h)

theorem losePairNow_heldLow {u d} (h : HeldLow u) : HeldLow (losePairNow u d) := by
  have hdown : HeldLow (dropDomain (losePair u (d - 5)) d) := dropDomain_heldLow (losePair_heldLow h)
  exact updateLive_heldLow (ite_heldLow hdown hdown.falls)

theorem powerLoss_heldLow {s d} (h : HeldLow s) : HeldLow (powerLoss s d) := by
  unfold powerLoss
  split
  · exact h
  · extract_lets _ s1
    have hs1 : HeldLow s1 := raise_heldLow (.frame h)
    split
    · exact zinResume_heldLow (dropDomain_heldLow (ite_heldLow (astrAbortNow_heldLow hs1) hs1))
    · split
      · exact losePairNow_heldLow hs1
      · split
        · exact dropDomain_heldLow (losePhlox_heldLow hs1)
        · exact ⟨rfl, rfl⟩

/-! ### Every command -/

/-- A command ends in a state that is held with `STATION_LIVE` low. -/
def HeldNext (o : Host.Outcome State Fault Refusal) : Prop := ∀ t, o = .next t → HeldLow t

theorem HeldNext.next {t : State} (h : HeldLow t) : HeldNext (.next t) := fun _ e => Host.Outcome.next.inj e ▸ h

theorem HeldNext.same {s t : State} (h : HeldLow s) (e : t = s) : HeldNext (.next t) := .next (e ▸ h)

theorem eccAdded_heldLow {s t e} (h : HeldLow t) (k : t.snd = s.snd) : HeldLow (eccAdded s t e) := by
  rwa [eccAdded_same e k]

theorem HeldNext.eccSame {s t : State} {e : EccIn} (h : HeldLow s) (k : t = s) : HeldNext (.next (eccAdded s t e)) :=
  .next (eccAdded_heldLow (k ▸ h) (k ▸ rfl))

theorem afterTime_heldLow {s us f} (h : HeldLow s) : HeldLow (afterTime s us f) := by
  have hp : HeldLow (passTime s us) := .within h
  unfold afterTime
  rwa [whenSec_held hp.held]

theorem afterTime_snd {s us f} (h : s.blk.held = true) : (afterTime s us f).snd = s.snd := by
  unfold afterTime
  rw [whenSec_held (show (passTime s us).blk.held = true from h)]
  rfl

theorem endReq_heldLow {s bus r a} (h : HeldLow s) : HeldLow (endReq bus s r a) :=
  ite_heldLow (pumpAll_heldLow (.within h)) (pumpAll_heldLow (.within h))

theorem answerReq_heldLow {s bus id write a} (h : HeldLow s) : HeldLow (answerReq bus s id write a) := by
  unfold answerReq
  refine ite_heldLow h (ite_heldLow (.within h) ?_)
  split
  · exact h
  · exact endReq_heldLow h

theorem timeoutReq_heldLow {s bus id us} (h : HeldLow s) : HeldLow (timeoutReq bus s id us) := by
  unfold timeoutReq
  extract_lets s1
  have hs1 : HeldLow s1 := .within h
  split
  · exact hs1
  · exact ite_heldLow (endReq_heldLow (.within hs1)) hs1

/-- A pulse of `STEP_MARK` moves the step of a block in deep sleep, and does nothing else to a block in reset. -/
theorem stepMark_held {s : State} (h : s.blk.held = true) (fab : State → FabIn → State) (n : Option Nat) :
    ∃ m, stepMark fab s n = { s with mrd := m } := by
  unfold stepMark
  rw [inReset_held h]
  split
  · exact ⟨_, rfl⟩
  · exact ⟨s.mrd, rfl⟩

/-- Every command but `PORST` that is no access of a register leaves the block held, with a bad profile strap (R35). -/
theorem exec_heldLow {c : Instr} {s : State} (h : HeldLow s) (hp : s.blk.profile = 0 ∨ s.blk.profile = 3)
    (hc : ∀ p b k x, c ≠ .porst p b k x) (ha : accessOf c = none) : HeldNext (exec c s) := by
  have hsec := secRuns_held h.held
  have harith := arithRuns_held h.held
  have hhelm := helmRuns_held h.held
  have hdead := dead_held h.held
  have hnoSec {f} : whenSec s f = s := whenSec_held h.held
  have hnoArith {f} : whenArith s f = s := whenArith_held h.held
  cases c
  case porst p b k x => exact absurd rfl (hc p b k x)
  case tamperAssert => exact .next (tamperAssert_heldLow h)
  case tamperRelease => exact .next (tamperRelease_heldLow h)
  case loopLockLoss => exact .next (lockLoss_heldLow h)
  case loopLockRegain => exact .next (pumpAll_heldLow (lockRegain_heldLow h))
  case portRange => exact .same h (by simp [portMeasure, hdead])
  case vppChange => exact .next (vppChange_heldLow h)
  case verdictWrite => exact .same h (by simp [verdictWrite, hhelm])
  case verdictWindowExpire => exact .same h (by simp [verdictExpire, hhelm])
  case dataFrameReceive | scaleFrameReceive | stepFrameReceive =>
    exact .next (eccAdded_heldLow (ingressFrame_heldLow h ..) (ingressFrame_snd h.held ..))
  case resultFrameReceive | abortFrameReceive | probeFrameReceive | mgmtFrameReceive | updateFrameReceive =>
    exact .next (ingressFrame_heldLow h ..)
  case creditGrantReceive => exact .same h (by simp [creditGrant, hdead])
  case egressFrameBuild => exact .same h (by simp [egressBuild, eccBuilt, harith])
  case frameSend => exact .same h (by simp [frameSend, harith])
  case ingressReplay | csParityError => exact .eccSame h hnoArith
  case egressReplay => exact .same h (by unfold eccReplayed; split <;> simp [hnoArith, harith])
  case keyRequestServe => exact .eccSame h (by simp [serveKey, hsec])
  case drainEnd | phlxWinCmdDone | soundingCheckDone | selfTestUnit | refillDone | astrOpEnd => exact .same h hnoArith
  case regionDisableDone | pauseDrained | waitSatisfied | kdpAnswer | kdpAckTimeout | noiseSampleBlock => exact .same h hnoSec
  case deadlineExpire | stepTimeout | remaskFloor | updSessionTimeout | trialWatchdogExpire => exact .next (afterTime_heldLow h)
  case absenceCut => exact .next (eccAdded_heldLow (afterTime_heldLow h) (afterTime_snd h.held))
  case entryActivate => exact .eccSame h (by simp [entryActivate, hsec])
  case stepMarkPulse x =>
    obtain ⟨m, e⟩ := stepMark_held h.held (fabInner x) x.phases
    exact .next (eccAdded_heldLow (by rw [e]; exact .within h) (by rw [e]))
  case pendingBoundary => exact .eccSame h (by simp [pendingBoundary, mrdRuns, hsec])
  case wipeDone => exact .next (pumpAll_heldLow (wipeDone_heldLow h))
  case move | moveSg | fill | compare | shuffle | loop | wait | signal | list | endRun => exact .same h (runIns_held h.held ..)
  case mmpReadResponse | mmpWriteResponse => exact .next (answerReq_heldLow h)
  case mmpTimeout => exact .next (timeoutReq_heldLow h)
  case logbCmdDone => exact .next (by rw [afterProgram_held (progEnd_heldLow h).held]; exact progEnd_heldLow h)
  case tapLiftHold => exact .next (ite_heldLow (liftHold_heldLow h hp) (.within h))
  case tapMbox => exact .next (tapMbox_heldLow h)
  case pwrAckRise => exact .next (pumpAll_heldLow (ackRise_heldLow h))
  case pwrAckFall => exact .next (ackFall_heldLow h)
  case powerLoss => exact .next (powerLoss_heldLow h)
  case wakeReq => exact .same h (by simp [wakeUp, h.held])
  case getVersion | getCapabilities | negotiateAlgorithms | getDigests | getCertificate | spdmChallenge | getMeasurements | keyExchange | finish
      | keyUpdate | endSession | unsupportedRequest => exact .same h (spdmOp_held h.held ..)
  all_goals cases ha

/-! ### `PORST` -/

theorem setLive_blk {l : List Nat} (s : State) : (l.foldl setLive s).blk = s.blk ∧ (l.foldl setLive s).pins = s.pins := by
  induction l generalizing s with
  | nil => exact ⟨rfl, rfl⟩
  | cons d l ih => exact ih (setLive s d)

/-- A start with a bad profile strap holds the block (R35). -/
theorem porstDecide_profile {s : State} (hp : s.blk.profile = 0 ∨ s.blk.profile = 3) : (porstDecide s).blk.held = true := by
  unfold porstDecide
  extract_lets d u hold
  have hu : strapsBad u = true := strapsBad_profile hp
  simp [hu]

theorem porstOp_profile {s : State} {profile base : Nat} {cut : ProgCut} {inp : BootIn} (hp : profile = 0 ∨ profile = 3) :
    (porstOp s profile base cut inp).blk.profile = profile ∧ (porstOp s profile base cut inp).blk.held = true
      ∧ (porstOp s profile base cut inp).blk.ready = false ∧ (porstOp s profile base cut inp).pins.stationLive = false := by
  unfold porstOp mainDomains
  generalize progCut s cut = u
  have hheld : (porstDecide (porstState u profile base)).blk.held = true := porstDecide_profile hp
  obtain ⟨hblk, hpins⟩ := setLive_blk (l := [1, 2, 4, 17, 18, 19]) (porstDecide (porstState u profile base))
  rw [startBlock_held (by rw [hblk]; exact hheld), hblk, hpins]
  exact ⟨rfl, hheld, rfl, rfl⟩

/-- Settles O56: an access meets a dead gate (`exec_held`), every other command leaves the hold (`exec_heldLow`), and no command but `PORST`
samples the straps (`exec_keeps`). -/
theorem badStrapsHoldTheBlock : Obligations.BadStrapsHoldTheBlock := by
  refine ⟨fun s profile base cut boot hp => ⟨_, rfl, ?_⟩, fun c s t hp hheld hlow hc he => ?_, fun c s hheld x hx => exec_held hheld hx⟩
  · exact porstOp_profile (hp.imp (congrArg BitVec.toNat) (congrArg BitVec.toNat))
  · have hprofile : t.blk.profile = s.blk.profile := (exec_keeps (fun p b k x => hc p b k x) t he).profile
    have hsame {x} (hx : accessOf c = some x) : t = s := (Host.Outcome.next.inj ((exec_held hheld hx).symm.trans he)).symm
    cases ha : accessOf c with
    | some x =>
      obtain rfl := hsame ha
      exact ⟨hheld, hlow, rfl, fun _ _ => rfl⟩
    | none =>
      obtain ⟨hheld', hlow'⟩ := exec_heldLow ⟨hheld, hlow⟩ hp hc ha t he
      exact ⟨hheld', hlow', hprofile, nofun⟩

end Sys2Proof.Machine
end

section
/-! An access without the management bit: what the class rules refuse of its writes (Table 2.2, R42, R44, Table 10.2). -/

namespace Sys2Proof.Machine

/-- A block whose registers are reachable runs its security clocks while their loop is locked. -/
theorem secRuns_of_alive {s : State} (hd : dead s = false) (hl : s.clkr.secLock = true) : secRuns s = true := by
  obtain ⟨hr, -⟩ := Bool.or_eq_false_iff.1 hd
  simp [secRuns, hr, hl]

theorem domLive_of_alive {s : State} (hd : dead s = false) : domLive s 18 = true := by
  obtain ⟨-, hp⟩ := Bool.or_eq_false_iff.1 hd
  simpa using hp

/-- The writes that Table 2.2, R42 and Table 10.2 keep from an access without the management bit. -/
theorem classAllows_write_refused {s : State} {a : Access} {p : Nat} (off : Nat) (hm : isMgmt a = false)
    (h : pageClassNow s p = .mgmt ∨ a.tagged = false ∨ (s.part a.ptag.toNat).st ≠ .owned) : classAllows s a p off true = false := by
  rcases h with hclass | huntagged | howner
  · simp [classAllows, hm, hclass]
  · simp [classAllows, hm, huntagged]
  · simp [classAllows, hm, howner]

/-- The class rules refuse before the byte enables and the alignment are looked at (R542). -/
theorem gate_write_refused {s : State} {a : Access} {addr : Nat} (be : Nat) (hd : dead s = false) (hl : s.clkr.secLock = true)
    (hlift : s.logb.lifted = false) (hup : pageUp s (addr / 4096) = true) (hmap : pageClassNow s (addr / 4096) ≠ .unmapped)
    (hclass : ∀ off, classAllows s a (addr / 4096) off true = false) : gate s a addr be true = .refuse .partition := by
  simp [gate, secRuns_of_alive hd hl, domLive_of_alive hd, liftedBars, hlift, hup, hmap, hclass]

/-- Settles O4: the gate refuses with `ST_PARTITION` (`gate_write_refused`), so that nothing but the refusal happens (`exec_stopped`). -/
theorem managementPagesRefuseOthers : Obligations.ManagementPagesRefuseOthers := by
  intro c s a addr be hc hd hl hlift hup hmap hm hwhy
  have hg : gate s a addr be true = .refuse .partition :=
    gate_write_refused be hd hl hlift hup hmap fun off => classAllows_write_refused off hm hwhy
  obtain ⟨hframe, hresp, -⟩ := refuse_spec s a true addr .partition
  refine ⟨refuse s a true addr .partition, ?_, hframe, hresp⟩
  rw [exec_stopped c s a true addr be hc (by simp [hg]), hg, busSays]

end Sys2Proof.Machine
end

section
/-! Writes of the page header (Table 2.4): no command register lies below offset 0x40, so each is a plain write. -/

namespace Sys2Proof.Machine

theorem regAt_page {p off : Nat} (h : off < 4096) : regAt p off / 4096 = p := by
  unfold regAt
  omega

theorem regAt_offset {p off : Nat} (h : off < 4096) : regAt p off % 4096 = off := by
  unfold regAt
  omega

/-- Every command register stands at an offset of at least 0x40. -/
theorem writeAt_header {s : State} {a : Access} {p off : Nat} {v : Word} (h : off < 0x40) :
    writeAt s a p off v = plainWrite s a (regAt p off) v := by
  have hne {n : Nat} (hn : 0x40 ≤ n) : off ≠ n := by omega
  have hlt {n : Nat} (hn : 0x40 ≤ n) : ¬ n ≤ off := by omega
  unfold writeAt
  split
  · simp [writeLow, hne, hlt]
  split
  · simp [writeMid, hne, hlt]
  · simp [writeHigh, hne, hlt]

/-- No test page hides its header (R46). -/
theorem hitsTest_header {s : State} {a : Access} {p off be : Nat} {w : Bool} (h : off < 0x40) : hitsTest s a (regAt p off) be w = false := by
  have hoff : ¬ 0x40 ≤ regAt p off % 4096 := by rw [regAt_offset (by omega)]; omega
  simp [hitsTest, hoff]

/-- No register of a header starts a channel. -/
theorem movesChan_header {p off : Nat} (h : off < 0x40) : movesChan (regAt p off) = false := by
  have hcmd : off ≠ 0x58 := by omega
  have hctx : regAt p off ≠ regAt 0x56 0xC8 := by unfold regAt; omega
  simp [movesChan, regAt_offset (show off < 4096 by omega), hcmd, hctx]

/-- A write that reaches a register of the header is the plain write of it (R39, R54). -/
theorem exec_registerWrite_header {s : State} {a : Access} {p off : Nat} {addr : BitVec 20} {v : Word} (h : off < 0x40)
    (haddr : addr.toNat = regAt p off) (hr : WriteReaches s a p off) :
    exec (.registerWrite a addr 0xFF v) s = .next (plainWrite s a (regAt p off) v) := by
  have hlt : off < 4096 := by omega
  have hpass : gate s a (regAt p off) 0xFF true = .pass := hr
  have hbus : busWrite s a (regAt p off) 0xFF v = plainWrite s a (regAt p off) v := by
    simp only [busWrite, hpass, regAt_page hlt, regAt_offset hlt, writeAt_header h]
  simp [exec, execRegisterWrite, haddr, hitsTest_header h, hostWrite, movesChan_header h, hbus]

/-- A write of a register with its own effect and no refusal of its own. -/
theorem exec_registerWrite_headerEffect {s : State} {a : Access} {p off : Nat} {addr : BitVec 20} {v : Word} {f : State → State}
    (h : off < 0x40) (haddr : addr.toNat = regAt p off) (hr : WriteReaches s a p off) (hw : headerWrite p off v = wr f) :
    exec (.registerWrite a addr 0xFF v) s = .next (f (answer s 0)) := by
  have hlt : off < 4096 := by omega
  have hplain : plainWr s a p off v = wr f := by rw [plainWr, if_pos h, hw]
  rw [exec_registerWrite_header h haddr hr, plainWrite, regAt_page hlt, regAt_offset hlt, hplain]
  exact congrArg Host.Outcome.next (regWrite_reaches hr)

/-- A write of a register without a writable field is refused (R54). -/
theorem exec_registerWrite_headerReadOnly {s : State} {a : Access} {p off : Nat} {addr : BitVec 20} {v : Word}
    (h : off < 0x40) (haddr : addr.toNat = regAt p off) (hr : WriteReaches s a p off) (hw : headerWrite p off v = none) :
    exec (.registerWrite a addr 0xFF v) s = .next (refuse s a true (regAt p off) .badArg) := by
  have hlt : off < 4096 := by omega
  have hplain : plainWr s a p off v = none := by rw [plainWr, if_pos h, hw]
  rw [exec_registerWrite_header h haddr hr, plainWrite, regAt_page hlt, regAt_offset hlt, hplain]
  exact congrArg Host.Outcome.next (regWrite_reaches hr)

/-- Settles O5: `INT_SET` and `PAGE_LOCK` by their own commands, every other register of the header as a plain write. -/
theorem headerWritesAct : Obligations.HeaderWritesAct := by
  intro s a p v
  refine ⟨fun hr => ?_, fun hr => ?_, fun addr haddr hr => ?_, fun addr haddr hr => ?_, fun addr haddr hr => ?_, fun addr haddr hr => ?_⟩
  · exact congrArg Host.Outcome.next (regWrite_reaches hr)
  · exact congrArg Host.Outcome.next (regWrite_reaches hr)
  · exact exec_registerWrite_headerEffect (by decide) haddr hr rfl
  · exact exec_registerWrite_headerEffect (by decide) haddr hr rfl
  · exact exec_registerWrite_headerEffect (by decide) haddr hr rfl
  · obtain ⟨hframe, hresp, -⟩ := refuse_spec s a true (regAt p.toNat 0x00) .badArg
    exact ⟨_, exec_registerWrite_headerReadOnly (by decide) haddr hr rfl, hframe, hresp⟩

end Sys2Proof.Machine
end

section
/-! Reads that show a register, and the wide values of the measurement registers (R41, R44, R48). -/

namespace Sys2Proof.Machine

/-- A read of a register that is no data port and no register of a test page answers its value and latches what it latches. -/
theorem exec_registerRead_val {s u : State} {a : Access} {p off : Nat} {addr : BitVec 20} {w : Word} (hoff : off < 4096)
    (hplain : off < 0x40 ∨ p ≠ 0x03 ∧ p ≠ 0x0D ∧ p ≠ 0x61 ∧ pageClassNow s p ≠ .test)
    (haddr : addr.toNat = regAt p off) (hr : ReadReaches s a p off) (hv : readReg s a p off = (.val w, u)) :
    exec (.registerRead a addr 0xFF) s = .next { answer s w with bus.latch := u.bus.latch } := by
  have hpass : gate s a (regAt p off) 0xFF false = .pass := hr
  have htest : ¬ (pageClassNow s p = .test ∧ 0x40 ≤ off) := by
    rintro ⟨hclass, hlow⟩
    rcases hplain with h | ⟨-, -, -, h⟩
    · omega
    · exact h hclass
  have hport {q n : Nat} (hn : 0x40 ≤ n) (hq : q = 0x03 ∨ q = 0x0D ∨ q = 0x61) : ¬ (p = q ∧ off = n) := by omega
  have hshow : readAt s a (regAt p off) = { answer s w with bus.latch := u.bus.latch } := by
    simp only [readAt, regAt_page hoff, regAt_offset hoff, hport (q := 0x03) (n := 0x48) (by decide) (by decide),
      hport (q := 0x0D) (n := 0x58) (by decide) (by decide), hport (q := 0x61) (n := 0x50) (by decide) (by decide), htest, if_false, hv,
      regRead_reaches hr]
  have hhits : hitsTest s a (regAt p off) 0xFF false = false := by
    simpa [hitsTest, regAt_page hoff, regAt_offset hoff, hpass] using htest
  simp [exec, execRegisterRead, haddr, hhits, busRead, hpass, hshow]

/-! ### The header -/

/-- No wide value lies in a page's header (R41). -/
theorem wideOf_header {p off : Nat} (h : off < 0x40) : wideOf p off = none := by
  have hbase : ∀ e ∈ wideTable, 0x40 ≤ e.2.2.1 := by decide
  have hnone : wideTable.find? (fun e => e.1 ≤ p && p ≤ e.2.1 && e.2.2.1 ≤ off && off < e.2.2.1 + 8 * e.2.2.2) = none := by
    refine List.find?_eq_none.2 fun e he => ?_
    have hstart := hbase e he
    simp only [Bool.and_eq_true, decide_eq_true_eq]
    omega
  have hmeas : ¬ (p = 0x14 ∧ 0x100 ≤ off ∧ off < 0x100 + 48 * 24) := by omega
  simp only [wideOf, hmeas, if_false, hnone, Option.map_none]

theorem readReg_header {s : State} {a : Access} {p off : Nat} (h : off < 0x40) : readReg s a p off = (headerRead s a p off, s) := by
  simp only [readReg, wideOf_header h, regValue, h, if_true]

/-- A read of a header register with a value answers it and changes nothing else. -/
theorem exec_registerRead_header {s : State} {a : Access} {p off : Nat} {addr : BitVec 20} {w : Word} (h : off < 0x40)
    (haddr : addr.toNat = regAt p off) (hr : ReadReaches s a p off) (hv : headerRead s a p off = .val w) :
    exec (.registerRead a addr 0xFF) s = .next (answer s w) :=
  exec_registerRead_val (by omega) (.inl h) haddr hr (by rw [readReg_header h, hv])

/-! ### The measurement registers -/

/-- Word `i` of measurement register `k` belongs to the wide value of that register (R41). -/
theorem wideOf_measurement {k i : Nat} (hk : k < 24) (hi : i < 6) : wideOf 0x14 (0x100 + 48 * k + 8 * i) = some (0x100 + 48 * k, 6, i) := by
  have hmod : (0x100 + 48 * k + 8 * i - 0x100) % 48 = 8 * i := by omega
  have hbase : 0x100 + 48 * k + 8 * i - 8 * i = 0x100 + 48 * k := by omega
  have hin : 0x100 ≤ 0x100 + 48 * k + 8 * i ∧ 0x100 + 48 * k + 8 * i < 0x100 + 48 * 24 := by omega
  simp [wideOf, hin, hmod, hbase]

theorem regValue_measurement {s : State} {a : Access} {k i : Nat} (hk : k < 24) (hi : i < 6) :
    regValue s a 0x14 (0x100 + 48 * k + 8 * i) = .val (wordAt (tget 0 s.meas.regs k).toNat i) := by
  have hdiv : (0x100 + 48 * k + 8 * i - 0x100) / 48 = k := by omega
  have hmod : (0x100 + 48 * k + 8 * i - 0x100) % 48 / 8 = i := by omega
  have hlow : ¬ 0x100 + 48 * k + 8 * i < 0x40 := by omega
  have hloc : ¬ 0x100 + 48 * k + 8 * i = 0x40 := by omega
  have hin : 0x100 ≤ 0x100 + 48 * k + 8 * i ∧ 0x100 + 48 * k + 8 * i < 0x100 + 48 * 24 := by omega
  have hpage : regValue s a 0x14 (0x100 + 48 * k + 8 * i) = meas0Read s (0x100 + 48 * k + 8 * i) := by
    simp [regValue, hlow]
  rw [hpage, meas0Read, if_neg hloc, if_pos hin, hdiv, hmod, measOf]

/-- The words of measurement register `k`, lowest first. -/
def measWords (s : State) (k : Nat) : List Word := (List.range 6).map (wordAt (tget 0 s.meas.regs k).toNat)

/-- A read of the lowest word latches all six in the reader's bank (R41). -/
theorem readReg_measurement_first {s : State} {a : Access} {k : Nat} (hk : k < 24) :
    readReg s a 0x14 (0x100 + 48 * k)
      = (.val (wordAt (tget 0 s.meas.regs k).toNat 0), { s with bus.latch := tset [] s.bus.latch (bankOf a) (measWords s k) }) := by
  have hwide : wideOf 0x14 (0x100 + 48 * k) = some (0x100 + 48 * k, 6, 0) := wideOf_measurement (i := 0) hk (by decide)
  have hfirst : regValue s a 0x14 (0x100 + 48 * k) = .val (wordAt (tget 0 s.meas.regs k).toNat 0) :=
    regValue_measurement (i := 0) hk (by decide)
  have hwords : (List.range 6).map (fun j => valueOf (regValue s a 0x14 (0x100 + 48 * k + 8 * j))) = measWords s k :=
    by
    refine List.map_congr_left fun j hj => ?_
    rw [regValue_measurement hk (List.mem_range.1 hj), valueOf]
  simp only [readReg, hwide, if_true, hwords, hfirst]

/-- A read of a further word takes it from the reader's latch (R41). -/
theorem readReg_measurement_word {s : State} {a : Access} {k i : Nat} (hk : k < 24) (hi0 : 1 ≤ i) (hi : i < 6) :
    readReg s a 0x14 (0x100 + 48 * k + 8 * i) = (.val ((tget [] s.bus.latch (bankOf a)).getD i 0), s) := by
  have hne : i ≠ 0 := by omega
  simp only [readReg, wideOf_measurement hk hi, hne, if_false]

theorem pageClassNow_measurement (s : State) : pageClassNow s 0x14 = .pubRead := rfl

/-- A read of page 0x14 past its header shows the register. -/
theorem exec_registerRead_measurement {s u : State} {a : Access} {off : Nat} {addr : BitVec 20} {w : Word} (hoff : off < 4096)
    (haddr : addr.toNat = regAt 0x14 off) (hr : ReadReaches s a 0x14 off) (hv : readReg s a 0x14 off = (.val w, u)) :
    exec (.registerRead a addr 0xFF) s = .next { answer s w with bus.latch := u.bus.latch } :=
  exec_registerRead_val hoff (.inr ⟨by decide, by decide, by decide, by simp [pageClassNow_measurement]⟩) haddr hr hv

theorem measWords_getD {s : State} {k i : Nat} (hi : i < 6) : (measWords s k).getD i 0 = wordAt (tget 0 s.meas.regs k).toNat i := by
  simp [measWords, hi]

/-- A latching read is a read of the register with every byte enabled (R41). -/
theorem exec_wideReadLatch (a : Access) (addr : BitVec 20) (s : State) :
    exec (.wideReadLatch a addr) s = exec (.registerRead a addr 0xFF) s := rfl

/-- Settles O6: the header's two registers are shown as they stand; the measurement registers are a wide value, which its first word
latches and whose other words the latch answers. -/
theorem readsAnswerAndWideReadsLatch : Obligations.ReadsAnswerAndWideReadsLatch := by
  intro s a addr
  refine ⟨fun p haddr hr => ?_, fun p haddr hr => ?_, fun k hk haddr hr => ?_, fun k i hk hi0 hi haddr hr => ?_⟩
  · exact exec_registerRead_header (by decide) haddr hr rfl
  · exact exec_registerRead_header (by decide) haddr hr rfl
  · have hread := exec_registerRead_measurement (by omega) haddr hr (readReg_measurement_first hk)
    refine ⟨_, (exec_wideReadLatch ..).trans hread, hread, ?_, fun i hi => ?_, fun b hb => ?_⟩
    · simp [answer, wordAt]
    · simp only [tget_tset_self, measWords_getD hi, wordAt]
    · simp only [tget_tset_ne _ _ _ _ _ hb]
  · exact exec_registerRead_measurement (by omega) haddr hr (readReg_measurement_word hk hi0 hi)

end Sys2Proof.Machine
end

section
/-! The drop count of a `STEP` frame where the pipes stand in no rising order. A write of a pipe that stands behind a higher one then puts a
second entry in front (`tins`) and leaves the old one listed, so that the relays which stand on that pipe are counted once for each of the
two entries (09 R289, `dropRelays`). -/

namespace Sys2Proof.Machine

/-- A fabric-class frame that has just entered, passes checks 1 to 9 with its keys and opens leaves the buffer, is counted and goes to its
handler (Table 3.10). -/
theorem runFrame_fabric {fab : State → FabIn → State} {s u : State} {k : Nat} {f : HeldFrame} {h : Hdr} {key : Key} {plain : Bytes}
    (hh : hdrOf f.arr.bytes = h) (hnew : f.replay = none ∧ f.plain = none) (hheader : headerFailure s f.arr h = none)
    (hepoch : epochCheck s h = .ok) (hkeys : lookupKeys s k f.id (frameNeeds s k f) = (u, true))
    (hkey : (frameNeeds s k f).head?.bind (heldKeyOf u k f.id) = some key) (hopen : openFrame key f.arr.bytes = some plain)
    (hseq : check9 u h = true) (hcls : isCollective h.cls = false) :
    runFrame fab s k f = fab (countTaken (leaveBuffer u k f.id) k f) { pipe := k, hdr := h, plain := plain, arr := f.arr } := by
  obtain ⟨hreplay, hplain⟩ := hnew
  have hkeyed : keyedFrame fab s k f h = openedFrame fab u k f h plain := by
    simp only [keyedFrame, hepoch, hkeys, hkey, Option.getD_some, hopen, Bool.not_true, Bool.false_eq_true, if_false]
  simp only [runFrame, hh, hreplay, hplain, hheader, hkeyed, openedFrame, hseq, hcls, Bool.not_true, Bool.false_eq_true, if_false]

/-- A relay of step 0 that has not left. -/
def unsentRelay : OutFrame :=
  { part := 0, group := 0, ticket := 0, cls := 5, ports := 0, bytes := [], waits := 0, first := 0, count := 0, last := false,
    release := false, relayOf := some 0 }

/-- A pipe bound to port 0, with the fabric's key of `STEP` frames, and that relay. -/
def relayPipe : Pipe :=
  { st := .bound, bind := 1, kc := [(0, { valid := true, use := 4, sel := 5 })], outs := [unsentRelay] }

/-- A follower of `STEP` frames at step 0 that lists that pipe, its pipe 0, behind pipe 1. -/
def unsortedPipes : State :=
  { State.reset with
    pins.stationLive := true, clkr.arithLock := true, clkr.secLock := true, pwr.live := 0xFFFFF, mrd.mode := .followFrame
    lark.inCr := [(0, { vc1 := 36 })], lark.pipes := [(1, {}), (0, relayPipe)] }

/-- The header of a `STEP` frame into step 1 (09 R288). -/
def stepOneHdr : Hdr :=
  { version := 1, cls := 5, part := 0, group := 0, gEpoch := 0, hop := 0, rank := 0, ticket := 0, kEpoch := 0, owner := 0, fmt := 0,
    op := 0, flags := 0, step := 1, tiles := 0, first := 0, seq := 0, digest := 0, payLen := 16, clean := true }

/-- Its payload (09 Table 9.2). -/
def stepOnePlain : Bytes := stepPayload unsortedPipes 1

/-- The frame on port 0, sealed under the key the pipe holds. -/
def stepOne : Arrival := { port := 0, vc := true, wireLen := 96, whole := true, bytes := sealFrame 0 stepOneHdr stepOnePlain }

/-- The one key request it makes. -/
def stepOneNeed : KeyReq := { pipe := 0, use := 4, part := 0, sel := 5, epoch := 0 }

theorem hdrOf_stepOne : hdrOf stepOne.bytes = stepOneHdr := by
  decide +kernel

theorem openFrame_stepOne : openFrame 0 stepOne.bytes = some stepOnePlain :=
  open_seal 0 stepOneHdr stepOnePlain hdrOf_stepOne rfl rfl

theorem stepOne_enters : FrameEnters unsortedPipes stepOne 0 := by
  unfold FrameEnters
  decide +kernel

theorem stepOne_opens : FrameOpens unsortedPipes stepOne 0 stepOnePlain := by
  refine ⟨stepOne_enters, ?_⟩
  rw [hdrOf_stepOne]
  exact ⟨rfl, by decide +kernel, rfl, by decide +kernel, ⟨0, rfl, openFrame_stepOne⟩, rfl⟩

/-- The frame as it stands in the buffer of pipe 0. -/
def stepOneHeld : HeldFrame := { id := 0, arr := stepOne, st := .queued }

/-- The block with the frame in that buffer. -/
def stepOneEntered : State :=
  let s := useCredits unsortedPipes 0 true 1
  { s.setPipe 0 { s.pipe 0 with buf := [stepOneHeld] } with lark.nextId := 1 }

/-- The block once the frame holds its key. -/
def stepOneKeyed : State := (lookupKeys stepOneEntered 0 0 [stepOneNeed]).1

/-- The block in which Meridian takes the frame. -/
def stepOneTaken : State := countTaken (leaveBuffer stepOneKeyed 0 0) 0 stepOneHeld

/-- What Meridian takes. -/
def stepOneIn : FabIn := { pipe := 0, hdr := stepOneHdr, plain := stepOnePlain, arr := stepOne }

theorem frameNeeds_stepOne : frameNeeds stepOneEntered 0 stepOneHeld = [stepOneNeed] := by
  rw [frameNeeds, show stepOneHeld.arr.bytes = stepOne.bytes from rfl, hdrOf_stepOne]
  rfl

theorem enterPort_stepOne (fab : State → FabIn → State) : enterPort fab unsortedPipes stepOne = fab stepOneTaken stepOneIn := by
  have hkeys : lookupKeys stepOneEntered 0 0 (frameNeeds stepOneEntered 0 stepOneHeld) = (stepOneKeyed, true) := by
    rw [frameNeeds_stepOne]
    rfl
  have hkey : (frameNeeds stepOneEntered 0 stepOneHeld).head?.bind (heldKeyOf stepOneKeyed 0 0) = some 0 := by
    rw [frameNeeds_stepOne]
    rfl
  calc enterPort fab unsortedPipes stepOne = runFrame fab stepOneEntered 0 stepOneHeld := rfl
    _ = fab stepOneTaken stepOneIn := runFrame_fabric hdrOf_stepOne ⟨rfl, rfl⟩ rfl rfl hkeys hkey openFrame_stepOne rfl rfl

/-- Pipe 0 is listed twice in that block, with its relay in each entry. -/
theorem stepOneTaken_pipes : stepOneTaken.lark.pipes.map (fun q => (q.1, q.2.outs)) = [(0, [unsentRelay]), (1, []), (0, [unsentRelay])] := by
  decide +kernel

/-- The frame moves the block into step 1, and the one relay is counted as two. -/
theorem exec_stepOne_drops : ∃ t, exec (.stepFrameReceive stepOne noStepIn) unsortedPipes = .next t ∧ t.mrd.drops = 2 := by
  have hrun : exec (.stepFrameReceive stepOne noStepIn) unsortedPipes
      = .next (eccAdded unsortedPipes (returnScaled (fab noStepIn) (fab noStepIn stepOneTaken stepOneIn) 0 0 0) noStepIn.ecc) := by
    rw [← enterPort_stepOne (fab noStepIn)]
    rfl
  exact ⟨_, hrun, by decide +kernel⟩

/-- The statement counts the relays in the block as the frame finds it. -/
theorem dropRelays_unsortedPipes : (dropRelays unsortedPipes 1).mrd.drops = 1 := by
  decide +kernel

/-- Refutes O30: its clause on `STEP` frames asks no canonical form of the table of pipes. Where pipe 0 stands behind pipe 1, the frame's
way through pipe 0 lists that pipe a second time, and the relay that stands on it is dropped once and counted twice; the statement has
the drops that the table counts before. -/
theorem not_fabricFramesAct : ¬ Obligations.FabricFramesAct := by
  intro h
  obtain ⟨-, -, -, hstep⟩ := h unsortedPipes stepOne 0 stepOnePlain stepOneHdr hdrOf_stepOne.symm stepOne_opens rfl
  obtain ⟨hfollow, -⟩ := hstep rfl noStepIn 1 rfl
  obtain ⟨t, e, hmrd, -⟩ := hfollow rfl (by decide) (by decide) rfl rfl rfl rfl
  obtain ⟨u, hrun, hdrops⟩ := exec_stepOne_drops
  obtain rfl := Host.Outcome.next.inj (e.symm.trans hrun)
  rw [hmrd] at hdrops
  exact absurd (dropRelays_unsortedPipes.symm.trans hdrops) (by decide)

end Sys2Proof.Machine
end

section
/-! A frame that opens onto an active entry: its way through the port, the key cache of its pipe and check 10, and what of the block that
way has changed when check 11 begins. -/

namespace Sys2Proof.Machine

/-! ### Tables -/

theorem mem_of_tget_ne {α : Type} {d : α} {t : Table α} {k : Nat} (h : tget d t k ≠ d) : (k, tget d t k) ∈ t := by
  induction t with
  | nil => exact absurd rfl h
  | cons e r ih =>
    obtain ⟨i, v⟩ := e
    simp only [tget] at h ⊢
    split
    · next hi => exact hi ▸ List.mem_cons_self
    · next hi => exact List.mem_cons_of_mem _ (ih (by simpa only [hi, if_false] using h))

theorem tget_of_mem {α : Type} {d : α} {t : Table α} {k : Nat} {v : α} (hs : t.Pairwise (fun a b => a.1 < b.1)) (h : (k, v) ∈ t) :
    tget d t k = v := by
  induction t with
  | nil => cases h
  | cons e r ih =>
    obtain ⟨hlt, hr⟩ := List.pairwise_cons.1 hs
    rcases List.mem_cons.1 h with rfl | hm
    · exact if_pos rfl
    · exact (if_neg (hlt _ hm).ne).trans (ih hr hm)

/-! ### The hot key cache -/

/-- A cache entry but for what the holding of its key changes (R152). -/
def KcEntry.bare (e : KcEntry) : KcEntry := { e with holders := 0, used := 0 }

/-- A lookup of a request hits a cache entry (R150). -/
def KcEntry.answers (e : KcEntry) (r : KeyReq) : Bool :=
  e.valid && !e.flush && e.use = r.use && e.part = r.part && e.sel = r.sel && e.epoch = r.epoch

/-- A frame that holds a cache entry may use it for a request, under flush too (R153). -/
def KcEntry.serves (e : KcEntry) (r : KeyReq) : Bool := e.valid && e.use = r.use && e.part = r.part && e.sel = r.sel && e.epoch = r.epoch

theorem KcEntry.serves_of_answers {e : KcEntry} {r : KeyReq} (h : e.answers r = true) : e.serves r = true := by
  simp only [answers, serves, Bool.and_eq_true] at h ⊢
  obtain ⟨⟨⟨⟨⟨hvalid, -⟩, huse⟩, hpart⟩, hsel⟩, hepoch⟩ := h
  exact ⟨⟨⟨⟨hvalid, huse⟩, hpart⟩, hsel⟩, hepoch⟩

theorem KcEntry.answers_congr {a b : KcEntry} (h : a.bare = b.bare) (r : KeyReq) : a.answers r = b.answers r := by
  change a.bare.answers r = b.bare.answers r
  rw [h]

theorem KcEntry.key_congr {a b : KcEntry} (h : a.bare = b.bare) : a.key = b.key := by
  change a.bare.key = b.bare.key
  rw [h]

theorem kcFind_eq (p : Pipe) (r : KeyReq) : kcFind p r.use r.part r.sel r.epoch = (p.kc.find? (fun e => e.2.answers r)).map (·.1) := rfl

/-- In a cache in canonical form the entry a lookup finds is the one at its number. -/
theorem answers_of_kcFind {p : Pipe} {r : KeyReq} {i : Nat} (w : tableWf {} p.kc = true) (h : kcFind p r.use r.part r.sel r.epoch = some i) :
    (tget {} p.kc i).answers r = true := by
  rw [kcFind_eq] at h
  obtain ⟨⟨j, e⟩, hfind, rfl⟩ := Option.map_eq_some_iff.1 h
  rw [tget_of_mem (of_decide_eq_true (Bool.and_eq_true_iff.1 w).1) (List.mem_of_find?_eq_some hfind)]
  exact List.find?_some (p := fun e : Nat × KcEntry => e.2.answers r) hfind

theorem kcFind_of_answers {p : Pipe} {r : KeyReq} {i : Nat} (h : (tget {} p.kc i).answers r = true) :
    ∃ j, kcFind p r.use r.part r.sel r.epoch = some j := by
  have hne : tget {} p.kc i ≠ ({} : KcEntry) := fun e => by
    rw [e] at h
    cases h
  rw [kcFind_eq]
  have hsome : (p.kc.find? (fun e => e.2.answers r)).isSome = true := List.find?_isSome.2 ⟨(i, tget {} p.kc i), mem_of_tget_ne hne, h⟩
  obtain ⟨x, hx⟩ := Option.isSome_iff_exists.1 hsome
  exact ⟨x.1, by rw [hx]; rfl⟩

/-- From the state `s` to `u` the frame `f`, alone in the buffer of pipe `k`, has come to hold the cache entries `ks`. Nothing outside
Larkspur has changed, nor have its stream records and what the pipe's cache answers. -/
structure Holding (s u : State) (k : Nat) (f : HeldFrame) (ks : List Nat) : Prop where
  lark : ∃ l : Lark, u = { s with lark := l } ∧ l.streams = s.lark.streams
  buf : (u.pipe k).buf = [{ f with keys := ks }]
  cache : ∀ i, (tget {} (u.pipe k).kc i).bare = (tget {} (s.pipe k).kc i).bare

theorem Holding.answers {s u : State} {k : Nat} {f : HeldFrame} {ks : List Nat} (h : Holding s u k f ks) (r : KeyReq) (i : Nat) :
    (tget {} (u.pipe k).kc i).answers r = (tget {} (s.pipe k).kc i).answers r :=
  KcEntry.answers_congr (h.cache i) r

theorem larkCount_pipe_self (u : State) (k off n : Nat) :
    (larkCount u k off n).pipe k = { u.pipe k with ctr := tset 0 (u.pipe k).ctr off (bump (tget 0 (u.pipe k).ctr off) n) } :=
  State.setPipe_pipe_self ..

theorem modHeld_pipe_self (u : State) (k id : Nat) (g : HeldFrame → HeldFrame) :
    (modHeld u k id g).pipe k = { u.pipe k with buf := (u.pipe k).buf.map (fun f => if f.id = id then g f else f) } :=
  State.setPipe_pipe_self ..

theorem kcHold_pipe_self (u : State) (k id i : Nat) : (kcHold u k id i).pipe k = { u.pipe k with
    kc := tset {} (u.pipe k).kc i
      { tget {} (u.pipe k).kc i with holders := (tget {} (u.pipe k).kc i).holders + 1, used := u.lark.nextUse + 1 }
    buf := (u.pipe k).buf.map (fun f => if f.id = id then { f with keys := f.keys ++ [i] } else f) } := by
  unfold kcHold
  extract_lets p e s1
  have hp : State.pipe { s1 with lark.nextUse := u.lark.nextUse + 1 } k
      = { p with kc := tset {} p.kc i { e with holders := e.holders + 1, used := u.lark.nextUse + 1 } } := State.setPipe_pipe_self ..
  rw [modHeld_pipe_self, hp]

/-- A hit: the frame holds one entry more, and the entry keeps its key. -/
theorem Holding.hit {s u : State} {k : Nat} {f : HeldFrame} {ks : List Nat} (h : Holding s u k f ks) (i : Nat) :
    Holding s (larkCount (kcHold u k f.id i) k 0x100 1) k f (ks ++ [i]) := by
  obtain ⟨⟨l, hu, hl⟩, hbuf, hcache⟩ := h
  have hp := larkCount_pipe_self (kcHold u k f.id i) k 0x100 1
  rw [kcHold_pipe_self] at hp
  refine ⟨⟨(larkCount (kcHold u k f.id i) k 0x100 1).lark, ?_, ?_⟩, ?_, fun j => ?_⟩
  · subst hu
    rfl
  · subst hu
    exact hl
  · rw [hp, hbuf]
    exact congrArg (fun x => [x]) (if_pos rfl)
  · rw [hp, ← hcache j]
    by_cases hj : j = i
    · subst hj
      simp only [tget_tset_self]
      rfl
    · simp only [tget_tset_ne _ _ _ _ _ hj]

/-- A frame whose keys are all in its pipe's cache comes to hold them (R150 to R152). -/
theorem Holding.lookup {s u : State} {k : Nat} {f : HeldFrame} {ks : List Nat} {rs : List KeyReq} (h : Holding s u k f ks)
    (hrs : ∀ r ∈ rs, ∃ i, (tget {} (s.pipe k).kc i).answers r = true) :
    ∃ v js, lookupKeys u k f.id rs = (v, true) ∧ Holding s v k f (ks ++ js) := by
  induction rs generalizing u ks with
  | nil => exact ⟨u, [], rfl, by rwa [List.append_nil]⟩
  | cons r rs ih =>
    obtain ⟨hr, hrest⟩ := List.forall_mem_cons.1 hrs
    unfold lookupKeys
    split
    · exact ih h hrest
    · obtain ⟨i, hi⟩ := hr
      obtain ⟨j, hj⟩ := kcFind_of_answers ((h.answers r i).trans hi)
      obtain ⟨v, js, hv, hold⟩ := ih (h.hit j) hrest
      simp only [hj]
      exact ⟨v, j :: js, hv, by rwa [List.append_assoc] at hold⟩

/-- The one frame of a buffer holds for a request the first of its entries that serves it. -/
theorem heldKey_of_buf {p : Pipe} {f : HeldFrame} {ks : List Nat} (h : p.buf = [{ f with keys := ks }]) (r : KeyReq) :
    heldKey p f.id r = ks.find? (fun i => (tget {} p.kc i).serves r) := by
  simp only [heldKey, h, List.find?_cons, decide_true, Option.bind_some]
  rfl

/-- The key a frame holds for a request is that of the first entry it took for it. -/
theorem Holding.heldKeyOf_head {s u : State} {k : Nat} {f : HeldFrame} {i : Nat} {js : List Nat} {r : KeyReq} (h : Holding s u k f (i :: js))
    (hi : (tget {} (s.pipe k).kc i).answers r = true) : heldKeyOf u k f.id r = some (tget {} (s.pipe k).kc i).key := by
  have ha : (tget {} (u.pipe k).kc i).answers r = true := (h.answers r i).trans hi
  have hheld : heldKey (u.pipe k) f.id r = some i :=
    (heldKey_of_buf h.buf r).trans (List.find?_cons_of_pos (KcEntry.serves_of_answers ha))
  rw [heldKeyOf, hheld, Option.map_some, KcEntry.key_congr (h.cache i)]

/-! ### The way in -/

theorem takenFrame_of_covered {s : State} {f : Arrival} (h : covered s f = true) :
    takenFrame s f = { id := s.lark.nextId, arr := f, st := .queued, seen := s.mrd.wall } := by
  simp [takenFrame, h]

/-- The block once a frame has entered the buffer of pipe `k` (R144). -/
def enterBuffer (s : State) (f : Arrival) (k : Nat) : State :=
  let s0 := useCredits s f.port.toNat f.vc (beatsIn s f)
  { s0.setPipe k { s0.pipe k with buf := (s0.pipe k).buf ++ [takenFrame s f] } with lark.nextId := s.lark.nextId + 1 }

theorem enterBuffer_pipe_self (s : State) (f : Arrival) (k : Nat) :
    (enterBuffer s f k).pipe k = { s.pipe k with buf := (s.pipe k).buf ++ [takenFrame s f] } :=
  State.setPipe_pipe_self ..

theorem enterPort_of_ingressOf {fab : State → FabIn → State} {s : State} {f : Arrival} {k : Nat}
    (hlive : f.port.toNat < 8 → s.pins.stationLive = true) (hin : ingressOf s f.port.toNat = some k) :
    enterPort fab s f = pumpPipe fab ((enterBuffer s f k).pipe k).buf.length (enterBuffer s f k) k := by
  have hport : (decide (f.port.toNat < 8) && !s.pins.stationLive) = false := by
    by_cases h8 : f.port.toNat < 8 <;> simp [h8, hlive]
  unfold enterPort
  extract_lets port
  rw [hport, if_neg Bool.false_ne_true, hin]
  rfl

theorem Holding.entered {s : State} {f : Arrival} {k : Nat} (h : FrameEnters s f k) :
    Holding s (enterBuffer s f k) k (takenFrame s f) [] := by
  obtain ⟨-, -, hcov, -, -, -, -, hbuf, -⟩ := h
  refine ⟨⟨_, rfl, rfl⟩, ?_, fun i => by rw [enterBuffer_pipe_self]⟩
  rw [enterBuffer_pipe_self, hbuf, takenFrame_of_covered hcov]
  rfl

/-- A frame that enters runs at once, alone in its buffer (R144, R151). -/
theorem enterPort_of_enters {fab : State → FabIn → State} {s : State} {f : Arrival} {k : Nat} (h : FrameEnters s f k) :
    enterPort fab s f = runFrame fab (enterBuffer s f k) k (takenFrame s f) := by
  obtain ⟨-, -, hcov, -, -, hlive, hin, hbuf, hmiss⟩ := h
  have hpipe := enterBuffer_pipe_self s f k
  rw [hbuf, List.nil_append] at hpipe
  have hnext : nextRunnable ((enterBuffer s f k).pipe k) = some (takenFrame s f) := by
    rw [hpipe, takenFrame_of_covered hcov]
    rfl
  rw [enterPort_of_ingressOf hlive hin, hpipe, List.length_singleton, pumpPipe, hnext,
    if_neg (show ¬ 4 ≤ missesOf (enterBuffer s f k) k from Nat.not_le.2 hmiss)]
  rfl

/-! ### Checks 1 to 9 -/

/-- A frame that has just entered and passes checks 1 to 8 with its keys opens (Table 3.10). -/
theorem runFrame_opened {fab : State → FabIn → State} {s u : State} {k : Nat} {f : HeldFrame} {h : Hdr} {key : Key} {plain : Bytes}
    (hh : hdrOf f.arr.bytes = h) (hnew : f.replay = none ∧ f.plain = none) (hheader : headerFailure s f.arr h = none)
    (hepoch : epochCheck s h = .ok) (hkeys : lookupKeys s k f.id (frameNeeds s k f) = (u, true))
    (hkey : (frameNeeds s k f).head?.bind (heldKeyOf u k f.id) = some key) (hopen : openFrame key f.arr.bytes = some plain) :
    runFrame fab s k f = openedFrame fab u k f h plain := by
  obtain ⟨hreplay, hplain⟩ := hnew
  simp only [runFrame, hh, hreplay, hplain, hheader, keyedFrame, hepoch, hkeys, hkey, Option.getD_some, hopen, Bool.not_true, Bool.false_eq_true,
    if_false]

/-- A collective-class frame that passes check 9 goes on to check 10. -/
theorem openedFrame_collective {s : State} {h : Hdr} (hseq : check9 s h = true) (hcls : isCollective h.cls = true)
    (fab : State → FabIn → State) (k : Nat) (f : HeldFrame) (plain : Bytes) : openedFrame fab s k f h plain = admitFrame s k f h plain := by
  simp only [openedFrame, hseq, hcls, Bool.not_true, Bool.false_eq_true, if_false, if_true]

/-- Of Larkspur, check 9 reads the records of the streams alone. -/
theorem check9_withLark {s : State} {l : Lark} (hl : l.streams = s.lark.streams) (h : Hdr) : check9 { s with lark := l } h = check9 s h := by
  unfold check9 streamRec
  rw [show State.lark { s with lark := l } = l from rfl, hl]
  rfl

/-- The first lookup of a frame takes the entry that is found, and the others follow. -/
theorem Holding.lookup_first {s u : State} {k i : Nat} {f : HeldFrame} {r : KeyReq} {rs : List KeyReq} (h : Holding s u k f [])
    (hr : kcFind (u.pipe k) r.use r.part r.sel r.epoch = some i) (hrs : ∀ r ∈ rs, ∃ i, (tget {} (s.pipe k).kc i).answers r = true) :
    ∃ v js, lookupKeys u k f.id (r :: rs) = (v, true) ∧ Holding s v k f (i :: js) := by
  obtain ⟨v, js, hv, hold⟩ := (h.hit i).lookup hrs
  refine ⟨v, js, ?_, hold⟩
  have hnone : heldKey (u.pipe k) f.id r = none := heldKey_of_buf h.buf r
  simp only [lookupKeys, hnone, hr, Option.isSome_none, Bool.false_eq_true, if_false, hv]

/-- The request for the key a frame is sealed under, the first that it makes (R151). -/
def frameKeyReq (k : Nat) (h : Hdr) : KeyReq :=
  { pipe := k, use := keyUse h, part := if isCollective h.cls then h.part else 0, sel := keySel h, epoch := h.kEpoch }

theorem keyNeeds_eq (s : State) (k : Nat) (h : Hdr) : keyNeeds s k h = frameKeyReq k h :: (keyNeeds s k h).drop 1 := rfl

/-- A collective-class frame that opens comes to check 10, alone in its buffer and holding its keys. -/
theorem enterPort_of_opens {fab : State → FabIn → State} {s : State} {f : Arrival} {k : Nat} {plain : Bytes}
    (h : FrameOpens s f k plain) (hcls : isCollective (hdrOf f.bytes).cls = true) :
    ∃ u ks, enterPort fab s f = admitFrame u k (takenFrame s f) (hdrOf f.bytes) plain ∧ Holding s u k (takenFrame s f) ks := by
  obtain ⟨henter, hwf, hheader, hepoch, hneeds, ⟨i, hfind, hopen⟩, hseq⟩ := h
  have hanswers : (tget {} (s.pipe k).kc i).answers (frameKeyReq k (hdrOf f.bytes)) = true := answers_of_kcFind hwf hfind
  have hcov : covered s f = true := henter.2.2.1
  have harr : (takenFrame s f).arr = f := by rw [takenFrame_of_covered hcov]
  have hnew : (takenFrame s f).replay = none ∧ (takenFrame s f).plain = none := by
    rw [takenFrame_of_covered hcov]
    exact ⟨rfl, rfl⟩
  have hframe : frameNeeds (enterBuffer s f k) k (takenFrame s f) = keyNeeds s k (hdrOf f.bytes) := by
    rw [frameNeeds, harr, hnew.2]
    rfl
  have hcached : ∀ r ∈ (keyNeeds s k (hdrOf f.bytes)).drop 1, ∃ j, (tget {} (s.pipe k).kc j).answers r = true := fun r hr =>
    have ⟨j, hj⟩ := Option.isSome_iff_exists.1 (hneeds r (List.mem_of_mem_drop hr))
    ⟨j, answers_of_kcFind hwf hj⟩
  obtain ⟨u, js, hkeys, hold⟩ := (Holding.entered henter).lookup_first (i := i) (r := frameKeyReq k (hdrOf f.bytes))
    (by rw [enterBuffer_pipe_self]; exact hfind) hcached
  rw [← keyNeeds_eq, ← hframe] at hkeys
  have hkey : (frameNeeds (enterBuffer s f k) k (takenFrame s f)).head?.bind (heldKeyOf u k (takenFrame s f).id)
      = some (tget {} (s.pipe k).kc i).key := by
    rw [hframe]
    exact hold.heldKeyOf_head hanswers
  refine ⟨u, i :: js, ?_, hold⟩
  obtain ⟨l, rfl, hl⟩ := hold.lark
  rw [enterPort_of_enters henter, ← openedFrame_collective ((check9_withLark hl _).trans hseq) hcls fab]
  exact runFrame_opened (by rw [harr]) hnew (harr.symm ▸ hheader) hepoch hkeys hkey (harr.symm ▸ hopen)

/-! ### Check 10 -/

/-- An entry once a frame of a rank has been heard (R210). -/
def heardFrom (e : Entry) (r : Nat) : Entry := { e with flow := { e.flow with heard := insertNat r e.flow.heard } }

theorem insertEntry_find (x : Entry) (l : List Entry) (p : Entry → Bool) (hx : p x = true) (hl : ∀ e ∈ l, p e = false) :
    (insertEntry x l).find? p = some x := by
  induction l with
  | nil => exact List.find?_cons_of_pos hx
  | cons a r ih =>
    obtain ⟨ha, hr⟩ := List.forall_mem_cons.1 hl
    unfold insertEntry
    split
    · exact List.find?_cons_of_pos hx
    · exact (List.find?_cons_of_neg (by rw [ha]; exact Bool.false_ne_true)).trans (ih hr)

/-- An entry that is put into its list is found there under its key. -/
theorem findEntry_putEntry (s : State) (p : Nat) (e : Entry) : findEntry (putEntry s p e) p e.group e.ticket = some e := by
  unfold findEntry putEntry dropEntry
  rw [State.setEntries_entries_self]
  refine insertEntry_find _ _ _ (by simp) fun a ha => ?_
  simpa only [Bool.not_eq_true'] using (List.mem_filter.1 ha).2

theorem findEntry_key {s : State} {p g t : Nat} {e : Entry} (h : findEntry s p g t = some e) : e.ticket = t := by
  have hkey := List.find?_some h
  exact of_decide_eq_true (Bool.and_eq_true_iff.1 hkey).1

/-- The second half of check 10 on an active entry that the frame fits (Table 6.7): the frame is heard, and no rank stands absent for it. -/
theorem hearFrame_of_active {s : State} {h : Hdr} {rk : RouteKind} {d : Desc} {e : Entry} (hrk : ∀ m, rk ≠ .gap m) (hgroup : e.group = h.group)
    (hticket : e.ticket = h.ticket) (hst : e.st = .active) (hlaunch : e.launched = true → h.digest = e.digest ∧ h.gEpoch = e.gEpoch)
    (helastic : flagElastic h = dElastic d) :
    hearFrame s h rk d e = (.active, putEntry (putEntry s h.part e) h.part (heardFrom e h.rank)) := by
  have hmatch : ¬(e.launched && (decide (h.digest ≠ e.digest) || decide (h.gEpoch ≠ e.gEpoch))) = true := by
    cases hl : e.launched
    · exact Bool.false_ne_true
    · simp [hlaunch hl]
  have hfound : findEntry (putEntry (putEntry s h.part e) h.part (heardFrom e h.rank)) h.part h.group h.ticket = some (heardFrom e h.rank) := by
    rw [← hgroup, ← hticket]
    exact findEntry_putEntry _ _ (heardFrom e h.rank)
  unfold hearFrame
  extract_lets s1 _ _ _ fl e2 s2 s3
  rw [if_neg hmatch, if_neg (not_not_intro helastic)]
  have hs3 : s3 = s2 := by
    cases rk with
    | gap m => exact absurd rfl (hrk m)
    | _ => rfl
  rw [hs3, show findEntry s2 h.part h.group h.ticket = some e2 from hfound]
  exact congrArg (·, s2) (if_pos hst)

/-- A frame that passes check 10 onto an active entry is heard there, and goes on to check 11 (Table 6.7). -/
theorem check10_of_active {s : State} {h : Hdr} {d : Desc} {c : Bool} {e : Entry} (ha : FrameIsActive s h d c e) :
    check10 s h = (.active, putEntry (putEntry s h.part e) h.part (heardFrom e h.rank)) := by
  obtain ⟨hdesc, hroute, hfind, hgroup, hst, hstep, hsilent, hpast, hlaunch, helastic⟩ := ha
  have hrk : routeKind s h d c ≠ .none ∧ ∀ m, routeKind s h d c ≠ .gap m := by
    rcases hroute with hr | hr | hr <;> rw [hr] <;> exact ⟨nofun, nofun⟩
  simp [check10, hdesc, hrk.1, hfind, hsilent, hpast, hst, hstep,
    hearFrame_of_active hrk.2 hgroup (findEntry_key hfind) hst hlaunch helastic]

/-- The state in which check 11 meets a frame of an active entry: from `s` only Larkspur and the entries have changed, the frame stands alone
in its buffer, and the entry has heard it. -/
structure MeetsEntry (s v : State) (k : Nat) (f : HeldFrame) (h : Hdr) (e : Entry) : Prop where
  state : ∃ (l : Lark) (es : Table (List Entry)), v = { s with lark := l, grp.lists := es } ∧ l.streams = s.lark.streams
  buf : ∃ ks, (v.pipe k).buf = [{ f with keys := ks }]
  was : findEntry s h.part h.group h.ticket = some e
  entry : findEntry v h.part h.group h.ticket = some (heardFrom e h.rank)

theorem MeetsEntry.of_holding {s u : State} {k : Nat} {f : HeldFrame} {ks : List Nat} {h : Hdr} {d : Desc} {c : Bool} {e : Entry}
    (hold : Holding s u k f ks) (ha : FrameIsActive s h d c e) :
    (check10 u h).1 = .active ∧ MeetsEntry s (check10 u h).2 k f h e := by
  obtain ⟨l, rfl, hl⟩ := hold.lark
  rw [check10_of_active (s := { s with lark := l }) ha]
  obtain ⟨-, -, hfind, hgroup, -⟩ := ha
  refine ⟨rfl, ⟨l, _, rfl, hl⟩, ⟨ks, hold.buf⟩, hfind, ?_⟩
  rw [← hgroup, ← findEntry_key hfind]
  exact findEntry_putEntry _ _ (heardFrom e h.rank)

/-- A frame of an open port goes to its pipe, and what it releases returns (R123). -/
theorem ingressFrame_of_enters {fab : State → FabIn → State} {s : State} {f : Arrival} {k : Nat} (h : FrameEnters s f k) :
    ingressFrame fab s f
      = returnScaled fab (enterPort fab s f) (hdrOf f.bytes).part (hdrOf f.bytes).group (hdrOf f.bytes).ticket := by
  obtain ⟨harith, hlive, -, hport, hhost, -⟩ := h
  have hopen : (decide (8 ≤ f.port.toNat) && (decide (s.blk.profile = 2) || s.rhmb.lspSrc.testBit (f.port.toNat - 8))) = false := by
    by_cases h8 : 8 ≤ f.port.toNat
    · obtain ⟨hprofile, hsrc⟩ := hhost h8
      simp [hprofile, hsrc]
    · simp [h8]
  simp [ingressFrame, takeFrame, hlive, Nat.not_le.2 hport, hopen, harith]

/-- A frame that opens onto an active entry comes to check 11 (Table 3.10). -/
theorem ingressFrame_of_active {fab : State → FabIn → State} {s : State} {f : Arrival} {k : Nat} {plain : Bytes} {h : Hdr} {d : Desc} {c : Bool}
    {e : Entry} (hh : h = hdrOf f.bytes) (ho : FrameOpens s f k plain) (ha : FrameIsActive s h d c e) (hcls : isCollective h.cls = true) :
    ∃ v, ingressFrame fab s f = returnScaled fab (takeActive v k (takenFrame s f) h plain) h.part h.group h.ticket
      ∧ MeetsEntry s v k (takenFrame s f) h e := by
  subst hh
  obtain ⟨u, ks, hu, hold⟩ := enterPort_of_opens (fab := fab) ho hcls
  obtain ⟨hactive, hmeets⟩ := MeetsEntry.of_holding hold ha
  refine ⟨_, ?_, hmeets⟩
  rw [ingressFrame_of_enters ho.1, hu]
  simp only [admitFrame, hactive]

/-! ### What check 11 reads -/

theorem tileRec_congr {u v : State} (h : u.phlx = v.phlx) (w t : Nat) : tileRec u w t = tileRec v w t := by
  rw [tileRec, tileRec, recKey, recKey, granuleAt, granuleAt, State.win, State.win, h]

theorem findEntry_congr {u v : State} (h : u.grp = v.grp) (p g t : Nat) : findEntry u p g t = findEntry v p g t := by
  rw [findEntry, findEntry, State.entries, State.entries, h]

section
variable {s v : State} {k : Nat} {f : HeldFrame} {h : Hdr} {e : Entry} (m : MeetsEntry s v k f h e)
include m

theorem MeetsEntry.phlx : v.phlx = s.phlx := by
  obtain ⟨l, es, rfl, -⟩ := m.state
  rfl

theorem MeetsEntry.snd : v.snd = s.snd := by
  obtain ⟨l, es, rfl, -⟩ := m.state
  rfl

theorem MeetsEntry.recKey (w t : Nat) : recKey v (v.win w) t = Machine.recKey s (s.win w) t := by
  obtain ⟨l, es, rfl, -⟩ := m.state
  rfl

theorem MeetsEntry.descAt (p g step : Nat) : descAt v p g step = Machine.descAt s p g step := by
  obtain ⟨l, es, rfl, -⟩ := m.state
  rfl

theorem MeetsEntry.openWin (p g t : Nat) : openWin v p g t = Machine.openWin s p g t := by
  obtain ⟨l, es, rfl, -⟩ := m.state
  rfl

theorem MeetsEntry.streamNext (b : Nat) : streamNext v h b = Machine.streamNext s h b := by
  obtain ⟨l, es, rfl, hl⟩ := m.state
  exact congrArg (fun rs : List StreamRec => ((rs.find? (fun r => decide (r.key = streamKey h))).map (fun r => tget 0 r.next b)).getD 0) hl

theorem MeetsEntry.resyncFrame : resyncFrame v h = Machine.resyncFrame s h := by
  rw [Machine.resyncFrame, Machine.resyncFrame, m.entry, m.was]
  rfl

theorem MeetsEntry.scaleIsDist : scaleIsDist v h = Machine.scaleIsDist s h := by
  rw [Machine.scaleIsDist, Machine.scaleIsDist, m.entry, m.was, m.descAt]
  obtain ⟨l, es, rfl, -⟩ := m.state
  rcases Machine.descAt s h.part h.group h.step with _ | ⟨d, c⟩ <;> rfl

theorem MeetsEntry.lacksScale (d : Desc) (w : Nat) (ts : List Tile) : lacksScale v h d w ts = Machine.lacksScale s h d w ts := by
  obtain ⟨l, es, rfl, -⟩ := m.state
  rfl

theorem MeetsEntry.expsValid (d : Desc) (w : Nat) (ts : List Tile) : expsValid v h d w ts = Machine.expsValid s h d w ts := by
  obtain ⟨l, es, rfl, -⟩ := m.state
  rfl

end

/-! ### A frame leaves its buffer -/

theorem creditReturn_eq (n : Nat) (s : State) (port : Nat) (vc : Bool) (c : Nat) :
    ∃ r o, creditReturn n s port vc c = { s with rhmb := r, out := o } := by
  induction n generalizing s c with
  | zero => exact ⟨_, _, rfl⟩
  | succ n ih =>
    unfold creditReturn
    split
    · exact ⟨_, _, rfl⟩
    · split
      · exact ⟨_, _, rfl⟩
      · exact ih (s.emit (.credit port vc (min c 255))) (c - min c 255)

theorem unholdKeys_buf (p : Pipe) (ks : List Nat) : (unholdKeys p ks).buf = p.buf := by
  unfold unholdKeys
  induction ks generalizing p with
  | nil => rfl
  | cons i ks ih => exact ih _

/-- The one frame of a buffer leaves it (R98): the keys it holds and its credits are all that changes beside. -/
theorem leaveBuffer_single {s : State} {k : Nat} {f : HeldFrame} (h : (s.pipe k).buf = [f]) :
    (leaveBuffer s k f.id).phlx = s.phlx ∧ (leaveBuffer s k f.id).grp = s.grp ∧ ((leaveBuffer s k f.id).pipe k).buf = [] := by
  have hbuf : (unholdKeys { s.pipe k with buf := (s.pipe k).buf.filter (fun x => x.id ≠ f.id) } f.keys).buf = [] := by
    rw [unholdKeys_buf, h]
    simp
  have hfind : (s.pipe k).buf.find? (fun x => x.id = f.id) = some f := by
    rw [h]
    exact List.find?_cons_of_pos (decide_eq_true rfl)
  have hpipe := State.setPipe_pipe_self s k (unholdKeys { s.pipe k with buf := (s.pipe k).buf.filter (fun x => x.id ≠ f.id) } f.keys)
  unfold leaveBuffer
  simp only [hfind]
  split
  · exact ⟨rfl, rfl, by rw [hpipe, hbuf]⟩
  · unfold returnCredits giveCredits
    obtain ⟨r, o, hr⟩ := creditReturn_eq 6 _ f.arr.port.toNat f.arr.vc (creditsOf f.arr.bytes.length)
    rw [hr]
    exact ⟨rfl, rfl, (congrArg Pipe.buf hpipe).trans hbuf⟩

theorem countTaken_eq (s : State) (k : Nat) (f : HeldFrame) :
    (countTaken s k f).phlx = s.phlx ∧ (countTaken s k f).grp = s.grp ∧ (countTaken s k f).snd = s.snd
      ∧ ((countTaken s k f).pipe k).buf = (s.pipe k).buf := by
  unfold countTaken
  split
  · exact ⟨rfl, rfl, rfl, rfl⟩
  · exact ⟨rfl, rfl, rfl, by rw [larkCount_pipe_self, larkCount_pipe_self]⟩

/-- An accepted frame whose work is done leaves its buffer and is counted. -/
theorem countTaken_leaveBuffer {s : State} {k : Nat} {f : HeldFrame} {ks : List Nat} (h : (s.pipe k).buf = [{ f with keys := ks }]) :
    (countTaken (leaveBuffer s k f.id) k f).phlx = s.phlx ∧ (countTaken (leaveBuffer s k f.id) k f).grp = s.grp
      ∧ ((countTaken (leaveBuffer s k f.id) k f).pipe k).buf = [] := by
  obtain ⟨hphlx, hgrp, hbuf⟩ := leaveBuffer_single h
  obtain ⟨hphlx', hgrp', -, hbuf'⟩ := countTaken_eq (leaveBuffer s k f.id) k f
  exact ⟨hphlx'.trans hphlx, hgrp'.trans hgrp, hbuf'.trans hbuf⟩

end Sys2Proof.Machine
end

section
/-! `SCALE` frames of one byte onto an active entry: the combined byte on the reduce way, the agreed exponent on the distribution way (R118 to
R122). -/

namespace Sys2Proof.Machine

/-- An entry that has combined a byte into the maximum of one tile, from a source that has now sent that tile (R119, R120). -/
def scaleCombined (e : Entry) (h : Hdr) (x : Byte) : Entry :=
  { e with flow := { e.flow with
      scaleMax := tset 0x80 e.flow.scaleMax h.first
        (if sInt 8 (tget 0x80 e.flow.scaleMax h.first) < sInt 8 x.toNat then x.toNat else tget 0x80 e.flow.scaleMax h.first)
      scaleRuns := e.flow.scaleRuns ++ [(h.first, 1, h.hop)]
      scaleMarks := tset 0 e.flow.scaleMarks h.rank (h.first + 1) } }

theorem scaleCombined_scaleMarks (e : Entry) (h : Hdr) (x : Byte) : tget 0 (scaleCombined e h x).flow.scaleMarks h.rank = h.first + 1 := by
  rw [scaleCombined, tget_tset_self]

/-- The byte that stands after a combination is the larger of the two as signed bytes (R119). -/
theorem scaleCombined_scaleMax_self (e : Entry) (h : Hdr) (x : Byte) :
    sInt 8 (tget 0x80 (scaleCombined e h x).flow.scaleMax h.first) = max (sInt 8 (tget 0x80 e.flow.scaleMax h.first)) (sInt 8 x.toNat) := by
  rw [scaleCombined, tget_tset_self]
  split
  · next hlt => exact (max_eq_right hlt.le).symm
  · next hge => exact (max_eq_left (not_lt.1 hge)).symm

theorem scaleCombined_scaleMax_ne (e : Entry) {h : Hdr} (x : Byte) {j : Nat} (hj : j ≠ h.first) :
    tget 0x80 (scaleCombined e h x).flow.scaleMax j = tget 0x80 e.flow.scaleMax j :=
  tget_tset_ne _ _ _ _ _ hj

/-- An entry that has received the agreed exponent of one tile (R121). -/
def scaleReceived (e : Entry) (h : Hdr) : Entry :=
  { e with flow := { e.flow with agreed := h.first + 1, distRuns := e.flow.distRuns ++ [(h.first, 1, h.hop)] } }

/-- The record of a tile takes its agreed exponent. -/
def scaleWritten (s : State) (h : Hdr) (w : Nat) (x : Byte) : State :=
  setTileRec s w h.first { tileRec s w h.first with scale := x.toNat }

theorem scaleWritten_tileRec (s : State) (h : Hdr) (w : Nat) (x : Byte) :
    tileRec (scaleWritten s h w x) w h.first = { tileRec s w h.first with scale := x.toNat } :=
  tget_tset_self ..

theorem scaleWritten_recs_ne {s : State} {h : Hdr} {w : Nat} {x : Byte} {j : Nat} (hj : j ≠ recKey s (s.win w) h.first) :
    tget {} (scaleWritten s h w x).phlx.recs j = (tget {} s.phlx.recs j : TileRec) :=
  tget_tset_ne _ _ _ _ _ hj

/-- The entry stands in its list, and the frame leaves its buffer and is counted. -/
def scaleDone (s : State) (k : Nat) (f : HeldFrame) (p : Nat) (y : Entry) : State := countTaken (leaveBuffer (putEntry s p y) k f.id) k f

/-- What a `SCALE` frame leaves, where its work beside the entry has left the pipes alone. -/
theorem MeetsEntry.scaleDone {s v t : State} {k : Nat} {f : HeldFrame} {h : Hdr} {e y : Entry} (m : MeetsEntry s v k f h e)
    (hpipes : t.lark.pipes = v.lark.pipes) (hgroup : y.group = h.group) (hticket : y.ticket = e.ticket) :
    findEntry (scaleDone t k f h.part y) h.part h.group h.ticket = some y ∧ (scaleDone t k f h.part y).phlx = t.phlx
      ∧ ((scaleDone t k f h.part y).pipe k).buf = [] := by
  obtain ⟨ks, hbuf⟩ := m.buf
  have hput : ((putEntry t h.part y).pipe k).buf = [{ f with keys := ks }] := by
    rw [← hbuf, State.pipe, State.pipe, ← hpipes]
    rfl
  obtain ⟨hphlx, hgrp, hempty⟩ := countTaken_leaveBuffer hput
  refine ⟨?_, hphlx, hempty⟩
  rw [Machine.scaleDone, findEntry_congr hgrp, ← hgroup, ← findEntry_key m.was, ← hticket]
  exact findEntry_putEntry ..

section
variable {s : State} {k w : Nat} {f : HeldFrame} {h : Hdr} {x : Byte} {d : Desc} {e : Entry} (htiles : h.tiles = 1) (hfix : dFixed d = false)
  (hfmt : h.fmt = dInFmt d) (hop : h.op = dOp d) (hx : x ≠ 0x81) (hend : h.first + 1 ≤ dTiles d)
  (hlast : flagLast h = decide (h.first + 1 = dTiles d))
include htiles hfix hfmt hop hx hend hlast

/-- Check 11 passes a byte on the reduce way at its source's mark, and the byte is combined (R118 to R120). -/
theorem takeScale_reduce (hdist : scaleIsDist s h = false) (hfirst : h.first = tget 0 e.flow.scaleMarks h.rank) :
    takeScale s k f h [x] d w e
      = progress (scaleDone (recordStream s h) k f h.part (scaleCombined e h x)) h.part h.group h.ticket := by
  have hvalid : scaleBytesValid false [x] = true := by simpa [scaleBytesValid] using hx
  simp [takeScale, hdist, hvalid, hfix, ← hfirst, htiles, Nat.not_lt.2 hend, hlast, hfmt, hop, scaleCombined, scaleDone]

/-- Check 11 passes a byte on the distribution way where the agreed exponents end, and the byte is its tile's exponent (R118, R121). -/
theorem takeScale_dist (hdist : scaleIsDist s h = true) (hfirst : h.first = e.flow.agreed) (hx0 : x ≠ 0x80) :
    takeScale s k f h [x] d w e
      = progress (scaleDone (scaleWritten (recordStream s h) h w x) k f h.part (scaleReceived e h)) h.part h.group h.ticket := by
  have hvalid : scaleBytesValid true [x] = true := by simpa [scaleBytesValid] using ⟨hx, hx0⟩
  simp [takeScale, hdist, hvalid, hfix, ← hfirst, htiles, Nat.not_lt.2 hend, hlast, hfmt, hop, scaleReceived, scaleWritten, scaleDone]

end

/-- A `SCALE` frame of an active entry comes to its combination. -/
theorem takeActive_scale {s v : State} {k w : Nat} {f : HeldFrame} {h : Hdr} {plain : Bytes} {d : Desc} {c : Bool} {e : Entry}
    (m : MeetsEntry s v k f h e) (hdesc : descAt s h.part h.group h.step = some (d, c)) (hwin : openWin s h.part h.group h.ticket = some w)
    (hcls : h.cls = 2) : takeActive v k f h plain = takeScale v k f h plain d w (heardFrom e h.rank) := by
  simp only [takeActive, m.entry, m.descAt, m.openWin, hdesc, hwin, hcls, if_true]

/-- Settles O29: the frame opens onto its entry, check 11 passes its byte, and the entry or the tile's record takes it. -/
theorem scaleFramesAgreeExponents : Obligations.ScaleFramesAgreeExponents := by
  intro s f v k x h d c e w hh ho ha hwin hcls htiles hfix hfmt hop hx hend hlast
  obtain ⟨u, hu, m⟩ := ingressFrame_of_active (fab := fab noStepIn) hh ho ha (by rw [hcls]; rfl)
  obtain ⟨hdesc, -, -, hgroup, -⟩ := ha
  rw [takeActive_scale m hdesc hwin hcls] at hu
  constructor
  · intro hdist hfirst
    rw [takeScale_reduce (e := heardFrom e h.rank) htiles hfix hfmt hop hx hend hlast (m.scaleIsDist.trans hdist) hfirst] at hu
    obtain ⟨hfind, hphlx, hempty⟩ := m.scaleDone (t := recordStream u h) (y := scaleCombined (heardFrom e h.rank) h x) rfl hgroup rfl
    exact ⟨_, _, congrArg (fun t => Host.Outcome.next (eccAdded s t v)) hu, hfind, rfl, scaleCombined_scaleMarks .., scaleCombined_scaleMax_self ..,
      fun j hj => scaleCombined_scaleMax_ne _ x hj, hphlx.trans m.phlx, hempty⟩
  · intro hdist hfirst hx0
    rw [takeScale_dist (e := heardFrom e h.rank) htiles hfix hfmt hop hx hend hlast (m.scaleIsDist.trans hdist) hfirst hx0] at hu
    obtain ⟨hfind, hphlx, hempty⟩ :=
      m.scaleDone (t := scaleWritten (recordStream u h) h w x) (y := scaleReceived (heardFrom e h.rank) h) rfl hgroup rfl
    refine ⟨_, _, congrArg (fun t => Host.Outcome.next (eccAdded s t v)) hu, hfind, rfl, ?_, ?_, fun j hj => ?_, hempty⟩
    · rw [hphlx, ← m.phlx]
      rfl
    · rw [tileRec_congr hphlx, ← tileRec_congr m.phlx]
      exact scaleWritten_tileRec ..
    · rw [hphlx, ← m.phlx]
      rw [← m.recKey] at hj
      exact scaleWritten_recs_ne hj

end Sys2Proof.Machine
end

section
/-! One tile of a `DATA` or `RESULT` frame onto an active entry: what reaches the window (Table 4.4), and the Sounding check it waits for. -/

namespace Sys2Proof.Machine

/-! ### A tile in the window -/

theorem rawLanes_congr {u v : State} (h : u.phlx = v.phlx) (w t : Nat) : rawLanes u w t = rawLanes v w t := by
  rw [rawLanes, rawLanes, laneKey, laneKey, granuleAt, granuleAt, State.win, State.win, h]

theorem win_congr {u v : State} (h : u.phlx = v.phlx) (w : Nat) : u.win w = v.win w := by
  rw [State.win, State.win, h]

/-- Padding is past the live elements, which an add leaves (R115). -/
theorem addedLanes_padZero (op live : Nat) (fresh : Bool) (old vs : List Int) :
    addedLanes op live fresh old (padZero live vs) = addedLanes op live fresh old vs := by
  refine List.map_congr_left fun e he => ?_
  by_cases hlive : live ≤ e
  · rw [if_pos hlive, if_pos hlive]
  · have hpad : (padZero live vs).getD e 0 = vs.getD e 0 := by
      rw [padZero, List.getD_eq_getElem?_getD, List.getElem?_map, List.getElem?_range (List.mem_range.1 he)]
      exact if_neg hlive
    rw [hpad]

section
variable (s : State) (w op live t flags hop : Nat) (vs : List Int)

theorem addTile_phlx : (addTile s w op live t flags hop vs).phlx
    = { s.phlx with lanes := (addTile s w op live t flags hop vs).phlx.lanes, recs := (addTile s w op live t flags hop vs).phlx.recs } := rfl

/-- An add leaves the combined lanes (R131, R132, R169). -/
theorem rawLanes_addTile : rawLanes (addTile s w op live t flags hop vs) w t
    = addedLanes op live (tileRec s w t).fresh (readLanes s w t) vs := by
  refine (tget_tset_self ..).trans ?_
  rw [List.map_map]
  refine List.map_congr_left fun e _ => ?_
  simp only [Function.comp, apply_ite Prod.fst]

/-- An add keeps a tile's exponent, unites its flags and takes the higher hop (R162). -/
theorem tileRec_addTile : ∃ sat, tileRec (addTile s w op live t flags hop vs) w t
    = { tileRec s w t with fresh := false, flags := ((tileRec s w t).flags ||| flags) ||| sat, hop := max (tileRec s w t).hop hop } :=
  ⟨_, tget_tset_self ..⟩

theorem addTile_lanes_ne {j : Nat} (hj : j ≠ laneKey s (s.win w) t) :
    tget zeroLanes (addTile s w op live t flags hop vs).phlx.lanes j = tget zeroLanes s.phlx.lanes j :=
  tget_tset_ne _ _ _ _ _ hj

end

section
variable (s : State) (w : Nat) (h : Hdr) (x : Fed)

theorem writeResult_win_self : (writeResult s w h [x]).win w = { s.win w with st := .releasing } :=
  State.setWin_win_self ..

theorem writeResult_win_ne {j : Nat} (hj : j ≠ w) : (writeResult s w h [x]).win j = s.win j :=
  State.setWin_win_ne _ _ _ _ hj

/-- A written tile stands with its lanes (R115, R173). -/
theorem rawLanes_writeResult : rawLanes (writeResult s w h [x]) w x.tile.idx = x.a := by
  rw [rawLanes, writeResult_win_self]
  exact tget_tset_self ..

theorem tileRec_writeResult : tileRec (writeResult s w h [x]) w x.tile.idx
    = { scale := x.tile.exp, fresh := false, flags := x.tile.flags, hop := h.hop } := by
  rw [tileRec, writeResult_win_self]
  exact tget_tset_self ..

theorem writeResult_lanes_ne {j : Nat} (hj : j ≠ laneKey s (s.win w) x.tile.idx) :
    tget zeroLanes (writeResult s w h [x]).phlx.lanes j = tget zeroLanes s.phlx.lanes j :=
  tget_tset_ne _ _ _ _ _ hj

end

/-! ### A tile at the adder's input -/

/-- Without stochastic rounding stage 2 takes no key (R125). -/
theorem stage2_key {d : Desc} (hst : dStoch d = false) (h : Hdr) (key : Key) (ea : Nat) (t : Tile) : stage2 d h key ea t = stage2 d h 0 ea t := by
  simp [stage2, hst]

/-- A running-sum tile and a received result go to the window as they are (R115, R129). -/
theorem feed_asIs {h : Hdr} (hk : ¬(h.cls = 1 ∧ h.hop = 0)) (s : State) (d : Desc) (w : Nat) (key : Key) (b : Tile) :
    feed s h d w key [b] = [{ tile := b, flags := b.flags, y := [], a := padZero (liveElems (dElems d) b.idx) b.vals }] :=
  if_neg hk

/-- A hop-0 tile is requantised, clamped and selected first (Table 4.4). -/
theorem feed_hop0 {h : Hdr} (hk : h.cls = 1 ∧ h.hop = 0) (s : State) (d : Desc) (w : Nat) (key : Key) (b : Tile) :
    ∃ x, feed s h d w key [b] = [x] ∧ x.tile = b
      ∧ (dClip d = false → dStoch d = false → x.a = stage4 d b 0x8000 (stage3 d (stage2 d h 0 (agreedOf s w b.idx) b)).1) := by
  refine ⟨_, if_pos hk, rfl, fun hclip hst => ?_⟩
  simp [hclip, stage2_key hst h key]

/-! ### What stands beside the window -/

theorem releaseKeys_eq (s : State) (k id : Nat) :
    (releaseKeys s k id).phlx = s.phlx ∧ (releaseKeys s k id).snd = s.snd ∧ (releaseKeys s k id).grp = s.grp := by
  unfold releaseKeys
  split <;> exact ⟨rfl, rfl, rfl⟩

theorem countHop0_eq (s : State) (d : Desc) (xs : List Fed) : ∃ z a, countHop0 s d xs = { s with zin := z, aster := a } := by
  unfold countHop0
  extract_lets segs cut _ s1 ties
  have hs1 : s1 = { s with zin := s1.zin } := by
    unfold s1
    split <;> rfl
  rw [hs1]
  split
  · exact ⟨_, _, rfl⟩
  · split <;> exact ⟨_, _, rfl⟩

theorem countHopN_eq (s : State) (d : Desc) (xs : List Fed) : ∃ a, countHopN s d xs = { s with aster := a } := by
  unfold countHopN
  split
  · exact ⟨_, rfl⟩
  · split <;> exact ⟨_, rfl⟩

/-- The adder's counters (R257, R258) stand apart from the window. -/
theorem addFed_eq (s : State) (h : Hdr) (d : Desc) (w : Nat) (x : Fed) :
    (addFed s h d w [x]).phlx = (addTile s w (dOp d) (liveElems (dElems d) x.tile.idx) x.tile.idx x.flags h.hop x.a).phlx
      ∧ (addFed s h d w [x]).snd = s.snd ∧ (addFed s h d w [x]).grp = s.grp := by
  unfold addFed
  extract_lets s1
  split
  · obtain ⟨z, a, hcount⟩ := countHop0_eq s1 d [x]
    rw [hcount]
    exact ⟨rfl, rfl, rfl⟩
  · obtain ⟨a, hcount⟩ := countHopN_eq s1 d [x]
    rw [hcount]
    exact ⟨rfl, rfl, rfl⟩

theorem findEntry_putEntry_of_key {s : State} {p g t : Nat} {e : Entry} (hg : e.group = g) (ht : e.ticket = t) :
    findEntry (putEntry s p e) p g t = some e :=
  hg ▸ ht ▸ findEntry_putEntry s p e

/-- The Sounding check that a tile waits for (R264). -/
def checkOf (s : State) (k : Nat) (f : HeldFrame) (h : Hdr) (d : Desc) (w : Nat) (x : Fed) : Check :=
  { pipe := k, part := h.part, group := h.group, ticket := h.ticket, tile := x.tile.idx, frame := f.id, arr := f.arr, job := jobOf s h d w x }

section
variable (old s : State) (k : Nat) (f : HeldFrame) (w : Nat) (h : Hdr) (d : Desc) (c : Bool) (xs : List Fed)

theorem noteTiles_eq : (noteTiles old s k f w h d c xs).phlx = s.phlx
    ∧ (noteTiles old s k f w h d c xs).snd = { s.snd with checks := s.snd.checks ++ xs.map (checkOf old k f h d w) } := by
  unfold noteTiles
  extract_lets
  split <;> exact ⟨rfl, rfl⟩

/-- The tiles of a frame move its entry's marks, and leave its part and its relays. -/
theorem findEntry_noteTiles {e : Entry} (hfind : findEntry s h.part h.group h.ticket = some e) (hgroup : e.group = h.group) :
    ∃ fl : Flow, findEntry (noteTiles old s k f w h d c xs) h.part h.group h.ticket = some { e with flow := fl } ∧ fl.relay = e.flow.relay := by
  unfold noteTiles
  extract_lets idxs upto full new _ s1 s2 src
  rw [show findEntry s2 h.part h.group h.ticket = some e from hfind]
  have hticket := findEntry_key hfind
  exact ⟨_, findEntry_putEntry_of_key (e := { e with flow := _ }) hgroup hticket, rfl⟩

end

/-- The block with one tile of a frame added or written (Table 4.4 stage 5, R173). -/
def tileLanded (s : State) (h : Hdr) (d : Desc) (w : Nat) (x : Fed) : State := if h.cls = 3 then writeResult s w h [x] else addFed s h d w [x]

theorem tileLanded_eq (s : State) (h : Hdr) (d : Desc) (w : Nat) (x : Fed) :
    (tileLanded s h d w x).snd = s.snd ∧ (tileLanded s h d w x).grp = s.grp := by
  unfold tileLanded
  split
  · exact ⟨rfl, rfl⟩
  · exact (addFed_eq s h d w x).2

/-- What an accepted frame of one tile leaves: the window, a check that waits, and the entry but for its marks. -/
theorem putTiles_single (s : State) (k : Nat) (f : HeldFrame) (h : Hdr) (d : Desc) (c : Bool) (w : Nat) (b : Tile) :
    ∃ key, ∀ x, feed s h d w key [b] = [x] →
      (putTiles s k f h d c w [b]).phlx = (tileLanded s h d w x).phlx
      ∧ (putTiles s k f h d c w [b]).snd = { s.snd with checks := s.snd.checks ++ [checkOf s k f h d w x] }
      ∧ ∀ e, findEntry s h.part h.group h.ticket = some e → e.group = h.group →
        ∃ fl : Flow, findEntry (putTiles s k f h d c w [b]) h.part h.group h.ticket = some { e with flow := fl } ∧ fl.relay = e.flow.relay := by
  refine ⟨(heldKeyOf s k f.id { pipe := k, use := 2, part := h.part, sel := 0, epoch := h.kEpoch }).getD 0, fun x hx => ?_⟩
  have hput : putTiles s k f h d c w [b]
      = releaseKeys (noteTiles s (recordStream (tileLanded s h d w x) h) k f w h d c [x]) k f.id := by
    rw [putTiles, hx]
    rfl
  obtain ⟨hsnd, hgrp⟩ := tileLanded_eq s h d w x
  obtain ⟨hphlx', hsnd'⟩ := noteTiles_eq s (recordStream (tileLanded s h d w x) h) k f w h d c [x]
  obtain ⟨hphlx'', hsnd'', hgrp''⟩ := releaseKeys_eq (noteTiles s (recordStream (tileLanded s h d w x) h) k f w h d c [x]) k f.id
  rw [hput]
  refine ⟨hphlx''.trans hphlx', ?_, fun e hfind hgroup => ?_⟩
  · rw [hsnd'', hsnd', show (recordStream (tileLanded s h d w x) h).snd = s.snd from hsnd]
    rfl
  · have hlanded : findEntry (recordStream (tileLanded s h d w x) h) h.part h.group h.ticket = some e := (findEntry_congr hgrp ..).trans hfind
    rw [findEntry_congr hgrp'']
    exact findEntry_noteTiles s _ k f w h d c [x] hlanded hgroup

/-! ### Check 11 -/

theorem takeActive_tiles {s v : State} {k w : Nat} {f : HeldFrame} {h : Hdr} {plain : Bytes} {d : Desc} {c : Bool} {e : Entry}
    (m : MeetsEntry s v k f h e) (hdesc : descAt s h.part h.group h.step = some (d, c)) (hwin : openWin s h.part h.group h.ticket = some w)
    (hcls : h.cls ≠ 2) :
    takeActive v k f h plain = takeTiles v k f h plain d c w (decide (Machine.streamNext v h (if h.cls = 3 then 3 else 0) = 0)) := by
  simp only [takeActive, m.entry, m.descAt, m.openWin, hdesc, hwin, hcls, if_false]

theorem markAbsent_nil (s : State) (p : Nat) (e : Entry) : markAbsent s p e [] [] = s := if_pos ⟨rfl, rfl⟩

theorem modFlow_eq (s : State) (p g t : Nat) (fn : Flow → Flow) : (modFlow s p g t fn).phlx = s.phlx ∧ (modFlow s p g t fn).snd = s.snd := by
  unfold modFlow
  split <;> exact ⟨rfl, rfl⟩

theorem findEntry_modFlow {s : State} {p g t : Nat} {e : Entry} (hfind : findEntry s p g t = some e) (hgroup : e.group = g) (fn : Flow → Flow) :
    findEntry (modFlow s p g t fn) p g t = some { e with flow := fn e.flow } := by
  have hticket := findEntry_key hfind
  rw [modFlow, hfind]
  exact findEntry_putEntry_of_key (e := { e with flow := fn e.flow }) hgroup hticket

/-- The frame is relayed: it is a result, and its group distributes (R550). -/
def frameRelays (s : State) (h : Hdr) (d : Desc) : Bool :=
  h.cls = 3 && ((findEntry s h.part h.group h.ticket).map (fun (e : Entry) => decide (relayPorts d e ≠ 0))).getD false

/-- The frame waits in its buffer for the check of its one tile, and for its relay (R264, R550); it is counted. -/
def frameWaits (s : State) (k : Nat) (f : HeldFrame) (h : Hdr) (plain : Bytes) (relays : Bool) : State :=
  let s1 := countTaken (modHeld s k f.id (fun x => { x with st := .checking 1 relays })) k f
  if relays then modFlow s1 h.part h.group h.ticket (fun fl =>
    { fl with relay := fl.relay ++ [(k, f.id, (List.range 8).map (hdrWord f.arr.bytes), plain)] }) else s1

theorem frameWaits_eq (s : State) (k : Nat) (f : HeldFrame) (h : Hdr) (plain : Bytes) (relays : Bool) :
    (frameWaits s k f h plain relays).phlx = s.phlx ∧ (frameWaits s k f h plain relays).snd = s.snd := by
  unfold frameWaits
  extract_lets s1
  obtain ⟨hphlx, -, hsnd, -⟩ := countTaken_eq (modHeld s k f.id (fun x => { x with st := .checking 1 relays })) k f
  split
  · obtain ⟨hphlx', hsnd'⟩ := modFlow_eq s1 h.part h.group h.ticket (fun fl =>
      { fl with relay := fl.relay ++ [(k, f.id, (List.range 8).map (hdrWord f.arr.bytes), plain)] })
    exact ⟨hphlx'.trans hphlx, hsnd'.trans hsnd⟩
  · exact ⟨hphlx, hsnd⟩

theorem findEntry_frameWaits {s : State} {h : Hdr} {e : Entry} (hfind : findEntry s h.part h.group h.ticket = some e) (hgroup : e.group = h.group)
    (k : Nat) (f : HeldFrame) (plain : Bytes) :
    (findEntry (frameWaits s k f h plain true) h.part h.group h.ticket).map (fun y => y.flow.relay)
      = some (e.flow.relay ++ [(k, f.id, (List.range 8).map (hdrWord f.arr.bytes), plain)]) := by
  obtain ⟨-, hgrp, -⟩ := countTaken_eq (modHeld s k f.id (fun x => { x with st := .checking 1 true })) k f
  rw [frameWaits, if_pos rfl, findEntry_modFlow ((findEntry_congr (hgrp.trans rfl) ..).trans hfind) hgroup]
  rfl

/-- A frame of one tile that passes check 11 lands its tile and waits (R138, R264). -/
theorem takeTiles_single {s : State} {k w : Nat} {f : HeldFrame} {h : Hdr} {plain : Bytes} {d : Desc} {c first : Bool} {b : Tile}
    (habs : flagAbsent h = false) (hread : readTiles h.fmt (flagSparse h) h.tiles true h.first plain = ([b], []))
    (hlen : flagSparse h = true ∨ plain.length = h.tiles * denseSize h.fmt) (hscale : lacksScale s h d w [b] = false)
    (hsparse : sparseFails h d b = false)
    (hvalid : tilesValid (streamNext s h (if h.cls = 3 then 3 else 0)) h d (resyncFrame s h) [b] = true) (hexp : expsValid s h d w [b] = true) :
    takeTiles s k f h plain d c w first
      = progress (frameWaits (putTiles s k f h d c w [b]) k f h plain (frameRelays s h d)) h.part h.group h.ticket := by
  have hdense : (!flagSparse h && decide (plain.length ≠ h.tiles * denseSize h.fmt)) = false := by
    rcases hlen with hs | hl
    · simp [hs]
    · simp [hl]
  unfold takeTiles
  simp only [habs, hread, hdense, hscale, hvalid, hexp, List.any_cons, List.any_nil, hsparse, Bool.or_false, Bool.false_eq_true, if_false, ne_eq,
    not_true_eq_false, decide_false, Bool.not_true, markAbsent_nil]
  split <;> rfl

/-! ### The two classes -/

section
variable {s v : State} {k : Nat} {f : HeldFrame} {h : Hdr} {e : Entry} (m : MeetsEntry s v k f h e) (d : Desc) (w : Nat)
include m

theorem MeetsEntry.feed (key : Key) (ts : List Tile) : feed v h d w key ts = Machine.feed s h d w key ts := by
  obtain ⟨l, es, rfl, -⟩ := m.state
  rfl

theorem MeetsEntry.checkOf (x : Fed) : checkOf v k f h d w x = Machine.checkOf s k f h d w x := by
  obtain ⟨l, es, rfl, -⟩ := m.state
  rfl

theorem MeetsEntry.tileLanded_phlx (x : Fed) : (tileLanded v h d w x).phlx = (tileLanded s h d w x).phlx := by
  unfold tileLanded
  split
  · obtain ⟨l, es, rfl, -⟩ := m.state
    rfl
  · rw [(addFed_eq v h d w x).1, (addFed_eq s h d w x).1]
    obtain ⟨l, es, rfl, -⟩ := m.state
    rfl

theorem MeetsEntry.frameRelays (hcls : h.cls = 3) (hports : relayPorts d e ≠ 0) : frameRelays v h d = true := by
  rw [Machine.frameRelays, m.entry, hcls]
  exact decide_eq_true hports

end

/-- A frame of one tile onto an active entry whose tile passes check 11: the tile lands, its check waits, and a result to be relayed waits for
that. -/
theorem ingressFrame_of_tile {fab : State → FabIn → State} {s : State} {f : Arrival} {k : Nat} {plain : Bytes} {h : Hdr} {d : Desc} {c : Bool}
    {e : Entry} {w : Nat} {b : Tile} (hh : h = hdrOf f.bytes) (ho : FrameOpens s f k plain) (ha : FrameIsActive s h d c e)
    (hcls : h.cls = 1 ∨ h.cls = 3) (hwin : openWin s h.part h.group h.ticket = some w) (habs : flagAbsent h = false)
    (hread : readTiles h.fmt (flagSparse h) h.tiles true h.first plain = ([b], []))
    (hlen : flagSparse h = true ∨ plain.length = h.tiles * denseSize h.fmt) (hscale : lacksScale s h d w [b] = false)
    (hsparse : sparseFails h d b = false)
    (hvalid : tilesValid (streamNext s h (if h.cls = 3 then 3 else 0)) h d (resyncFrame s h) [b] = true) (hexp : expsValid s h d w [b] = true) :
    ∃ u key, ingressFrame fab s f = returnScaled fab (progress u h.part h.group h.ticket) h.part h.group h.ticket
      ∧ ∀ x, feed s h d w key [b] = [x] → u.phlx = (tileLanded s h d w x).phlx
        ∧ u.snd = { s.snd with checks := s.snd.checks ++ [checkOf s k (takenFrame s f) h d w x] }
        ∧ (h.cls = 3 → relayPorts d e ≠ 0 → (findEntry u h.part h.group h.ticket).map (fun y => y.flow.relay)
            = some (e.flow.relay ++ [(k, s.lark.nextId, (List.range 8).map (hdrWord f.bytes), plain)])) := by
  have hnot2 : h.cls ≠ 2 := by omega
  obtain ⟨v, hv, m⟩ := ingressFrame_of_active (fab := fab) hh ho ha (by rcases hcls with hc | hc <;> rw [hc] <;> rfl)
  have hheld := takenFrame_of_covered ho.1.2.2.1
  obtain ⟨hdesc, -, -, hgroup, -⟩ := ha
  rw [← m.lacksScale] at hscale
  rw [← m.streamNext, ← m.resyncFrame] at hvalid
  rw [← m.expsValid] at hexp
  rw [takeActive_tiles m hdesc hwin hnot2, takeTiles_single habs hread hlen hscale hsparse hvalid hexp] at hv
  obtain ⟨key, hput⟩ := putTiles_single v k (takenFrame s f) h d c w b
  refine ⟨_, key, hv, fun x hx => ?_⟩
  obtain ⟨hphlx, hsnd, hentry⟩ := hput x ((m.feed d w key [b]).trans hx)
  obtain ⟨fl, hfind, hrelay⟩ := hentry _ m.entry hgroup
  obtain ⟨hphlx', hsnd'⟩ := frameWaits_eq (putTiles v k (takenFrame s f) h d c w [b]) k (takenFrame s f) h plain (frameRelays v h d)
  refine ⟨hphlx'.trans (hphlx.trans (m.tileLanded_phlx d w x)), ?_, fun h3 hports => ?_⟩
  · rw [hsnd', hsnd, m.snd, m.checkOf]
  · rw [m.frameRelays d h3 hports, findEntry_frameWaits hfind (by exact hgroup), hrelay, hheld]
    rfl

/-- The tile of a `DATA` frame at the adder's input (Table 4.4). -/
theorem feed_data {h : Hdr} (hcls : h.cls = 1) (s : State) (d : Desc) (w : Nat) (key : Key) (b : Tile) :
    ∃ x, feed s h d w key [b] = [x] ∧ x.tile = b ∧ (1 ≤ h.hop → x.a = padZero (liveElems (dElems d) b.idx) b.vals)
      ∧ (h.hop = 0 → dClip d = false → dStoch d = false →
        x.a = stage4 d b 0x8000 (stage3 d (stage2 d h 0 (agreedOf s w b.idx) b)).1) := by
  by_cases hhop : h.hop = 0
  · obtain ⟨x, hx, htile, ha⟩ := feed_hop0 ⟨hcls, hhop⟩ s d w key b
    exact ⟨x, hx, htile, fun h1 => absurd hhop (Nat.one_le_iff_ne_zero.1 h1), fun _ => ha⟩
  · exact ⟨_, feed_asIs (fun hk => hhop hk.2) s d w key b, rfl, fun _ => rfl, fun h0 => absurd h0 hhop⟩

/-- Settles O28: the frame opens onto its entry and its tile passes check 11; a `DATA` tile is added and a `RESULT` tile written, and each waits
for its check. -/
theorem dataAndResultTilesReachTheWindow : Obligations.DataAndResultTilesReachTheWindow := by
  intro s f v k plain h d c e w b hh ho ha hwin habs hread hlen hscale hsparse hvalid hexp
  have hheld := takenFrame_of_covered ho.1.2.2.1
  have hid : (takenFrame s f).id = s.lark.nextId := by rw [hheld]
  have harr : (takenFrame s f).arr = f := by rw [hheld]
  constructor
  · intro hcls
    obtain ⟨u, key, hu, hland⟩ := ingressFrame_of_tile (fab := fab noStepIn) hh ho ha (.inl hcls) hwin habs hread hlen hscale hsparse hvalid hexp
    obtain ⟨x, hx, rfl, hrun, hhop0⟩ := feed_data hcls s d w key b
    obtain ⟨hphlx, hsnd, -⟩ := hland x hx
    rw [tileLanded, if_neg (by omega), (addFed_eq s h d w x).1] at hphlx
    obtain ⟨sat, hrec⟩ := tileRec_addTile s w (dOp d) (liveElems (dElems d) x.tile.idx) x.tile.idx x.flags h.hop x.a
    rw [← tileRec_congr hphlx] at hrec
    refine ⟨u, congrArg (fun t => Host.Outcome.next (eccAdded s t v)) hu,
      ?_, fun h1 => ⟨?_, ?_⟩, fun h0 hclip hst => ?_, ?_, ?_, fun i hi => ?_, fun j hj => ?_,
      checkOf s k (takenFrame s f) h d w x, hsnd, rfl, rfl, rfl, rfl, rfl, hid, harr, rfl, ?_, rfl, rfl, rfl, rfl, ?_, hrun⟩
    · rw [hphlx]
      exact addTile_phlx ..
    · rw [rawLanes_congr hphlx, rawLanes_addTile, hrun h1, addedLanes_padZero]
    · rw [hrec]
    · rw [rawLanes_congr hphlx, rawLanes_addTile, hhop0 h0 hclip hst]
    · rw [hrec]
    · rw [hrec]
    · rw [hrec, Nat.testBit_or, Nat.testBit_or, hi]
      rfl
    · rw [hphlx]
      exact addTile_lanes_ne _ _ _ _ _ _ _ _ hj
    · exact decide_eq_false (by omega)
    · simp [checkOf, jobOf, hcls]
  · intro hcls
    obtain ⟨u, key, hu, hland⟩ := ingressFrame_of_tile (fab := fab noStepIn) hh ho ha (.inr hcls) hwin habs hread hlen hscale hsparse hvalid hexp
    have hx := feed_asIs (h := h) (by omega) s d w key b
    obtain ⟨hphlx, hsnd, hrelay⟩ := hland _ hx
    rw [tileLanded, if_pos hcls] at hphlx
    refine ⟨u, congrArg Host.Outcome.next hu, ?_, ?_, ?_, ?_, fun j hj => ?_, fun j hj => ?_, hrelay hcls,
      _, hsnd, rfl, rfl, rfl, rfl, rfl, hid, harr, rfl, decide_eq_true hcls, rfl⟩
    · rw [hphlx]
      rfl
    · rw [rawLanes_congr hphlx]
      exact rawLanes_writeResult ..
    · rw [tileRec_congr hphlx]
      exact tileRec_writeResult ..
    · rw [win_congr hphlx, writeResult_win_self]
    · rw [win_congr hphlx, writeResult_win_ne _ _ _ _ hj]
    · rw [hphlx]
      exact writeResult_lanes_ne _ _ _ _ hj

end Sys2Proof.Machine
end

section
/-! The control store and the key cache of a pipe, as software writes them (R141, R153). -/

namespace Sys2Proof.Machine

/-! ### Register writes that pass, and those that do not -/

theorem refuseIf_true {c : Bool} (st : Status) (h : c = true) : refuseIf c st = some st := if_pos h

theorem refuseIf_false {c : Bool} (st : Status) (h : c = false) : refuseIf c st = none := by
  rw [refuseIf, h]
  rfl

/-- A write that its register refuses for its state (R542). -/
theorem regWrite_stateRefused {s : State} {a : Access} {p off : Nat} {st : Status} (ar : Option Status) (k : State → State)
    (h : WriteReaches s a p off) : regWrite s a (regAt p off) (some st) ar k = refuse s a true (regAt p off) st :=
  regWrite_reaches h

/-- A write that its register refuses for its value (R542). -/
theorem regWrite_argRefused {s : State} {a : Access} {p off : Nat} {st : Status} (k : State → State) (h : WriteReaches s a p off) :
    regWrite s a (regAt p off) none (some st) k = refuse s a true (regAt p off) st :=
  regWrite_reaches h

/-- A write that its register takes. -/
theorem regWrite_taken {s : State} {a : Access} {p off : Nat} (k : State → State) (h : WriteReaches s a p off) :
    regWrite s a (regAt p off) none none k = k (answer s 0) :=
  regWrite_reaches h

/-- A command that ends as a refused write changes the bus alone and answers the status (R514). -/
theorem next_of_refuse {c : Instr} {s : State} {a : Access} {addr : Nat} {st : Status} (h : exec c s = .next (refuse s a true addr st)) :
    ∃ t, exec c s = .next t ∧ t = { s with bus := t.bus } ∧ t.bus.resp = { refused := true, stat := stCode st, rdata := 0 } := by
  obtain ⟨hframe, hresp, -⟩ := refuse_spec s a true addr st
  exact ⟨_, h, hframe, hresp⟩

/-! ### Control store -/

theorem mbz_ok {v : Word} {mask : Nat} (h : v.toNat &&& mask = 0) : mbz v mask = none := refuseIf_false _ (by simp [h])

theorem mbz_bad {v : Word} {mask : Nat} (h : v.toNat &&& mask ≠ 0) : mbz v mask = some .badArg := refuseIf_true _ (by simp [h])

/-- The upper half of a word of 32 bits is zero. -/
theorem upperHalf_and_of_lt {n : Nat} (h : n < 2 ^ 32) : n &&& maskBits 63 32 = 0 := by
  refine Nat.eq_of_testBit_eq fun i => ?_
  rw [Nat.testBit_and, Nat.zero_testBit, maskBits, Nat.testBit_mul_two_pow]
  by_cases hi : 32 ≤ i
  · rw [Nat.testBit_lt_two_pow (h.trans_le (Nat.pow_le_pow_right (by decide) hi)), Bool.false_and]
  · rw [decide_eq_false hi, Bool.false_and, Bool.and_false]

theorem fld_low_of_lt {v : Word} (h : v.toNat < 2 ^ 32) : fld v 31 0 = v.toNat := Nat.mod_eq_of_lt h

/-- A pipe that leaves `LOADING` for `IDLE` reports the change (R182). -/
theorem setPipeSt_idle {s : State} {k : Nat} (h : (s.pipe k).st = .loading) :
    setPipeSt s k .idle = raise (s.setPipe k { s.pipe k with st := .idle }) (larkPage k) 0 := by
  rw [setPipeSt, if_neg (by rw [h]; exact nofun)]
  exact if_neg fun hb => nomatch hb.1

/-- A commit with the right CRC (R141). -/
theorem csTake_ok {s : State} {a : Access} {k : Nat} {v : Word} (hst : (s.pipe k).st = .loading) (hcrc : crc32c (csBytes (s.pipe k).cs) = fld v 31 0) :
    csTake a k v s = raise ((s.setPipe k { s.pipe k with csValid := true }).setPipe k { s.pipe k with csValid := true, st := .idle }) (larkPage k) 0 := by
  rw [csTake, if_pos hcrc, setPipeSt_idle (by rw [State.setPipe_pipe_self]; exact hst), State.setPipe_pipe_self]

/-- A status noted on its page changes the bus alone, and is held where the page held no error (R59). -/
theorem noteCmd_spec {s : State} (a : Access) {p off : Nat} {st : Status} (hoff : off < 4096) (hst : st ≠ .ok) :
    noteCmd s a (regAt p off) st = { s with bus := (noteCmd s a (regAt p off) st).bus }
      ∧ ((s.page p).err.valid = false → ((noteCmd s a (regAt p off) st).page p).err.status = stCode st
        ∧ ((noteCmd s a (regAt p off) st).page p).err.valid = true) := by
  rw [noteCmd, if_neg hst]
  refine ⟨rfl, fun hv => ?_⟩
  simp [pageError, pageErrorCode, regAt_page hoff, recordErr, hv]

/-! ### Key cache -/

/-- The cache entries that a write of `LARK_KC_FLUSH` names (Table 5.22). -/
def flushNames (v : Word) (e : KcEntry) : Bool :=
  bitOf v 9 || (bitOf v 8 && e.use = 4) || (bitOf v 5 && e.use ≠ 4 && e.part = fld v 4 0)

theorem flushNames_iff (v : Word) (e : KcEntry) :
    flushNames v e = true ↔ bitOf v 9 = true ∨ (bitOf v 8 = true ∧ e.use = 4) ∨ (bitOf v 5 = true ∧ e.use ≠ 4 ∧ e.part = fld v 4 0) := by
  simp only [flushNames, Bool.or_eq_true, Bool.and_eq_true, decide_eq_true_eq, or_assoc, and_assoc]

/-- What a flush leaves of a cache entry (R153). -/
def flushed (c : KcEntry → Bool) (e : KcEntry) : KcEntry := if e.valid && c e then (if e.holders = 0 then {} else { e with flush := true }) else e

theorem tget_flushCache (c : KcEntry → Bool) {p : Pipe} (w : tableWf {} p.kc = true) (i : Nat) :
    tget {} (flushCache c p).kc i = flushed c (tget {} p.kc i) :=
  tget_tmap (f := fun _ => flushed c) (fun _ => rfl) w i

theorem exec_kcFlush {s : State} {a : Access} {k : BitVec 4} {v : Word} (hr : WriteReaches s a (0x40 + k.toNat) 0x78)
    (hz : v.toNat &&& (maskBits 63 10 + maskBits 7 6) = 0) :
    exec (.kcFlush a k v) s = .next ((answer s 0).setPipe k.toNat (flushCache (flushNames v) (s.pipe k.toNat))) := by
  simp only [exec, execKcFlush, kcFlushWrite, larkPage, mbz_ok hz, regWrite_taken _ hr]
  rfl

/-! ### The statement -/

theorem loading_ok {s : State} {k : Nat} (h : (s.pipe k).st = .loading) : refuseIf (decide ((s.pipe k).st ≠ .loading)) .wrongState = none :=
  refuseIf_false _ (by simp [h])

theorem notLoading_refused {s : State} {k : Nat} (h : (s.pipe k).st ≠ .loading) :
    refuseIf (decide ((s.pipe k).st ≠ .loading)) .wrongState = some .wrongState :=
  refuseIf_true _ (by simp [h])

theorem exec_csCommit {s : State} {a : Access} {k : BitVec 4} {v : Word} (hr : WriteReaches s a (0x40 + k.toNat) 0x60)
    (hst : (s.pipe k.toNat).st = .loading) (hlt : v.toNat < 2 ^ 32) : exec (.csCommit a k v) s = .next (csTake a k.toNat v (answer s 0)) := by
  simp only [exec, execCsCommit, csCommit, larkPage, loading_ok hst, mbz_ok (upperHalf_and_of_lt hlt), regWrite_taken _ hr]

/-- Settles O7: each register takes or refuses its write as `regWrite_reaches` has it; a commit goes by its CRC, a flush entry by entry. -/
theorem pipesAreLoadedAndFlushed : Obligations.PipesAreLoadedAndFlushed := by
  refine ⟨fun s a k v => ⟨fun hr hst => ?_, fun hr hst hlt hcrc => ?_, fun hr hst hlt hcrc => ?_, fun hst => ⟨fun hr => ?_, fun hr => ?_⟩⟩,
    fun s a k v hr => ⟨fun hz => ?_, fun hz => ?_⟩⟩
  · simp only [exec, execCsDataWrite, csDataWrite, larkPage, loading_ok hst, regWrite_taken _ hr]
    rfl
  · have hrun := exec_csCommit hr hst hlt
    rw [csTake_ok (s := answer s 0) hst (hcrc.trans (fld_low_of_lt hlt).symm)] at hrun
    refine ⟨_, hrun, rfl, State.setPipe_pipe_self .., fun j hj => ?_, (raise_spec _ _ _).2.1, rfl⟩
    exact (State.setPipe_pipe_ne _ _ _ _ hj).trans (State.setPipe_pipe_ne _ _ _ _ hj)
  · have hrun := exec_csCommit hr hst hlt
    rw [csTake, if_neg (by rw [fld_low_of_lt hlt]; exact hcrc)] at hrun
    obtain ⟨hframe, herr⟩ := noteCmd_spec (s := answer s 0) a (p := 0x40 + k.toNat) (off := 0x60) (st := .badFormat) (by decide) nofun
    exact ⟨_, hrun, hframe, herr⟩
  · refine next_of_refuse (a := a) (addr := regAt (0x40 + k.toNat) 0x58) (st := .wrongState) ?_
    simp only [exec, execCsDataWrite, csDataWrite, larkPage, notLoading_refused hst, regWrite_stateRefused _ _ hr]
  · refine next_of_refuse (a := a) (addr := regAt (0x40 + k.toNat) 0x60) (st := .wrongState) ?_
    simp only [exec, execCsCommit, csCommit, larkPage, notLoading_refused hst, regWrite_stateRefused _ _ hr]
  · have hpipe := State.setPipe_pipe_self (answer s 0) k.toNat (flushCache (flushNames v) (s.pipe k.toNat))
    refine ⟨_, exec_kcFlush hr hz, rfl, ?_, fun w i => ?_, fun j hj => State.setPipe_pipe_ne _ _ _ _ hj⟩
    · rw [hpipe]
      rfl
    · rw [hpipe, tget_flushCache _ w]
      simp only [flushed, Bool.and_eq_true, flushNames_iff]
  · refine next_of_refuse (a := a) (addr := regAt (0x40 + k.toNat) 0x78) (st := .badArg) ?_
    simp only [exec, execKcFlush, kcFlushWrite, larkPage, mbz_bad hz, regWrite_argRefused _ hr]

end Sys2Proof.Machine
end

section
/-! A frame that is dropped at its port while a window stands open for the ticket its header names: what the frame would release is looked
for all the same (R123), and the pipes' service among partitions caps their allowances. -/

namespace Sys2Proof.Machine

/-- A block whose `STATION_LIVE` is low, with a window open for ticket 0 of group 0 of partition 0. The partition has `WEIGHT` 1, and an
allowance of 32 beats on pipe 0 from frames that were waiting there (10 R321). -/
def notLive : State :=
  { State.reset with
    clkr.secLock := true, clkr.arithLock := true, pwr.live := 0xFFFFF, parts := [(0, { st := .owned, weight := 1 })]
    phlx.wins := [(0, { kind := .working, st := .opened, tiles := 1 })], lark.pipes := [(0, { allow := [(0, 32)] })] }

/-- The header of a `RESULT` frame of that ticket (Table 3.1). -/
def earlyHdr : Hdr :=
  { version := 1, cls := 3, part := 0, group := 0, gEpoch := 0, hop := 1, rank := 0, ticket := 0, kEpoch := 0, owner := 0, fmt := 0,
    op := 0, flags := 0, step := 1, tiles := 1, first := 0, seq := 0, digest := 0, payLen := 272, clean := true }

/-- The frame on fabric port 0; its sender holds no credit. -/
def earlyFrame : Arrival := { port := 0, vc := false, wireLen := 352, whole := true, bytes := sealFrame 0 earlyHdr (zeros 272) }

theorem exec_earlyFrame_allowance :
    ∃ t, exec (.resultFrameReceive earlyFrame) notLive = .next t ∧ tget 0 (t.pipe 0).allow 0 = 16 :=
  ⟨_, rfl, by decide +kernel⟩

/-- Refutes O26: a frame on a fabric port while `STATION_LIVE` is low is dropped, and the look for parked frames that it might release
(`returnScaled`) still caps the allowances of the ingress pipes at `WEIGHT` × 16 (10 R321); the statement has the credits alone change. -/
theorem not_portsTakeFramesInService : ¬ Obligations.PortsTakeFramesInService := by
  intro h
  obtain ⟨-, hport, -⟩ := h notLive earlyFrame { corrected := 0, bad := none } noStepIn (.resultFrameReceive earlyFrame) [] (by simp) (by decide +kernel)
  obtain ⟨hdropped, -⟩ := hport (by decide) (by decide) (fun h8 => absurd h8 (by decide)) (by decide +kernel)
  obtain ⟨t, e, hsame, -⟩ := hdropped (.inr (.inl ⟨rfl, by decide, rfl⟩))
  obtain ⟨u, hrun, hcap⟩ := exec_earlyFrame_allowance
  obtain rfl := Host.Outcome.next.inj (e.symm.trans hrun)
  have hstands : tget 0 (t.pipe 0).allow 0 = 32 := by
    rw [hsame]
    rfl
  rw [hstands] at hcap
  cases hcap

end Sys2Proof.Machine
end

section
/-! The head frame of an egress pipe against the credits of its port, and the credits that come back (R97, R160, R519). -/

namespace Sys2Proof.Machine

theorem larkCount_pipe_ne (u : State) (k off n : Nat) {j : Nat} (hj : j ≠ k) : (larkCount u k off n).pipe j = u.pipe j :=
  State.setPipe_pipe_ne _ _ _ _ hj

theorem larkCount_eq (u : State) (k off n : Nat) : ∃ ps, larkCount u k off n = { u with lark.pipes := ps } := ⟨_, rfl⟩

theorem arithRuns_of_canSend {s : State} {f : OutFrame} (h : canSend s f = true) : arithRuns s = true := by
  simp only [canSend, Bool.and_eq_true] at h
  obtain ⟨⟨⟨⟨hrun, -⟩, -⟩, -⟩, -⟩ := h
  exact hrun

theorem canSend_of_waits {s : State} {f : OutFrame} (h : 0 < f.waits) : canSend s f = false := by
  simp [canSend, Nat.ne_of_gt h]

/-- A pipe that holds no channel-1 frame offers its head frame, which leaves, or waits for credit, or waits for its checks (R97, R160). -/
theorem frameSend_of_head {s : State} {k : Nat} {b : OutFrame} {l : List OutFrame} (hrun : arithRuns s = true) (houts : (s.pipe k).outs = b :: l)
    (hvc : ∀ x ∈ b :: l, classVc x.cls = false) :
    frameSend s k = if canSend s b then bindBackAll (afterSend (sendBytes (s.setPipe k { s.pipe k with outs := l }) k b) b)
      else if b.waits = 0 ∧ !b.failed then larkCount s k 0xD8 1 else s := by
  have hfabric : (b :: l).filter (fun f => classVc f.cls) = [] := List.filter_eq_nil_iff.2 fun x hx => by simp [hvc x hx]
  have hhead : (b :: l).find? (fun f => !classVc f.cls) = some b := List.find?_cons_of_pos (by simp [hvc b List.mem_cons_self])
  simp only [frameSend, hrun, houts, hfabric, List.find?_nil, hhead, List.erase_cons_head, Bool.not_true, Bool.false_eq_true, if_false]

theorem bitsOf_two_pow {p : Nat} (h : p < 12) : bitsOf 12 (2 ^ p) = [p] :=
  (by decide : ∀ p < 12, bitsOf 12 (2 ^ p) = [p]) p h

/-- The credits of an egress port after a frame of channel 0 (R160). -/
def spentCr (c : PortCr) (n : Nat) : PortCr := { c with vc0 := c.vc0 - n }

/-- The counters of a pipe after a frame to one port: a frame more, its bytes, and no further copy (Table 5.16). -/
def sentCtr (c : Table Word) (bytes : Nat) : Table Word :=
  let c1 := tset 0 c 0xC0 (bump (tget 0 c 0xC0) 1)
  let c2 := tset 0 c1 0xC8 (bump (tget 0 c1 0xC8) bytes)
  tset 0 c2 0xD0 (bump (tget 0 c2 0xD0) 0)

theorem sentCtr_frames (c : Table Word) (n : Nat) : tget 0 (sentCtr c n) 0xC0 = tget 0 c 0xC0 + 1 := by
  simp [sentCtr, bump]

theorem sentCtr_bytes (c : Table Word) (n : Nat) : tget 0 (sentCtr c n) 0xC8 = tget 0 c 0xC8 + BitVec.ofNat 64 n := by
  simp [sentCtr, bump]

/-- The block once a frame's bytes have left on one fabric port, uncounted. -/
def leftOn (s : State) (port : Nat) (bytes : Bytes) : State :=
  { s with
    lark.outCr := tset {} s.lark.outCr port (spentCr (tget {} s.lark.outCr port) (creditsOf bytes.length))
    out := s.out ++ [.frame port (sidebandOf false bytes) bytes] }

/-- A frame leaves on its one fabric port and is counted (R160, R517). -/
theorem sendBytes_onePort (s : State) (k : Nat) {port : Nat} {b : OutFrame} (hports : b.ports = 2 ^ port) (hport : port < 8)
    (hvc : classVc b.cls = false) :
    sendBytes s k b
      = larkCount (larkCount (larkCount (leftOn s port b.bytes) k 0xC0 1) k 0xC8 b.bytes.length) k 0xD0 0 := by
  have hone : bitsOf 12 (2 ^ port) = [port] := bitsOf_two_pow (by omega)
  have hcopies : popCount 12 (2 ^ port) - 1 = 0 := congrArg (fun l : List Nat => l.length - 1) hone
  have hsend : sendOn s port false b.bytes = leftOn s port b.bytes := if_neg fun h => absurd h.1 (by omega)
  simp only [sendBytes, hports, hone, hcopies, hvc, List.foldl_cons, List.foldl_nil, hsend, if_neg (Nat.two_pow_pos port).ne']

/-- The block once a frame has left pipe `k`, which then holds the frames `l`, on one fabric port. -/
def sentFrom (s : State) (k port : Nat) (l : List OutFrame) (bytes : Bytes) : State :=
  larkCount (larkCount (larkCount (leftOn (s.setPipe k { s.pipe k with outs := l }) port bytes) k 0xC0 1) k 0xC8 bytes.length) k 0xD0 0

theorem sentFrom_pipe_self (s : State) (k port : Nat) (l : List OutFrame) (bytes : Bytes) :
    (sentFrom s k port l bytes).pipe k = { s.pipe k with outs := l, ctr := sentCtr (s.pipe k).ctr bytes.length } := by
  have hleft : (leftOn (s.setPipe k { s.pipe k with outs := l }) port bytes).pipe k = { s.pipe k with outs := l } := State.setPipe_pipe_self ..
  rw [sentFrom, larkCount_pipe_self, larkCount_pipe_self, larkCount_pipe_self, hleft]
  rfl

theorem sentFrom_pipe_ne (s : State) {k : Nat} (port : Nat) (l : List OutFrame) (bytes : Bytes) {j : Nat} (hj : j ≠ k) :
    (sentFrom s k port l bytes).pipe j = s.pipe j := by
  have hleft : (leftOn (s.setPipe k { s.pipe k with outs := l }) port bytes).pipe j = s.pipe j := State.setPipe_pipe_ne _ _ _ _ hj
  rw [sentFrom, larkCount_pipe_ne _ _ _ _ hj, larkCount_pipe_ne _ _ _ _ hj, larkCount_pipe_ne _ _ _ _ hj, hleft]

theorem sentFrom_eq (s : State) (k port : Nat) (l : List OutFrame) (bytes : Bytes) :
    ∃ ps, sentFrom s k port l bytes = { leftOn s port bytes with lark.pipes := ps } := by
  unfold sentFrom
  obtain ⟨p1, h1⟩ := larkCount_eq (leftOn (s.setPipe k { s.pipe k with outs := l }) port bytes) k 0xC0 1
  obtain ⟨p2, h2⟩ := larkCount_eq { leftOn (s.setPipe k { s.pipe k with outs := l }) port bytes with lark.pipes := p1 } k 0xC8 bytes.length
  rw [h1, h2]
  exact ⟨_, rfl⟩

theorem exec_frameSend_leaves {s : State} {k : BitVec 3} {b : OutFrame} {l : List OutFrame} {port : Nat} (hsend : canSend s b = true)
    (houts : (s.pipe (k.toNat + 8)).outs = b :: l) (hvc : ∀ x ∈ b :: l, classVc x.cls = false) (hports : b.ports = 2 ^ port) (hport : port < 8) :
    exec (.frameSend k) s = .next (bindBackAll (afterSend (sentFrom s (k.toNat + 8) port l b.bytes) b)) := by
  have hpick := (frameSend_of_head (arithRuns_of_canSend hsend) houts hvc).trans (if_pos hsend)
  rw [sendBytes_onePort _ _ hports hport (hvc b List.mem_cons_self)] at hpick
  exact congrArg Host.Outcome.next hpick

/-! ### Credits that come back -/

theorem addCredits_same (c : PortCr) (vc : Bool) (n : Nat) :
    (if vc then (addCredits c vc n).vc1 else (addCredits c vc n).vc0) = min 65535 ((if vc then c.vc1 else c.vc0) + n) := by
  cases vc <;> rfl

theorem addCredits_other (c : PortCr) (vc : Bool) (n : Nat) :
    (if !vc then (addCredits c vc n).vc1 else (addCredits c vc n).vc0) = if !vc then c.vc1 else c.vc0 := by
  cases vc <;> rfl

theorem creditGrant_taken {s : State} {port : Nat} (vc : Bool) (n : Nat) (hd : dead s = false) (hport : port < 12)
    (huse : 8 ≤ port → s.blk.profile ≠ 2 ∧ s.rhmb.lspSink.testBit (port - 8) = false) :
    creditGrant s port vc n = { s with lark.outCr := tset {} s.lark.outCr port (addCredits (tget {} s.lark.outCr port) vc n) } := by
  have hlocal : (decide (8 ≤ port) && (decide (s.blk.profile = 2) || s.rhmb.lspSink.testBit (port - 8))) = false := by
    by_cases h8 : 8 ≤ port
    · obtain ⟨hprofile, hsink⟩ := huse h8
      simp [hprofile, hsink]
    · simp [h8]
  simp [creditGrant, hd, Nat.not_le.2 hport, hlocal]

theorem creditGrant_ignored {s : State} {port : Nat} (vc : Bool) (n : Nat)
    (h : dead s = true ∨ 12 ≤ port ∨ (8 ≤ port ∧ (s.blk.profile = 2 ∨ s.rhmb.lspSink.testBit (port - 8) = true))) :
    creditGrant s port vc n = s := by
  refine if_pos ?_
  simp only [Bool.or_eq_true, Bool.and_eq_true, decide_eq_true_eq, or_assoc]
  exact h

/-- Settles O32: the head frame is picked (`frameSend_of_head`), leaves on its port and is counted (`sendBytes_onePort`), or waits. -/
theorem framesAndCreditsCross : Obligations.FramesAndCreditsCross := by
  intro s
  refine ⟨fun k b l port houts hvc => ⟨fun hsend hports hport => ?_, fun hrun hcredit hwaits hfailed => ?_, fun h => ?_⟩, fun k houts => ?_,
    fun port vc n => ⟨fun hd hport huse => ?_, fun h => ?_⟩⟩
  · obtain ⟨ps, hleft⟩ := sentFrom_eq s (k.toNat + 8) port l b.bytes
    have hself := sentFrom_pipe_self s (k.toNat + 8) port l b.bytes
    refine ⟨_, exec_frameSend_leaves hsend houts hvc hports hport, ?_, ?_, ?_, ?_,
      fun j hj => sentFrom_pipe_ne s port l b.bytes hj, ?_, fun j hj => ?_⟩
    · rw [hleft]
      rfl
    · rw [hself]
    · rw [hself, sentCtr_frames]
    · rw [hself, sentCtr_bytes]
    · rw [hleft]
      exact tget_tset_self ..
    · rw [hleft]
      exact tget_tset_ne _ _ _ _ _ hj
  · have hrun : exec (.frameSend k) s = .next (larkCount s (k.toNat + 8) 0xD8 1) := by
      refine congrArg Host.Outcome.next ((frameSend_of_head hrun houts hvc).trans ?_)
      simp [hcredit, hwaits, hfailed]
    have hself := larkCount_pipe_self s (k.toNat + 8) 0xD8 1
    refine ⟨_, hrun, rfl, ?_, ?_, fun j hj => larkCount_pipe_ne _ _ _ _ hj⟩
    · rw [hself]
    · rw [hself]
      exact tget_tset_self ..
  · refine congrArg Host.Outcome.next ?_
    cases hrun : arithRuns s with
    | false => simp [frameSend, hrun]
    | true =>
      have hwaits : 0 < b.waits := h.resolve_right (by simp [hrun])
      rw [frameSend_of_head hrun houts hvc, canSend_of_waits hwaits, if_neg Bool.false_ne_true, if_neg fun hz => hwaits.ne' hz.1]
  · exact congrArg Host.Outcome.next (by simp [frameSend, houts])
  · refine ⟨_, congrArg Host.Outcome.next (creditGrant_taken vc n.toNat hd hport huse), rfl, fun j hj => tget_tset_ne _ _ _ _ _ hj, ?_, ?_⟩
    · simp only [creditsAt, tget_tset_self]
      exact addCredits_same ..
    · simp only [creditsAt, tget_tset_self]
      exact addCredits_other ..
  · exact congrArg Host.Outcome.next (creditGrant_ignored vc n.toNat h)

end Sys2Proof.Machine
end

section
/-! `BIND` and the end of a drain while the block serves nothing: neither starts or ends live service then (R142 to R146, R208). -/

namespace Sys2Proof.Machine

/-! ### Bits of a mask -/

theorem foldl_setBit_testBit (l : List Nat) (m b : Nat) : (l.foldl setBit m).testBit b = (m.testBit b || l.contains b) := by
  induction l generalizing m with
  | nil => simp
  | cons i l ih =>
    have hset : (setBit m i).testBit b = (m.testBit b || (b == i)) := by
      rw [setBit, Nat.testBit_or, Nat.testBit_two_pow, beq_eq_decide]
      simp only [eq_comm]
    rw [List.foldl_cons, ih, hset, List.contains_cons, Bool.or_assoc]

/-! ### A pipe's state -/

/-- Where no frame waits for an egress pipe, a pipe that becomes `BOUND` starts none (R549). -/
theorem setPipeSt_quiet {s : State} (hw : s.lark.unsent = []) (k : Nat) (st : PipeSt) :
    setPipeSt s k st = if (s.pipe k).st = st then s else raise (s.setPipe k { s.pipe k with st := st }) (larkPage k) 0 := by
  have hsend : sendWaiting (raise (s.setPipe k { s.pipe k with st := st }) (larkPage k) 0)
      = raise (s.setPipe k { s.pipe k with st := st }) (larkPage k) 0 := by
    have hlen : (raise (s.setPipe k { s.pipe k with st := st }) (larkPage k) 0).lark.unsent.length = 0 := congrArg List.length hw
    rw [sendWaiting, hlen, startFabric]
  simp only [setPipeSt, hsend, ite_self]

/-- A pipe's new state is written, and its page's causes, and nothing else. -/
theorem setPipeSt_frame {s : State} (hw : s.lark.unsent = []) (k : Nat) (st : PipeSt) :
    ∃ ps qs, setPipeSt s k st = { s with bus.pages := ps, lark.pipes := qs } := by
  rw [setPipeSt_quiet hw]
  split <;> exact ⟨_, _, rfl⟩

theorem setPipeSt_pipe_self {s : State} (hw : s.lark.unsent = []) (k : Nat) (st : PipeSt) :
    (setPipeSt s k st).pipe k = { s.pipe k with st := st } := by
  rw [setPipeSt_quiet hw]
  split
  · next h => rw [← h]
  · exact State.setPipe_pipe_self ..

theorem setPipeSt_pipe_ne {s : State} (hw : s.lark.unsent = []) {k j : Nat} (st : PipeSt) (hj : j ≠ k) : (setPipeSt s k st).pipe j = s.pipe j := by
  rw [setPipeSt_quiet hw]
  split
  · rfl
  · exact State.setPipe_pipe_ne _ _ _ _ hj

/-! ### Grants -/

theorem creditReturn_frame (n : Nat) (s : State) (port : Nat) (vc : Bool) (c : Nat) :
    ∃ r o, creditReturn n s port vc c = { s with rhmb.srcCr := r, out := o } := by
  induction n generalizing s c with
  | zero => exact ⟨_, _, rfl⟩
  | succ n ih =>
    unfold creditReturn
    split
    · exact ⟨_, _, rfl⟩
    · split
      · exact ⟨_, _, rfl⟩
      · exact ih (s.emit (.credit port vc (min c 255))) (c - min c 255)

theorem giveCredits_frame (s : State) (port : Nat) (vc : Bool) (n : Nat) :
    ∃ c r o, giveCredits s port vc n = { s with lark.inCr := c, rhmb.srcCr := r, out := o } := by
  obtain ⟨r, o, h⟩ := creditReturn_frame 6
    { s with lark.inCr := tset {} s.lark.inCr port (addCredits (tget {} s.lark.inCr port) vc n) } port vc n
  exact ⟨_, r, o, h⟩

/-- A grant gives credits and changes nothing else (R143). -/
theorem grantPort_frame (s : State) (port : Nat) : ∃ c r o, grantPort s port = { s with lark.inCr := c, rhmb.srcCr := r, out := o } := by
  simp only [grantPort]
  split
  · exact ⟨_, _, _, rfl⟩
  · obtain ⟨c, r, o, h⟩ := giveCredits_frame
      { s with lark.inCr := tset {} s.lark.inCr port { tget {} s.lark.inCr port with granted := true } } port false 1032
    rw [h]
    exact giveCredits_frame { s with lark.inCr := c, rhmb.srcCr := r, out := o } port true 36

/-- The grants of newly bound ports (R143). -/
theorem grantPorts_frame (l : List Nat) (s : State) :
    ∃ c r o, l.foldl (fun st b =>
        grantPort { st with lark.inCr := tset {} st.lark.inCr b { tget {} st.lark.inCr b with everBound := true } } b) s
      = { s with lark.inCr := c, rhmb.srcCr := r, out := o } := by
  induction l generalizing s with
  | nil => exact ⟨_, _, _, rfl⟩
  | cons b l ih =>
    obtain ⟨c, r, o, h⟩ := grantPort_frame { s with lark.inCr := tset {} s.lark.inCr b { tget {} s.lark.inCr b with everBound := true } } b
    rw [List.foldl_cons, h]
    exact ih { s with lark.inCr := c, rhmb.srcCr := r, out := o }

/-! ### Binding -/

/-- The ports that drain once an ingress pipe has the ports of a mask: those it loses while their frames stand in its buffer (R144). -/
def drainingPorts (p : Pipe) (m : Nat) : Nat :=
  (((bitsOf 12 p.bind).filter (fun b => !m.testBit b)).filter (portHeld p)).foldl setBit p.drain

theorem drainingPorts_testBit (p : Pipe) (m b : Nat) :
    (drainingPorts p m).testBit b = (p.drain.testBit b || (decide (b < 12) && p.bind.testBit b && !m.testBit b && portHeld p b)) := by
  rw [drainingPorts, foldl_setBit_testBit, Bool.eq_iff_iff]
  simp [bitsOf, and_assoc, and_comm, and_left_comm]

/-- A pipe that has been given the ports of a mask (R142, R144). -/
def reported (p : Pipe) (k m : Nat) : Pipe :=
  let q := { p with bind := m, drain := if k < 8 then drainingPorts p m else p.drain }
  { q with st := boundState q }

/-- A pipe with the ports of a mask (R142, R144). -/
def newPorts (p : Pipe) (k m : Nat) : Pipe := { p with bind := m, drain := if k < 8 then drainingPorts p m else p.drain }

theorem newPorts_drain_testBit (p : Pipe) (k m b : Nat) :
    (newPorts p k m).drain.testBit b
      = (p.drain.testBit b || (decide (k < 8 ∧ b < 12) && p.bind.testBit b && !m.testBit b && portHeld p b)) := by
  by_cases hk : k < 8
  · simp [newPorts, hk, drainingPorts_testBit]
  · simp [newPorts, hk]

/-- The block once pipe `k` has the ports of a mask, before the new ones make their grants. -/
def rebound (s : State) (k m : Nat) : State :=
  setPipeSt (s.setPipe k (newPorts (s.pipe k) k m)) k (boundState (newPorts (s.pipe k) k m))

/-- Only newly bound ingress ports make grants (R143). -/
theorem setBind_eq (s : State) (k m : Nat) :
    ∃ c r o, setBind s k m = { rebound s k m with lark.inCr := c, rhmb.srcCr := r, out := o } := by
  by_cases hk : k < 8
  · obtain ⟨c, r, o, hgrant⟩ := grantPorts_frame (bitsOf 12 m) (rebound s k m)
    refine ⟨c, r, o, Eq.trans ?_ hgrant⟩
    simp only [setBind, setInBind, rebound, newPorts, if_pos hk]
    rfl
  · have hout : setBind s k m = rebound s k m := by
      simp only [setBind, setOutBind, rebound, newPorts, if_neg hk]
    exact ⟨(rebound s k m).lark.inCr, (rebound s k m).rhmb.srcCr, (rebound s k m).out, hout⟩

/-- A binding changes the pipe, its page's causes, and the credits that newly bound ports give (R142 to R144). -/
theorem setBind_frame {s : State} (hw : s.lark.unsent = []) (k m : Nat) :
    ∃ ps qs c r o, setBind s k m = { s with bus.pages := ps, lark := { s.lark with pipes := qs, inCr := c }, rhmb.srcCr := r, out := o } := by
  obtain ⟨c, r, o, hbind⟩ := setBind_eq s k m
  obtain ⟨ps, qs, hst⟩ := setPipeSt_frame (s := s.setPipe k (newPorts (s.pipe k) k m)) hw k (boundState (newPorts (s.pipe k) k m))
  refine ⟨ps, qs, c, r, o, ?_⟩
  rw [hbind, rebound, hst]
  rfl

theorem setBind_pipe_self {s : State} (hw : s.lark.unsent = []) (k m : Nat) :
    (setBind s k m).pipe k = { newPorts (s.pipe k) k m with st := boundState (newPorts (s.pipe k) k m) } := by
  obtain ⟨c, r, o, hbind⟩ := setBind_eq s k m
  rw [hbind]
  exact (setPipeSt_pipe_self (s := s.setPipe k _) hw k _).trans (by rw [State.setPipe_pipe_self])

theorem setBind_pipe_ne {s : State} (hw : s.lark.unsent = []) {k j : Nat} (m : Nat) (hj : j ≠ k) : (setBind s k m).pipe j = s.pipe j := by
  obtain ⟨c, r, o, hbind⟩ := setBind_eq s k m
  rw [hbind]
  exact (setPipeSt_pipe_ne (s := s.setPipe k _) hw _ hj).trans (State.setPipe_pipe_ne _ _ _ _ hj)

/-! ### Live service -/

/-- While `LIVE_EN` is 0 and `STATION_LIVE` low, the signal stays low (R208). -/
theorem updateLive_quiet {s : State} (hen : s.grp.liveEn = false) (hlow : s.pins.stationLive = false) : updateLive s = s := by
  simp [updateLive, liveCond, hen, hlow]

/-- No recovered pipe waits for a port (R271). -/
theorem bindBackAll_none {s : State} (h : s.snd.moved = []) : bindBackAll s = s := by
  refine List.foldl_fixed' (fun j => if_neg ?_) _
  rw [h]
  exact fun hm => hm.1 rfl

/-- A write of `BIND` that nothing refuses, while the block serves nothing. -/
theorem exec_bindWrite {s : State} {a : Access} {k : BitVec 4} {v : Word} (hr : WriteReaches s a (0x40 + k.toNat) 0x40)
    (hstate : bindStateRefused s k.toNat (fld v 11 0) = false) (harg : bindArgRefused s k.toNat (fld v 11 0) = false)
    (hw : s.lark.unsent = []) (hen : s.grp.liveEn = false) (hlow : s.pins.stationLive = false) :
    exec (.bindWrite a k v) s = .next (setBind (answer s 0) k.toNat (fld v 11 0)) := by
  obtain ⟨ps, qs, c, r, o, hframe⟩ := setBind_frame (s := answer s 0) hw k.toNat (fld v 11 0)
  have hstill : updateLive (setBind (answer s 0) k.toNat (fld v 11 0)) = setBind (answer s 0) k.toNat (fld v 11 0) := by
    rw [hframe]
    exact updateLive_quiet hen hlow
  simp only [exec, execBindWrite, bindWrite, larkPage, refuseIf_false _ hstate, refuseIf_false _ harg, regWrite_taken _ hr, hstill]

/-- A pipe whose drain of a port has ended. -/
def withoutDrain (p : Pipe) (port : Nat) : Pipe := { p with drain := p.drain - 2 ^ port }

/-- The end of a drain, while the block serves nothing (R144). -/
theorem drainEnd_eq {s : State} {k port : Nat} (hbit : (s.pipe k).drain.testBit port = true) (hst : (s.pipe k).st = .draining)
    (hheld : portHeld (s.pipe k) port = false) (hw : s.lark.unsent = []) (hen : s.grp.liveEn = false) (hlow : s.pins.stationLive = false)
    (hmoved : s.snd.moved = []) :
    drainEnd s k port = setPipeSt (s.setPipe k (withoutDrain (s.pipe k) port)) k (boundState (withoutDrain (s.pipe k) port)) := by
  obtain ⟨ps, qs, hframe⟩ := setPipeSt_frame (s := s.setPipe k (withoutDrain (s.pipe k) port)) hw k (boundState (withoutDrain (s.pipe k) port))
  have hclr : clrBit (s.pipe k).drain port = (s.pipe k).drain - 2 ^ port := if_pos hbit
  have hend : drainEnd s k port
      = updateLive (bindBackAll (setPipeSt (s.setPipe k (withoutDrain (s.pipe k) port)) k (boundState (withoutDrain (s.pipe k) port)))) := by
    simp only [drainEnd, hbit, hheld, hclr, Bool.not_false, Bool.and_self, if_true, if_pos hst]
    rfl
  rw [hend, hframe, bindBackAll_none (by exact hmoved)]
  exact updateLive_quiet hen hlow

/-- Settles O8: a binding (`exec_bindWrite`, `setBind_pipe_self`) and the end of a drain (`drainEnd_eq`), neither of which raises `STATION_LIVE`. -/
theorem bindingsMovePorts : Obligations.BindingsMovePorts := by
  intro s a hen hlow hw
  refine ⟨fun k v hr hstate harg => ?_, fun k v hr => ⟨fun hstate => ?_, fun hstate harg => ?_⟩, fun k port hbit hst hheld hmoved hrun => ?_⟩
  · obtain ⟨ps, qs, c, r, o, hframe⟩ := setBind_frame (s := answer s 0) hw k.toNat (fld v 11 0)
    have hself := setBind_pipe_self (s := answer s 0) hw k.toNat (fld v 11 0)
    refine ⟨_, exec_bindWrite hr hstate harg hw hen hlow, ?_, ?_, fun b => ?_, ?_, fun j hj => setBind_pipe_ne (s := answer s 0) hw _ hj⟩
    · rw [hframe]
      rfl
    · rw [hself]
      rfl
    · rw [hself]
      exact newPorts_drain_testBit (s.pipe k.toNat) k.toNat (fld v 11 0) b
    · rw [hself]
      rfl
  · refine next_of_refuse (a := a) (addr := regAt (0x40 + k.toNat) 0x40) (st := .wrongState) ?_
    simp only [exec, execBindWrite, bindWrite, larkPage, refuseIf_true _ hstate, regWrite_stateRefused _ _ hr]
  · refine next_of_refuse (a := a) (addr := regAt (0x40 + k.toNat) 0x40) (st := .badArg) ?_
    simp only [exec, execBindWrite, bindWrite, larkPage, refuseIf_false _ hstate, refuseIf_true _ harg, regWrite_argRefused _ hr]
  · have hwait : (s.setPipe k.toNat (withoutDrain (s.pipe k.toNat) port.toNat)).lark.unsent = [] := hw
    obtain ⟨ps, qs, hframe⟩ := setPipeSt_frame hwait k.toNat (boundState (withoutDrain (s.pipe k.toNat) port.toNat))
    have hself := setPipeSt_pipe_self hwait k.toNat (boundState (withoutDrain (s.pipe k.toNat) port.toNat))
    rw [State.setPipe_pipe_self] at hself
    have hexec : exec (.drainEnd k port) s = .next (drainEnd s k.toNat port.toNat) := congrArg Host.Outcome.next (if_pos hrun)
    rw [drainEnd_eq hbit hst hheld hw hen hlow hmoved] at hexec
    refine ⟨_, hexec, ?_, ?_, ?_, fun j hj => (setPipeSt_pipe_ne hwait _ hj).trans (State.setPipe_pipe_ne _ _ _ _ hj)⟩
    · rw [hframe]
      rfl
    · rw [hself]
      rfl
    · rw [hself]
      rfl

end Sys2Proof.Machine
end

section
/-! An egress pipe builds the next frame of the entry it serves (Table 5.5, R151, R159 to R162, R321). -/

namespace Sys2Proof.Machine

/-! ### Service among partitions (R321) -/

/-- From `s` to `u` the service of pipe `k` among partitions has moved on, and nothing else has changed. -/
structure Turned (s u : State) (k : Nat) : Prop where
  frame : ∃ ps, u = { s with lark.pipes := ps }
  self : ∃ t al, u.pipe k = { s.pipe k with turn := t, allow := al }
  other : ∀ i, i ≠ k → u.pipe i = s.pipe i

theorem Turned.setPipe (s : State) (k t : Nat) (al : Table Int) : Turned s (s.setPipe k { s.pipe k with turn := t, allow := al }) k :=
  ⟨⟨_, rfl⟩, ⟨t, al, State.setPipe_pipe_self ..⟩, fun _ hi => State.setPipe_pipe_ne _ _ _ _ hi⟩

theorem Turned.trans {s u v : State} {k : Nat} (h : Turned s u k) (g : Turned u v k) : Turned s v k := by
  obtain ⟨⟨ps, hu⟩, ⟨t, al, hself⟩, hother⟩ := h
  obtain ⟨⟨qs, hv⟩, ⟨t', al', hself'⟩, hother'⟩ := g
  refine ⟨⟨qs, by rw [hv, hu]⟩, ⟨t', al', by rw [hself', hself]⟩, fun i hi => (hother' i hi).trans (hother i hi)⟩

theorem Turned.capIdle (s : State) (k : Nat) (ready : Nat → Bool) : Turned s (capIdle s k ready) k :=
  .setPipe s k (s.pipe k).turn _

theorem Turned.servePipe (s : State) (k : Nat) (ready : Nat → Bool) : Turned s (servePipe s k ready).2 k := by
  unfold Machine.servePipe
  extract_lets s0
  split
  · exact (Turned.capIdle s k ready).trans (.setPipe ..)
  · exact .capIdle ..

theorem Turned.outs {s u : State} {k : Nat} (h : Turned s u k) : (u.pipe k).outs = (s.pipe k).outs := by
  obtain ⟨t, al, hself⟩ := h.self
  rw [hself]

theorem Turned.entryDesc {s u : State} {k : Nat} (h : Turned s u k) (p : Nat) (e : Entry) : entryDesc u p e = Machine.entryDesc s p e := by
  obtain ⟨ps, rfl⟩ := h.frame
  rfl

theorem Turned.kcFind {s u : State} {k : Nat} (h : Turned s u k) (use part sel epoch : Nat) :
    kcFind (u.pipe k) use part sel epoch = Machine.kcFind (s.pipe k) use part sel epoch := by
  obtain ⟨t, al, hself⟩ := h.self
  rw [hself]
  rfl

/-- With no ready work no partition is served. -/
theorem servePipe_none {s : State} {k : Nat} {ready : Nat → Bool} (h : ∀ p, p < 32 → ready p = false) :
    servePipe s k ready = (none, capIdle s k ready) := by
  have hany : (List.range 32).any ready = false := List.any_eq_false.2 fun p hp => by simp [h p (List.mem_range.1 hp)]
  unfold servePipe
  extract_lets s0
  rw [hany]
  rfl

/-- The allowances of a pipe, capped over a list of partitions without ready work. -/
theorem tget_capped (cap : Nat → Int) (l : List Nat) (t : Table Int) (p : Nat) :
    tget 0 (l.foldl (fun t q => if tget 0 t q ≤ cap q then t else tset 0 t q (cap q)) t) p
      = if p ∈ l then min (tget 0 t p) (cap p) else tget 0 t p := by
  have hone (t : Table Int) (q : Nat) : tget 0 (if tget 0 t q ≤ cap q then t else tset 0 t q (cap q)) p
      = if p = q then min (tget 0 t p) (cap p) else tget 0 t p := by
    by_cases hq : p = q
    · subst hq
      split
      · next h => rw [if_pos rfl, min_eq_left h]
      · next h => rw [if_pos rfl, tget_tset_self, min_eq_right (not_le.1 h).le]
    · rw [if_neg hq]
      split
      · rfl
      · exact tget_tset_ne _ _ _ _ _ hq
  induction l generalizing t with
  | nil => simp
  | cons q l ih =>
    rw [List.foldl_cons, ih, hone]
    by_cases hq : p = q
    · simp [hq]
    · simp [hq]

/-- What a partition without ready work keeps of its allowance (R321). -/
def allowanceCap (s : State) (p : Nat) : Int := ((s.part p).weight * 16 : Nat)

/-- A partition without ready work keeps at most `WEIGHT` × 16 of its allowance (R321). -/
theorem capIdle_allow {s : State} {k : Nat} {ready : Nat → Bool} (h : ∀ p, p < 32 → ready p = false) {p : Nat} (hp : p < 32) :
    tget 0 ((capIdle s k ready).pipe k).allow p = min (tget 0 (s.pipe k).allow p) ((s.part p).weight * 16 : Nat) := by
  have hfold : ((capIdle s k ready).pipe k).allow = (List.range 32).foldl (fun t q =>
      if tget 0 t q ≤ allowanceCap s q then t else tset 0 t q (allowanceCap s q)) (s.pipe k).allow := by
    unfold capIdle
    rw [State.setPipe_pipe_self]
    refine List.foldl_ext _ _ _ fun t q hq => ?_
    simp [h q (List.mem_range.1 hq), allowanceCap]
  rw [hfold, tget_capped, if_pos (List.mem_range.2 hp), allowanceCap]

/-! ### Whether a pipe builds -/

/-- A pipe that may start no frame (R151, R223; 01 R25). -/
theorem egressBuild_idle {s : State} {k : Nat}
    (h : arithRuns s = false ∨ s.grp.rankValid = false ∨ (s.pipe k).waitKey ≠ none ∨ 2 ≤ heldFrames (s.pipe k)) : egressBuild s k = s := by
  refine if_pos ?_
  simp only [Bool.or_eq_true, Bool.not_eq_true', decide_eq_true_eq, Option.isSome_iff_ne_none, or_assoc]
  exact h

/-- A pipe that may start a frame serves the partition its turn gives. -/
theorem egressBuild_serves {s : State} {k : Nat} (hrun : arithRuns s = true) (hrank : s.grp.rankValid = true) (hwait : (s.pipe k).waitKey = none)
    (hheld : heldFrames (s.pipe k) < 2) :
    egressBuild s k = match servePipe s k (fun p => (buildable s k p).isSome) with
      | (none, s1) => s1
      | (some p, s1) => match buildable s k p with
        | none => s1
        | some e => capIdle (buildFor s1 k p e) k (fun q => (buildable (buildFor s1 k p e) k q).isSome) := by
  refine if_neg ?_
  simp [hrun, hrank, hwait, hheld]

theorem egressBuild_none {s : State} {k : Nat} (hrun : arithRuns s = true) (hrank : s.grp.rankValid = true) (hwait : (s.pipe k).waitKey = none)
    (hheld : heldFrames (s.pipe k) < 2) (hnone : ∀ p, p < 32 → buildable s k p = none) :
    egressBuild s k = capIdle s k (fun p => (buildable s k p).isSome) := by
  rw [egressBuild_serves hrun hrank hwait hheld, servePipe_none fun p hp => by rw [hnone p hp]; rfl]

theorem capIdle_pipe_self (s : State) (k : Nat) (ready : Nat → Bool) :
    (capIdle s k ready).pipe k = { s.pipe k with allow := ((capIdle s k ready).pipe k).allow } := by
  unfold capIdle
  rw [State.setPipe_pipe_self]

/-- Where a pipe holds no frame more, it has read no codeword (R176). -/
theorem eccBuilt_same {s u : State} {k : Nat} (v : EccIn) (h : (u.pipe k).outs = (s.pipe k).outs) : eccBuilt s u k v = u :=
  if_pos (by rw [h])

/-! ### Building -/

/-- The block once pipe `k` has asked Chartroom for the result key of an entry (R151). -/
def keyAsked (s : State) (k p : Nat) (e : Entry) : State :=
  larkCount { s.setPipe k { s.pipe k with waitKey := some (p, e.group, e.ticket) } with
    chrt.queue := s.chrt.queue ++ [{ pipe := k, use := 1, part := p, sel := e.group, epoch := e.kEpoch }] } k 0x108 1

theorem keyAsked_pipe_self (s : State) (k p : Nat) (e : Entry) : (keyAsked s k p e).pipe k =
    { s.pipe k with
      waitKey := some (p, e.group, e.ticket), ctr := tset 0 (s.pipe k).ctr 0x108 (bump (tget 0 (s.pipe k).ctr 0x108) 1) } := by
  have hwait : State.pipe { s.setPipe k { s.pipe k with waitKey := some (p, e.group, e.ticket) } with
      chrt.queue := s.chrt.queue ++ [{ pipe := k, use := 1, part := p, sel := e.group, epoch := e.kEpoch }] } k
      = { s.pipe k with waitKey := some (p, e.group, e.ticket) } := State.setPipe_pipe_self ..
  rw [keyAsked, larkCount_pipe_self, hwait]

theorem keyAsked_pipe_ne (s : State) {k i : Nat} (p : Nat) (e : Entry) (hi : i ≠ k) : (keyAsked s k p e).pipe i = s.pipe i :=
  (larkCount_pipe_ne _ _ _ _ hi).trans (State.setPipe_pipe_ne _ _ _ _ hi)

theorem buildFor_noKey {s : State} {k p : Nat} {e : Entry} {d : Desc} {c : Bool} (hdesc : entryDesc s p e = some (d, c))
    (hcount : e.flow.counter ≤ 0x1FFFFF) (hkey : kcFind (s.pipe k) 1 p e.group e.kEpoch = none) : buildFor s k p e = keyAsked s k p e := by
  simp only [buildFor, hdesc, outKey, hkey, Option.map_none, if_neg (Nat.not_lt.2 hcount)]
  rfl

/-- With the result key in its cache a pipe builds the tiles that are next, where the group adds no noise (R159, R161). -/
theorem buildFor_tiles {s : State} {k p kind first n : Nat} {e : Entry} {d : Desc} {c : Bool} {key : Key} (hdesc : entryDesc s p e = some (d, c))
    (hcount : e.flow.counter ≤ 0x1FFFFF) (hkey : outKey s k p e = some key) (hnext : nextOut s p e = .tiles kind first n)
    (hnoise : kind ≠ 1 ∨ dNoise d = false)
    (hhop : (buildTiles s k p e d ((openWin s p e.group e.ticket).getD 0) kind first n none).hdr.hop ≤ 255) :
    buildFor s k p e
      = holdBuilt (touchKey s k p e) k p e key (buildTiles s k p e d ((openWin s p e.group e.ticket).getD 0) kind first n none) := by
  by_cases hkind : kind = 1
  · subst hkind
    have hquiet : dNoise d = false := hnoise.resolve_left (not_not_intro rfl)
    simp only [buildFor, hdesc, hkey, hnext, hquiet, entryNoise, if_neg (Nat.not_lt.2 hcount), Bool.false_eq_true, if_false, if_true,
      if_neg (Nat.not_lt.2 hhop)]
  · simp only [buildFor, hdesc, hkey, hnext, if_neg (Nat.not_lt.2 hcount), if_neg hkind]
    split
    · next h => exact absurd (NextOut.tiles.inj h).1 hkind
    · exact if_neg (Nat.not_lt.2 hhop)

theorem buildFor_scale {s : State} {k p first n : Nat} {dist : Bool} {e : Entry} {d : Desc} {c : Bool} {key : Key}
    (hdesc : entryDesc s p e = some (d, c)) (hcount : e.flow.counter ≤ 0x1FFFFF) (hkey : outKey s k p e = some key)
    (hnext : nextOut s p e = .scale dist first n)
    (hhop : hopOver (if dist && !atRelease s d then e.flow.distRuns else e.flow.scaleRuns) first n < 255) :
    buildFor s k p e
      = holdBuilt (touchKey s k p e) k p e key (buildScale s k p e d ((openWin s p e.group e.ticket).getD 0) dist first n) := by
  have hhdr : ¬ 255 < (buildScale s k p e d ((openWin s p e.group e.ticket).getD 0) dist first n).hdr.hop := Nat.not_lt.2 hhop
  simp only [buildFor, hdesc, hkey, hnext, if_neg (Nat.not_lt.2 hcount), if_neg hhdr]

/-! ### Holding -/

/-- A built frame as its pipe holds it (Table 5.5). -/
def outOf (s : State) (p : Nat) (e : Entry) (key : Key) (b : Built) : OutFrame :=
  { part := p, group := e.group, ticket := e.ticket, cls := b.cls, ports := boundPorts s b.ports, bytes := sealFrame key b.hdr b.plain,
    waits := b.checks, first := b.first, count := b.count, last := b.last, release := b.release,
    writes := b.writes, relays := b.relays, taps := b.taps }

/-- An entry whose stream has built a frame on pipe `k` (R159). -/
def builtEntry (e : Entry) (k : Nat) (b : Built) : Entry := { e with flow := { b.flow with pipe := some k, counter := b.flow.counter + 1 } }

/-- From `s` to `u` pipe `k` has come to hold one frame more and its collectives stand as `g` has them; no other pipe and no window has
changed. -/
structure HoldsMore (s u : State) (k : Nat) (f : OutFrame) (g : Grp) : Prop where
  outs : (u.pipe k).outs = (s.pipe k).outs ++ [f]
  other : ∀ i, i ≠ k → u.pipe i = s.pipe i
  phlx : u.phlx = s.phlx
  grp : u.grp = g

theorem HoldsMore.counted {s u : State} {k : Nat} {f : OutFrame} {g : Grp} (h : HoldsMore s u k f g) (off n : Nat) :
    HoldsMore s (larkCount u k off n) k f g :=
  ⟨by rw [larkCount_pipe_self]; exact h.outs, fun i hi => (larkCount_pipe_ne u k off n hi).trans (h.other i hi), h.phlx, h.grp⟩

theorem HoldsMore.turned {s u v : State} {k : Nat} {f : OutFrame} {g : Grp} (h : HoldsMore s u k f g) (t : Turned u v k) : HoldsMore s v k f g := by
  obtain ⟨ps, hv⟩ := t.frame
  exact ⟨t.outs.trans h.outs, fun i hi => (t.other i hi).trans (h.other i hi), by rw [hv]; exact h.phlx, by rw [hv]; exact h.grp⟩

theorem Turned.spendAllow (s : State) (k p beats : Nat) : Turned s (spendAllow s k p beats) k :=
  .setPipe s k (s.pipe k).turn _

/-- A built frame is held, and its entry's stream has moved on. -/
theorem holdBuilt_holdsMore (s : State) (k p : Nat) (e : Entry) (key : Key) (b : Built) :
    HoldsMore s (holdBuilt s k p e key b) k (outOf (putEntry s p (builtEntry e k b)) p e key b) (putEntry s p (builtEntry e k b)).grp := by
  unfold holdBuilt
  extract_lets _ fl s1 bytes q s2 _ _ _ s3
  have h2 : HoldsMore s s2 k (outOf s1 p e key b) s1.grp :=
    ⟨congrArg Pipe.outs (State.setPipe_pipe_self s1 k _), fun i hi => State.setPipe_pipe_ne s1 _ _ _ hi, rfl, rfl⟩
  have hspent := h2.turned (.spendAllow s2 k p (creditsOf bytes.length))
  have h3 : HoldsMore s s3 k (outOf s1 p e key b) s1.grp := ⟨hspent.outs, hspent.other, hspent.phlx, hspent.grp⟩
  split
  · exact h3
  · exact h3.counted 0x100 1

theorem touchKey_spec (s : State) (k p : Nat) (e : Entry) :
    ((touchKey s k p e).pipe k).outs = (s.pipe k).outs ∧ (∀ i, i ≠ k → (touchKey s k p e).pipe i = s.pipe i)
      ∧ (touchKey s k p e).phlx = s.phlx := by
  unfold touchKey
  split
  · exact ⟨rfl, fun _ _ => rfl, rfl⟩
  · next i _ =>
    have hself : (kcTouch s k i).pipe k = _ := State.setPipe_pipe_self s k _
    exact ⟨by rw [hself], fun i hi => State.setPipe_pipe_ne s k _ _ hi, rfl⟩

/-- A pipe whose service has turned, and that then holds a built frame, holds one frame more than before. -/
theorem Turned.holdBuilt {s u : State} {k : Nat} (h : Turned s u k) (p : Nat) (e : Entry) (key : Key) (b : Built) :
    HoldsMore s (holdBuilt (touchKey u k p e) k p e key b) k (outOf (putEntry (touchKey u k p e) p (builtEntry e k b)) p e key b)
      (putEntry (touchKey u k p e) p (builtEntry e k b)).grp := by
  obtain ⟨houts, hother, hphlx⟩ := touchKey_spec u k p e
  obtain ⟨ps, hu⟩ := h.frame
  have hb := holdBuilt_holdsMore (touchKey u k p e) k p e key b
  refine ⟨?_, fun i hi => (hb.other i hi).trans ((hother i hi).trans (h.other i hi)), hb.phlx.trans (hphlx.trans ?_), hb.grp⟩
  · rw [hb.outs, houts, h.outs]
  · rw [hu]

/-- The entry of a built frame is found as its stream has left it. -/
theorem findEntry_built {s u : State} {p k : Nat} {e : Entry} {b : Built} (h : u.grp = (putEntry s p (builtEntry e k b)).grp) :
    findEntry u p e.group e.ticket = some (builtEntry e k b) :=
  (findEntry_congr h p e.group e.ticket).trans (findEntry_putEntry s p (builtEntry e k b))

/-- A pipe that serves a partition builds the next frame of its first ready entry. -/
theorem egressBuild_entry {s s1 : State} {k p : Nat} {e : Entry} (hrun : arithRuns s = true) (hrank : s.grp.rankValid = true)
    (hwait : (s.pipe k).waitKey = none) (hheld : heldFrames (s.pipe k) < 2)
    (hserve : servePipe s k (fun q => (buildable s k q).isSome) = (some p, s1)) (he : buildable s k p = some e) :
    Turned s s1 k ∧ Turned (buildFor s1 k p e) (egressBuild s k) k := by
  have hturn := Turned.servePipe s k (fun q => (buildable s k q).isSome)
  rw [hserve] at hturn
  refine ⟨hturn, ?_⟩
  rw [egressBuild_serves hrun hrank hwait hheld, hserve]
  simp only [he]
  exact .capIdle ..

theorem outKey_of_cached {s : State} {k p : Nat} {e : Entry} (h : (kcFind (s.pipe k) 1 p e.group e.kEpoch).isSome = true) :
    ∃ key, outKey s k p e = some key := by
  obtain ⟨i, hi⟩ := Option.isSome_iff_exists.1 h
  exact ⟨_, by rw [outKey, hi]; rfl⟩

/-- Settles O31: a pipe that may not build stays (`egressBuild_idle`); else it serves a partition, and its entry's next frame is built and held
(`buildFor_tiles`, `buildFor_scale`), or its key asked for (`buildFor_noKey`). -/
theorem egressFramesAreBuilt : Obligations.EgressFramesAreBuilt := by
  rintro s k v _ _ rfl rfl
  refine ⟨fun h => ?_, fun hnone => ?_, fun p s1 e d c hrun hrank hwait hheld hserve he hdesc hcount hgroup => ?_⟩
  · refine congrArg Host.Outcome.next ?_
    rw [egressBuild_idle h]
    exact eccBuilt_same v rfl
  · by_cases hgo : arithRuns s = true ∧ s.grp.rankValid = true ∧ (s.pipe (k.toNat + 8)).waitKey = none ∧ heldFrames (s.pipe (k.toNat + 8)) < 2
    · obtain ⟨hrun, hrank, hwait, hheld⟩ := hgo
      have hturn := Turned.capIdle s (k.toNat + 8) (fun p => (buildable s (k.toNat + 8) p).isSome)
      have hexec : exec (.egressFrameBuild k v) s = .next (capIdle s (k.toNat + 8) (fun p => (buildable s (k.toNat + 8) p).isSome)) :=
        congrArg Host.Outcome.next ((eccBuilt_same v (by rw [egressBuild_none hrun hrank hwait hheld hnone]; exact hturn.outs)).trans
          (egressBuild_none hrun hrank hwait hheld hnone))
      refine ⟨_, hexec, rfl, hturn.other, capIdle_pipe_self .., fun _ _ _ _ p hp => capIdle_allow (fun q hq => ?_) hp⟩
      exact congrArg Option.isSome (hnone q hq)
    · have hidle : egressBuild s (k.toNat + 8) = s := egressBuild_idle (by
        by_contra hno
        simp only [not_or, Bool.not_eq_false, not_not, not_le, ne_eq] at hno
        exact hgo hno)
      have hexec : exec (.egressFrameBuild k v) s = .next s := congrArg Host.Outcome.next (by rw [hidle]; exact eccBuilt_same v rfl)
      exact ⟨s, hexec, rfl, fun _ _ => rfl, rfl, fun hrun hrank hwait hheld => absurd ⟨hrun, hrank, hwait, hheld⟩ hgo⟩
  · obtain ⟨hturn, hcap⟩ := egressBuild_entry hrun hrank hwait hheld hserve he
    have hdesc1 : entryDesc s1 p e = some (d, c) := (hturn.entryDesc p e).trans hdesc
    have hfind := hturn.kcFind 1 p e.group e.kEpoch
    refine ⟨fun hmiss => ?_, fun kind first n hnext hnoise hcached hhop => ?_, fun dist first n hnext hcached hhop => ?_⟩
    · rw [buildFor_noKey hdesc1 hcount (hfind.trans hmiss)] at hcap
      obtain ⟨⟨ps, hframe⟩, ⟨t1, al1, hself1⟩, hother1⟩ := hturn
      obtain ⟨⟨qs, hasked⟩, ⟨t2, al2, hself2⟩, hother2⟩ := hcap
      rw [keyAsked_pipe_self, hself1] at hself2
      have hexec : exec (.egressFrameBuild k v) s = .next (egressBuild s (k.toNat + 8)) :=
        congrArg Host.Outcome.next (eccBuilt_same v (by rw [hself2]))
      refine ⟨_, hexec, by rw [hself2], ?_, ?_, fun i hi => ?_, ?_, ?_⟩
      · rw [hself2, tget_tset_self]
        rfl
      · rw [hasked, hframe]
        rfl
      · exact (hother2 i hi).trans ((keyAsked_pipe_ne s1 p e hi).trans (hother1 i hi))
      · rw [hasked, hframe]
        rfl
      · rw [hasked, hframe]
        rfl
    · obtain ⟨key, hkey⟩ := outKey_of_cached ((congrArg Option.isSome hfind).trans hcached)
      have hwin : openWin s p e.group e.ticket = openWin s1 p e.group e.ticket := by
        obtain ⟨ps, rfl⟩ := hturn.frame
        rfl
      rw [hwin] at hhop
      rw [buildFor_tiles hdesc1 hcount hkey hnext hnoise hhop] at hcap
      have hmore := (hturn.holdBuilt p e key (buildTiles s1 (k.toNat + 8) p e d ((openWin s1 p e.group e.ticket).getD 0) kind first n none)).turned hcap
      refine ⟨_, _, rfl, hmore.outs, rfl, rfl, rfl, rfl, rfl, rfl, rfl, rfl, rfl, ?_, ?_, hmore.other, hmore.phlx⟩
      · simp [outOf, buildTiles]
      · rw [findEntry_built hmore.grp]
        rfl
    · obtain ⟨key, hkey⟩ := outKey_of_cached ((congrArg Option.isSome hfind).trans hcached)
      have hrel : atRelease s1 d = atRelease s d := by
        obtain ⟨ps, rfl⟩ := hturn.frame
        rfl
      rw [buildFor_scale hdesc1 hcount hkey hnext (by rw [hrel]; exact hhop)] at hcap
      have hmore := (hturn.holdBuilt p e key (buildScale s1 (k.toNat + 8) p e d ((openWin s1 p e.group e.ticket).getD 0) dist first n)).turned hcap
      exact ⟨_, _, rfl, hmore.outs, rfl, rfl, rfl, rfl, rfl, rfl, rfl, hmore.other, hmore.phlx⟩

end Sys2Proof.Machine
end

section
/-! The window commands of page 0x51: how a write of `PHLX_WIN_CMD` starts one, and what `OPEN`, `INVALIDATE` and `FREE` do to the window they
name (R169 to R172, R183, R184, R322). -/

namespace Sys2Proof.Machine

/-! ### A write of `PHLX_WIN_CMD` -/

/-- The must-be-zero bits of the command word are its low five. -/
theorem mbz_winCmd {v : Word} (h : fld v 4 0 = 0) : mbz v (maskBits 4 0) = none := by
  refine mbz_ok ?_
  have hmask : maskBits 4 0 = 2 ^ 5 - 1 := rfl
  rw [hmask, Nat.and_two_pow_sub_one_eq_mod]
  exact h

theorem winCmd_starts {s : State} {a : Access} {v : Word} (op : WinOp) (hr : WriteReaches s a 0x51 0x58) (hidle : s.phlx.running = none)
    (hz : fld v 4 0 = 0) (hrun : arithRuns s = true) : winCmd s a op v none = winStart (answer s 0) a op v := by
  have hfree : refuseIf s.phlx.running.isSome .wrongState = none := refuseIf_false _ (by rw [hidle]; rfl)
  rw [winCmd, winCmdAddr, hfree, mbz_winCmd hz, orElse, regWrite_taken _ hr]
  exact if_pos hrun

/-- Without the arithmetic loop's clock the command waits (01 R25). -/
theorem winCmd_waits {s : State} {a : Access} {v : Word} (op : WinOp) (hr : WriteReaches s a 0x51 0x58) (hidle : s.phlx.running = none)
    (hz : fld v 4 0 = 0) (hrun : arithRuns s = false) :
    winCmd s a op v none = { answer s 0 with phlx.running := some {}, phlx.waiting := some (op, a, v) } := by
  have hfree : refuseIf s.phlx.running.isSome .wrongState = none := refuseIf_false _ (by rw [hidle]; rfl)
  rw [winCmd, winCmdAddr, hfree, mbz_winCmd hz, orElse, regWrite_taken _ hr]
  exact if_neg (by rw [show arithRuns (answer s 0) = arithRuns s from rfl, hrun]; exact Bool.false_ne_true)

/-- A command written while one runs is refused (R184). -/
theorem winCmd_busy {s : State} {a : Access} {v : Word} (op : WinOp) (arg : Option Status) (hr : WriteReaches s a 0x51 0x58)
    (hbusy : s.phlx.running.isSome = true) : winCmd s a op v arg = refuse s a true (regAt 0x51 0x58) .wrongState := by
  rw [winCmd, winCmdAddr, refuseIf_true _ hbusy, regWrite_stateRefused _ _ hr]

/-- A command that ends well reports its window. -/
theorem winStart_done {s u : State} {a : Access} {op : WinOp} {v : Word} {r : WinResult} (h : winWork s op v = (r, u)) (hr : r.status = 0) :
    winStart s a op v = { u with phlx.running := some r, phlx.waiting := none } := by
  simp only [winStart, h, hr, if_true]

/-- A command that fails without an effect reports its status, and records it on its page (R171). -/
theorem winStart_failed {s u : State} {a : Access} {op : WinOp} {v : Word} {r : WinResult} (h : winWork s op v = (r, u)) (hr : r.status ≠ 0) :
    winStart s a op v = pageErrorCode { u with phlx.running := some r, phlx.waiting := none } a true winCmdAddr r.status := by
  simp only [winStart, h, hr, if_false]

/-- Of a command that fails without an effect the bus and the report alone show. -/
theorem next_of_winFailed {c : Instr} {s : State} {a : Access} {op : WinOp} {v : Word} {r : WinResult}
    (hc : exec c s = .next (winStart (answer s 0) a op v)) (h : winWork (answer s 0) op v = (r, answer s 0)) (hr : r.status ≠ 0) :
    ∃ t, exec c s = .next t ∧ t = { s with bus := t.bus, phlx := { s.phlx with running := some r, waiting := none } } :=
  ⟨_, hc, by rw [winStart_failed h hr]; rfl⟩

/-! ### `OPEN` -/

/-- The records of a list of tiles of a window, written alike. -/
theorem setTileRecs_const (r : TileRec) (wi : Nat) (l : List Nat) (s : State) :
    ∃ rs, l.foldl (fun st t => setTileRec st wi t r) s = { s with phlx.recs := rs }
      ∧ ∀ q, tget {} rs q = if ∃ t ∈ l, q = recKey s (s.win wi) t then r else tget {} s.phlx.recs q := by
  induction l generalizing s with
  | nil => exact ⟨_, rfl, fun q => by simp⟩
  | cons t l ih =>
    obtain ⟨rs, hfold, hrs⟩ := ih (setTileRec s wi t r)
    refine ⟨rs, hfold, fun q => (hrs q).trans ?_⟩
    have hkey (i : Nat) : recKey (setTileRec s wi t r) ((setTileRec s wi t r).win wi) i = recKey s (s.win wi) i := rfl
    have hone : tget {} (setTileRec s wi t r).phlx.recs q = if q = recKey s (s.win wi) t then r else tget {} s.phlx.recs q := tget_tset ..
    simp only [hkey, hone, List.exists_mem_cons_iff]
    by_cases hl : ∃ i ∈ l, q = recKey s (s.win wi) i
    · rw [if_pos hl, if_pos (.inr hl)]
    · simp only [hl, or_false, if_false]

/-- `OPEN` binds the window and writes each tile's record anew (R169). -/
theorem openWindow_spec (s : State) (wi ticket : Nat) (efix : Option Nat) :
    ∃ rs, openWindow s wi ticket efix
        = { s.setWin wi { s.win wi with st := .opened, frontier := 0, ticket := ticket } with phlx.recs := rs }
      ∧ ∀ q, tget {} rs q = if ∃ i < (s.win wi).tiles, q = recKey s (s.win wi) i
          then { scale := efix.getD 0x81, fresh := true, flags := 0, hop := 0 } else tget {} s.phlx.recs q := by
  have hself := State.setWin_win_self s wi { s.win wi with st := .opened, frontier := 0, ticket := ticket }
  obtain ⟨rs, hfold, hrs⟩ := setTileRecs_const { scale := efix.getD 0x81, fresh := true, flags := 0, hop := 0 } wi
    (List.range (s.win wi).tiles) (s.setWin wi { s.win wi with st := .opened, frontier := 0, ticket := ticket })
  refine ⟨rs, ?_, fun q => (hrs q).trans ?_⟩
  · rw [openWindow, mapRecs, hself]
    exact hfold
  · rw [hself]
    simp only [List.mem_range]
    rfl

/-! ### `FREE` -/

/-- A table from which the entries of some keys have gone. -/
theorem tget_filter_key {α : Type} (d : α) (c : Nat → Bool) (t : Table α) (k : Nat) :
    tget d (t.filter (fun e => c e.1)) k = if c k then tget d t k else d := by
  induction t with
  | nil => simp
  | cons e r ih =>
    obtain ⟨i, v⟩ := e
    by_cases hk : i = k
    · subst hk
      cases hc : c i <;> simp [tget, hc, ih]
    · cases hc : c i <;> simp [tget, hk, hc, ih]

/-- What becomes of an entry of a table that a function changes without regard to its form. -/
theorem tget_tmap_cases {α : Type} [DecidableEq α] (d : α) (f : Nat → α → α) (t : Table α) (k : Nat) :
    tget d (tmap d f t) k = d ∨ ∃ x, tget d (tmap d f t) k = f k x := by
  by_cases h : tget d (tmap d f t) k = d
  · exact .inl h
  · obtain ⟨⟨i, x⟩, -, hx⟩ := List.mem_map.1 (List.mem_of_mem_filter (mem_of_tget_ne h))
    obtain ⟨rfl, hv⟩ := Prod.mk.inj hx
    exact .inr ⟨x, hv.symm⟩

/-- A descriptor without the window `wi` (R322). -/
def unnamed (wi : Nat) (d : Desc) : Desc :=
  if descWindow d = some wi then { d with w7 := d.w7 &&& BitVec.ofNat 64 (2 ^ 64 - 1 - 2 ^ 35) } else d

theorem descWindow_unnamed (wi : Nat) (d : Desc) : descWindow (unnamed wi d) ≠ some wi := by
  unfold unnamed
  split
  · have hbit : bitOf (d.w7 &&& BitVec.ofNat 64 (2 ^ 64 - 1 - 2 ^ 35)) 35 = false := by
      rw [bitOf, BitVec.toNat_and, Nat.testBit_and, show (BitVec.ofNat 64 (2 ^ 64 - 1 - 2 ^ 35)).toNat.testBit 35 = false by decide, Bool.and_false]
    rw [descWindow, hbit]
    exact nofun
  · next h => exact h

/-- The window table without the window `wi`, whose partner stands alone (R169). -/
def freedWins (s : State) (wi : Nat) : Table Win :=
  match (s.win wi).partner with
  | some o => tset {} (tset {} s.phlx.wins wi {}) o { tget {} (tset {} s.phlx.wins wi {}) o with partner := none }
  | none => tset {} s.phlx.wins wi {}

theorem freedWins_self (s : State) (wi : Nat) : tget {} (freedWins s wi) wi = ({} : Win) := by
  unfold freedWins
  split
  · next o _ =>
    rw [tget_tset]
    split
    · next h => rw [← h, tget_tset_self]
    · exact tget_tset_self ..
  · exact tget_tset_self ..

theorem freedWins_ne (s : State) {wi j : Nat} (hj : j ≠ wi) :
    tget {} (freedWins s wi) j = { s.win j with partner := if (s.win wi).partner = some j then none else (s.win j).partner } := by
  have hother : tget {} (tset {} s.phlx.wins wi {}) j = s.win j := tget_tset_ne _ _ _ _ _ hj
  unfold freedWins
  split
  · next o ho =>
    rw [tget_tset, ho]
    by_cases h : j = o
    · subst h
      rw [if_pos rfl, if_pos rfl, hother]
    · rw [if_neg h, if_neg (fun e => h (Option.some.inj e).symm), hother]
  · next ho => rw [ho, if_neg nofun, hother]

/-- The granules of a window. -/
def granulesOf (s : State) (w : Win) : List Nat := (List.range (granulesFor w.tiles)).map (fun i => granuleAt s (w.base + i))

theorem mem_granulesOf (s : State) (w : Win) (g : Nat) : g ∈ granulesOf s w ↔ ∃ i < granulesFor w.tiles, granuleAt s (w.base + i) = g := by
  simp [granulesOf]

/-- A freed window leaves nothing of its own, and no descriptor names it (R169, R322). -/
theorem freeWindowNow_eq {s : State} {wi : Nat} (hkind : (s.win wi).kind ≠ .free) :
    freeWindowNow s wi = { s with
      grp := { s.grp with descA := tmap {} (fun _ => unnamed wi) s.grp.descA, descS := tmap {} (fun _ => unnamed wi) s.grp.descS }
      phlx := { s.phlx with
        wins := freedWins s wi
        lanes := s.phlx.lanes.filter (fun e => !(granulesOf s (s.win wi)).contains (e.1 / 2))
        recs := s.phlx.recs.filter (fun e => !(granulesOf s (s.win wi)).contains (e.1 / 512))
        gmap := s.phlx.gmap.filter
          (fun e => !((s.win wi).base ≤ e.1 && e.1 < (s.win wi).base + granulesFor (s.win wi).tiles)) } } := by
  rw [freeWindowNow, if_neg hkind]
  unfold freedWins
  cases (s.win wi).partner <;> rfl

/-- The lanes of a tile lie in the granules of its window (R164). -/
theorem laneKey_granule (s : State) (w : Win) {i : Nat} (hi : i < w.tiles) : laneKey s w i / 2 ∈ granulesOf s w := by
  refine (mem_granulesOf s w _).2 ⟨i / 2, ?_, ?_⟩
  · unfold granulesFor ceilDiv
    omega
  · unfold laneKey
    omega

/-- The record of a tile lies in the granules of its window (R167, R168). -/
theorem recKey_granule (s : State) (w : Win) {i : Nat} (hi : i < w.tiles) : recKey s w i / 512 ∈ granulesOf s w := by
  refine (mem_granulesOf s w _).2 ⟨ceilDiv w.tiles 2 + i / 512, ?_, ?_⟩
  · unfold granulesFor ceilDiv
    omega
  · unfold recKey
    rw [Nat.add_assoc w.base]
    omega

section
variable {s : State} {wi : Nat} (hkind : (s.win wi).kind ≠ .free)
include hkind

theorem freed_win_self : (freeWindowNow s wi).win wi = {} := by
  rw [freeWindowNow_eq hkind]
  exact freedWins_self s wi

theorem freed_win_ne {j : Nat} (hj : j ≠ wi) :
    (freeWindowNow s wi).win j = { s.win j with partner := if (s.win wi).partner = some j then none else (s.win j).partner } := by
  rw [freeWindowNow_eq hkind]
  exact freedWins_ne s hj

theorem freed_gmap (i : Nat) : tget 0 (freeWindowNow s wi).phlx.gmap i
    = if (s.win wi).base ≤ i ∧ i < (s.win wi).base + granulesFor (s.win wi).tiles then 0 else tget 0 s.phlx.gmap i := by
  rw [freeWindowNow_eq hkind]
  refine (tget_filter_key 0 (fun k => !((s.win wi).base ≤ k && k < (s.win wi).base + granulesFor (s.win wi).tiles)) s.phlx.gmap i).trans ?_
  simp only [Bool.not_eq_true', Bool.and_eq_false_iff, decide_eq_false_iff_not, ← not_and_or, ite_not]

theorem freed_lanes (q : Nat) : tget zeroLanes (freeWindowNow s wi).phlx.lanes q
    = if q / 2 ∈ granulesOf s (s.win wi) then zeroLanes else tget zeroLanes s.phlx.lanes q := by
  rw [freeWindowNow_eq hkind]
  refine (tget_filter_key zeroLanes (fun k => !(granulesOf s (s.win wi)).contains (k / 2)) s.phlx.lanes q).trans ?_
  simp only [List.contains_eq_mem, Bool.not_eq_true', decide_eq_false_iff_not, ite_not]

theorem freed_recs (q : Nat) : tget {} (freeWindowNow s wi).phlx.recs q
    = (if q / 512 ∈ granulesOf s (s.win wi) then {} else tget {} s.phlx.recs q : TileRec) := by
  rw [freeWindowNow_eq hkind]
  refine (tget_filter_key {} (fun k => !(granulesOf s (s.win wi)).contains (k / 512)) s.phlx.recs q).trans ?_
  simp only [List.contains_eq_mem, Bool.not_eq_true', decide_eq_false_iff_not, ite_not]

theorem freed_desc_names (sh : Bool) (g : Nat) : descWindow ((freeWindowNow s wi).desc sh g) ≠ some wi := by
  have hnone : descWindow {} ≠ some wi := nofun
  have hkept (t : Table Desc) : descWindow (tget {} (tmap {} (fun _ => unnamed wi) t) g) ≠ some wi := by
    rcases tget_tmap_cases {} (fun _ => unnamed wi) t g with h | ⟨d, h⟩
    · rw [h]
      exact hnone
    · rw [h]
      exact descWindow_unnamed wi d
  rw [freeWindowNow_eq hkind]
  cases sh
  · exact hkept s.grp.descA
  · exact hkept s.grp.descS

theorem freed_desc (hA : tableWf {} s.grp.descA = true) (hS : tableWf {} s.grp.descS = true) (sh : Bool) (g : Nat) :
    (freeWindowNow s wi).desc sh g = unnamed wi (s.desc sh g) := by
  rw [freeWindowNow_eq hkind]
  cases sh
  · exact tget_tmap (f := fun _ => unnamed wi) (fun _ => rfl) hA g
  · exact tget_tmap (f := fun _ => unnamed wi) (fun _ => rfl) hS g

end

/-- `FREE` of a window that no ticket uses (R169, R171). -/
theorem freeCmd_idle {s : State} {wi : Nat} (hkind : (s.win wi).kind ≠ .free) (hopen : (s.win wi).st ≠ .opened) (hrel : (s.win wi).st ≠ .releasing) :
    freeCmd s wi = ({ win := wi }, freeWindowNow s wi) := by
  simp [freeCmd, winInUse, hkind, hopen, hrel]

theorem openCmd_idle {s : State} {wi : Nat} (efix : Option Nat) (hkind : (s.win wi).kind = .working) (hopen : (s.win wi).st ≠ .opened)
    (hrel : (s.win wi).st ≠ .releasing) : openCmd s wi efix = ({ win := wi }, openWindow s wi s.phlx.winArg efix) := by
  simp [openCmd, winInUse, hkind, hopen, hrel]

theorem winInUse_iff (w : Win) : winInUse w = true ↔ w.st = .opened ∨ w.st = .releasing := by
  simp [winInUse]

/-- The end of a window command (R183, R184). -/
theorem winCmdDone_of_running {s : State} {r : WinResult} (hrun : s.phlx.running = some r) (hwait : s.phlx.waiting = none) :
    winCmdDone s = raise { s with phlx := { s.phlx with running := none, result := r } } 0x51 0 := by
  simp only [winCmdDone, hrun, hwait, winDone]

theorem winCmdDone_of_idle {s : State} (h : s.phlx.running = none ∨ s.phlx.waiting.isSome = true) : winCmdDone s = s := by
  unfold winCmdDone
  split
  · next r hrun hwait =>
    rcases h with h | h
    · rw [hrun] at h
      cases h
    · rw [hwait] at h
      cases h
  · rfl

/-- A window command that the bus passes starts. -/
theorem exec_winCmds {s : State} {a : Access} {v : Word} (hr : WriteReaches s a 0x51 0x58) (hidle : s.phlx.running = none) (hz : fld v 4 0 = 0)
    (hrun : arithRuns s = true) :
    exec (.phlxFree a v) s = .next (winStart (answer s 0) a .free v) ∧ exec (.phlxOpen a v) s = .next (winStart (answer s 0) a .bind v)
      ∧ exec (.phlxInvalidate a v) s = .next (winStart (answer s 0) a .invalidate v) :=
  ⟨congrArg Host.Outcome.next (winCmd_starts .free hr hidle hz hrun), congrArg Host.Outcome.next (winCmd_starts .bind hr hidle hz hrun),
    congrArg Host.Outcome.next (winCmd_starts .invalidate hr hidle hz hrun)⟩

/-- Settles O9: a command that passes starts (`exec_winCmds`) and does its work at once (`openWindow_spec`, `freeWindowNow_eq`), or reports a
refusal (`next_of_winFailed`), or waits for the clock (`winCmd_waits`). -/
theorem windowCommandsAct : Obligations.WindowCommandsAct := by
  refine ⟨fun s a v hr hidle hz hrun => ?_, fun s => ⟨fun a v c op hr hidle hz hrun hc => ?_, fun r hres hwait hrun => ?_, fun h => ?_,
    fun a v c hbusy hr hc => ?_⟩⟩
  · obtain ⟨hfree, hopen, hinv⟩ := exec_winCmds hr hidle hz hrun
    refine ⟨fun hkind hno hnr => ?_, fun hkind => ?_, fun hkind hno hnr => ?_, fun huse => ?_, fun c hc => ?_⟩
    · obtain ⟨rs, hwork, hrs⟩ := openWindow_spec (answer s 0) (fld v 41 29) s.phlx.winArg (if bitOf v 5 then some (fld v 13 6) else none)
      have hdone : winWork (answer s 0) .bind v = _ := openCmd_idle _ hkind hno hnr
      rw [winStart_done hdone rfl, show (answer s 0).phlx = s.phlx from rfl, hwork] at hopen
      refine ⟨_, hopen, rfl, State.setWin_win_self .., fun i hi => ?_, fun q hq => ?_, fun j hj => State.setWin_win_ne _ _ _ _ hj⟩
      · have hself := State.setWin_win_self (answer s 0) (fld v 41 29)
          { s.win (fld v 41 29) with st := .opened, frontier := 0, ticket := s.phlx.winArg }
        refine (congrArg (fun x : Win => tget {} rs (recKey (answer s 0) x i)) hself).trans ((hrs _).trans ((if_pos ⟨i, hi, rfl⟩).trans ?_))
        cases bitOf v 5 <;> rfl
      · exact (hrs q).trans (if_neg fun ⟨i, hi, h⟩ => hq i hi h)
    · have hdone : winWork (answer s 0) .invalidate v
          = ({ win := fld v 41 29 }, (answer s 0).setWin (fld v 41 29) { s.win (fld v 41 29) with shadowValid := false }) :=
        if_neg (not_not_intro hkind)
      rw [winStart_done hdone rfl] at hinv
      exact ⟨_, hinv, rfl, State.setWin_win_self .., fun j hj => State.setWin_win_ne _ _ _ _ hj⟩
    · have hdone : winWork (answer s 0) .free v = _ := freeCmd_idle (s := answer s 0) hkind hno hnr
      rw [winStart_done hdone rfl] at hfree
      refine ⟨_, hfree, ?_, freed_win_self (s := answer s 0) hkind, fun j hj => freed_win_ne (s := answer s 0) hkind hj,
        freed_gmap (s := answer s 0) hkind, fun i hi => ⟨?_, ?_⟩, fun q hq => ?_, fun q hq => ?_,
        freed_desc_names (s := answer s 0) hkind, freed_desc (s := answer s 0) hkind⟩
      · rw [freeWindowNow_eq (s := answer s 0) hkind]
        rfl
      · exact (freed_lanes (s := answer s 0) hkind _).trans (if_pos (laneKey_granule (answer s 0) _ hi))
      · exact (freed_recs (s := answer s 0) hkind _).trans (if_pos (recKey_granule (answer s 0) _ hi))
      · refine (freed_lanes (s := answer s 0) hkind q).trans (if_neg fun h => ?_)
        obtain ⟨i, hi, hg⟩ := (mem_granulesOf ..).1 h
        exact hq i hi hg.symm
      · refine (freed_recs (s := answer s 0) hkind q).trans (if_neg fun h => ?_)
        obtain ⟨i, hi, hg⟩ := (mem_granulesOf ..).1 h
        exact hq i hi hg.symm
    · have hin : winInUse (s.win (fld v 41 29)) = true := (winInUse_iff _).2 huse
      exact ⟨next_of_winFailed (r := winRefused .wrongState (fld v 41 29)) hopen (if_pos hin) (show stCode .wrongState ≠ 0 by decide),
        next_of_winFailed (r := winRefused .wrongState (fld v 41 29)) hfree (if_pos hin) (show stCode .wrongState ≠ 0 by decide)⟩
    · rcases hc with ⟨rfl, hkind, hno⟩ | ⟨rfl, hkind, hno⟩ | ⟨rfl, hkind⟩
      · refine next_of_winFailed (r := winRefused .badArg (fld v 41 29)) hopen ?_ (show stCode .badArg ≠ 0 by decide)
        exact (if_neg (by rw [show (answer s 0).win _ = s.win _ from rfl, hno]; exact Bool.false_ne_true)).trans (if_pos hkind)
      · refine next_of_winFailed (r := winRefused .badArg (fld v 41 29)) hfree ?_ (show stCode .badArg ≠ 0 by decide)
        exact (if_neg (by rw [show (answer s 0).win _ = s.win _ from rfl, hno]; exact Bool.false_ne_true)).trans (if_pos hkind)
      · exact next_of_winFailed (r := winRefused .badArg (fld v 41 29)) hinv (if_pos hkind) (show stCode .badArg ≠ 0 by decide)
  · simp only [List.mem_cons, Prod.mk.injEq, List.not_mem_nil, or_false] at hc
    rcases hc with ⟨rfl, rfl⟩ | ⟨rfl, rfl⟩ | ⟨rfl, rfl⟩
    · exact congrArg Host.Outcome.next (winCmd_waits .free hr hidle hz hrun)
    · exact congrArg Host.Outcome.next (winCmd_waits .bind hr hidle hz hrun)
    · exact congrArg Host.Outcome.next (winCmd_waits .invalidate hr hidle hz hrun)
  · have hend : exec .phlxWinCmdDone s = .next (raise { s with phlx := { s.phlx with running := none, result := r } } 0x51 0) :=
      congrArg Host.Outcome.next ((if_pos hrun).trans (winCmdDone_of_running hres hwait))
    obtain ⟨-, hcause, hother⟩ := raise_spec { s with phlx := { s.phlx with running := none, result := r } } 0x51 0
    exact ⟨_, hend, rfl, hcause, hother⟩
  · refine congrArg Host.Outcome.next ?_
    unfold whenArith
    split
    · next hrun => exact winCmdDone_of_idle (h.imp_right fun h => h.resolve_right (by rw [hrun]; exact nofun))
    · rfl
  · refine next_of_refuse (a := a) (addr := regAt 0x51 0x58) (st := .wrongState) ?_
    simp only [List.mem_cons, List.not_mem_nil, or_false] at hc
    rcases hc with rfl | rfl | rfl | rfl
    · exact congrArg Host.Outcome.next (winCmd_busy .alloc _ hr hbusy)
    · exact congrArg Host.Outcome.next (winCmd_busy .free _ hr hbusy)
    · exact congrArg Host.Outcome.next (winCmd_busy .bind _ hr hbusy)
    · exact congrArg Host.Outcome.next (winCmd_busy .invalidate _ hr hbusy)

end Sys2Proof.Machine
end

section
/-! `ALLOC`: which index, map run and granules a new window takes, what compaction leaves of the others, and the descriptors that name it (R164,
R167, R169, R170, R316, R322). -/

namespace Sys2Proof.Machine

/-! ### Granules and map runs -/

/-- The granules that a search from `c` takes: as many as asked for, none in use, each once, and none past those in use and those taken. -/
theorem freeGranules_spec (used : List Nat) (fuel n c : Nat) (h : n + (used.filter (c ≤ ·)).length ≤ fuel) :
    (freeGranules used fuel n c).length = n
      ∧ (∀ x ∈ freeGranules used fuel n c, c ≤ x ∧ x < c + n + (used.filter (c ≤ ·)).length ∧ x ∉ used)
      ∧ (freeGranules used fuel n c).Nodup := by
  induction fuel generalizing n c with
  | zero =>
    obtain rfl : n = 0 := by omega
    exact ⟨rfl, nofun, List.nodup_nil⟩
  | succ fuel ih =>
    unfold freeGranules
    split
    · next hn => exact ⟨hn.symm, nofun, List.nodup_nil⟩
    · next hn =>
      have hmono : (used.filter (c + 1 ≤ ·)).length ≤ (used.filter (c ≤ ·)).length :=
        (List.monotone_filter_right used fun x hx => by simp only [decide_eq_true_eq] at hx ⊢; omega).length_le
      split
      · next hc =>
        have hlt : (used.filter (c + 1 ≤ ·)).length < (used.filter (c ≤ ·)).length := by
          have herase : used.filter (c + 1 ≤ ·) = (used.filter (c ≤ ·)).filter (· ≠ c) := by
            rw [List.filter_filter]
            exact List.filter_congr fun x _ => by simp only [ne_eq, ← Bool.decide_and, decide_eq_decide]; omega
          rw [herase, List.length_filter_lt_length_iff_exists]
          exact ⟨c, List.mem_filter.2 ⟨by simpa using hc, by simp⟩, by simp⟩
        obtain ⟨hlen, hmem, hnodup⟩ := ih n (c + 1) (by omega)
        refine ⟨hlen, fun x hx => ?_, hnodup⟩
        obtain ⟨hlow, hhigh, hfree⟩ := hmem x hx
        exact ⟨by omega, by omega, hfree⟩
      · next hc =>
        obtain ⟨hlen, hmem, hnodup⟩ := ih (n - 1) (c + 1) (by omega)
        refine ⟨by rw [List.length_cons, hlen]; omega, fun x hx => ?_, List.nodup_cons.2 ⟨fun hx => ?_, hnodup⟩⟩
        · rcases List.mem_cons.1 hx with rfl | hx
          · exact ⟨Nat.le_refl _, by omega, by simpa using hc⟩
          · obtain ⟨hlow, hhigh, hfree⟩ := hmem x hx
            exact ⟨by omega, by omega, hfree⟩
        · obtain ⟨hlow, -, -⟩ := hmem c hx
          omega

/-- A run of a table's entries, written in order. -/
theorem tget_run (f : Nat → Nat) (b n : Nat) (m : Table Nat) (k : Nat) :
    tget 0 ((List.range n).foldl (fun m i => tset 0 m (b + i) (f i)) m) k = if b ≤ k ∧ k < b + n then f (k - b) else tget 0 m k := by
  induction n with
  | zero => exact (if_neg (by omega)).symm
  | succ n ih =>
    rw [List.range_succ, List.foldl_append, List.foldl_cons, List.foldl_nil, tget_tset, ih]
    by_cases hk : k = b + n
    · subst hk
      rw [if_pos rfl, if_pos (by omega), Nat.add_sub_cancel_left]
    · rw [if_neg hk]
      by_cases hin : b ≤ k ∧ k < b + n
      · rw [if_pos hin, if_pos (by omega)]
      · rw [if_neg hin, if_neg (by omega)]

/-- The granules that a window of `n` granules takes. -/
def takenGranules (s : State) (n : Nat) : List Nat :=
  freeGranules (s.phlx.gmap.map (fun e => e.2 - 1)) (n + s.phlx.gmap.length) n 0

theorem takenGranules_spec (s : State) (n : Nat) :
    (takenGranules s n).length = n ∧ (∀ x ∈ takenGranules s n, x < n + s.phlx.gmap.length ∧ ∀ e ∈ s.phlx.gmap, e.2 - 1 ≠ x)
      ∧ (takenGranules s n).Nodup := by
  have hall : ((s.phlx.gmap.map (fun e => e.2 - 1)).filter (0 ≤ ·)).length = s.phlx.gmap.length := by simp
  obtain ⟨hlen, hmem, hnodup⟩ := freeGranules_spec (s.phlx.gmap.map (fun e => e.2 - 1)) (n + s.phlx.gmap.length) n 0 (by omega)
  refine ⟨hlen, fun x hx => ?_, hnodup⟩
  obtain ⟨-, hhigh, hfree⟩ := hmem x hx
  exact ⟨by omega, fun e he h => hfree (h ▸ List.mem_map_of_mem he)⟩

/-- A placed window's run of the map names the granules it takes, and no other entry changes (R164, R169). -/
theorem placeWindow_gmap (s : State) (wi base : Nat) (w : Win) (k : Nat) :
    tget 0 (placeWindow s wi base w).phlx.gmap k = if base ≤ k ∧ k < base + granulesFor w.tiles
      then (takenGranules s (granulesFor w.tiles)).getD (k - base) 0 + 1 else tget 0 s.phlx.gmap k :=
  tget_run (fun i => (takenGranules s (granulesFor w.tiles)).getD i 0 + 1) base (granulesFor w.tiles) s.phlx.gmap k

/-! ### Compaction -/

/-- What compaction may change: the map, and the `MAP_BASE` of windows (R169). -/
def Rebased (s u : State) : Prop :=
  (∃ m ws, u = { s with phlx.gmap := m, phlx.wins := ws })
    ∧ (tableWf {} s.phlx.wins = true → tableWf {} u.phlx.wins = true ∧ ∀ j, ∃ b, u.win j = { s.win j with base := b })

theorem Rebased.refl (s : State) : Rebased s s := ⟨⟨_, _, rfl⟩, fun hwf => ⟨hwf, fun _ => ⟨_, rfl⟩⟩⟩

theorem Rebased.setGmap {s u : State} (h : Rebased s u) (m : Table Nat) : Rebased s { u with phlx.gmap := m } := by
  obtain ⟨⟨_, _, hframe⟩, hwins⟩ := h
  exact ⟨⟨m, u.phlx.wins, by rw [hframe]⟩, hwins⟩

theorem Rebased.setWin {s u : State} (h : Rebased s u) {e : Nat × Win} (b : Nat)
    (he : tableWf {} s.phlx.wins = true → e.2 = s.win e.1) : Rebased s (u.setWin e.1 { e.2 with base := b }) := by
  obtain ⟨⟨_, _, hframe⟩, hwins⟩ := h
  refine ⟨⟨_, _, by rw [hframe]; rfl⟩, fun hwf => ⟨tset_wf _ _ _ _ (hwins hwf).1, fun j => ?_⟩⟩
  rw [State.setWin_win_eq]
  split
  · next hj => exact ⟨b, by rw [hj, he hwf]⟩
  · exact (hwins hwf).2 j

/-- The windows in order of `MAP_BASE` are windows of the table. -/
theorem mem_winsByBase {s : State} {e : Nat × Win} (h : e ∈ winsByBase s) : e ∈ s.phlx.wins := by
  have hinsert (l acc : List (Nat × Win)) (he : e ∈ l.foldl (fun acc e =>
      acc.takeWhile (fun x => x.2.base < e.2.base) ++ e :: acc.dropWhile (fun x => x.2.base < e.2.base)) acc) : e ∈ acc ∨ e ∈ l := by
    induction l generalizing acc with
    | nil => exact .inl he
    | cons y l ih =>
      rcases ih _ he with h | h
      · rcases List.mem_append.1 h with h | h
        · exact .inl ((List.takeWhile_sublist _).subset h)
        · rcases List.mem_cons.1 h with rfl | h
          · exact .inr List.mem_cons_self
          · exact .inl ((List.dropWhile_sublist _).subset h)
      · exact .inr (List.mem_cons_of_mem _ h)
  exact List.mem_of_mem_filter ((hinsert _ [] h).resolve_left List.not_mem_nil)

/-- One window's move in a compaction (R169). -/
def compactStep (s : State) (acc : Nat × Table Nat × State) (e : Nat × Win) : Nat × Table Nat × State :=
  (acc.1 + granulesFor e.2.tiles,
    (List.range (granulesFor e.2.tiles)).foldl (fun m i => tset 0 m (acc.1 + i) (tget 0 s.phlx.gmap (e.2.base + i))) acc.2.1,
    acc.2.2.setWin e.1 { e.2 with base := acc.1 })

theorem compactMap_eq (s : State) :
    compactMap s = { ((winsByBase s).foldl (compactStep s) (0, [], s)).2.2 with
      phlx.gmap := ((winsByBase s).foldl (compactStep s) (0, [], s)).2.1 } := rfl

theorem compactMap_rebased (s : State) : Rebased s (compactMap s) := by
  have hfold (l : List (Nat × Win)) (acc : Nat × Table Nat × State) (hl : ∀ e ∈ l, e ∈ s.phlx.wins) (hacc : Rebased s acc.2.2) :
      Rebased s (l.foldl (compactStep s) acc).2.2 := by
    induction l generalizing acc with
    | nil => exact hacc
    | cons e l ih =>
      refine ih _ (fun x hx => hl x (List.mem_cons_of_mem _ hx)) (hacc.setWin _ fun hwf => ?_)
      exact (tget_of_mem (of_decide_eq_true (Bool.and_eq_true_iff.1 hwf).1) (hl e List.mem_cons_self)).symm
  rw [compactMap_eq]
  exact (hfold _ _ (fun _ => mem_winsByBase) (.refl s)).setGmap _

theorem takeRun_rebased (s : State) (n : Nat) : Rebased s (takeRun s n).2 := by
  unfold takeRun
  split
  · exact .refl s
  · exact compactMap_rebased s

theorem takeRun_of_free {s : State} {n b : Nat} (h : freeRun n (s.phlx.gmap.map (·.1)) 0 = some b) : takeRun s n = (b, s) := by
  rw [takeRun, h]

/-! ### A new window -/

/-- A window placed at the run that the map yields for it. -/
def placed (s : State) (wi : Nat) (x : Win) : State :=
  placeWindow (takeRun s (granulesFor x.tiles)).2 wi (takeRun s (granulesFor x.tiles)).1 x

theorem placeWindow_win (s : State) (wi b : Nat) (x : Win) (j : Nat) :
    (placeWindow s wi b x).win j = if j = wi then { x with base := b } else s.win j := State.setWin_win_eq ..

theorem placed_of_free {s : State} {x : Win} {b : Nat} (wi : Nat) (h : freeRun (granulesFor x.tiles) (s.phlx.gmap.map (·.1)) 0 = some b) :
    placed s wi x = placeWindow s wi b x := by
  rw [placed, takeRun_of_free h]

theorem placed_frame (s : State) (wi : Nat) (x : Win) : ∃ m ws, placed s wi x = { s with phlx.gmap := m, phlx.wins := ws } := by
  obtain ⟨⟨m, ws, hframe⟩, -⟩ := takeRun_rebased s (granulesFor x.tiles)
  rw [placed, hframe]
  exact ⟨_, _, rfl⟩

/-- Of the other windows a placed one changes `MAP_BASE` at most (R169). -/
theorem placed_others {s : State} (wi : Nat) (x : Win) (hwf : tableWf {} s.phlx.wins = true) :
    tableWf {} (placed s wi x).phlx.wins = true ∧ ∀ j, j ≠ wi → ∃ b, (placed s wi x).win j = { s.win j with base := b } := by
  obtain ⟨-, hwins⟩ := takeRun_rebased s (granulesFor x.tiles)
  refine ⟨tset_wf _ _ _ _ (hwins hwf).1, fun j hj => ?_⟩
  rw [placed, placeWindow_win, if_neg hj]
  exact (hwins hwf).2 j

/-- The windows of an `ALLOC` in place: the working window, and its shadow where asked (R169). -/
def allocated (s : State) (p g n w : Nat) (pair : Bool) : State :=
  if pair then placed (placed s w { kind := .working, part := p, group := g, tiles := n, partner := some (w + 1) }) (w + 1)
    { kind := .shadow, part := p, group := g, tiles := n, partner := some w }
  else placed s w { kind := .working, part := p, group := g, tiles := n }

theorem allocated_frame (s : State) (p g n w : Nat) (pair : Bool) :
    ∃ m ws, allocated s p g n w pair = { s with phlx.gmap := m, phlx.wins := ws } := by
  unfold allocated
  split
  · obtain ⟨m, ws, hfirst⟩ := placed_frame s w { kind := .working, part := p, group := g, tiles := n, partner := some (w + 1) }
    obtain ⟨m', ws', hsecond⟩ := placed_frame (placed s w { kind := .working, part := p, group := g, tiles := n, partner := some (w + 1) }) (w + 1)
      { kind := .shadow, part := p, group := g, tiles := n, partner := some w }
    rw [hsecond, hfirst]
    exact ⟨_, _, rfl⟩
  · exact placed_frame ..

/-- Of the other windows an `ALLOC` changes `MAP_BASE` at most (R169). -/
theorem allocated_others {s : State} (p g n w : Nat) (pair : Bool) (hwf : tableWf {} s.phlx.wins = true) {j : Nat} (hj : j ≠ w)
    (hpair : pair = true → j ≠ w + 1) :
    (allocated s p g n w pair).win j = { s.win j with base := ((allocated s p g n w pair).win j).base } := by
  have hmoved : ∃ b, (allocated s p g n w pair).win j = { s.win j with base := b } := by
    unfold allocated
    split
    · next h =>
      obtain ⟨hwf', hfirst⟩ := placed_others w { kind := .working, part := p, group := g, tiles := n, partner := some (w + 1) } hwf
      obtain ⟨-, hsecond⟩ := placed_others (w + 1) { kind := .shadow, part := p, group := g, tiles := n, partner := some w } hwf'
      obtain ⟨b, hb⟩ := hfirst j hj
      obtain ⟨c, hc⟩ := hsecond j (hpair h)
      exact ⟨c, by rw [hc, hb]⟩
    · exact (placed_others w _ hwf).2 j hj
  obtain ⟨b, hb⟩ := hmoved
  rw [hb]

theorem allocated_single {s : State} {p g n w b : Nat} {pair : Bool} (hone : pair = false)
    (hb : freeRun (granulesFor n) (s.phlx.gmap.map (·.1)) 0 = some b) :
    allocated s p g n w pair = placeWindow s w b { kind := .working, part := p, group := g, tiles := n } := by
  rw [allocated, if_neg (by rw [hone]; exact Bool.false_ne_true)]
  exact placed_of_free w hb

theorem allocated_pair {s : State} {p g n w b c : Nat} {x : State} {pair : Bool} (htwo : pair = true)
    (hb : freeRun (granulesFor n) (s.phlx.gmap.map (·.1)) 0 = some b)
    (hx : x = placeWindow s w b { kind := .working, part := p, group := g, tiles := n, partner := some (w + 1) })
    (hc : freeRun (granulesFor n) (x.phlx.gmap.map (·.1)) 0 = some c) : allocated s p g n w pair
      = placeWindow x (w + 1) c { kind := .shadow, part := p, group := g, tiles := n, partner := some w } := by
  have hfirst : placed s w { kind := .working, part := p, group := g, tiles := n, partner := some (w + 1) } = x :=
    (placed_of_free w hb).trans hx.symm
  rw [allocated, if_pos htwo, hfirst]
  exact placed_of_free (w + 1) hc

/-! ### The descriptors that name it -/

/-- A descriptor that names a window (Table 6.2). -/
def named (w : Nat) (d : Desc) : Desc :=
  { d with w7 := (d.w7 &&& BitVec.ofNat 64 (2 ^ 64 - 1 - maskBits 48 35)) ||| pack [(48, 36, w), (35, 35, 1)] }

theorem setDesc_desc (s : State) (c : Bool) (g : Nat) (d : Desc) (sh : Bool) (h : Nat) :
    (s.setDesc c g d).desc sh h = if sh = c ∧ h = g then d else s.desc sh h := by
  have hcopy (t : Table Desc) : tget {} (tset {} t g d) h = if h = g then d else tget {} t h := tget_tset ..
  by_cases hsh : sh = c
  · subst hsh
    simp only [true_and]
    cases sh
    · exact hcopy s.grp.descA
    · exact hcopy s.grp.descS
  · rw [if_neg fun hall => hsh hall.1]
    obtain rfl : c = !sh := by cases c <;> cases sh <;> simp_all
    cases sh <;> rfl

/-- One copy's step of `nameWhereNone`. -/
def nameIfNone (g w : Nat) (s : State) (c : Bool) : State := if descWindow (s.desc c g) = none then nameWindowIn s c g w else s

theorem nameIfNone_desc (g w : Nat) (s : State) (c sh : Bool) (h : Nat) :
    (nameIfNone g w s c).desc sh h = if sh = c ∧ h = g ∧ descWindow (s.desc sh g) = none then named w (s.desc sh g) else s.desc sh h := by
  unfold nameIfNone
  split
  · next hnone =>
    refine (setDesc_desc ..).trans ?_
    by_cases hc : sh = c ∧ h = g
    · obtain ⟨rfl, rfl⟩ := hc
      rw [if_pos ⟨rfl, rfl⟩, if_pos ⟨rfl, rfl, hnone⟩, named]
    · rw [if_neg hc, if_neg fun hall => hc ⟨hall.1, hall.2.1⟩]
  · next hsome =>
    refine (if_neg ?_).symm
    rintro ⟨rfl, -, hnone⟩
    exact hsome hnone

theorem nameIfNone_frame (g w : Nat) (s : State) (c : Bool) : ∃ dA dS, nameIfNone g w s c = { s with grp.descA := dA, grp.descS := dS } := by
  unfold nameIfNone
  split
  · cases c <;> exact ⟨_, _, rfl⟩
  · exact ⟨_, _, rfl⟩

theorem nameWhereNone_eq (s : State) (g w : Nat) : nameWhereNone s g w = nameIfNone g w (nameIfNone g w s false) true := rfl

theorem nameWhereNone_frame (s : State) (g w : Nat) : ∃ dA dS, nameWhereNone s g w = { s with grp.descA := dA, grp.descS := dS } := by
  obtain ⟨dA, dS, hfirst⟩ := nameIfNone_frame g w s false
  obtain ⟨dA', dS', hsecond⟩ := nameIfNone_frame g w (nameIfNone g w s false) true
  rw [nameWhereNone_eq, hsecond, hfirst]
  exact ⟨_, _, rfl⟩

/-- Each copy that named no window names the new one, and no other descriptor changes (R322; log 135). -/
theorem nameWhereNone_desc (s : State) (g w : Nat) (sh : Bool) (h : Nat) :
    (nameWhereNone s g w).desc sh h = if h = g ∧ descWindow (s.desc sh g) = none then named w (s.desc sh g) else s.desc sh h := by
  simp only [nameWhereNone_eq, nameIfNone_desc]
  cases sh <;> simp

/-! ### The slices of Phlox -/

theorem setLive_domLive (s : State) (d e : Nat) : domLive (setLive s d) e = (domLive s e || e == d) := by
  have hset : (setBit s.pwr.live d).testBit e = (s.pwr.live.testBit e || e == d) := by
    rw [setBit, Nat.testBit_or, Nat.testBit_two_pow, beq_eq_decide]
    simp only [eq_comm]
  exact hset

/-- A domain that Helm brings into service is live, no other leaves service, and nothing but the power page's state changes (R538; log 42). -/
theorem handshake_spec (s : State) (d : Nat) :
    (∃ ps pw, handshake s d = { s with bus.pages := ps, pwr := pw }) ∧ ∀ e, domLive (handshake s d) e = (domLive s e || e == d) := by
  unfold handshake
  split
  · next hlive =>
    refine ⟨⟨_, _, rfl⟩, fun e => ?_⟩
    by_cases he : e = d
    · rw [he, hlive]
      rfl
    · rw [beq_false_of_ne he, Bool.or_false]
  · split
    · exact ⟨⟨_, _, rfl⟩, setLive_domLive s d⟩
    · exact ⟨⟨_, _, rfl⟩, setLive_domLive s d⟩

theorem handshakes_spec (l : List Nat) (s : State) :
    (∃ ps pw, l.foldl handshake s = { s with bus.pages := ps, pwr := pw }) ∧ ∀ d ∈ l, domLive (l.foldl handshake s) d = true := by
  have hkept (l : List Nat) (s : State) (e : Nat) (he : domLive s e = true) : domLive (l.foldl handshake s) e = true := by
    induction l generalizing s with
    | nil => exact he
    | cons d l ih => exact ih _ (by rw [(handshake_spec s d).2, he, Bool.true_or])
  induction l generalizing s with
  | nil => exact ⟨⟨_, _, rfl⟩, nofun⟩
  | cons d l ih =>
    obtain ⟨⟨ps, pw, hframe⟩, hlive⟩ := handshake_spec s d
    obtain ⟨⟨ps', pw', hrest⟩, hall⟩ := ih (handshake s d)
    refine ⟨⟨ps', pw', by rw [List.foldl_cons, hrest, hframe]⟩, fun e he => ?_⟩
    rcases List.mem_cons.1 he with rfl | he
    · exact hkept l _ e (by rw [hlive, beq_self_eq_true, Bool.or_true])
    · exact hall e he

/-! ### `ALLOC` -/

section
variable {s : State} {p g n k : Nat} {pair : Bool} (hk : k = if pair = true then 2 else 1)
include hk

/-- Beyond a quota (R170, R316). -/
theorem allocWindow_quota (h : (s.part p).qGran < partGranules s p + k * granulesFor n ∨ (s.part p).qWins < partWindows s p + k) :
    allocWindow s p g n pair = ({ status := 0x0202, win := 0, detail := 0 }, raise s (0x80 + p) 4) := by
  subst hk
  exact if_pos h

section
variable (hgran : partGranules s p + k * granulesFor n ≤ (s.part p).qGran) (hwins : partWindows s p + k ≤ (s.part p).qWins)
include hgran hwins

theorem allocWindow_pool (h : poolFree s < k * granulesFor n) :
    allocWindow s p g n pair = ({ status := 0x0202, win := 0, detail := 1 }, s) := by
  subst hk
  exact (if_neg (by omega)).trans (if_pos h)

variable (hpool : k * granulesFor n ≤ poolFree s)
include hpool

theorem allocWindow_index (h : freeWindow s pair = none) :
    allocWindow s p g n pair = ({ status := 0x0202, win := 0, detail := 2 }, s) := by
  subst hk
  rw [allocWindow, if_neg (by omega), if_neg (by omega), h]
  rfl

theorem allocWindow_ok {w : Nat} (h : freeWindow s pair = some w) : allocWindow s p g n pair
    = ({ status := 0, win := w, detail := 0 }, [13, 14, 15, 16].foldl handshake (nameWhereNone (allocated s p g n w pair) g w)) := by
  subst hk
  rw [allocWindow, if_neg (by omega), if_neg (by omega), h]
  cases pair <;> rfl

end
end

/-- The windows, the map and the descriptors that an `ALLOC` leaves, and the slices it brings into service. -/
theorem allocated_ready (s : State) (p g n w : Nat) (pair : Bool) :
    ∃ u, [13, 14, 15, 16].foldl handshake (nameWhereNone (allocated s p g n w pair) g w) = u
      ∧ (∃ ps pw dA dS m ws, u = { s with
          bus.pages := ps, pwr := pw, grp.descA := dA, grp.descS := dS, phlx.gmap := m, phlx.wins := ws })
      ∧ (∀ d ∈ [13, 14, 15, 16], domLive u d = true) ∧ u.phlx = (allocated s p g n w pair).phlx
      ∧ ∀ sh h, u.desc sh h = if h = g ∧ descWindow (s.desc sh g) = none then named w (s.desc sh g) else s.desc sh h := by
  obtain ⟨m, ws, halloc⟩ := allocated_frame s p g n w pair
  obtain ⟨dA, dS, hname⟩ := nameWhereNone_frame (allocated s p g n w pair) g w
  obtain ⟨⟨ps, pw, hhand⟩, hlive⟩ := handshakes_spec [13, 14, 15, 16] (nameWhereNone (allocated s p g n w pair) g w)
  have hdesc (sh : Bool) (h : Nat) : (allocated s p g n w pair).desc sh h = s.desc sh h := by
    rw [halloc]
    rfl
  refine ⟨_, rfl, ⟨ps, pw, dA, dS, m, ws, by rw [hhand, hname, halloc]⟩, hlive, by rw [hhand, hname], fun sh h => ?_⟩
  rw [← hdesc sh g, ← hdesc sh h, ← nameWhereNone_desc, hhand]
  rfl

/-- The run of a new window names granules of the pool that no entry named before, each once (R164, R169). -/
theorem placeWindow_fresh {s : State} {wi b : Nat} {x : Win} (hpos : 1 ≤ granulesFor x.tiles) (hpool : granulesFor x.tiles ≤ poolFree s) {i : Nat}
    (hi : i < granulesFor x.tiles) :
    ∃ q, q < 16384 ∧ tget 0 (placeWindow s wi b x).phlx.gmap (b + i) = q + 1 ∧ ∀ e ∈ s.phlx.gmap, e.2 - 1 ≠ q := by
  obtain ⟨hlen, hmem, -⟩ := takenGranules_spec s (granulesFor x.tiles)
  have hin : i < (takenGranules s (granulesFor x.tiles)).length := hi.trans_eq hlen.symm
  obtain ⟨hlt, hfree⟩ := hmem _ (List.getElem_mem hin)
  refine ⟨_, ?_, ?_, hfree⟩
  · unfold poolFree at hpool
    omega
  · rw [placeWindow_gmap, if_pos (by omega), Nat.add_sub_cancel_left, List.getD_eq_getElem _ _ hin]

theorem placeWindow_injective {s : State} {wi b : Nat} {x : Win} {i j : Nat} (hi : i < granulesFor x.tiles) (hj : j < granulesFor x.tiles)
    (hij : i ≠ j) : tget 0 (placeWindow s wi b x).phlx.gmap (b + i) ≠ tget 0 (placeWindow s wi b x).phlx.gmap (b + j) := by
  obtain ⟨hlen, -, hnodup⟩ := takenGranules_spec s (granulesFor x.tiles)
  rw [placeWindow_gmap, placeWindow_gmap, if_pos (by omega), if_pos (by omega), Nat.add_sub_cancel_left, Nat.add_sub_cancel_left,
    List.getD_eq_getElem _ _ (hi.trans_eq hlen.symm), List.getD_eq_getElem _ _ (hj.trans_eq hlen.symm)]
  exact fun h => hij ((hnodup.getElem_inj_iff).1 (Nat.succ.inj h))

theorem granulesFor_pos {n : Nat} (h : 1 ≤ n) : 1 ≤ granulesFor n := by
  unfold granulesFor ceilDiv
  omega

/-- A quota's failure shows in the cause of the partition's page, and the command's status goes to the page of Phlox (R171, R316). -/
theorem quota_cause (s : State) (a : Access) {p : Nat} (hp : p < 32) (r : WinResult) : bitOf ((pageErrorCode { raise s (0x80 + p) 4 with
    phlx.running := some r, phlx.waiting := none } a true winCmdAddr r.status).page (0x80 + p)).cause 4 = true := by
  obtain ⟨-, hraised, -⟩ := raise_spec s (0x80 + p) 4
  have hpage : 0x80 + p ≠ winCmdAddr / 4096 := by
    have haddr : winCmdAddr / 4096 = 0x51 := by decide
    omega
  have hcause : bitOf ((raise s (0x80 + p) 4).page (0x80 + p)).cause 4 = true := by
    rw [hraised, bitOf, BitVec.toNat_or, Nat.testBit_or, show (bitWord 4).toNat.testBit 4 = true by decide, Bool.or_true]
  rw [pageErrorCode, State.setPage_page_ne _ _ _ _ hpage]
  exact hcause

/-- The bounds of an `ALLOC`'s tile count (R170). -/
theorem tileCount_ok {v : Word} {n : Nat} (hn : n = fld v 28 14) (hlow : 1 ≤ n) (hhigh : n ≤ 32640) :
    refuseIf (!(1 ≤ fld v 28 14 && fld v 28 14 ≤ 32640)) .badArg = none := refuseIf_false _ (by simp [← hn, hlow, hhigh])

theorem tileCount_bad {v : Word} {n : Nat} (hn : n = fld v 28 14) (hout : n = 0 ∨ 32640 < n) :
    refuseIf (!(1 ≤ fld v 28 14 && fld v 28 14 ≤ 32640)) .badArg = some .badArg := refuseIf_true _ (by simp [← hn]; omega)

/-- Settles O10: a command that passes starts (`winCmd_starts`), and ends by `allocWindow`'s cases: with its windows in place (`allocated_ready`,
`placeWindow_gmap`), beyond a quota, without granules or without an index. -/
theorem windowsAreAllocated : Obligations.WindowsAreAllocated := by
  intro s a v p g n k hr hidle hz hp hg hn hk
  have halloc : winWork (answer s 0) .alloc v = allocWindow (answer s 0) p g n (bitOf v 42) := by
    rw [hp, hg, hn]
    rfl
  refine ⟨fun hlow hhigh hrun => ?_, fun hlow hhigh hrun => ?_, fun hout => ?_⟩
  · have hexec : exec (.phlxAlloc a v) s = .next (winStart (answer s 0) a .alloc v) :=
      congrArg Host.Outcome.next (by rw [phlxAlloc, tileCount_ok hn hlow hhigh, winCmd_starts .alloc hr hidle hz hrun])
    refine ⟨fun hgran hwins hpool w hw => ?_, fun h => ?_, fun hgran hwins => ⟨fun h => ?_, fun hpool h => ?_⟩⟩
    · obtain ⟨u, hu, ⟨ps, pw, dA, dS, m, ws, hframe⟩, hlive, hphlx, hdesc⟩ :=
        allocated_ready (answer s 0) p g n w (bitOf v 42)
      have hwork : winWork (answer s 0) .alloc v = ({ status := 0, win := w, detail := 0 }, u) :=
        (halloc.trans (allocWindow_ok (s := answer s 0) hk hgran hwins hpool hw)).trans (by rw [hu])
      rw [winStart_done hwork rfl] at hexec
      have hwin (j : Nat) : u.win j = (allocated (answer s 0) p g n w (bitOf v 42)).win j :=
        congrArg (fun x => tget ({} : Win) (Phlx.wins x) j) hphlx
      have hgmap := congrArg Phlx.gmap hphlx
      refine ⟨_, hexec, rfl, by rw [hframe]; rfl, hlive, fun sh => ?_, fun sh h hne => ?_, fun hwf j hj hpair => ?_, fun hone b hb => ?_,
        fun htwo b x c hb hx hc => ?_⟩
      · exact (hdesc sh _).trans (by simp only [true_and]; rfl)
      · exact (hdesc sh h).trans (if_neg fun hall => hne hall.1)
      · have hother := allocated_others (s := answer s 0) p g n w (bitOf v 42) hwf hj hpair
        rw [← hwin j] at hother
        exact hother
      · have hpos := granulesFor_pos hlow
        rw [if_neg (by rw [hone]; exact Bool.false_ne_true)] at hk
        rw [hk, Nat.one_mul] at hpool
        rw [allocated_single (s := answer s 0) hone hb] at hgmap hwin
        refine ⟨(hwin w).trans ((placeWindow_win ..).trans (if_pos rfl)), fun j hj => (hwin j).trans ((placeWindow_win ..).trans (if_neg hj)),
          fun i hi => ?_, fun i j hi hj hij => ?_, fun i hi => ?_⟩
        all_goals simp only [hgmap]
        · exact placeWindow_fresh hpos hpool hi
        · exact placeWindow_injective hi hj hij
        · exact (placeWindow_gmap ..).trans (if_neg (by simp only [not_and, not_lt]; omega))
      · have hpair := allocated_pair (s := answer s 0) (p := p) (g := g) htwo hb rfl (by rw [hx] at hc; exact hc)
        rw [hpair] at hgmap hwin
        have hw' : w ≠ w + 1 := (Nat.succ_ne_self w).symm
        refine ⟨(hwin w).trans ?_, (hwin (w + 1)).trans ((placeWindow_win ..).trans (if_pos rfl)), fun j hj hj' => (hwin j).trans ?_,
          hgmap.trans (by rw [hx]; rfl)⟩
        · rw [placeWindow_win, if_neg hw', placeWindow_win, if_pos rfl]
        · rw [placeWindow_win, if_neg hj', placeWindow_win, if_neg hj]
          rfl
    · have hwork := halloc.trans (allocWindow_quota (s := answer s 0) hk h)
      rw [winStart_failed hwork (show 0x0202 ≠ 0 by decide)] at hexec
      exact ⟨_, hexec, rfl, quota_cause (answer s 0) a (hp ▸ Nat.mod_lt _ (by decide)) _⟩
    · exact next_of_winFailed hexec (halloc.trans (allocWindow_pool (s := answer s 0) hk hgran hwins h)) (show 0x0202 ≠ 0 by decide)
    · exact next_of_winFailed hexec (halloc.trans (allocWindow_index (s := answer s 0) hk hgran hwins hpool h)) (show 0x0202 ≠ 0 by decide)
  · refine congrArg Host.Outcome.next ?_
    rw [phlxAlloc, tileCount_ok hn hlow hhigh, winCmd_waits .alloc hr hidle hz hrun]
    rfl
  · refine next_of_refuse (a := a) (addr := regAt 0x51 0x58) (st := .badArg) (congrArg Host.Outcome.next ?_)
    rw [phlxAlloc, tileCount_bad hn hout, winCmd, winCmdAddr, refuseIf_false _ (by rw [hidle]; rfl), mbz_winCmd hz, orElse,
      regWrite_argRefused _ hr]

end Sys2Proof.Machine
end

section
/-! Interrupt causes: a cause that is raised stands, and no error record takes one away (R57, R59). -/

namespace Sys2Proof.Machine

/-- No cause of any page is lost. -/
def CausesKept (s t : State) : Prop := ∀ p i, bitOf (s.page p).cause i = true → bitOf (t.page p).cause i = true

theorem CausesKept.refl (s : State) : CausesKept s s := fun _ _ => id

theorem CausesKept.trans {s t u : State} (h : CausesKept s t) (k : CausesKept t u) : CausesKept s u := fun p i => k p i ∘ h p i

theorem CausesKept.of_bus {s t : State} (h : t.bus = s.bus) : CausesKept s t := fun p i hp => by
  rwa [State.page, h]

theorem bitOf_or (v w : Word) (i : Nat) : bitOf (v ||| w) i = (bitOf v i || bitOf w i) := by
  rw [bitOf, BitVec.toNat_or, Nat.testBit_or, bitOf, bitOf]

/-- A page is written with causes beside those it had. -/
theorem CausesKept.setPage {s : State} {p : Nat} {v : Page} (w : Word) (h : v.cause = (s.page p).cause ||| w) : CausesKept s (s.setPage p v) := by
  intro q i hq
  rw [State.setPage_page_eq]
  split
  · next hp => rw [h, bitOf_or, ← hp, hq, Bool.true_or]
  · exact hq

theorem CausesKept.raise (s : State) (p i : Nat) : CausesKept s (raise s p i) := .setPage _ rfl

theorem CausesKept.pageError (s : State) (a : Access) (w : Bool) (addr code : Nat) : CausesKept s (pageErrorCode s a w addr code) := .setPage _ rfl

theorem CausesKept.noteCmd (s : State) (a : Access) (addr : Nat) (st : Status) : CausesKept s (noteCmd s a addr st) := by
  unfold Machine.noteCmd
  split
  · exact .refl s
  · exact .pageError s a true addr (stCode st)

theorem raise_cause (s : State) (p : Nat) {i : Nat} (hi : i < 64) : bitOf ((raise s p i).page p).cause i = true := by
  have hset : bitOf (bitWord i) i = true := by
    rw [bitOf, bitWord, BitVec.toNat_ofNat, Nat.mod_eq_of_lt (Nat.pow_lt_pow_right (by decide) hi), Nat.testBit_two_pow_self]
  rw [raise, State.setPage_page_self, bitOf_or, hset, Bool.or_true]

end Sys2Proof.Machine
end

section
/-! The group tables as software edits them: descriptor words and member entries of the shadow copy, and the straggler slots (R189, R190, R214). -/

namespace Sys2Proof.Machine

/-! ### What a write of a descriptor word stores -/

/-- The eight words of a descriptor. -/
theorem descWord_cases (n : BitVec 3) : n = 0 ∨ n = 1 ∨ n = 2 ∨ n = 3 ∨ n = 4 ∨ n = 5 ∨ n = 6 ∨ n = 7 := by
  revert n
  decide

theorem writeDescWord_ld (d : Desc) (n : BitVec 3) (v : Word) : (writeDescWord d n.toNat v).ld = d.ld := by
  rcases descWord_cases n with rfl | rfl | rfl | rfl | rfl | rfl | rfl | rfl <;> rfl

/-- A written word holds the value but for `VALID`, `EPOCH` and the window, which are the block's own (R190, Tables 6.1 and 6.2). -/
theorem writeDescWord_self (d : Desc) (n : BitVec 3) (v : Word) :
    descWord (writeDescWord d n.toNat v) n.toNat = if n = 0 then v &&& 0x7FFFFFFFFFFFFFFF else if n = 1 then v &&& 0xFFFFFFFFFFFF
      else if n = 7 then (d.w7 &&& 0x1FFF800000000) ||| (v &&& 0xFFFE0007FFFFFFFF) else v := by
  rcases descWord_cases n with rfl | rfl | rfl | rfl | rfl | rfl | rfl | rfl <;> rfl

/-- A write of any other word clears `VALID` in word 0 (R190). -/
theorem writeDescWord_w0 (d : Desc) {n : BitVec 3} (v : Word) (h : n ≠ 0) :
    (writeDescWord d n.toNat v).w0 = d.w0 &&& 0x7FFFFFFFFFFFFFFF := by
  rcases (descWord_cases n).resolve_left h with rfl | rfl | rfl | rfl | rfl | rfl | rfl <;> rfl

theorem writeDescWord_ne (d : Desc) {n m : BitVec 3} (v : Word) (hm : m ≠ n) (h0 : m ≠ 0) :
    descWord (writeDescWord d n.toNat v) m.toNat = descWord d m.toNat := by
  rcases (descWord_cases m).resolve_left h0 with rfl | rfl | rfl | rfl | rfl | rfl | rfl <;>
    rcases descWord_cases n with rfl | rfl | rfl | rfl | rfl | rfl | rfl | rfl <;> trivial

/-! ### Descriptor words -/

/-- A new owner in word 0 would hold more descriptors than its quota (R547, 10 R316). -/
def ownerOverQuota (s : State) (g : Nat) (n : BitVec 3) (v : Word) : Bool :=
  n = 0 && bitOf v 12 && descOwner (s.desc true g) ≠ some (fld v 62 58) && (s.part (fld v 62 58)).qDescs < partDescs s (fld v 62 58) + 1

section
variable {s : State} {a : Access} {n : BitVec 3} {v : Word}

/-- Word 0 names the owner: the management's alone (R547). -/
theorem exec_grpDescWrite_owner (hr : WriteReaches s a 0x60 (0x48 + 8 * n.toNat)) (hn : n = 0) (hm : isMgmt a = false) :
    exec (.grpDescWrite a n v) s = .next (refuse s a true (regAt 0x60 (0x48 + 8 * n.toNat)) .partition) := by
  subst hn
  have hown : (0 : BitVec 3).toNat = 0 ∧ !isMgmt a := ⟨rfl, by rw [hm]; rfl⟩
  exact congrArg Host.Outcome.next ((if_pos hown).trans (regWrite_stateRefused _ _ hr))

variable (hown : n = 0 → isMgmt a = true)
include hown

theorem exec_grpDescWrite_mayWrite :
    exec (.grpDescWrite a n v) s = .next (regWrite s a (regAt 0x60 (0x48 + 8 * n.toNat))
      (refuseIf (!(selected s a 0x60).2 || !editable s) .wrongState) none fun u =>
        if ownerOverQuota s (selected s a 0x60).1 n v
        then refuse (raise u (0x80 + fld v 62 58) 4) a true (regAt 0x60 (0x48 + 8 * n.toNat)) .quota
        else u.setDesc true (selected s a 0x60).1 (writeDescWord (s.desc true (selected s a 0x60).1) n.toNat v)) := by
  have hword : n.toNat = 0 ↔ n = 0 := ⟨fun h => BitVec.eq_of_toNat_eq h, fun h => congrArg BitVec.toNat h⟩
  have hmay : ¬(n.toNat = 0 ∧ !isMgmt a) := fun ⟨h0, hnot⟩ => by
    rw [hown (hword.1 h0)] at hnot
    exact Bool.false_ne_true hnot
  have hrun : exec (.grpDescWrite a n v) s = .next (regWrite s a (regAt 0x60 (0x48 + 8 * n.toNat)) _ none _) :=
    congrArg Host.Outcome.next (if_neg hmay)
  have howner : some (fld v 62 58) = descOwner (s.desc true (selected s a 0x60).1)
      ↔ descOwner (s.desc true (selected s a 0x60).1) = some (fld v 62 58) := eq_comm
  rw [hrun]
  congr 2
  funext u
  unfold ownerOverQuota
  cases bitOf v 12 <;> simp [hword, howner]

variable (hr : WriteReaches s a 0x60 (0x48 + 8 * n.toNat))
include hr

/-- The shadow copy takes edits and the index selects it (R189, R216, R217). -/
theorem exec_grpDescWrite_open (hsel : (selected s a 0x60).2 = true) (hedit : editable s = true) :
    exec (.grpDescWrite a n v) s = .next (if ownerOverQuota s (selected s a 0x60).1 n v
      then refuse (raise (answer s 0) (0x80 + fld v 62 58) 4) a true (regAt 0x60 (0x48 + 8 * n.toNat)) .quota
      else (answer s 0).setDesc true (selected s a 0x60).1 (writeDescWord (s.desc true (selected s a 0x60).1) n.toNat v)) := by
  rw [exec_grpDescWrite_mayWrite hown, refuseIf_false _ (by rw [hsel, hedit]; rfl), regWrite_taken _ hr]

theorem exec_grpDescWrite_closed (h : (selected s a 0x60).2 = false ∨ editable s = false) :
    exec (.grpDescWrite a n v) s = .next (refuse s a true (regAt 0x60 (0x48 + 8 * n.toNat)) .wrongState) := by
  rw [exec_grpDescWrite_mayWrite hown, refuseIf_true _ (by simpa using h), regWrite_stateRefused _ _ hr]

end

/-! ### Member entries -/

/-- A shadow descriptor once member-list entry `i` has been written: `VALID` clears where one of its slices holds the entry (log 20). -/
def memberEdited (i : Nat) (d : Desc) : Desc :=
  if (dMbrBase d ≤ i ∧ i < dMbrBase d + dMembers d) ∨ (fld d.w6 60 43 ≤ i ∧ i < fld d.w6 60 43 + fld d.w6 42 36)
  then { d with w0 := d.w0 &&& 0x7FFFFFFFFFFFFFFF } else d

theorem memberEdited_none (i : Nat) : memberEdited i {} = {} := by
  unfold memberEdited
  split <;> rfl

theorem invalidateHolding_eq (s : State) (i : Nat) :
    invalidateHolding s i = { s with grp.descS := tmap {} (fun _ => memberEdited i) s.grp.descS } := rfl

theorem invalidateHolding_desc {s : State} (w : tableWf {} s.grp.descS = true) (i g : Nat) :
    (invalidateHolding s i).desc true g = memberEdited i (s.desc true g) :=
  tget_tmap (f := fun _ => memberEdited i) (fun _ => memberEdited_none i) w g

section
variable {s : State} {a : Access} {v : Word}

theorem exec_mbrWrite_open (hr : WriteReaches s a 0x61 0x50) (hin : mbrInRange s a (tget 0 s.grp.mbrAddr (bankOf a)) = true)
    (hsel : (selected s a 0x61).2 = true) (hedit : editable s = true) : exec (.mbrDataAccess a true v) s
      = .next (mbrAdvance (invalidateHolding { answer s 0 with grp.mbrS := tset 0 s.grp.mbrS (tget 0 s.grp.mbrAddr (bankOf a)) (fld v 31 0) }
          (tget 0 s.grp.mbrAddr (bankOf a))) a) := by
  have hstate : refuseIf (!(selected s a 0x61).2 || !editable s) .wrongState = none := refuseIf_false _ (by rw [hsel, hedit]; rfl)
  have hrange : refuseIf (!mbrInRange s a (tget 0 s.grp.mbrAddr (bankOf a))) .bounds = none := refuseIf_false _ (by rw [hin]; rfl)
  have hrun : exec (.mbrDataAccess a true v) s = .next (mbrWrite s a v) := rfl
  simp only [hrun, mbrWrite, hstate, hrange, regWrite_taken _ hr]
  rfl

theorem exec_mbrWrite_closed (hr : WriteReaches s a 0x61 0x50) (h : (selected s a 0x61).2 = false ∨ editable s = false) :
    exec (.mbrDataAccess a true v) s = .next (refuse s a true (regAt 0x61 0x50) .wrongState) := by
  have hstate : refuseIf (!(selected s a 0x61).2 || !editable s) .wrongState = some .wrongState := refuseIf_true _ (by simpa using h)
  have hrun : exec (.mbrDataAccess a true v) s = .next (mbrWrite s a v) := rfl
  simp only [hrun, mbrWrite, hstate, regWrite_stateRefused _ _ hr]

theorem exec_mbrRead (hr : ReadReaches s a 0x61 0x50) (hin : mbrInRange s a (tget 0 s.grp.mbrAddr (bankOf a)) = true) :
    exec (.mbrDataAccess a false v) s
      = .next (mbrAdvance (answer s (BitVec.ofNat 64 (mbrEntry s (selected s a 0x61).2 (tget 0 s.grp.mbrAddr (bankOf a))))) a) := by
  have hrange : refuseIf (!mbrInRange s a (tget 0 s.grp.mbrAddr (bankOf a))) .bounds = none := refuseIf_false _ (by rw [hin]; rfl)
  have hrun : exec (.mbrDataAccess a false v) s = .next (mbrRead s a) := rfl
  simp only [hrun, mbrRead, hrange, regRead_reaches hr]
  rfl

end

/-! ### Straggler slots -/

/-- The lowest straggler slot that no group holds (R214). -/
def freeSlot (s : State) : Option Nat := (List.range 256).find? (fun k => !(slotsUsed s).contains k)

theorem freeSlot_some {s : State} {k : Nat} (hk : k < 256) (hfree : k ∉ slotsUsed s) (hlow : ∀ j, j < k → j ∈ slotsUsed s) :
    freeSlot s = some k := by
  rw [freeSlot, List.find?_range_eq_some]
  exact ⟨by simpa using hfree, by simpa using hk, fun j hj => by simpa using hlow j hj⟩

theorem freeSlot_none {s : State} (h : ∀ j, j < 256 → j ∈ slotsUsed s) : freeSlot s = none := by
  rw [freeSlot, List.find?_range_eq_none]
  exact fun j hj => by simpa using h j hj

section
variable {s : State} {a : Access} {v : Word} (hr : WriteReaches s a 0x62 0x58)
include hr

/-- `TRACK` 1 of a group that holds no slot (R214). -/
theorem exec_strgTrack_wanted (hbit : bitOf v 63 = true) (hnone : (s.grpRec (selected s a 0x62).1).slot = none) :
    exec (.strgTrackWrite a v) s = .next (match freeSlot s with
      | some k => (answer s 0).setGrpRec (selected s a 0x62).1 { s.grpRec (selected s a 0x62).1 with slot := some k, hist := [] }
      | none => refuse s a true (regAt 0x62 0x58) .quota) := by
  have hslots : (List.range 256).find? (fun k => !(slotsUsed (answer s 0)).contains k) = freeSlot s := rfl
  have hrun : exec (.strgTrackWrite a v) s = .next (trackWrite s a v) := rfl
  simp only [hrun, trackWrite, regWrite_taken _ hr, hbit, hnone, hslots, Option.isSome_none, Bool.false_eq_true, if_false, if_true]
  cases freeSlot s <;> rfl

theorem exec_strgTrack_held (hbit : bitOf v 63 = true) (hsome : (s.grpRec (selected s a 0x62).1).slot ≠ none) :
    exec (.strgTrackWrite a v) s = .next (answer s 0) := by
  have hrun : exec (.strgTrackWrite a v) s = .next (trackWrite s a v) := rfl
  simp only [hrun, trackWrite, regWrite_taken _ hr, hbit, Option.isSome_iff_ne_none.2 hsome, if_true]

theorem exec_strgTrack_off (hbit : bitOf v 63 = false) : exec (.strgTrackWrite a v) s
    = .next ((answer s 0).setGrpRec (selected s a 0x62).1 { s.grpRec (selected s a 0x62).1 with slot := none, hist := [] }) := by
  have hrun : exec (.strgTrackWrite a v) s = .next (trackWrite s a v) := rfl
  simp only [hrun, trackWrite, regWrite_taken _ hr, hbit, Bool.false_eq_true, if_false]

end

/-- The must-be-zero bits of `STRG_CLEAR` are all but its lowest. -/
theorem and_upperBits {n : Nat} (hn : n < 2 ^ 64) : n &&& maskBits 63 1 = n / 2 * 2 ^ 1 := by
  refine Nat.eq_of_testBit_eq fun i => ?_
  have hmask : (maskBits 63 1).testBit i = (decide (1 ≤ i) && decide (i - 1 < 63)) := by
    rw [maskBits, Nat.testBit_mul_two_pow, Nat.testBit_two_pow_sub_one]
  rw [Nat.testBit_and, hmask, Nat.testBit_mul_two_pow, Nat.testBit_div_two]
  by_cases h1 : 1 ≤ i
  · rw [Nat.sub_add_cancel h1]
    by_cases h64 : i < 64
    · simp [h1, show i - 1 < 63 by omega]
    · rw [Nat.testBit_lt_two_pow (hn.trans_le (Nat.pow_le_pow_right (by decide) (not_lt.1 h64)))]
      simp
  · simp [h1]

theorem exec_strgClear {s : State} {a : Access} {v : Word} (hr : WriteReaches s a 0x62 0x78) (hz : v.toNat / 2 = 0) :
    exec (.strgClear a v) s = .next (if bitOf v 0
      then (answer s 0).setGrpRec (selected s a 0x62).1 { s.grpRec (selected s a 0x62).1 with hist := [] } else answer s 0) := by
  have hmbz : mbz v (maskBits 63 1) = none := mbz_ok (by rw [and_upperBits v.isLt, hz, Nat.zero_mul])
  have hrun : exec (.strgClear a v) s = .next (strgClearWrite s a v) := rfl
  rw [hrun, strgClearWrite, hmbz, regWrite_taken _ hr]
  rfl

theorem exec_strgClear_refused {s : State} {a : Access} {v : Word} (hr : WriteReaches s a 0x62 0x78) (hz : v.toNat / 2 ≠ 0) :
    exec (.strgClear a v) s = .next (refuse s a true (regAt 0x62 0x78) .badArg) := by
  have hmbz : mbz v (maskBits 63 1) = some .badArg := mbz_bad (by rw [and_upperBits v.isLt]; omega)
  have hrun : exec (.strgClear a v) s = .next (strgClearWrite s a v) := rfl
  rw [hrun, strgClearWrite, hmbz, regWrite_argRefused _ hr]

/-! ### The statement -/

/-- Settles O20: each register takes its write where the shadow copy is open to it (`exec_grpDescWrite_open`, `exec_mbrWrite_open`), and what
it stores is `writeDescWord_self` and `invalidateHolding_desc`; the straggler slots by `freeSlot`. -/
theorem groupTablesAreEdited : Obligations.GroupTablesAreEdited := by
  refine ⟨fun s a v => ⟨fun n hr => ⟨fun hsel hedit hown hquota => ?_, fun hclosed hown => ?_, fun hn hm => ?_, fun hn hm hsel hedit hbit hnew hfull => ?_⟩,
    fun hr hin => ⟨fun hsel hedit => ?_, fun hclosed => ?_⟩, fun hr hin => ?_⟩, fun s a v g hg => ⟨fun hr => ⟨?_, ?_, ?_, ?_⟩, fun hr => ⟨?_, ?_, ?_⟩⟩⟩
  · have hroom : ownerOverQuota s (selected s a 0x60).1 n v = false := by
      by_contra hover
      simp only [ownerOverQuota, Bool.not_eq_false, Bool.and_eq_true, decide_eq_true_eq] at hover
      obtain ⟨⟨⟨hn, hbit⟩, hnew⟩, hfull⟩ := hover
      exact absurd (hquota hn hbit hnew) (Nat.not_le.2 hfull)
    have hrun := exec_grpDescWrite_open (v := v) hown hr hsel hedit
    rw [hroom, if_neg Bool.false_ne_true] at hrun
    exact ⟨_, hrun, writeDescWord_ld _ _ _, writeDescWord_self _ _ _, writeDescWord_w0 _ _, fun m => writeDescWord_ne _ _⟩
  · exact next_of_refuse (exec_grpDescWrite_closed hown hr hclosed)
  · exact next_of_refuse (exec_grpDescWrite_owner hr hn hm)
  · have hover : ownerOverQuota s (selected s a 0x60).1 n v = true := by
      simp [ownerOverQuota, hn, hbit, hnew, hfull]
    have hrun := exec_grpDescWrite_open (v := v) (fun _ => hm) hr hsel hedit
    rw [hover, if_pos rfl] at hrun
    obtain ⟨-, hresp, hother⟩ := refuse_spec (raise (answer s 0) (0x80 + fld v 62 58) 4) a true (regAt 0x60 (0x48 + 8 * n.toNat)) .quota
    have hpage : 0x80 + fld v 62 58 ≠ regAt 0x60 (0x48 + 8 * n.toNat) / 4096 := by
      rw [regAt_page (by omega)]
      omega
    refine ⟨_, hrun, rfl, hresp, ?_⟩
    rw [hother _ hpage]
    exact raise_cause _ _ (by decide)
  · refine ⟨_, exec_mbrWrite_open hr hin hsel hedit, rfl, fun w g => ?_⟩
    exact invalidateHolding_desc (s := { answer s 0 with grp.mbrS := _ }) w _ g
  · exact next_of_refuse (exec_mbrWrite_closed hr hclosed)
  · exact exec_mbrRead hr hin
  · intro hbit hnone k hk hfree hlow
    subst hg
    rw [exec_strgTrack_wanted hr hbit hnone, freeSlot_some hk hfree hlow]
  · intro hbit hsome
    subst hg
    exact exec_strgTrack_held hr hbit hsome
  · intro hbit hnone hall
    subst hg
    have hrun := exec_strgTrack_wanted hr hbit hnone
    rw [freeSlot_none hall] at hrun
    exact next_of_refuse hrun
  · intro hbit
    subst hg
    exact exec_strgTrack_off hr hbit
  · rintro rfl
    subst hg
    exact exec_strgClear hr rfl
  · rintro rfl
    exact exec_strgClear hr rfl
  · exact fun hz => next_of_refuse (exec_strgClear_refused hr hz)

end Sys2Proof.Machine
end

section
/-! The ends of the group commands, and `COMMIT` and `CLEAR` (R190, R222, Tables 6.4, 6.14 and 6.16). -/

namespace Sys2Proof.Machine

/-! ### The end of a group command -/

/-- A group command that ends: `CMD_DONE`, its result and the record of a failure are all that it changes (R222, Table 6.16). -/
theorem grpDone_spec (s : State) (a : Access) (st : Status) (n : Nat) :
    ∃ ps rs, grpDone s a st n = { s with bus.pages := ps, grp.result := rs } ∧ tget 0 rs (bankOf a) = pack [(63, 48, stCode st), (47, 40, n)]
      ∧ CausesKept s (grpDone s a st n) ∧ bitOf ((grpDone s a st n).page 0x60).cause 0 = true := by
  obtain ⟨rs, heq, hresult⟩ : ∃ rs, grpDone s a st n = noteCmd (raise { s with grp.result := rs } 0x60 0) a grpCmdAddr st
      ∧ tget 0 rs (bankOf a) = pack [(63, 48, stCode st), (47, 40, n)] := by
    refine ⟨tset 0 s.grp.result (bankOf a) (pack [(63, 48, stCode st), (47, 40, n)]), ?_, tget_tset_self ..⟩
    unfold grpDone
    with_reducible rfl
  have hkept := CausesKept.noteCmd (raise { s with grp.result := rs } 0x60 0) a grpCmdAddr st
  have hraised : CausesKept s (raise { s with grp.result := rs } 0x60 0) :=
    (CausesKept.of_bus (t := { s with grp.result := rs }) rfl).trans (.raise _ 0x60 0)
  have hframe : ∃ ps, noteCmd (raise { s with grp.result := rs } 0x60 0) a grpCmdAddr st = { s with bus.pages := ps, grp.result := rs } := by
    unfold noteCmd
    split <;> exact ⟨_, rfl⟩
  rw [heq]
  obtain ⟨ps, hps⟩ := hframe
  exact ⟨ps, rs, hps, hresult, hraised.trans hkept, hkept _ _ (raise_cause _ 0x60 (by decide))⟩

theorem pack_ok : pack [(63, 48, stCode .ok), (47, 40, 0)] = 0 := rfl

/-- The must-be-zero bits of `GRP_CMD` are those below its code. -/
theorem mbz_grpCmd {v : Word} (h : fld v 59 0 = 0) : mbz v (maskBits 59 0) = none := by
  refine mbz_ok ?_
  have hmask : maskBits 59 0 = 2 ^ 60 - 1 := rfl
  rw [hmask, Nat.and_two_pow_sub_one_eq_mod]
  exact h

/-! ### Commands that edit the shadow copy -/

section
variable {s : State} {a : Access} {v : Word} (k : State → State) (hr : WriteReaches s a 0x60 0x88)
include hr

theorem grpEditCmd_taken (hown : ownsShadow s a = true) (hbusy : grpBusy s a = false) (hedit : editable s = true) (hz : fld v 59 0 = 0) :
    grpEditCmd s a v k = k (answer s 0) := by
  rw [grpEditCmd, if_neg (by rw [hown]; exact Bool.false_ne_true), refuseIf_false _ (by rw [hbusy, hedit]; rfl), mbz_grpCmd hz]
  exact regWrite_taken k hr

theorem grpEditCmd_notOwner (hown : ownsShadow s a = false) : grpEditCmd s a v k = refuse s a true (regAt 0x60 0x88) .partition := by
  rw [grpEditCmd, if_pos (by rw [hown]; rfl)]
  exact regWrite_stateRefused _ _ hr

theorem grpEditCmd_closed (hown : ownsShadow s a = true) (h : grpBusy s a = true ∨ editable s = false) :
    grpEditCmd s a v k = refuse s a true (regAt 0x60 0x88) .wrongState := by
  rw [grpEditCmd, if_neg (by rw [hown]; exact Bool.false_ne_true), refuseIf_true _ (by simpa using h)]
  exact regWrite_stateRefused _ _ hr

end

/-- A command that writes the shadow descriptor of a group and ends: that descriptor, the result and the pages are all that changes. -/
theorem grpDone_setDesc (s : State) (a : Access) (g : Nat) (d : Desc) (st : Status) (n : Nat) :
    ∃ t, grpDone ((answer s 0).setDesc true g d) a st n = t
      ∧ t = { s with
          bus := { s.bus with pages := t.bus.pages, resp := { refused := false, stat := 0, rdata := 0 } }
          grp := { s.grp with descS := t.grp.descS, result := t.grp.result } }
      ∧ t.desc true g = d ∧ (∀ j, j ≠ g → t.desc true j = s.desc true j)
      ∧ tget 0 t.grp.result (bankOf a) = pack [(63, 48, stCode st), (47, 40, n)] ∧ bitOf (t.page 0x60).cause 0 = true := by
  obtain ⟨ps, rs, hframe, hresult, -, hdone⟩ := grpDone_spec ((answer s 0).setDesc true g d) a st n
  refine ⟨_, rfl, ?_, ?_, fun j hj => ?_, ?_, hdone⟩
  · rw [hframe]
    rfl
  · rw [hframe]
    exact tget_tset_self ..
  · rw [hframe]
    exact tget_tset_ne _ _ _ _ _ hj
  · rw [hframe]
    exact hresult

/-- A descriptor without `VALID` (Table 6.1). -/
def invalid (d : Desc) : Desc := { d with w0 := d.w0 &&& 0x7FFFFFFFFFFFFFFF }

theorem invalid_eq (d : Desc) : { d with w0 := d.w0 &&& BitVec.ofNat 64 (2 ^ 63 - 1) } = invalid d := rfl

/-- A descriptor that has passed every check, with the digest of its member slice (R190). -/
def committed (d : Desc) (digest : BitVec 256) : Desc := { d with w0 := d.w0 ||| 0x8000000000000000, ld := digest }

theorem committed_eq (d : Desc) (digest : BitVec 256) : { d with w0 := d.w0 ||| bitWord 63, ld := digest } = committed d digest := rfl

/-- A descriptor without `VALID` and `WIN_VALID` (Table 6.14). -/
def cleared (d : Desc) : Desc := { d with w0 := d.w0 &&& 0x7FFFFFFFFFFFFFFF, w7 := d.w7 &&& 0xFFFFFFF7FFFFFFFF }

theorem cleared_eq (d : Desc) :
    { d with w0 := d.w0 &&& BitVec.ofNat 64 (2 ^ 63 - 1), w7 := d.w7 &&& BitVec.ofNat 64 (2 ^ 64 - 1 - 2 ^ 35) } = cleared d := rfl

section
variable {s : State} {a : Access} {g : Nat} {d : Desc} (hg : g = (selected s a 0x60).1) (hd : d = s.desc true g)
include hg hd

theorem grpCommitOp_fails {n : Nat} {st : Status} (h : commitFailure s d = some (n, st)) :
    grpCommitOp s a = grpDone (s.setDesc true g (invalid d)) a st n := by
  unfold grpCommitOp
  simp only [← hg, ← hd, h, invalid_eq]

theorem grpCommitOp_passes (h : commitFailure s d = none) :
    grpCommitOp s a = grpDone (s.setDesc true g (committed d (listDigest s true d))) a .ok 0 := by
  unfold grpCommitOp
  simp only [← hg, ← hd, h, committed_eq]

theorem grpClearOp_eq : grpClearOp s a = grpDone (s.setDesc true g (cleared d)) a .ok 0 := by
  unfold grpClearOp
  simp only [← hg, ← hd, cleared_eq]

end

/-- Settles O21: who may not edit, or not now, is refused (`grpEditCmd_notOwner`, `grpEditCmd_closed`); a `COMMIT` ends by the first check that
fails, and writes the one descriptor either way (`grpDone_setDesc`). -/
theorem commitsAreJudged : Obligations.CommitsAreJudged := by
  intro s a v hr
  have hcommit : exec (.grpCommit a v) s = .next (grpEditCmd s a v (fun x => grpCommitOp x a)) := rfl
  have hclear : exec (.grpClear a v) s = .next (grpEditCmd s a v (fun x => grpClearOp x a)) := rfl
  refine ⟨fun hown hbusy hedit hz => ?_, fun hown c hc => ?_, fun hown hclosed c hc => ?_⟩
  · rw [hcommit, hclear, grpEditCmd_taken _ hr hown hbusy hedit hz, grpEditCmd_taken _ hr hown hbusy hedit hz]
    refine ⟨fun hpass => ?_, fun n st hfail => ?_, ?_⟩
    · obtain ⟨t, ht, hframe, hself, hother, hresult, hdone⟩ := grpDone_setDesc s a (selected s a 0x60).1
        (committed (s.desc true (selected s a 0x60).1) (listDigest s true (s.desc true (selected s a 0x60).1))) .ok 0
      exact ⟨t, congrArg _ ((grpCommitOp_passes (s := answer s 0) rfl rfl hpass).trans ht), hframe, hself, hother, hresult, hdone⟩
    · obtain ⟨t, ht, hframe, hself, hother, hresult, hdone⟩ := grpDone_setDesc s a (selected s a 0x60).1
        (invalid (s.desc true (selected s a 0x60).1)) st n
      exact ⟨t, congrArg _ ((grpCommitOp_fails (s := answer s 0) rfl rfl hfail).trans ht), hframe, hself, hother, hresult, hdone⟩
    · obtain ⟨t, ht, hframe, hself, hother, hresult, -⟩ := grpDone_setDesc s a (selected s a 0x60).1
        (cleared (s.desc true (selected s a 0x60).1)) .ok 0
      exact ⟨t, congrArg _ ((grpClearOp_eq (s := answer s 0) rfl rfl).trans ht), hframe, hself, hother, hresult⟩
  · simp only [List.mem_cons, List.not_mem_nil, or_false] at hc
    rcases hc with rfl | rfl
    · exact next_of_refuse (hcommit.trans (congrArg _ (grpEditCmd_notOwner _ hr hown)))
    · exact next_of_refuse (hclear.trans (congrArg _ (grpEditCmd_notOwner _ hr hown)))
  · simp only [List.mem_cons, List.not_mem_nil, or_false] at hc
    rcases hc with rfl | rfl
    · exact next_of_refuse (hcommit.trans (congrArg _ (grpEditCmd_closed _ hr hown hclosed)))
    · exact next_of_refuse (hclear.trans (congrArg _ (grpEditCmd_closed _ hr hown hclosed)))

end Sys2Proof.Machine
end

section
/-! What the abort of a live entry does (R203): the records of its group, its entry and the two causes; and what else of the block its steps may
change. -/

namespace Sys2Proof.Machine

/-! ### What an abort may change beside its group -/

/-- From `s` to `t` an abort has dropped frames, given credits back and sent its `ABORT` frame (R203 steps 2 to 5): the groups, the partitions and
all but the pipes, the windows and the ports stand, and no cause is lost. -/
structure Aside (s t : State) : Prop where
  frame : ∃ ps lark park phlx zin snd chrt rhmb out, t = { s with
    bus.pages := ps, lark := lark, park := park, phlx := phlx, zin := zin, snd := snd, chrt := chrt, rhmb := rhmb, out := out }
  aborts : t.park.aborts = s.park.aborts
  causes : CausesKept s t

theorem Aside.refl (s : State) : Aside s s := ⟨⟨_, _, _, _, _, _, _, _, _, rfl⟩, rfl, .refl s⟩

theorem Aside.trans {s t u : State} (h : Aside s t) (k : Aside t u) : Aside s u := by
  obtain ⟨⟨_, _, _, _, _, _, _, _, _, rfl⟩, haborts, hcauses⟩ := h
  obtain ⟨⟨_, _, _, _, _, _, _, _, _, rfl⟩, haborts', hcauses'⟩ := k
  exact ⟨⟨_, _, _, _, _, _, _, _, _, rfl⟩, haborts'.trans haborts, hcauses.trans hcauses'⟩

/-- A change of the parts of which a group reads nothing. -/
theorem Aside.within {s u : State} {lark phlx zin snd chrt rhmb out} (h : Aside s u) :
    Aside s { u with lark := lark, phlx := phlx, zin := zin, snd := snd, chrt := chrt, rhmb := rhmb, out := out } :=
  h.trans ⟨⟨_, _, _, _, _, _, _, _, _, rfl⟩, rfl, .of_bus rfl⟩

/-- A change of parking memory that counts no abort. -/
theorem Aside.parking {s u : State} (h : Aside s u) {park : Park} (hp : park.aborts = u.park.aborts) : Aside s { u with park := park } :=
  h.trans ⟨⟨_, _, _, _, _, _, _, _, _, rfl⟩, hp, .of_bus rfl⟩

theorem Aside.raised {s u : State} (h : Aside s u) (p i : Nat) : Aside s (raise u p i) :=
  h.trans ⟨⟨_, _, _, _, _, _, _, _, _, rfl⟩, rfl, .raise u p i⟩

theorem foldl_aside {α : Type} {s u : State} {f : State → α → State} {l : List α} (hf : ∀ x a, Aside s x → Aside s (f x a)) (h : Aside s u) :
    Aside s (l.foldl f u) := by
  induction l generalizing u with
  | nil => exact h
  | cons a l ih => exact ih (hf u a h)

section
variable {s u : State} (h : Aside s u)
include h

theorem larkCount_aside {k off n} : Aside s (larkCount u k off n) := h.within

theorem leaveBuffer_aside {k id} : Aside s (leaveBuffer u k id) := by
  unfold leaveBuffer
  extract_lets p
  split
  · exact h
  · extract_lets p1
    split
    · exact h.within
    · obtain ⟨c, r, o, hcredits⟩ := giveCredits_frame (u.setPipe k p1) _ _ _
      rw [returnCredits, hcredits]
      exact h.within

theorem dropParked_aside {p g t} : Aside s (dropParked u p g t) := by
  unfold dropParked
  extract_lets mine s1 _
  have hs1 : Aside s s1 := foldl_aside (fun _ _ hx => larkCount_aside hx) h
  exact hs1.parking rfl

theorem discardOuts_aside {p g t} : Aside s (discardOuts u p g t) := by
  unfold discardOuts
  extract_lets mine all _ s1 rel
  have hs1 : Aside s s1 := h.within
  exact foldl_aside (fun _ _ hx => leaveBuffer_aside hx) hs1

theorem mapRecs_aside {wi f} : Aside s (mapRecs u wi f) := foldl_aside (fun _ _ hx => hx.within) h

theorem idleWindow_aside {wi} : Aside s (idleWindow u wi) := mapRecs_aside h.within

theorem refund_aside {p e} : Aside s (refund u p e) := by
  unfold refund
  split
  · exact h
  · exact h.within

theorem noteBad_aside {i} : Aside s (noteBad u i) := by
  unfold noteBad
  extract_lets x _ _
  split
  · exact h.within.raised 0x08 0
  · split
    · exact h.within
    · exact h

theorem noteFabric_aside : Aside s (noteFabric u) := by
  unfold noteFabric
  split
  · exact noteBad_aside h
  · exact h

theorem abortUnsent_aside : Aside s (abortUnsent u) := h.parking rfl

theorem fabricLost_aside {w} : Aside s (fabricLost u w) := by
  unfold fabricLost
  split
  · exact abortUnsent_aside h
  · split
    · exact h.parking rfl
    · exact h

theorem fabricSeal_aside {key k w} : Aside s (fabricSeal u key k w) := by
  unfold fabricSeal
  extract_lets st now n hdr f0 _ s1
  have hs1 : Aside s s1 := by
    unfold s1
    split
    · exact h.within
    · exact h
  exact hs1.within

theorem kcTouch_aside {k i} : Aside s (kcTouch u k i) := h.within

end

theorem startFabric_aside {s : State} (n : Nat) {u : State} (h : Aside s u) : Aside s (startFabric n u) := by
  induction n generalizing u with
  | zero => exact h
  | succ n ih =>
    unfold startFabric
    split
    · exact h
    · next w rest _ =>
      split
      · exact h
      · next k _ =>
        extract_lets _ s0 r
        have hs0 : Aside s s0 := h.within
        split
        · exact ih (fabricLost_aside hs0)
        · split
          · refine ih (fabricSeal_aside (kcTouch_aside ?_))
            split
            · exact hs0
            · exact larkCount_aside hs0
          · split
            · exact h
            · exact larkCount_aside h.within

theorem fabricSend_aside {s u : State} (h : Aside s u) {cls ports part group hop payload} :
    Aside s (fabricSend u cls ports part group hop payload) := startFabric_aside _ h.within

theorem sendAbort_aside {s u : State} (h : Aside s u) {ports part group hop payload} :
    Aside s (sendAbort u ports part group hop payload) := by
  unfold sendAbort
  split
  · exact h
  · split
    · split
      · exact h.parking rfl
      · exact abortUnsent_aside h
    · extract_lets s1
      have hs1 : Aside s s1 := noteFabric_aside h
      split
      · exact fabricSend_aside hs1
      · exact abortUnsent_aside hs1

/-! ### The group's record -/

/-- A first abort record of a group (R200, R203). -/
def AbortLatched (r : GrpRec) (code origin detail : Nat) : Prop :=
  r.abValid = true ∧ r.abStatus = code ∧ r.abOrigin = origin ∧ r.abDetail = detail

/-- From `s` to `u` the records of groups have changed, and the group `g` has latched an abort where none stood. -/
structure RecordsAbort (s u : State) (g code origin detail : Nat) : Prop where
  frame : ∃ rs, u = { s with grp.recs := rs }
  latched : (s.grpRec g).abValid = false → AbortLatched (u.grpRec g) code origin detail

theorem latchAbort_records (s : State) (g code origin detail : Nat) (dl dr : Word) :
    RecordsAbort s (latchAbort s g code origin detail dl dr) g code origin detail := by
  unfold latchAbort
  extract_lets r
  split
  · next hv => exact ⟨⟨_, rfl⟩, fun h => absurd (hv.symm.trans h) nofun⟩
  · exact ⟨⟨_, rfl⟩, fun _ => by rw [State.setGrpRec_grpRec_self]; exact ⟨rfl, rfl, rfl, rfl⟩⟩

/-- A change of the group's record that leaves its abort record. -/
theorem RecordsAbort.setGrpRec {s u : State} {g code origin detail : Nat} (h : RecordsAbort s u g code origin detail) {r : GrpRec}
    (hr : ∀ c o d, AbortLatched (u.grpRec g) c o d → AbortLatched r c o d) : RecordsAbort s (u.setGrpRec g r) g code origin detail := by
  obtain ⟨⟨rs, hframe⟩, hlatched⟩ := h
  refine ⟨⟨tset {} u.grp.recs g r, by rw [hframe]; rfl⟩, fun hv => ?_⟩
  rw [State.setGrpRec_grpRec_self]
  exact hr _ _ _ (hlatched hv)

theorem RecordsAbort.noteAborted {s u : State} {g code origin detail : Nat} (h : RecordsAbort s u g code origin detail) (p t ep : Nat) :
    RecordsAbort s (noteAborted u p g t ep) g code origin detail := by
  unfold Machine.noteAborted
  extract_lets r
  split
  · exact h
  · exact h.setGrpRec fun _ _ _ => id

theorem RecordsAbort.recordLast {s u : State} {g code origin detail : Nat} (h : RecordsAbort s u g code origin detail) (t ep outcome : Nat) :
    RecordsAbort s (recordLast u g t ep outcome) g code origin detail := h.setGrpRec fun _ _ _ => id

/-! ### The abort of a live entry -/

/-- An entry that an abort has ended (R203 step 6). -/
def abortedEntry (e : Entry) : Entry := { e with st := .aborted, charge := 0, fin := true, flow := {} }

/-- The abort of a live entry of a group records it, counts it, clears what the collective holds, puts the ended entry into its list, and sends
the `ABORT` frame (R203). -/
theorem abortEntry_steps {s : State} {p : Nat} {e : Entry} {i : AbortInfo} (hlive : isLive e = true) (hg : e.group < 4096) (hrelay : i.relay = none) :
    ∃ r u v, RecordsAbort s r e.group (stCode i.st) (i.origin.getD s.grp.rank) i.detail
      ∧ Aside { r with park.aborts := bump r.park.aborts 1 } u ∧ Aside (putEntry u p (abortedEntry e)) v
      ∧ abortEntry s p e i = raise (raise v 0x60 1) (0x80 + p) 0 := by
  have hdone : e.st ≠ .done := fun h => by simp [isLive, h] at hlive
  have haborted : e.st ≠ .aborted := fun h => by simp [isLive, h] at hlive
  unfold abortEntry
  rw [if_neg hdone, if_neg haborted]
  extract_lets origin code s1 s2 _ s3 s4 s5 s6 mine _ s6' s7 s8 ports s9
  have hcode : code = stCode i.st := by
    unfold code
    rw [hrelay]
  have hs1 : RecordsAbort s s1 e.group (stCode i.st) (i.origin.getD s.grp.rank) i.detail := by
    unfold s1
    rw [if_pos hg, hcode]
    exact (latchAbort_records ..).noteAborted ..
  have hs2 : RecordsAbort s s2 e.group (stCode i.st) (i.origin.getD s.grp.rank) i.detail := by
    unfold s2
    split
    · exact hs1.recordLast ..
    · exact hs1
  have hs4 : Aside s3 s4 := discardOuts_aside (dropParked_aside (.refl s3))
  have hs5 : Aside s3 s5 := by
    unfold s5
    split
    · exact idleWindow_aside hs4
    · exact hs4
  have hs6 : Aside s3 s6 := refund_aside hs5
  have hs6' : Aside s3 s6' := hs6.within
  have hs7 : Aside s3 s7 := foldl_aside (fun _ _ hx => leaveBuffer_aside hx) hs6'
  have hs9 : Aside s8 s9 := by
    unfold s9
    split <;> exact sendAbort_aside (.refl s8)
  exact ⟨s2, s7, s9, hs2, hs7, hs9, rfl⟩

/-- What stands once a live entry of a group has been aborted (R203). -/
structure EntryAborted (s t : State) (p : Nat) (e : Entry) (i : AbortInfo) : Prop where
  frame : ∃ ps lists recs result lark park phlx zin snd chrt rhmb out, t = { s with
    bus.pages := ps, grp := { s.grp with lists := lists, recs := recs, result := result }
    lark := lark, park := park, phlx := phlx, zin := zin, snd := snd, chrt := chrt, rhmb := rhmb, out := out }
  entry : findEntry t p e.group e.ticket = some (abortedEntry e)
  others : ∀ q, q ≠ p → t.entries q = s.entries q
  latched : (s.grpRec e.group).abValid = false → AbortLatched (t.grpRec e.group) (stCode i.st) (i.origin.getD s.grp.rank) i.detail
  counted : t.park.aborts = s.park.aborts + 1
  causes : CausesKept s t
  groupCause : bitOf (t.page 0x60).cause 1 = true
  partCause : bitOf (t.page (0x80 + p)).cause 0 = true

theorem abortEntry_spec {s : State} {p : Nat} {e : Entry} {i : AbortInfo} (hlive : isLive e = true) (hg : e.group < 4096) (hrelay : i.relay = none) :
    EntryAborted s (abortEntry s p e i) p e i := by
  obtain ⟨r, u, v, ⟨⟨rs, rfl⟩, hlatched⟩, ⟨⟨_, _, _, _, _, _, _, _, _, rfl⟩, hcount, hcauses⟩, ⟨⟨_, _, _, _, _, _, _, _, _, rfl⟩, hcount', hcauses'⟩, hend⟩ :=
    abortEntry_steps (s := s) (p := p) (i := i) hlive hg hrelay
  rw [hend]
  refine ⟨⟨_, _, _, _, _, _, _, _, _, _, _, _, rfl⟩, findEntry_putEntry _ p (abortedEntry e), fun q hq => State.setEntries_entries_ne _ _ _ _ hq, hlatched,
    hcount'.trans hcount, ?_, ?_, raise_cause _ _ (by decide)⟩
  · exact ((CausesKept.of_bus rfl).trans hcauses).trans (((CausesKept.of_bus rfl).trans hcauses').trans ((CausesKept.raise _ 0x60 1).trans (.raise _ _ 0)))
  · exact CausesKept.raise _ _ 0 _ _ (raise_cause _ 0x60 (by decide))

/-- The abort of an entry that was made for it: the entry stood in no list before. -/
theorem EntryAborted.of_put {s t : State} {p : Nat} {e x : Entry} {i : AbortInfo} (h : EntryAborted (putEntry s p x) t p e i) :
    EntryAborted s t p e i := by
  obtain ⟨⟨_, _, _, _, _, _, _, _, _, _, _, _, hframe⟩, hentry, hothers, hlatched, hcounted, hcauses, hgroup, hpart⟩ := h
  exact ⟨⟨_, _, _, _, _, _, _, _, _, _, _, _, hframe⟩, hentry,
    fun q hq => (hothers q hq).trans (State.setEntries_entries_ne _ _ _ _ hq), hlatched, hcounted, hcauses, hgroup, hpart⟩

/-- An abort stands when the command that brought it ends. -/
theorem EntryAborted.done {s t : State} {p : Nat} {e : Entry} {i : AbortInfo} (h : EntryAborted s t p e i) (a : Access) (st : Status) (n : Nat) :
    EntryAborted s (grpDone t a st n) p e i ∧ tget 0 (grpDone t a st n).grp.result (bankOf a) = pack [(63, 48, stCode st), (47, 40, n)] := by
  obtain ⟨⟨_, _, _, _, _, _, _, _, _, _, _, _, hframe⟩, hentry, hothers, hlatched, hcounted, hcauses, hgroup, hpart⟩ := h
  obtain ⟨ps, rs, hdone, hresult, hkept, -⟩ := grpDone_spec t a st n
  have hcauses' := hcauses.trans hkept
  have hgroup' := hkept _ _ hgroup
  have hpart' := hkept _ _ hpart
  rw [hdone] at hcauses' hgroup' hpart' ⊢
  exact ⟨⟨⟨_, _, _, _, _, _, _, _, _, _, _, _, by rw [hframe]⟩, hentry, hothers, hlatched, hcounted, hcauses', hgroup', hpart'⟩, hresult⟩

end Sys2Proof.Machine
end

section
/-! `ABORT` of `GRP_CMD` (R203, R222, Table 6.14). -/

namespace Sys2Proof.Machine

theorem grpTagCmd_taken {s : State} {a : Access} {v : Word} (k : State → State) (hr : WriteReaches s a 0x60 0x88) (hmgmt : isMgmt a = false)
    (hbusy : grpBusy s a = false) (hz : fld v 59 0 = 0) : grpTagCmd s a v k = k (answer s 0) := by
  rw [grpTagCmd, hmgmt, if_neg Bool.false_ne_true, grpCmd, refuseIf_false _ hbusy, mbz_grpCmd hz]
  exact regWrite_taken k hr

theorem not_done_of_live {e : Entry} (h : isLive e = true) : e.st ≠ .done := fun hst => by simp [isLive, hst] at h

theorem not_aborted_of_live {e : Entry} (h : isLive e = true) : e.st ≠ .aborted := fun hst => by simp [isLive, hst] at h

/-- An entry that serves a group is of that group once it is claimed. -/
theorem claimEntry_group {s : State} {p g t : Nat} {e : Entry} (h : findEntry s p g t = some e) : (claimEntry g e).group = g := by
  have hkey : e.ticket = t ∧ (e.group = g ∨ e.group = 4096) := by simpa using List.find?_some h
  unfold claimEntry
  split
  · rfl
  · next hne => exact hkey.2.resolve_right hne

theorem claimEntry_ticket (g : Nat) (e : Entry) : (claimEntry g e).ticket = e.ticket := by
  unfold claimEntry
  split <;> rfl

theorem claimEntry_st (g : Nat) (e : Entry) : (claimEntry g e).st = e.st := by
  unfold claimEntry
  split <;> rfl

theorem isLive_claimEntry (g : Nat) (e : Entry) : isLive (claimEntry g e) = isLive e := by
  unfold isLive
  rw [claimEntry_st]

/-- The reason of an abort that the host commands: the partition stands as its detail (R203). -/
def hostAbort (p : Nat) : AbortInfo := { st := .aborted, detail := p }

section
variable {s : State} {a : Access} {p g k : Nat} (hp : p = a.ptag.toNat) (hg : g = (selected s a 0x60).1)
  (hk : k = fld (tget 0 s.grp.arg0 (bankOf a)) 63 32)
include hp hg hk

/-- `ABORT` ends the live entry of its ticket, or one that it makes: the entry is of the group and the ticket of the command, and all the rest is
the abort's own work. -/
theorem grpAbortOp_aborts (hlive : ∀ e, findEntry s p g k = some e → isLive e = true) (hg4096 : g < 4096)
    (hroom : findEntry s p g k = none → (∀ m, (s.part p).overflow = some m → m < k) ∧ listCount s p < 64) :
    ∃ e u, e.group = g ∧ e.ticket = k ∧ EntryAborted s u p e (hostAbort p) ∧ grpAbortOp s a = grpDone u a .ok 0 := by
  unfold grpAbortOp
  simp only [← hp, ← hg, ← hk]
  cases hfind : findEntry s p g k with
  | none =>
    obtain ⟨habove, hcount⟩ := hroom hfind
    have hover : ((s.part p).overflow.map (fun m => decide (k ≤ m))).getD false = false := by
      cases hm : (s.part p).overflow with
      | none => rfl
      | some m => exact decide_eq_false (Nat.not_le.2 (habove m hm))
    simp only [hover, Bool.false_eq_true, if_false, if_neg (Nat.not_le.2 hcount)]
    have hend : EntryAborted (putEntry s p { ticket := k, group := g, st := .known, madeAt := s.mrd.wall }) _ p _ (hostAbort p) :=
      abortEntry_spec (e := { ticket := k, group := g, st := .known, madeAt := s.mrd.wall }) rfl hg4096 rfl
    exact ⟨_, _, rfl, rfl, hend.of_put, rfl⟩
  | some e =>
    have he := hlive e hfind
    simp only [if_neg (not_done_of_live he), if_neg (not_aborted_of_live he)]
    have hgroup := claimEntry_group hfind
    exact ⟨_, _, hgroup, (claimEntry_ticket g e).trans (findEntry_key hfind),
      abortEntry_spec ((isLive_claimEntry g e).trans he) (by rwa [hgroup]) rfl, rfl⟩

theorem grpAbortOp_done {e : Entry} (hfind : findEntry s p g k = some e) (hst : e.st = .done) : grpAbortOp s a = grpDone s a .wrongState 0 := by
  unfold grpAbortOp
  simp only [← hp, ← hg, ← hk, hfind, if_pos hst]

theorem grpAbortOp_aborted {e : Entry} (hfind : findEntry s p g k = some e) (hst : e.st = .aborted) (hl : e.launched = true) :
    grpAbortOp s a = grpDone s a .ok 0 := by
  have hdone : e.st ≠ .done := by rw [hst]; exact nofun
  unfold grpAbortOp
  simp only [← hp, ← hg, ← hk, hfind, if_neg hdone, if_pos hst, hl, if_true]

end

/-- A command that has nothing to do changes the bus and its result alone. -/
theorem grpDone_answer (s : State) (a : Access) (st : Status) (n : Nat) :
    ∃ t, grpDone (answer s 0) a st n = t ∧ t = { s with bus := t.bus, grp := { s.grp with result := t.grp.result } }
      ∧ tget 0 t.grp.result (bankOf a) = pack [(63, 48, stCode st), (47, 40, n)] := by
  obtain ⟨ps, rs, hframe, hresult, -, -⟩ := grpDone_spec (answer s 0) a st n
  refine ⟨_, rfl, ?_, ?_⟩ <;> rw [hframe]
  · rfl
  · exact hresult

/-- Settles O23: a live or a new entry is aborted by `abortEntry_spec`, and one that has ended is told by the result alone. -/
theorem ticketsAreAborted : Obligations.TicketsAreAborted := by
  intro s a v p g k hr hmgmt hbusy hz hp hg hk
  have hrun : exec (.grpAbort a v) s = .next (grpTagCmd s a v (fun x => grpAbortOp x a)) := rfl
  rw [hrun, grpTagCmd_taken _ hr hmgmt hbusy hz]
  refine ⟨fun hlive hg4096 hroom => ?_, fun e hfind hst => ?_, fun e hfind hst hl => ?_⟩
  · obtain ⟨e, u, rfl, rfl, haborted, hend⟩ := grpAbortOp_aborts (s := answer s 0) hp hg hk hlive hg4096 hroom
    obtain ⟨⟨⟨_, _, _, _, _, _, _, _, _, _, _, _, hframe⟩, hentry, hothers, hlatched, hcounted, -, hgroup, hpart⟩, hresult⟩ := haborted.done a .ok 0
    refine ⟨_, congrArg _ hend, ?_, ?_, hothers, hlatched, hcounted, hgroup, hpart, hresult.trans pack_ok⟩
    · rw [hframe]
      rfl
    · rw [hentry]
      rfl
  · obtain ⟨t, ht, hframe, hresult⟩ := grpDone_answer s a .wrongState 0
    exact ⟨t, congrArg _ ((grpAbortOp_done (s := answer s 0) hp hg hk hfind hst).trans ht), hframe, hresult⟩
  · obtain ⟨t, ht, hframe, hresult⟩ := grpDone_answer s a .ok 0
    exact ⟨t, congrArg _ ((grpAbortOp_aborted (s := answer s 0) hp hg hk hfind hst hl).trans ht), hframe, hresult.trans pack_ok⟩

end Sys2Proof.Machine
end

section
/-! `SET_EPOCH` (R220), the station register and `STATION_LIVE` (R208, R223), and the end of a refill (R217). -/

namespace Sys2Proof.Machine

/-! ### Group-table epochs -/

/-- A command that its home rule refuses leaves its status in the result register and in the answer (R220, R542). -/
theorem grpRefused_spec (s : State) (a : Access) (st : Status) :
    ∃ rs, grpRefused s a st = refuse { s with grp.result := rs } a true grpCmdAddr st ∧ tget 0 rs (bankOf a) = pack [(63, 48, stCode st)] :=
  ⟨_, rfl, tget_tset_self ..⟩

theorem bankOf_mgmt {a : Access} (h : isMgmt a = true) : bankOf a = 32 := if_pos h

/-- `SET_EPOCH` that takes effect sets the epochs of both copies, and ends (R220). -/
theorem grpDone_setEpoch (s : State) (a : Access) (e : Nat) :
    ∃ t, grpDone (setEpochNow (answer s 0) e) a .ok 0 = t
      ∧ t = { s with
          bus := { s.bus with pages := t.bus.pages, resp := { refused := false, stat := 0, rdata := 0 } }
          grp := { s.grp with epA := e, epS := (e + 1) % 2 ^ 16, since := none, result := t.grp.result } }
      ∧ tget 0 t.grp.result (bankOf a) = 0 ∧ bitOf (t.page 0x60).cause 0 = true := by
  obtain ⟨ps, rs, hframe, hresult, -, hdone⟩ := grpDone_spec (setEpochNow (answer s 0) e) a .ok 0
  refine ⟨_, rfl, ?_, ?_, hdone⟩ <;> rw [hframe]
  · rfl
  · exact hresult.trans pack_ok

section
variable {s : State} {a : Access} {v : Word} (hr : WriteReaches s a 0x60 0x88) (hmgmt : isMgmt a = true)
include hr hmgmt

theorem setEpochCmd_taken (hbusy : grpBusy s a = false) (hfree : setEpochBusy s = false) (hz : fld v 59 0 = 0) (harg : fld (tget 0 s.grp.arg0 32) 63 16 = 0) :
    setEpochCmd s a v = grpDone (setEpochNow (answer s 0) (fld (tget 0 s.grp.arg0 32) 15 0)) a .ok 0 := by
  have hfree' : setEpochBusy (answer s 0) = false := hfree
  unfold setEpochCmd
  simp only [hmgmt, hbusy, refuseIf_false, Bool.not_true, orElse]
  rw [show grpCmdAddr = regAt 0x60 0x88 from rfl, regWrite_taken _ hr]
  simp only [hfree', mbz_grpCmd hz, harg, refuseIf_false, ne_eq, not_true_eq_false, decide_false]

theorem setEpochCmd_busy (hbusy : grpBusy s a = true) : setEpochCmd s a v = refuse s a true (regAt 0x60 0x88) .wrongState := by
  unfold setEpochCmd
  simp only [hmgmt, hbusy, refuseIf_false, refuseIf_true, Bool.not_true, orElse]
  exact regWrite_stateRefused _ _ hr

theorem setEpochCmd_refused (hbusy : grpBusy s a = false) (hstate : setEpochBusy s = true) :
    setEpochCmd s a v = grpRefused (answer s 0) a .wrongState := by
  have hstate' : setEpochBusy (answer s 0) = true := hstate
  unfold setEpochCmd
  simp only [hmgmt, hbusy, refuseIf_false, Bool.not_true, orElse]
  rw [show grpCmdAddr = regAt 0x60 0x88 from rfl, regWrite_taken _ hr]
  simp only [hstate', refuseIf_true]

end

/-! ### `STATION_LIVE` -/

theorem grantPort_all_frame (l : List Nat) (s : State) :
    ∃ c r o, l.foldl grantPort s = { s with lark.inCr := c, rhmb.srcCr := r, out := o } := by
  induction l generalizing s with
  | nil => exact ⟨_, _, _, rfl⟩
  | cons b l ih =>
    obtain ⟨c, r, o, h⟩ := grantPort_frame s b
    rw [List.foldl_cons, h]
    exact ih { s with lark.inCr := c, rhmb.srcCr := r, out := o }

/-- The rise of `STATION_LIVE` raises the pin and lets the bound ports grant (R208, Table 18.8). -/
theorem updateLive_rises {s : State} (hcond : liveCond s = true) (hlow : s.pins.stationLive = false) :
    ∃ c r o, updateLive s = { s with
      pins := { s.pins with stationLive := true, liveSeen := true }, lark.inCr := c, rhmb.srcCr := r, out := o } := by
  unfold updateLive
  rw [if_pos hcond, hlow, if_neg Bool.false_ne_true]
  exact grantPort_all_frame _ _

theorem updateLive_low {s : State} (hcond : liveCond s = false) (hlow : s.pins.stationLive = false) : updateLive s = s := by
  rw [updateLive, hcond, hlow, if_neg Bool.false_ne_true, if_neg Bool.false_ne_true]

/-- From `s` to `t` frames have left (R160): the pipes, what stands at Rhumb's ports, and what was emitted, are all that changes. -/
def SendsOnly (s t : State) : Prop := ∃ lark sink out, t = { s with lark := lark, rhmb.sink := sink, out := out }

theorem SendsOnly.trans {s t u : State} (h : SendsOnly s t) (k : SendsOnly t u) : SendsOnly s u := by
  obtain ⟨_, _, _, rfl⟩ := h
  obtain ⟨_, _, _, rfl⟩ := k
  exact ⟨_, _, _, rfl⟩

theorem sendOn_sendsOnly (s : State) (port : Nat) (vc : Bool) (b : Bytes) : SendsOnly s (sendOn s port vc b) := by
  simp only [sendOn]
  split <;> exact ⟨_, _, _, rfl⟩

theorem sendOns_sendsOnly (l : List Nat) (vc : Bool) (b : Bytes) (s : State) : SendsOnly s (l.foldl (fun st p => sendOn st p vc b) s) := by
  induction l generalizing s with
  | nil => exact ⟨_, _, _, rfl⟩
  | cons p l ih => exact (sendOn_sendsOnly s p vc b).trans (ih _)

theorem larkCount_sendsOnly (s : State) (k off n : Nat) : SendsOnly s (larkCount s k off n) := ⟨_, _, _, rfl⟩

theorem sendBytes_sendsOnly (s : State) (k : Nat) (f : OutFrame) : SendsOnly s (sendBytes s k f) := by
  have hsent := sendOns_sendsOnly (bitsOf 12 f.ports) (classVc f.cls) f.bytes s
  simp only [sendBytes]
  split
  · exact hsent
  · exact ((hsent.trans (larkCount_sendsOnly ..)).trans (larkCount_sendsOnly ..)).trans (larkCount_sendsOnly ..)

theorem flushSome_sendsOnly (n : Nat) (s : State) : SendsOnly s (flushSome n s) := by
  induction n generalizing s with
  | zero => exact ⟨_, _, _, rfl⟩
  | succ n ih =>
    unfold flushSome
    split
    · exact ⟨_, _, _, rfl⟩
    · next k f _ =>
      have htaken : SendsOnly s (s.setPipe k { s.pipe k with outs := (s.pipe k).outs.erase f }) := ⟨_, _, _, rfl⟩
      exact (htaken.trans (sendBytes_sendsOnly _ k f)).trans (ih _)

theorem admittedAll_nil {s : State} (h : anyAdmitted s = false) : admittedAll s = [] := by
  refine List.flatten_eq_nil_iff.2 fun l hl => ?_
  obtain ⟨q, hq, rfl⟩ := List.mem_map.1 hl
  have hnone : ∀ e ∈ q.2, isAdmitted e = false := by simpa using List.any_eq_false.1 h q hq
  rw [List.filter_eq_nil_iff.2 fun e he => by rw [hnone e he]; exact Bool.false_ne_true, List.map_nil]

/-- Where nothing is admitted a planned fall sends what it may and lowers the pin (R208). -/
theorem plannedFall_idle {s : State} (h : anyAdmitted s = false) (detail : Nat) :
    ∃ u, SendsOnly s u ∧ plannedFall s detail = { u with pins.stationLive := false } := by
  refine ⟨flushFabric s, flushSome_sendsOnly _ s, ?_⟩
  have hnone : abortWhere (fun _ _ => true) { st := .aborted, detail := detail } s = s := by rw [abortWhere, admittedAll_nil h]; rfl
  rw [plannedFall, hnone]

/-! ### The station register -/

/-- What a write of `GRP_STATION` stores (R223). -/
def stationSet (s : State) (v : Word) : State :=
  { s with grp.rankValid := bitOf v 39, grp.rank := fld v 38 24, grp.mgmtPorts := fld v 23 16, grp.liveEn := bitOf v 8 }

section
variable {s : State} {a : Access} {v : Word} (hr : WriteReaches s a 0x60 0xD0)
include hr

theorem stationWrite_taken
    (hkeep : bitOf v 39 = s.grp.rankValid ∧ fld v 38 24 = s.grp.rank ∨ s.grp.liveEn = false ∧ anyAdmitted s = false ∧ badRank s v = false) :
    stationWrite s a v = updateLive (stationSet
      (if s.grp.liveEn && !bitOf v 8 then plannedFall (answer s 0) (errTag a) else answer s 0) v) := by
  have hst : refuseIf ((decide (bitOf v 39 ≠ s.grp.rankValid) || decide (fld v 38 24 ≠ s.grp.rank)) && (s.grp.liveEn || anyAdmitted s)) .wrongState = none := by
    refine refuseIf_false _ ?_
    rcases hkeep with ⟨hvalid, hrank⟩ | ⟨hen, hadm, -⟩
    · simp [hvalid, hrank]
    · simp [hen, hadm]
  have harg : refuseIf ((decide (bitOf v 39 ≠ s.grp.rankValid) || decide (fld v 38 24 ≠ s.grp.rank)) && badRank s v) .badArg = none := by
    refine refuseIf_false _ ?_
    rcases hkeep with ⟨hvalid, hrank⟩ | ⟨-, -, hbad⟩
    · simp [hvalid, hrank]
    · simp [hbad]
  unfold stationWrite
  simp only [hst, harg]
  rw [regWrite_taken _ hr]
  rfl

theorem stationWrite_refused (hchange : bitOf v 39 ≠ s.grp.rankValid ∨ fld v 38 24 ≠ s.grp.rank) (hlive : s.grp.liveEn = true ∨ anyAdmitted s = true) :
    stationWrite s a v = refuse s a true (regAt 0x60 0xD0) .wrongState := by
  have hst : refuseIf ((decide (bitOf v 39 ≠ s.grp.rankValid) || decide (fld v 38 24 ≠ s.grp.rank)) && (s.grp.liveEn || anyAdmitted s)) .wrongState
      = some .wrongState := refuseIf_true _ (by simp [hchange, hlive])
  unfold stationWrite
  simp only [hst]
  exact regWrite_stateRefused _ _ hr

/-- A write that clears `LIVE_EN` while nothing is admitted sends the waiting frames, lowers `STATION_LIVE` and stores (R208, R223). -/
theorem stationWrite_falls
    (hkeep : bitOf v 39 = s.grp.rankValid ∧ fld v 38 24 = s.grp.rank ∨ s.grp.liveEn = false ∧ anyAdmitted s = false ∧ badRank s v = false)
    (hen : s.grp.liveEn = true) (hadm : anyAdmitted s = false) (hv : bitOf v 8 = false) :
    ∃ u, SendsOnly (answer s 0) u ∧ stationWrite s a v = stationSet { u with pins.stationLive := false } v := by
  obtain ⟨u, hu, hfall⟩ := plannedFall_idle (s := answer s 0) hadm (errTag a)
  refine ⟨u, hu, ?_⟩
  rw [stationWrite_taken hr hkeep, hen, hv, hfall]
  exact updateLive_quiet hv rfl

end

/-! ### The end of a refill -/

theorem refillDone_idle {s : State} (h : s.grp.refill = false ∨ arithRuns s = false) : whenArith s refillDone = s := by
  unfold whenArith refillDone
  rcases h with h | h <;> simp [h]

theorem refillDone_copies {s : State} (h : s.grp.refill = true) (hruns : arithRuns s = true) :
    whenArith s refillDone
      = { s with grp := { s.grp with refill := false, descS := s.grp.descA, mbrS := s.grp.mbrA, epS := (s.grp.epA + 1) % 2 ^ 16 } } := by
  rw [whenArith, if_pos hruns, refillDone, if_pos h]

/-- Settles O24: `SET_EPOCH` by its three outcomes, `GRP_STATION` by what `STATION_LIVE` does after it, and the refill by whether one is under
way. -/
theorem epochsAndStationsAreSet : Obligations.EpochsAndStationsAreSet := by
  intro s a v
  refine ⟨fun hr hmgmt hbusy hfree hz harg => ?_, fun hr hmgmt hstate => ?_, fun hr => ⟨fun hkeep => ⟨fun hen hlow hv => ?_, fun u hu hen hlow hv => ?_,
    fun hen hadm hv => ?_⟩, fun hchange hlive => ?_⟩, fun hrefill hruns => congrArg Host.Outcome.next (refillDone_copies hrefill hruns),
    fun hidle => congrArg Host.Outcome.next (refillDone_idle hidle)⟩
  · obtain ⟨t, ht, hframe, hresult, hdone⟩ := grpDone_setEpoch s a (fld (tget 0 s.grp.arg0 32) 15 0)
    rw [bankOf_mgmt hmgmt] at hresult
    exact ⟨t, congrArg Host.Outcome.next ((setEpochCmd_taken hr hmgmt hbusy hfree hz harg).trans ht), hframe, hresult, hdone⟩
  · cases hbusy : grpBusy s a
    · obtain ⟨rs, hrefused, hresult⟩ := grpRefused_spec (answer s 0) a .wrongState
      refine ⟨_, congrArg Host.Outcome.next ((setEpochCmd_refused hr hmgmt hbusy hstate).trans hrefused), rfl, rfl, fun _ => ?_⟩
      rw [← bankOf_mgmt hmgmt]
      exact hresult
    · obtain ⟨t, ht, hframe, hresp⟩ := next_of_refuse (c := .setEpoch a v) (congrArg Host.Outcome.next (setEpochCmd_busy hr hmgmt hbusy))
      refine ⟨t, ht, ?_, hresp, nofun⟩
      rw [hframe]
  · refine congrArg Host.Outcome.next ((stationWrite_taken hr hkeep).trans ?_)
    rw [hen, Bool.false_and, if_neg Bool.false_ne_true, updateLive_quiet (s := stationSet (answer s 0) v) hv hlow, stationSet, hv]
    rfl
  · have hwrite : stationWrite s a v = updateLive u := by
      rw [stationWrite_taken hr hkeep, hen, Bool.false_and, if_neg Bool.false_ne_true, stationSet, hv, hu]
      rfl
    have hlow' : u.pins.stationLive = false := by rw [hu]; exact hlow
    refine ⟨fun hcond => ?_, fun hcond => congrArg Host.Outcome.next (hwrite.trans (updateLive_low hcond hlow'))⟩
    obtain ⟨c, r, o, hrise⟩ := updateLive_rises hcond hlow'
    refine ⟨_, congrArg Host.Outcome.next (hwrite.trans hrise), ?_⟩
    rw [hu]
    rfl
  · obtain ⟨u, ⟨_, _, _, rfl⟩, hfall⟩ := stationWrite_falls hr hkeep hen hadm hv
    refine ⟨_, congrArg Host.Outcome.next hfall, ?_⟩
    rw [stationSet, hv]
    rfl
  · exact next_of_refuse (c := .grpStationWrite a v) (congrArg Host.Outcome.next (stationWrite_refused hr hchange hlive))

end Sys2Proof.Machine
end

section
/-! Windows that a launch takes (R169, R170, R191): an `ALLOC` reads the pool and the quotas alone. -/

namespace Sys2Proof.Machine

/-! ### An `ALLOC` reads the pool and the quotas alone -/

section
variable {s u : State} (h : u.phlx = s.phlx)
include h

theorem setWin_phlx_congr (j : Nat) (w : Win) : (u.setWin j w).phlx = (s.setWin j w).phlx := by rw [State.setWin, State.setWin, h]

theorem compactMap_congr : (compactMap u).phlx = (compactMap s).phlx := by
  have hfold (l : List (Nat × Win)) (n : Nat) (m : Table Nat) {x y : State} (hxy : x.phlx = y.phlx) :
      (l.foldl (compactStep s) (n, m, x)).2.1 = (l.foldl (compactStep s) (n, m, y)).2.1
        ∧ (l.foldl (compactStep s) (n, m, x)).2.2.phlx = (l.foldl (compactStep s) (n, m, y)).2.2.phlx := by
    induction l generalizing n m x y with
    | nil => exact ⟨rfl, hxy⟩
    | cons e l ih => exact ih _ _ (setWin_phlx_congr hxy _ _)
  have hstep : compactStep u = compactStep s := by
    funext acc e
    rw [compactStep, compactStep, h]
  have hwins : winsByBase u = winsByBase s := by rw [winsByBase, winsByBase, h]
  obtain ⟨hmap, hstate⟩ := hfold (winsByBase s) 0 [] h
  simp only [compactMap_eq, hstep, hwins, hmap, hstate]

theorem placed_congr (wi : Nat) (x : Win) : (placed u wi x).phlx = (placed s wi x).phlx := by
  have hrun : (takeRun u (granulesFor x.tiles)).1 = (takeRun s (granulesFor x.tiles)).1
      ∧ (takeRun u (granulesFor x.tiles)).2.phlx = (takeRun s (granulesFor x.tiles)).2.phlx := by
    unfold takeRun
    simp only [h]
    split
    · exact ⟨rfl, h⟩
    · exact ⟨by rw [compactMap_congr h], compactMap_congr h⟩
  obtain ⟨hbase, hstate⟩ := hrun
  unfold placed placeWindow
  simp only [hbase, hstate]
  exact setWin_phlx_congr rfl _ _

theorem allocated_congr (p g n w : Nat) (pair : Bool) : (allocated u p g n w pair).phlx = (allocated s p g n w pair).phlx := by
  unfold allocated
  split
  · exact placed_congr (placed_congr h _ _) _ _
  · exact placed_congr h _ _

end

/-- How an `ALLOC` of `k` windows ends: beyond a quota, with the pool or the indices used up, or with its window (R170). -/
inductive AllocEnd (s : State) (p n k : Nat) (pair : Bool) : Prop where
  | quota (h : (s.part p).qGran < partGranules s p + k * granulesFor n ∨ (s.part p).qWins < partWindows s p + k)
  | pool (hgran : partGranules s p + k * granulesFor n ≤ (s.part p).qGran) (hwins : partWindows s p + k ≤ (s.part p).qWins)
      (h : poolFree s < k * granulesFor n)
  | index (hgran : partGranules s p + k * granulesFor n ≤ (s.part p).qGran) (hwins : partWindows s p + k ≤ (s.part p).qWins)
      (hpool : k * granulesFor n ≤ poolFree s) (h : freeWindow s pair = none)
  | found (hgran : partGranules s p + k * granulesFor n ≤ (s.part p).qGran) (hwins : partWindows s p + k ≤ (s.part p).qWins)
      (hpool : k * granulesFor n ≤ poolFree s) (w : Nat) (h : freeWindow s pair = some w)

theorem allocEnd (s : State) (p n k : Nat) (pair : Bool) : AllocEnd s p n k pair := by
  rcases Nat.lt_or_ge (s.part p).qGran (partGranules s p + k * granulesFor n) with h | hgran
  · exact .quota (.inl h)
  rcases Nat.lt_or_ge (s.part p).qWins (partWindows s p + k) with h | hwins
  · exact .quota (.inr h)
  rcases Nat.lt_or_ge (poolFree s) (k * granulesFor n) with h | hpool
  · exact .pool hgran hwins h
  cases h : freeWindow s pair with
  | none => exact .index hgran hwins hpool h
  | some w => exact .found hgran hwins hpool w h

/-- What an `ALLOC` leaves: its result, where it fails, and the windows and descriptors, where it does not (R170, R322). -/
theorem allocWindow_frame (s : State) (p g n : Nat) (pair : Bool) :
    ((allocWindow s p g n pair).1.status ≠ 0 → ∃ ps, (allocWindow s p g n pair).2 = { s with bus.pages := ps })
      ∧ ∃ ps pw dA dS ph, (allocWindow s p g n pair).2 = { s with bus.pages := ps, pwr := pw, grp.descA := dA, grp.descS := dS, phlx := ph } := by
  cases allocEnd s p n (if pair = true then 2 else 1) pair with
  | quota h =>
    rw [allocWindow_quota rfl h]
    exact ⟨fun _ => ⟨_, rfl⟩, _, _, _, _, _, rfl⟩
  | pool hgran hwins h =>
    rw [allocWindow_pool rfl hgran hwins h]
    exact ⟨fun _ => ⟨_, rfl⟩, _, _, _, _, _, rfl⟩
  | index hgran hwins hpool h =>
    rw [allocWindow_index rfl hgran hwins hpool h]
    exact ⟨fun _ => ⟨_, rfl⟩, _, _, _, _, _, rfl⟩
  | found hgran hwins hpool w h =>
    obtain ⟨u, hu, ⟨_, _, _, _, _, _, hframe⟩, -⟩ := allocated_ready s p g n w pair
    rw [allocWindow_ok rfl hgran hwins hpool h, hu, hframe]
    exact ⟨fun hne => absurd rfl hne, _, _, _, _, _, rfl⟩

/-- States with the same pool and the same quotas answer an `ALLOC` alike. -/
theorem allocWindow_congr {s u : State} (hphlx : u.phlx = s.phlx) (hparts : u.parts = s.parts) (p g n : Nat) (pair : Bool) :
    (allocWindow u p g n pair).1 = (allocWindow s p g n pair).1 ∧ (allocWindow u p g n pair).2.phlx = (allocWindow s p g n pair).2.phlx := by
  have hpart : u.part p = s.part p := by rw [State.part, State.part, hparts]
  have hgrans : partGranules u p = partGranules s p := by rw [partGranules, partGranules, hphlx]
  have hheld : partWindows u p = partWindows s p := by rw [partWindows, partWindows, hphlx]
  have hfree : poolFree u = poolFree s := by rw [poolFree, poolFree, hphlx]
  have hindex : freeWindow u pair = freeWindow s pair := by
    unfold freeWindow State.win
    rw [hphlx]
  cases allocEnd s p n (if pair = true then 2 else 1) pair with
  | quota h =>
    rw [allocWindow_quota rfl h, allocWindow_quota (s := u) rfl (by rwa [hpart, hgrans, hheld])]
    exact ⟨rfl, hphlx⟩
  | pool hgran hwins h =>
    rw [allocWindow_pool rfl hgran hwins h, allocWindow_pool (s := u) rfl (by rwa [hpart, hgrans]) (by rwa [hpart, hheld]) (by rwa [hfree])]
    exact ⟨rfl, hphlx⟩
  | index hgran hwins hpool h =>
    rw [allocWindow_index rfl hgran hwins hpool h,
      allocWindow_index (s := u) rfl (by rwa [hpart, hgrans]) (by rwa [hpart, hheld]) (by rwa [hfree]) (by rwa [hindex])]
    exact ⟨rfl, hphlx⟩
  | found hgran hwins hpool w h =>
    obtain ⟨x, hx, -, -, hxphlx, -⟩ := allocated_ready u p g n w pair
    obtain ⟨y, hy, -, -, hyphlx, -⟩ := allocated_ready s p g n w pair
    rw [allocWindow_ok rfl hgran hwins hpool h, hy,
      allocWindow_ok (s := u) rfl (by rwa [hpart, hgrans]) (by rwa [hpart, hheld]) (by rwa [hfree]) (w := w) (by rwa [hindex]), hx]
    exact ⟨rfl, hxphlx.trans ((allocated_congr hphlx p g n w pair).trans hyphlx.symm)⟩

end Sys2Proof.Machine
end

section
/-! The launch commands (R191, R197, R221), step by step. -/

namespace Sys2Proof.Machine

/-! ### Step 3: the entry of the ticket -/

section
variable {s : State} {l : LaunchArgs} {e : Entry}

theorem launchStep3_running (hfind : findEntry s l.p l.g l.ticket = some e) (hst : e.st = .waiting ∨ e.st = .active) :
    launchStep3 s l = .fail .wrongState false := by
  unfold launchStep3
  rw [hfind]
  rcases hst with hst | hst <;> simp [hst]

theorem launchStep3_ended (hfind : findEntry s l.p l.g l.ticket = some e) (hst : e.st = .done ∨ e.st = .aborted)
    (hown : e.launched = false ∨ e.kEpoch = l.ke) : launchStep3 s l = .fail .aborted true := by
  unfold launchStep3
  rw [hfind]
  rcases hown with hl | hk
  · rcases hst with hst | hst <;> simp [hst, hl]
  · rcases hst with hst | hst <;> simp [hst, hk]

theorem launchStep3_below {m : Nat} (hfind : findEntry s l.p l.g l.ticket = none) (hfirst : l.first = false) (hm : (s.part l.p).overflow = some m)
    (hle : l.ticket ≤ m) : launchStep3 s l = .fail .orderTimeout false := by
  unfold launchStep3
  simp only [hfind, hm, hfirst, hle, Bool.not_false, Bool.true_and, decide_true, if_true]

theorem launchStep3_full (hfind : findEntry s l.p l.g l.ticket = none)
    (habove : l.first = true ∨ ∀ m, (s.part l.p).overflow = some m → m < l.ticket) (hfull : 64 ≤ listCount s l.p) :
    launchStep3 s l = .fail .quota false := by
  unfold launchStep3
  rw [hfind]
  refine (if_neg ?_).trans (if_pos hfull)
  rcases habove with hfirst | habove
  · simp [hfirst]
  · cases hm : (s.part l.p).overflow with
    | none => simp
    | some m => simp [habove m hm]

/-- The entry that a launch takes over is a `KNOWN` one of its ticket (R191). -/
theorem launchStep3_takes {lv : Bool} (h : launchStep3 s l = .go (some e) lv) : findEntry s l.p l.g l.ticket = some e ∧ e.st = .known := by
  unfold launchStep3 at h
  extract_lets fresh at h
  have hfresh (b : Bool) (n : Nat) : ¬fresh b n = .go (some e) lv := by
    unfold fresh
    intro hgo
    split_ifs at hgo
    exact nomatch (Step3.go.inj hgo).1
  split at h
  · exact (hfresh _ _ h).elim
  · next y hfind =>
    split at h
    · exact (hfresh _ _ h).elim
    · split at h
      · exact nomatch h
      · split at h
        · next hst =>
          obtain ⟨hy, -⟩ := Step3.go.inj h
          obtain rfl := Option.some.inj hy
          exact ⟨hfind, hst⟩
        · exact nomatch h

end

/-! ### Steps 4 and 6: the window, the floors and the charge -/

section
variable {s : State} {l : LaunchArgs} {d : Desc}

theorem launchWindow_named (h : descWindow d ≠ none) : launchWindow s l d = (true, s) := if_neg h

/-- The window of a launch that must take one, and that gets none (R170, R191). -/
theorem launchWindow_fails (h : descWindow d = none) (hfail : (allocWindow s l.p l.g (dTiles d) (dRetain d)).1.status ≠ 0) :
    ∃ ps, launchWindow s l d = (false, { s with bus.pages := ps, phlx.result := (allocWindow s l.p l.g (dTiles d) (dRetain d)).1 }) := by
  obtain ⟨ps, hps⟩ := (allocWindow_frame s l.p l.g (dTiles d) (dRetain d)).1 hfail
  unfold launchWindow
  rw [if_pos h]
  simp only [hps, winDone, decide_eq_false hfail]
  exact ⟨_, rfl⟩

/-- What step 4 of a launch leaves: the window that the descriptor names, or a new one (R191). -/
structure HasWindow (s t : State) (l : LaunchArgs) (d : Desc) : Prop where
  frame : ∃ ps pw dA dS ph, t = { s with bus.pages := ps, pwr := pw, grp.descA := dA, grp.descS := dS, phlx := ph }
  named : descWindow d ≠ none → t = s
  taken : descWindow d = none → t.phlx = { (allocWindow s l.p l.g (dTiles d) (dRetain d)).2.phlx with
    result := (allocWindow s l.p l.g (dTiles d) (dRetain d)).1 } ∧ bitOf (t.page 0x51).cause 0 = true

theorem launchWindow_ok (h : descWindow d = none → (allocWindow s l.p l.g (dTiles d) (dRetain d)).1.status = 0) :
    ∃ t, launchWindow s l d = (true, t) ∧ HasWindow s t l d := by
  by_cases hd : descWindow d = none
  · obtain ⟨-, _, _, _, _, _, hframe⟩ := allocWindow_frame s l.p l.g (dTiles d) (dRetain d)
    refine ⟨winDone (allocWindow s l.p l.g (dTiles d) (dRetain d)).2 (allocWindow s l.p l.g (dTiles d) (dRetain d)).1, ?_,
      ⟨?_, fun hne => absurd hd hne, fun _ => ⟨rfl, raise_cause _ 0x51 (by decide)⟩⟩⟩
    · unfold launchWindow
      rw [if_pos hd]
      simp only [h hd, decide_true]
    · rw [hframe]
      exact ⟨_, _, _, _, _, rfl⟩
  · exact ⟨s, launchWindow_named hd, ⟨_, _, _, _, _, rfl⟩, fun _ => rfl, fun hnone => absurd hnone hd⟩

theorem launchStep6_floors (hrole : l.role = .normal) (h : floorsHold s d = false) : launchStep6 s l d = .error .badArg := by
  simp [launchStep6, hrole, h]

theorem launchStep6_exhausted (hrole : l.role = .normal) (h : floorsHold s d = true) (hnoise : dNoise d = true) (hrel : atRelease s d = true)
    (hover : (s.budget l.p).total < (s.budget l.p).spent + dCharge d) : launchStep6 s l d = .error .budgetExhausted := by
  simp [launchStep6, hrole, h, hnoise, hrel, hover]

/-- The charge of a launch: a normal one that releases noise here pays it (R248). -/
def launchCharge (s : State) (l : LaunchArgs) (d : Desc) : Nat :=
  if l.role = .normal ∧ dNoise d = true ∧ atRelease s d = true then dCharge d else 0

/-- What step 6 of a launch leaves: the charge is spent. -/
structure Charged (s t : State) (p ch : Nat) : Prop where
  frame : ∃ bs, t = { s with zin.budgets := bs }
  spent : t.budget p = { s.budget p with spent := (s.budget p).spent + ch }
  others : ∀ q, q ≠ p → t.budget q = s.budget q

theorem Charged.nothing (s : State) (p : Nat) : Charged s s p 0 := ⟨⟨_, rfl⟩, rfl, fun _ _ => rfl⟩

theorem launchStep6_pays (hrole : l.role = .normal) (h : floorsHold s d = true) (hnoise : dNoise d = true) (hrel : atRelease s d = true)
    (hroom : (s.budget l.p).spent + dCharge d ≤ (s.budget l.p).total) :
    launchStep6 s l d = .ok (dCharge d, s.setBudget l.p { s.budget l.p with spent := (s.budget l.p).spent + dCharge d }) := by
  simp [launchStep6, hrole, h, hnoise, hrel, hroom]

theorem launchStep6_free (hfloors : l.role = .normal → floorsHold s d = true)
    (hpays : ¬(l.role = .normal ∧ dNoise d = true ∧ atRelease s d = true)) : launchStep6 s l d = .ok (0, s) := by
  unfold launchStep6
  by_cases hrole : l.role = .normal
  · have hfree : ¬(dNoise d && atRelease s d) = true := fun h => hpays ⟨hrole, Bool.and_eq_true_iff.1 h⟩
    rw [if_neg (not_not_intro hrole), hfloors hrole, Bool.not_true, if_neg Bool.false_ne_true, if_neg hfree]
  · exact if_pos hrole

theorem launchStep6_ok (hfloors : l.role = .normal → floorsHold s d = true)
    (hroom : l.role = .normal → dNoise d = true → atRelease s d = true → (s.budget l.p).spent + dCharge d ≤ (s.budget l.p).total) :
    ∃ t, launchStep6 s l d = .ok (launchCharge s l d, t) ∧ Charged s t l.p (launchCharge s l d) := by
  unfold launchCharge
  split
  · next hpays =>
    obtain ⟨hrole, hnoise, hrel⟩ := hpays
    exact ⟨_, launchStep6_pays hrole (hfloors hrole) hnoise hrel (hroom hrole hnoise hrel), ⟨_, rfl⟩, State.setBudget_budget_self ..,
      fun q hq => State.setBudget_budget_ne _ _ _ _ hq⟩
  · next hpays => exact ⟨s, launchStep6_free hfloors hpays, .nothing s l.p⟩

end

/-! ### Step 7: admission -/

/-- The `WAITING` entry of a launch, in place of the one that stood (R191). -/
def launchedEntry (s : State) (l : LaunchArgs) (d : Desc) (c : Bool) (old : Option Entry) (ch : Nat) : Entry :=
  let base := old.getD { ticket := l.ticket, group := l.g, st := .known, madeAt := s.mrd.wall, passed := [(s.mrd.step, s.mrd.wall)] }
  { base with
    group := l.g, st := .waiting, launched := true, prev := l.prev, first := l.first, step := some l.step, digest := descDigest s l.p c d
    gEpoch := if c then s.grp.epS else s.grp.epA, kEpoch := l.ke
    stepAt := (base.passed.find? (fun x => l.step ≤ x.1)).map (·.2), passed := [], role := l.role, charge := ch }

/-- What an admission leaves (R191, R198, R201). -/
structure Admitted (s t : State) (l : LaunchArgs) (e : Entry) : Prop where
  frame : ∃ lists recs parts, t = { s with grp := { s.grp with lists := lists, recs := recs }, parts := parts }
  entry : findEntry t l.p l.g l.ticket = some e
  record : t.grpRec l.g = { s.grpRec l.g with launched := noteLaunch l.ticket l.ke (s.grpRec l.g).launched }
  entries : ∀ q, q ≠ l.p → t.entries q = s.entries q
  part : ∀ q, q ≠ l.p → t.part q = s.part q
  records : ∀ g, g ≠ l.g → t.grpRec g = s.grpRec g

/-- An entry of another key does not hide one. -/
theorem find?_insertEntry_of_not {q : Entry → Bool} {x : Entry} (hx : q x = false) (es : List Entry) : (insertEntry x es).find? q = es.find? q := by
  have hskip (es : List Entry) : (x :: es).find? q = es.find? q := List.find?_cons_of_neg (by rw [hx]; exact Bool.false_ne_true)
  induction es with
  | nil => exact hskip []
  | cons e es ih =>
    unfold insertEntry
    split
    · exact hskip (e :: es)
    · rw [List.find?_cons, List.find?_cons, ih]

theorem not_key_of_mem_dropEntry {es : List Entry} {g t : Nat} {e : Entry} (h : e ∈ dropEntry es g t) :
    (decide (e.ticket = t) && (decide (e.group = g) || decide (e.group = 4096))) = false := by
  simpa only [Bool.not_eq_true'] using (List.mem_filter.1 h).2

/-- The list of an admission: without those that leave, with the new entry, and with one for `PREV` where that names nothing (R195, R201). -/
theorem launchAdmit_spec {s : State} {l : LaunchArgs} (d : Desc) (c : Bool) {old : Option Entry} (ch : Nat)
    (hprev : l.first = false → l.prev < l.ticket) (hold : ∀ e, old = some e → e.ticket = l.ticket) :
    Admitted s (launchAdmit s l d c old ch) l (launchedEntry s l d c old ch) := by
  have hticket : (launchedEntry s l d c old ch).ticket = l.ticket := by
    cases old with
    | none => rfl
    | some e => exact hold e rfl
  unfold launchAdmit
  extract_lets base e es1 es2 needPrev es3 r s1
  have he : e = launchedEntry s l d c old ch := rfl
  have hkept : ∀ x ∈ es1, (decide (x.ticket = l.ticket) && (decide (x.group = l.g) || decide (x.group = 4096))) = false := by
    intro x hx
    obtain ⟨y, hy, rfl⟩ := List.mem_map.1 hx
    exact not_key_of_mem_dropEntry (e := y) (List.mem_of_mem_filter hy)
  have hes2 : es2.find? (fun x => decide (x.ticket = l.ticket) && (decide (x.group = l.g) || decide (x.group = 4096))) = some e :=
    insertEntry_find _ _ _ (by rw [he, hticket]; simp [launchedEntry]) hkept
  have hes3 : es3.find? (fun x => decide (x.ticket = l.ticket) && (decide (x.group = l.g) || decide (x.group = 4096))) = some e := by
    unfold es3
    split
    · next hneed =>
      have hfirst : l.first = false := by
        simp only [needPrev, Bool.and_eq_true, Bool.not_eq_true'] at hneed
        obtain ⟨⟨⟨⟨hfirst, -⟩, -⟩, -⟩, -⟩ := hneed
        exact hfirst
      rw [find?_insertEntry_of_not, hes2]
      simp [entryForPrev, (hprev hfirst).ne]
    · exact hes2
  have hs1 : Admitted s s1 l e := {
    frame := ⟨_, _, s.parts, rfl⟩
    entry := by rw [findEntry, show s1.entries l.p = es3 from tget_tset_self ..]; exact hes3
    record := State.setGrpRec_grpRec_self ..
    entries := fun q hq => State.setEntries_entries_ne _ _ _ _ hq
    part := fun _ _ => rfl
    records := fun g hg => State.setGrpRec_grpRec_ne _ _ _ _ hg }
  rw [← he]
  split
  · obtain ⟨⟨_, _, _, hframe⟩, hentry, hrecord, hentries, hpart, hrecords⟩ := hs1
    exact ⟨⟨_, _, _, rfl⟩, hentry, hrecord, hentries, fun q hq => State.setPart_part_ne _ _ _ _ hq, hrecords⟩
  · exact hs1

/-! ### Step 7: the frames that came before -/

theorem parkedMismatch_none {s : State} {p : Nat} {e : Entry} (h : ∀ f ∈ s.park.frames, f.part = p → f.group = e.group → f.ticket = e.ticket →
    (hdrOf f.arr.bytes).digest = e.digest ∧ (hdrOf f.arr.bytes).gEpoch = e.gEpoch) : parkedMismatch s p e = none := by
  refine List.find?_eq_none.2 fun x hx => ?_
  obtain ⟨f, hf, rfl⟩ := List.mem_map.1 hx
  obtain ⟨hmem, hkey⟩ := List.mem_filter.1 hf
  simp only [Bool.and_eq_true, decide_eq_true_eq] at hkey
  obtain ⟨⟨hpart, hgroup⟩, hticket⟩ := hkey
  obtain ⟨hdigest, hepoch⟩ := h f hmem hpart hgroup hticket
  simp [hdigest, hepoch]

theorem parkedMismatch_some {s : State} {p : Nat} {e : Entry} (h : ∃ f ∈ s.park.frames, f.part = p ∧ f.group = e.group ∧ f.ticket = e.ticket ∧
    ((hdrOf f.arr.bytes).digest ≠ e.digest ∨ (hdrOf f.arr.bytes).gEpoch ≠ e.gEpoch)) : ∃ x, parkedMismatch s p e = some x := by
  obtain ⟨f, hmem, hpart, hgroup, hticket, hdiffers⟩ := h
  refine Option.isSome_iff_exists.1 (List.find?_isSome.2 ⟨hdrOf f.arr.bytes, List.mem_map_of_mem (List.mem_filter.2 ⟨hmem, ?_⟩), ?_⟩)
  · simp [hpart, hgroup, hticket]
  · simpa using hdiffers

section
variable {s : State} {a : Access} {l : LaunchArgs} {e : Entry} (hfind : findEntry s l.p l.g l.ticket = some e)
include hfind

theorem launchJudge_agrees (h : parkedMismatch s l.p e = none) : launchJudge s a l = grpDone s a .ok 0 := by
  unfold launchJudge
  simp only [hfind, h]

theorem launchJudge_differs {x : Hdr} (h : parkedMismatch s l.p e = some x) :
    launchJudge s a l = grpDone (abortEntry (latchMismatch s l.g x) l.p e (mismatchInfo e x)) a .descMismatch 7 := by
  unfold launchJudge
  simp only [hfind, h]

end

end Sys2Proof.Machine
end

section
/-! How a launch ends (R191, R197, R221, R292), by the step that fails or by its admission. -/

namespace Sys2Proof.Machine

/-! ### The end by step -/

section
variable {s : State} {a : Access} {role : Nat → EntryRole} {l : LaunchArgs} (hl : l = launchArgs s a role)
include hl

theorem launchOp_step1 {st : Status} (h : launchStep1 s l = some st) : launchOp s a role = grpDone s a st 1 := by
  unfold launchOp
  simp only [← hl, h]

variable (h1 : launchStep1 s l = none)
include h1

theorem launchOp_step2 (h : launchStep2 s l = none) : launchOp s a role = grpDone s a .wrongState 2 := by
  unfold launchOp
  simp only [← hl, h1, h]

variable {d : Desc} {c : Bool} (h2 : launchStep2 s l = some (d, c))
include h2

theorem launchOp_step3 {st : Status} {lv : Bool} (h : launchStep3 s l = .fail st lv) :
    launchOp s a role = grpDone (if lv then delEntry s l.p l.g l.ticket else s) a st 3 := by
  unfold launchOp
  simp only [← hl, h1, h2, h]

theorem launchOp_dropped {e : Entry} {lv : Bool} {st : Status} (h : launchStep3 s l = .go (some e) lv) (hdropped : e.dropped = some st) :
    launchOp s a role = launchDropped s a l e st := by
  unfold launchOp
  simp only [← hl, h1, h2, h, Option.bind_some, hdropped]

theorem launchOp_rest {old : Option Entry} {lv : Bool} (h : launchStep3 s l = .go old lv) (hdropped : old.bind (·.dropped) = none) :
    launchOp s a role = launchRest s (if lv then delEntry s l.p l.g l.ticket else s) a l d c old := by
  unfold launchOp
  simp only [← hl, h1, h2, h, hdropped]

end

/-! ### The state without the entry that a launch replaces -/

/-- From `s` to `t` the list of a partition has changed. -/
def ListsOnly (s t : State) (p : Nat) : Prop := (∃ ls, t = { s with grp.lists := ls }) ∧ ∀ q, q ≠ p → t.entries q = s.entries q

theorem ListsOnly.floorsHold {s t : State} {p : Nat} (h : ListsOnly s t p) (d : Desc) : floorsHold t d = Machine.floorsHold s d := by
  obtain ⟨⟨ls, rfl⟩, -⟩ := h
  rfl

theorem ListsOnly.atRelease {s t : State} {p : Nat} (h : ListsOnly s t p) (d : Desc) : atRelease t d = Machine.atRelease s d := by
  obtain ⟨⟨ls, rfl⟩, -⟩ := h
  rfl

theorem ListsOnly.budget {s t : State} {p : Nat} (h : ListsOnly s t p) (q : Nat) : t.budget q = s.budget q := by
  obtain ⟨⟨ls, rfl⟩, -⟩ := h
  rfl

theorem delEntry_listsOnly (s : State) (p g t : Nat) : ListsOnly s (delEntry s p g t) p :=
  ⟨⟨_, rfl⟩, fun _ hq => State.setEntries_entries_ne _ _ _ _ hq⟩

theorem delIf_listsOnly (s : State) (lv : Bool) (p g t : Nat) : ListsOnly s (if lv then delEntry s p g t else s) p := by
  split
  · exact delEntry_listsOnly s p g t
  · exact ⟨⟨_, rfl⟩, fun _ _ => rfl⟩

theorem findEntry_delEntry (s : State) (p g t : Nat) : findEntry (delEntry s p g t) p g t = none := by
  rw [findEntry, delEntry, State.setEntries_entries_self]
  exact List.find?_eq_none.2 fun e he => by rw [not_key_of_mem_dropEntry he]; exact Bool.false_ne_true

/-! ### Steps 4 to 7 -/

theorem descDigest_congr {s u : State} {p : Nat} (hA : u.grp.epA = s.grp.epA) (hS : u.grp.epS = s.grp.epS) (hpart : u.part p = s.part p)
    (c : Bool) (d : Desc) : descDigest u p c d = descDigest s p c d := by
  rw [descDigest, descDigest, withEpoch, withEpoch, hA, hS, hpart]

theorem launchedEntry_congr {s u : State} {l : LaunchArgs} (hmrd : u.mrd = s.mrd) (hA : u.grp.epA = s.grp.epA) (hS : u.grp.epS = s.grp.epS)
    (hpart : u.part l.p = s.part l.p) (d : Desc) (c : Bool) (old : Option Entry) (ch : Nat) :
    launchedEntry u l d c old ch = launchedEntry s l d c old ch := by
  rw [launchedEntry, launchedEntry, descDigest_congr hA hS hpart, hmrd, hA, hS]

theorem budget_congr {s u : State} (h : u.zin = s.zin) (p : Nat) : u.budget p = s.budget p := by rw [State.budget, State.budget, h]

theorem floorsHold_congr {s u : State} (h : u.zin = s.zin) (d : Desc) : floorsHold u d = floorsHold s d := by
  rw [floorsHold, floorsHold, budget_congr h]

theorem atRelease_congr {s u : State} (hvalid : u.grp.rankValid = s.grp.rankValid) (hrank : u.grp.rank = s.grp.rank) (d : Desc) :
    atRelease u d = atRelease s d := by
  rw [atRelease, atRelease, hvalid, hrank]

/-- What a launch that passes steps 1 to 6 leaves before its frames are judged (R191, R195, R248). -/
structure Launched (s t : State) (l : LaunchArgs) (d : Desc) (e : Entry) (ch : Nat) : Prop where
  frame : ∃ ps pw dA dS ph bs lists recs result parts, t = { s with
    bus.pages := ps, pwr := pw, phlx := ph, zin.budgets := bs, parts := parts
    grp := { s.grp with descA := dA, descS := dS, lists := lists, recs := recs, result := result } }
  named : descWindow d ≠ none → t.phlx = s.phlx ∧ t.pwr = s.pwr ∧ t.grp.descA = s.grp.descA ∧ t.grp.descS = s.grp.descS
  taken : descWindow d = none → t.phlx = { (allocWindow s l.p l.g (dTiles d) (dRetain d)).2.phlx with
    result := (allocWindow s l.p l.g (dTiles d) (dRetain d)).1 } ∧ bitOf (t.page 0x51).cause 0 = true
  entry : findEntry t l.p l.g l.ticket = some e
  record : t.grpRec l.g = { s.grpRec l.g with launched := noteLaunch l.ticket l.ke (s.grpRec l.g).launched }
  spent : t.budget l.p = { s.budget l.p with spent := (s.budget l.p).spent + ch }
  others : ∀ q, q ≠ l.p → t.entries q = s.entries q ∧ t.budget q = s.budget q ∧ t.part q = s.part q
  records : ∀ g, g ≠ l.g → t.grpRec g = s.grpRec g

/-- A launch that fails step 6, where the descriptor names its window: nothing of it stays. -/
theorem launchRest_step6 {s s3 : State} {l : LaunchArgs} {d : Desc} (a : Access) (c : Bool) (old : Option Entry) (hd : descWindow d ≠ none) {st : Status}
    (h6 : launchStep6 s3 l d = .error st) : launchRest s s3 a l d c old
      = grpDone (if st = .budgetExhausted then raise (raise s 0x55 1) (0x80 + l.p) 1 else s) a st 6 := by
  unfold launchRest
  simp only [launchWindow_named hd, h6, undoWindow, if_neg hd]
  rfl

section
variable {s s3 : State} {l : LaunchArgs} {d : Desc} (h3 : ListsOnly s s3 l.p) (a : Access) (c : Bool) (old : Option Entry)
include h3

/-- A launch that gets no window (launch step 4). -/
theorem launchRest_noWindow (hd : descWindow d = none) (hfail : (allocWindow s l.p l.g (dTiles d) (dRetain d)).1.status ≠ 0) :
    ∃ ps, launchRest s s3 a l d c old
      = grpDone { s with bus.pages := ps, phlx.result := (allocWindow s l.p l.g (dTiles d) (dRetain d)).1 } a .quota 4 := by
  obtain ⟨⟨ls, rfl⟩, -⟩ := h3
  obtain ⟨hresult, -⟩ := allocWindow_congr (s := s) (u := { s with grp.lists := ls }) rfl rfl l.p l.g (dTiles d) (dRetain d)
  obtain ⟨ps, hps⟩ := launchWindow_fails (s := { s with grp.lists := ls }) hd (by rwa [hresult])
  refine ⟨ps, ?_⟩
  unfold launchRest
  simp only [hps, hresult]
  rfl

/-- A launch that passes steps 4 to 6 is admitted, and its frames are judged (launch step 7). -/
theorem launchRest_admits (hprev : l.first = false → l.prev < l.ticket) (hold : ∀ e, old = some e → e.ticket = l.ticket)
    (hwin : descWindow d = none → (allocWindow s l.p l.g (dTiles d) (dRetain d)).1.status = 0) (hfloors : l.role = .normal → floorsHold s d = true)
    (hroom : l.role = .normal → dNoise d = true → atRelease s d = true → (s.budget l.p).spent + dCharge d ≤ (s.budget l.p).total) :
    ∃ t, launchRest s s3 a l d c old = launchJudge t a l
      ∧ Launched s t l d (launchedEntry s l d c old (launchCharge s l d)) (launchCharge s l d) := by
  obtain ⟨⟨ls, hs3⟩, hlists⟩ := h3
  obtain ⟨hresult, hpool⟩ := allocWindow_congr (s := s) (u := s3) (by rw [hs3]) (by rw [hs3]) l.p l.g (dTiles d) (dRetain d)
  obtain ⟨w, hw, ⟨⟨ps, pw, dA, dS, ph, hwframe⟩, hnamed, htaken⟩⟩ := launchWindow_ok (s := s3) (l := l) (d := d) (by rwa [hresult])
  have hzin : w.zin = s.zin := by rw [hwframe, hs3]
  have hrelease : atRelease w d = atRelease s d := atRelease_congr (by rw [hwframe, hs3]) (by rw [hwframe, hs3]) d
  have hcharge : launchCharge w l d = launchCharge s l d := by rw [launchCharge, launchCharge, hrelease]
  obtain ⟨x, hx, ⟨⟨bs, hxframe⟩, hspent, hbudgets⟩⟩ := launchStep6_ok (s := w) (l := l) (d := d) (by rwa [floorsHold_congr hzin])
    (by rwa [hrelease, budget_congr hzin])
  rw [hcharge] at hx hspent
  have hentry : launchedEntry x l d c old (launchCharge s l d) = launchedEntry s l d c old (launchCharge s l d) :=
    launchedEntry_congr (by rw [hxframe, hwframe, hs3]) (by rw [hxframe, hwframe, hs3]) (by rw [hxframe, hwframe, hs3])
      (by rw [hxframe, hwframe, hs3]; rfl) ..
  obtain ⟨⟨lists, recs, parts, hframe⟩, hfound, hrecord, hentries, hpart, hrecords⟩ := launchAdmit_spec (s := x) d c (launchCharge s l d) hprev hold
  rw [hentry] at hfound
  refine ⟨launchAdmit x l d c old (launchCharge s l d), ?_, ⟨⟨ps, pw, dA, dS, ph, bs, lists, recs, _, parts, by rw [hframe, hxframe, hwframe, hs3]⟩,
    fun hd => ?_, fun hd => ?_, hfound, ?_, ?_, fun q hq => ⟨?_, ?_, ?_⟩, fun g hg => ?_⟩⟩
  · unfold launchRest
    simp only [hw, hx, Bool.not_true, Bool.false_eq_true, if_false]
  · rw [hframe, hxframe, hnamed hd, hs3]
    exact ⟨rfl, rfl, rfl, rfl⟩
  · obtain ⟨hphlx, hcause⟩ := htaken hd
    rw [hpool, hresult] at hphlx
    rw [hframe, hxframe]
    exact ⟨hphlx, hcause⟩
  · rw [hrecord, hxframe, hwframe, hs3]
    rfl
  · rw [← budget_congr hzin, ← hspent]
    exact budget_congr (by rw [hframe]) l.p
  · rw [hentries q hq, hxframe, hwframe]
    exact hlists q hq
  · rw [← budget_congr hzin, ← hbudgets q hq]
    exact budget_congr (by rw [hframe]) q
  · rw [hpart q hq, hxframe, hwframe, hs3]
    rfl
  · rw [hrecords g hg, hxframe, hwframe, hs3]
    rfl

end

end Sys2Proof.Machine
end

section
/-! `LAUNCH`, `RESYNC_SEND` and `RESYNC_RECV` (R191, R221): the last step, and the statement. -/

namespace Sys2Proof.Machine

/-- A group command that ends, told of the state that it leaves (R222, Table 6.16). -/
theorem grpDone_frame (s : State) (a : Access) (st : Status) (n : Nat) :
    ∃ t, grpDone s a st n = t ∧ t = { s with bus.pages := t.bus.pages, grp.result := t.grp.result }
      ∧ tget 0 t.grp.result (bankOf a) = pack [(63, 48, stCode st), (47, 40, n)] ∧ CausesKept s t ∧ bitOf (t.page 0x60).cause 0 = true := by
  obtain ⟨ps, rs, hframe, hresult, hkept, hdone⟩ := grpDone_spec s a st n
  refine ⟨_, rfl, ?_, ?_, hkept, hdone⟩ <;> rw [hframe]
  exact hresult

theorem Launched.done {s t u : State} {l : LaunchArgs} {d : Desc} {e : Entry} {ch : Nat} (h : Launched s t l d e ch)
    (hu : u = { t with bus.pages := u.bus.pages, grp.result := u.grp.result }) (hkept : CausesKept t u) : Launched s u l d e ch := by
  obtain ⟨⟨ps, pw, dA, dS, ph, bs, lists, recs, result, parts, hframe⟩, hnamed, htaken, hentry, hrecord, hspent, hothers, hrecords⟩ := h
  refine ⟨⟨u.bus.pages, pw, dA, dS, ph, bs, lists, recs, u.grp.result, parts, ?_⟩, fun hd => ?_, fun hd => ?_, ?_, ?_, ?_, fun q hq => ?_, fun g hg => ?_⟩
  · rw [hu, hframe]
  · rw [hu]
    exact hnamed hd
  · obtain ⟨hphlx, hcause⟩ := htaken hd
    exact ⟨by rw [hu, hphlx], hkept _ _ hcause⟩
  · rw [hu]
    exact hentry
  · rw [hu]
    exact hrecord
  · rw [hu]
    exact hspent
  · rw [hu]
    exact hothers q hq
  · rw [hu]
    exact hrecords g hg

/-- A mismatch latches its group epoch and its cause unless a record stands, and changes no entry (R200, R222). -/
theorem latchMismatch_spec (s : State) (g : Nat) (h : Hdr) :
    (s.grpRec g).abValid = false →
      ((latchMismatch s g h).grpRec g).abValid = false ∧ bitOf ((latchMismatch s g h).page 0x60).cause 3 = true := by
  intro hv
  have hlatch : latchMismatch s g h = raise (s.setGrpRec g { s.grpRec g with misEpoch := h.gEpoch }) 0x60 3 := by
    unfold latchMismatch
    rw [if_neg (by rw [hv]; exact Bool.false_ne_true)]
  rw [hlatch]
  refine ⟨?_, raise_cause _ 0x60 (by decide)⟩
  exact (congrArg GrpRec.abValid (State.setGrpRec_grpRec_self s g { s.grpRec g with misEpoch := h.gEpoch })).trans hv

/-- The entry of a mismatch is aborted with its first record (R191, R200). -/
theorem launchJudge_aborts {s : State} {a : Access} {l : LaunchArgs} {e : Entry} {x : Hdr} (hfind : findEntry s l.p l.g l.ticket = some e)
    (hkey : e.group = l.g ∧ e.ticket = l.ticket) (hlive : isLive e = true) (hg : l.g < 4096) (h : parkedMismatch s l.p e = some x) :
    ∃ t, launchJudge s a l = t ∧ tget 0 t.grp.result (bankOf a) = pack [(63, 48, stCode .descMismatch), (47, 40, 7)]
      ∧ findEntry t l.p l.g l.ticket = some (abortedEntry e)
      ∧ ((s.grpRec l.g).abValid = false → (t.grpRec l.g).abStatus = stCode .descMismatch ∧ bitOf (t.page 0x60).cause 3 = true) := by
  obtain ⟨hgroup, hticket⟩ := hkey
  obtain ⟨⟨-, hentry, -, hlatched, -, hcauses, -, -⟩, hresult⟩ := (abortEntry_spec (s := latchMismatch s l.g x) (p := l.p) (i := mismatchInfo e x) hlive
    (by rwa [hgroup]) rfl).done a .descMismatch 7
  rw [hgroup, hticket] at hentry
  rw [hgroup] at hlatched
  refine ⟨_, launchJudge_differs hfind h, hresult, hentry, fun hv => ?_⟩
  obtain ⟨hvalid, hcause⟩ := latchMismatch_spec s l.g x hv
  obtain ⟨-, hstatus, -, -⟩ := hlatched hvalid
  exact ⟨hstatus, hcauses _ _ hcause⟩

theorem selected_lt (s : State) (a : Access) : (selected s a 0x60).1 < 4096 := Nat.mod_lt _ (by decide)

theorem launchStep1_prev {s : State} {l : LaunchArgs} (h : launchStep1 s l = none) (hfirst : l.first = false) : l.prev < l.ticket := by
  unfold launchStep1 at h
  split_ifs at h with _ hprev
  simpa [hfirst] using hprev

/-- The launch commands run the launch in their role. -/
theorem exec_launch {s : State} {a : Access} {v : Word} {k : Instr × HeldCmd × (Nat → EntryRole)}
    (hk : k ∈ [(.launch a v, .launch a v, fun _ => .normal), (.resyncSend a v, .resyncSend a v, fun _ => .resyncSend),
      (.resyncRecv a v, .resyncRecv a v, fun r => .resyncRecv r)]) :
    exec k.1 s = .next (grpTagCmd s a v (fun x => launchOrHold x a k.2.1 k.2.2)) := by
  simp only [List.mem_cons, List.not_mem_nil, or_false] at hk
  rcases hk with rfl | rfl | rfl <;> rfl

theorem grpTagCmd_mgmt {s : State} {a : Access} {v : Word} (k : State → State) (hr : WriteReaches s a 0x60 0x88) (hmgmt : isMgmt a = true) :
    grpTagCmd s a v k = refuse s a true (regAt 0x60 0x88) .partition := by
  rw [grpTagCmd, if_pos hmgmt]
  exact regWrite_stateRefused _ _ hr

theorem launchOrHold_held {s : State} (a : Access) (c : HeldCmd) (role : Nat → EntryRole) (h : s.mrd.running.isSome = true) :
    launchOrHold s a c role = { s with mrd.heldCmds := s.mrd.heldCmds ++ [c] } := if_pos h

theorem launchOrHold_free {s : State} (a : Access) (c : HeldCmd) (role : Nat → EntryRole) (h : s.mrd.running = none) :
    launchOrHold s a c role = launchOp s a role := if_neg (by rw [h]; exact Bool.false_ne_true)

theorem findEntry_of_lists {s t : State} (h : t.grp.lists = s.grp.lists) (p g k : Nat) : findEntry t p g k = findEntry s p g k := by
  rw [findEntry, findEntry, State.entries, State.entries, h]

/-- A launch that step 3 ends, on the list as that step leaves it. -/
theorem grpDone_relisted {s u : State} {p : Nat} (hu : ListsOnly s u p) (a : Access) (st : Status) (n : Nat) :
    ∃ t, grpDone u a st n = t
      ∧ t = { s with bus.pages := t.bus.pages, grp := { s.grp with lists := t.grp.lists, result := t.grp.result } }
      ∧ tget 0 t.grp.result (bankOf a) = pack [(63, 48, stCode st), (47, 40, n)] ∧ t.grp.lists = u.grp.lists
      ∧ ∀ q, q ≠ p → t.entries q = s.entries q := by
  obtain ⟨⟨ls, hls⟩, hothers⟩ := hu
  obtain ⟨t, ht, hframe, hresult, -⟩ := grpDone_frame u a st n
  have hlists : t.grp.lists = u.grp.lists := congrArg (·.grp.lists) hframe
  refine ⟨t, ht, ?_, hresult, hlists, fun q hq => ?_⟩
  · rw [hlists, hls]
    rw [hls] at hframe
    exact hframe
  · rw [State.entries, hlists]
    exact hothers q hq

/-- The entry of a launch, with the arguments that its access gives. -/
theorem launchedEntry_eq {s : State} {a : Access} {role : Nat → EntryRole} {l : LaunchArgs} (hl : l = launchArgs s a role) (d : Desc) (c : Bool)
    (old : Option Entry) (ch : Nat) {base e : Entry}
    (hbase : base = old.getD { ticket := l.ticket, group := l.g, st := .known, madeAt := s.mrd.wall, passed := [(s.mrd.step, s.mrd.wall)] })
    (he : e = { base with
      group := l.g, st := .waiting, launched := true, prev := l.prev, first := l.first, step := some l.step, digest := descDigest s l.p c d
      gEpoch := if c then s.grp.epS else s.grp.epA, kEpoch := epochAt s l.p l.step
      stepAt := (base.passed.find? (fun x => l.step ≤ x.1)).map (·.2), passed := [], role := l.role, charge := ch }) :
    launchedEntry (answer s 0) l d c old ch = e := by
  have hke : epochAt s l.p l.step = l.ke := by rw [hl]; rfl
  rw [he, hbase, hke]
  exact launchedEntry_congr (s := s) rfl rfl rfl rfl ..

theorem launchedEntry_key {s : State} {l : LaunchArgs} {d : Desc} {c : Bool} {old : Option Entry} {ch : Nat} (hold : ∀ e, old = some e → e.ticket = l.ticket) :
    (launchedEntry s l d c old ch).group = l.g ∧ (launchedEntry s l d c old ch).ticket = l.ticket := by
  cases old with
  | none => exact ⟨rfl, rfl⟩
  | some e => exact ⟨rfl, hold e rfl⟩

/-- A launch that passes steps 1 to 6 is admitted with its entry, and its frames are judged (launch step 7). -/
theorem launchOp_admits {s : State} {a : Access} {role : Nat → EntryRole} {l : LaunchArgs} {d : Desc} {c lv : Bool} {old : Option Entry} {e : Entry}
    (hl : l = launchArgs s a role) (h1 : launchStep1 s l = none) (h2 : launchStep2 s l = some (d, c)) (h3 : launchStep3 s l = .go old lv)
    (hdropped : old.bind (·.dropped) = none) (he : launchedEntry s l d c old (launchCharge s l d) = e)
    (hwin : descWindow d = none → (allocWindow s l.p l.g (dTiles d) (dRetain d)).1.status = 0) (hfloors : l.role = .normal → floorsHold s d = true)
    (hroom : l.role = .normal → dNoise d = true → atRelease s d = true → (s.budget l.p).spent + dCharge d ≤ (s.budget l.p).total) :
    ∃ u, launchOp s a role = launchJudge u a l ∧ Launched s u l d e (launchCharge s l d) ∧ (e.group = l.g ∧ e.ticket = l.ticket) ∧ u.park = s.park := by
  have hold : ∀ e, old = some e → e.ticket = l.ticket := by
    rintro e rfl
    obtain ⟨hfind, -⟩ := launchStep3_takes h3
    exact findEntry_key hfind
  obtain ⟨u, hu, hlaunched⟩ := launchRest_admits (delIf_listsOnly s lv l.p l.g l.ticket) a c old (launchStep1_prev h1) hold hwin hfloors hroom
  obtain ⟨_, _, _, _, _, _, _, _, _, _, hframe⟩ := hlaunched.frame
  subst he
  exact ⟨u, (launchOp_rest hl h1 h2 h3 hdropped).trans hu, hlaunched, launchedEntry_key hold, by rw [hframe]⟩

/-- Settles O22: each step that fails ends the launch (`launchOp_step1` to `launchRest_step6`), and one that passes them is admitted
(`launchRest_admits`) and judged by the frames that came before (`launchJudge`). -/
theorem launchesAreAdmitted : Obligations.LaunchesAreAdmitted := by
  intro s a v k hk hr
  have hrun := exec_launch (s := s) hk
  refine ⟨fun hmgmt => next_of_refuse (hrun.trans (congrArg _ (grpTagCmd_mgmt _ hr hmgmt))), fun hmgmt hbusy hz => ?_⟩
  rw [grpTagCmd_taken _ hr hmgmt hbusy hz] at hrun
  refine ⟨fun hheld => hrun.trans (congrArg _ (launchOrHold_held (s := answer s 0) a k.2.1 k.2.2 hheld)), fun hfree => ?_⟩
  have hgo : exec k.1 s = .next (launchOp (answer s 0) a k.2.2) := hrun.trans (congrArg _ (launchOrHold_free (s := answer s 0) a k.2.1 k.2.2 hfree))
  refine ⟨fun st h1 => ?_, fun h1 h2 => ?_, fun l d c hl h1 h2 => ⟨fun e => launchStep3_running, fun e => launchStep3_ended,
    fun m => launchStep3_below, launchStep3_full, fun st lv h3 => ?_, fun e st h3 hdropped => ?_, fun old lv base e ch h3 hdropped hch hbase he => ?_⟩⟩
  · obtain ⟨t, ht, hframe, hresult, -⟩ := grpDone_frame (answer s 0) a st 1
    exact ⟨t, hgo.trans (congrArg _ ((launchOp_step1 (s := answer s 0) rfl h1).trans ht)), hframe, hresult⟩
  · obtain ⟨t, ht, hframe, hresult, -⟩ := grpDone_frame (answer s 0) a .wrongState 2
    exact ⟨t, hgo.trans (congrArg _ ((launchOp_step2 (s := answer s 0) rfl h1 h2).trans ht)), hframe, hresult⟩
  · obtain ⟨t, ht, hframe, hresult, hlists, hothers⟩ := grpDone_relisted (delIf_listsOnly (answer s 0) lv l.p l.g l.ticket) a st 3
    refine ⟨t, hgo.trans (congrArg _ ((launchOp_step3 (s := answer s 0) hl h1 h2 h3).trans ht)), hframe, hresult, ?_, ?_, hothers⟩
    · rintro rfl
      exact hlists
    · rintro rfl
      rw [findEntry_of_lists hlists]
      exact findEntry_delEntry ..
  · obtain ⟨t, ht, -, hresult, hlists, -⟩ := grpDone_relisted (delEntry_listsOnly (abortEntry (answer s 0) l.p e { st := st }) l.p l.g l.ticket) a .aborted 3
    refine ⟨t, hgo.trans (congrArg _ ((launchOp_dropped (s := answer s 0) hl h1 h2 h3 hdropped).trans ht)), hresult, ?_⟩
    rw [findEntry_of_lists hlists]
    exact findEntry_delEntry ..
  have hrest := hgo.trans (congrArg _ (launchOp_rest (s := answer s 0) hl h1 h2 h3 hdropped))
  have hlisted := delIf_listsOnly (answer s 0) lv l.p l.g l.ticket
  obtain ⟨hresult, hpool⟩ := allocWindow_congr (s := s) (u := answer s 0) rfl rfl l.p l.g (dTiles d) (dRetain d)
  refine ⟨fun hd hfail => ?_, fun hd hrole hfloors => ?_, fun hd hrole hfloors hnoise hrel hover => ?_, fun hwin hfloors hroom => ?_⟩
  · rw [← hresult] at hfail ⊢
    obtain ⟨ps, hps⟩ := launchRest_noWindow hlisted a c old hd hfail
    obtain ⟨t, ht, hframe, hres, -⟩ := grpDone_frame
      { answer s 0 with bus.pages := ps, phlx.result := (allocWindow (answer s 0) l.p l.g (dTiles d) (dRetain d)).1 } a .quota 4
    exact ⟨t, hrest.trans (congrArg _ (hps.trans ht)), hframe, hres⟩
  · have h6 := launchStep6_floors (s := if lv then delEntry (answer s 0) l.p l.g l.ticket else answer s 0) hrole ((hlisted.floorsHold d).trans hfloors)
    obtain ⟨t, ht, hframe, hres, -⟩ := grpDone_frame (answer s 0) a .badArg 6
    exact ⟨t, hrest.trans (congrArg _ ((launchRest_step6 a c old hd h6).trans ht)), hframe, hres⟩
  · have h6 := launchStep6_exhausted (s := if lv then delEntry (answer s 0) l.p l.g l.ticket else answer s 0) hrole ((hlisted.floorsHold d).trans hfloors)
      hnoise ((hlisted.atRelease d).trans hrel) (by rw [hlisted.budget]; exact hover)
    obtain ⟨t, ht, hframe, hres, hkept, -⟩ := grpDone_frame (raise (raise (answer s 0) 0x55 1) (0x80 + l.p) 1) a .budgetExhausted 6
    refine ⟨t, hrest.trans (congrArg _ ((launchRest_step6 a c old hd h6).trans ht)), hframe, hres, ?_, ?_⟩
    · exact hkept _ _ (CausesKept.raise _ _ 1 _ _ (raise_cause _ 0x55 (by decide)))
    · exact hkept _ _ (raise_cause _ _ (by decide))
  · have hcharge : launchCharge (answer s 0) l d = ch := hch.symm
    have hentry := launchedEntry_eq hl d c old ch hbase he
    rw [← hcharge] at hentry
    obtain ⟨u, hu, hlaunched, ⟨hgroup, hticket⟩, hpark⟩ := launchOp_admits (s := answer s 0) (a := a) (role := k.2.2) hl h1 h2 h3 hdropped hentry
      (by rwa [hresult]) hfloors hroom
    rw [hcharge] at hlaunched
    replace hpark : u.park = s.park := hpark
    have hlive : isLive e = true := by rw [he]; rfl
    refine ⟨fun hsame => ?_, fun hdiffers => ?_⟩
    · have hnone : parkedMismatch u l.p e = none := parkedMismatch_none (by rwa [hpark, hgroup, hticket])
      obtain ⟨t, ht, htframe, hres, hkept, hdone⟩ := grpDone_frame u a .ok 0
      obtain ⟨⟨_, _, _, _, _, _, _, _, _, _, hframe⟩, hnamed, htaken, hfound, hrecord, hspent, hothers, hrecords⟩ := hlaunched.done htframe hkept
      rw [hpool, hresult] at htaken
      refine ⟨t, hgo.trans (congrArg _ (hu.trans ((launchJudge_agrees hlaunched.entry hnone).trans ht))), ?_, hnamed, htaken, hfound, hrecord, hspent,
        hothers, hrecords, hres.trans pack_ok, hdone⟩
      rw [hframe]
      rfl
    · obtain ⟨x, hx⟩ := parkedMismatch_some (s := u) (p := l.p) (e := e) (by rwa [hpark, hgroup, hticket])
      have hlow : l.g < 4096 := by rw [hl]; exact selected_lt s a
      obtain ⟨t, ht, hres, hfound, hlatched⟩ := launchJudge_aborts (a := a) hlaunched.entry ⟨hgroup, hticket⟩ hlive hlow hx
      refine ⟨t, hgo.trans (congrArg _ (hu.trans ht)), hres, by rw [hfound]; rfl, fun hvalid _ => hlatched ?_⟩
      rw [hlaunched.record]
      exact hvalid

end Sys2Proof.Machine
end

section
/-! A good frame of a ticket without an entry (R197, R201, R224): check 10 makes a `KNOWN` entry that has heard it, and it waits in parking
memory (R99). -/

namespace Sys2Proof.Machine

/-! ### Check 10 -/

section
variable {s : State} {h : Hdr}

/-- The second half of check 10 on an entry that stands unlaunched and `KNOWN`: the frame is heard, and waits (Table 6.7). -/
theorem hearFrame_of_known {rk : RouteKind} {d : Desc} {e : Entry} (hrk : ∀ m, rk ≠ .gap m) (hgroup : e.group = h.group)
    (hticket : e.ticket = h.ticket) (hst : e.st = .known) (hlaunch : e.launched = false) (helastic : flagElastic h = dElastic d) :
    hearFrame s h rk d e = (.park, putEntry (putEntry s h.part e) h.part (heardFrom e h.rank)) := by
  have hfound : findEntry (putEntry (putEntry s h.part e) h.part (heardFrom e h.rank)) h.part h.group h.ticket = some (heardFrom e h.rank) := by
    rw [← hgroup, ← hticket]
    exact findEntry_putEntry _ _ (heardFrom e h.rank)
  have hknown : (heardFrom e h.rank).st = .known := hst
  unfold hearFrame
  extract_lets s1 _ _ _ fl e2 s2 s3
  rw [hlaunch, Bool.false_and, if_neg Bool.false_ne_true, if_neg (not_not_intro helastic)]
  have hs3 : s3 = s2 := by
    cases rk with
    | gap m => exact absurd rfl (hrk m)
    | _ => rfl
  rw [hs3, show findEntry s2 h.part h.group h.ticket = some e2 from hfound]
  refine congrArg (·, s2) ?_
  rw [show e2.st = .known from hknown]
  rfl

/-- The block once the first frame of a ticket has made its entry and is heard there (R201, R210). -/
def firstHeard (s : State) (h : Hdr) : State := putEntry (putEntry s h.part (entryForFrame s h)) h.part (heardFrom (entryForFrame s h) h.rank)

theorem firstHeard_frame (s : State) (h : Hdr) : ∃ ls, firstHeard s h = { s with grp.lists := ls } := ⟨_, rfl⟩

theorem firstHeard_entry (s : State) (h : Hdr) :
    findEntry (firstHeard s h) h.part h.group h.ticket = some (heardFrom (entryForFrame s h) h.rank) :=
  findEntry_putEntry _ _ (heardFrom (entryForFrame s h) h.rank)

theorem firstHeard_entries_ne (s : State) (h : Hdr) {p : Nat} (hp : p ≠ h.part) : (firstHeard s h).entries p = s.entries p :=
  (State.setEntries_entries_ne _ _ _ _ hp).trans (State.setEntries_entries_ne _ _ _ _ hp)

/-- The first good frame of a ticket makes its entry, is heard there and waits (check 10.4, R201). -/
theorem check10_of_first {d : Desc} {w : Bool} (hdesc : descAt s h.part h.group h.step = some (d, w))
    (hroute : routeKind s h d w = .hop0 ∨ routeKind s h d w = .reduce ∨ routeKind s h d w = .dist)
    (hfind : findEntry s h.part h.group h.ticket = none) (hpast : ticketPast s h = false) (hcount : listCount s h.part < 64)
    (habove : ∀ m, (s.part h.part).overflow = some m → m < h.ticket) (helastic : flagElastic h = dElastic d) :
    check10 s h = (.park, firstHeard s h) := by
  have hrk : routeKind s h d w ≠ .none ∧ ∀ m, routeKind s h d w ≠ .gap m := by
    rcases hroute with hr | hr | hr <;> rw [hr] <;> exact ⟨nofun, nofun⟩
  have hroom : ¬(64 ≤ listCount s h.part ∨ ((s.part h.part).overflow.map (fun m => decide (h.ticket ≤ m))).getD false = true) := by
    rintro (hfull | hbelow)
    · omega
    · cases hm : (s.part h.part).overflow with
      | none => simp [hm] at hbelow
      | some m => simp [hm, Nat.not_le.2 (habove m hm)] at hbelow
  have hheard : hearFrame s h (routeKind s h d w) d (entryForFrame s h) = (.park, firstHeard s h) := hearFrame_of_known hrk.2 rfl rfl rfl rfl helastic
  simp [check10, hdesc, hrk.1, hfind, hpast, hroom, hheard]

/-! ### The stream's record -/

/-- A frame that passes check 9 is newer than what its stream has sent. -/
theorem lt_of_check9 (hseq : check9 s h = true) {r : StreamRec} (hr : streamRec s (streamKey h) = some r) : r.seq < h.seq := by
  simp only [check9, hr, Bool.and_eq_true, decide_eq_true_eq] at hseq
  exact hseq.1

theorem recordStream_seq (hnew : ∀ r, streamRec s (streamKey h) = some r → r.seq < h.seq) : (streamRec (recordStream s h) (streamKey h)).map (·.seq) = some h.seq := by
  unfold recordStream
  extract_lets k b old new
  have hkey : new.key = streamKey h := by
    cases hr : streamRec s k with
    | none => simp [new, old, hr, k]
    | some r => simpa [new, old, hr, k] using List.find?_some hr
  have hseq : new.seq = h.seq := by
    cases hr : streamRec s k with
    | none => simp [new, old, hr]
    | some r => simpa [new, old, hr] using (hnew r hr).le
  have hfind : streamRec { s with lark.streams := s.lark.streams.filter (fun r => !decide (r.key = k)) ++ [new] } (streamKey h) = some new := by
    refine (List.find?_append ..).trans ?_
    rw [List.find?_eq_none.2 fun r hr => by simpa [k] using (List.mem_filter.1 hr).2]
    simp [hkey]
  rw [hfind, Option.map_some, hseq]

end

/-! ### Parking -/

/-- A frame that leaves its buffer takes its credits back and its keys go: nothing outside the pipes and the ports changes (R98). -/
theorem leaveBuffer_frame (s : State) (k id : Nat) :
    ∃ l r o, leaveBuffer s k id = { s with lark := l, rhmb.srcCr := r, out := o } ∧ l.streams = s.lark.streams := by
  unfold leaveBuffer
  extract_lets p
  split
  · exact ⟨_, _, _, rfl, rfl⟩
  · extract_lets p1
    split
    · exact ⟨_, _, _, rfl, rfl⟩
    · next x _ _ =>
      obtain ⟨c, r, o, hcredits⟩ := giveCredits_frame (s.setPipe k p1) x.arr.port.toNat x.arr.vc (creditsOf x.arr.bytes.length)
      rw [returnCredits, hcredits]
      exact ⟨_, _, _, rfl, rfl⟩

theorem countTaken_frame (s : State) (k : Nat) (f : HeldFrame) : ∃ l, countTaken s k f = { s with lark := l } ∧ l.streams = s.lark.streams := by
  unfold countTaken
  split <;> exact ⟨_, rfl, rfl⟩

theorem parkLow_frame (old s : State) : ∃ ps, parkLow old s = { s with bus.pages := ps } := by
  unfold parkLow
  split <;> exact ⟨_, rfl⟩

/-- What parking a frame of pipe `k` leaves (R99, R102, R224). -/
structure Parks (s t : State) (k : Nat) (h : Hdr) (x : Parked) : Prop where
  frame : ∃ ps l r o, t = { s with bus.pages := ps, lark := l, rhmb.srcCr := r, out := o, park.frames := s.park.frames ++ [x] }
  buf : (t.pipe k).buf = []
  stream : (streamRec t (streamKey h)).map (·.seq) = some h.seq

/-- A frame joins parking memory. -/
def addParked (s : State) (x : Parked) : State := { s with park.frames := s.park.frames ++ [x] }

/-- A frame of a pipe as parking memory holds it (R99). -/
def parkedOf (k : Nat) (f : HeldFrame) (why : ParkWhy) (plain : Option Bytes) (h : Hdr) : Parked :=
  { part := h.part, group := h.group, ticket := h.ticket, pipe := k, why := why, units := unitsOf h.payLen, arr := f.arr, plain := plain, seen := f.seen }

section
variable {s : State} {k : Nat} {f : HeldFrame} {h : Hdr} (why : ParkWhy) (plain : Option Bytes) (hh : h = hdrOf f.arr.bytes)
  (hroom : canPark s h.part (unitsOf h.payLen) = true)
include hh hroom

theorem parkFrame_room : parkFrame s k f why plain true
    = parkLow s (countTaken (addParked (leaveBuffer (recordStream s h) k f.id) (parkedOf k f why plain h)) k f) := by
  subst hh
  unfold parkFrame
  rw [if_pos hroom]
  rfl

/-- A frame that has room is parked, leaves its buffer, and its stream is recorded. -/
theorem parkFrame_parks {ks : List Nat} (hbuf : (s.pipe k).buf = [{ f with keys := ks }]) (hnew : ∀ r, streamRec s (streamKey h) = some r → r.seq < h.seq) :
    Parks s (parkFrame s k f why plain true) k h (parkedOf k f why plain h) := by
  have hstream := recordStream_seq hnew
  obtain ⟨-, -, hleft⟩ := leaveBuffer_single (s := recordStream s h) (k := k) hbuf
  obtain ⟨l, r, o, hleave, hl⟩ := leaveBuffer_frame (recordStream s h) k f.id
  obtain ⟨-, -, -, hcounted⟩ := countTaken_eq (addParked (leaveBuffer (recordStream s h) k f.id) (parkedOf k f why plain h)) k f
  obtain ⟨l', htaken, hl'⟩ := countTaken_frame (addParked (leaveBuffer (recordStream s h) k f.id) (parkedOf k f why plain h)) k f
  obtain ⟨ps, hlow⟩ := parkLow_frame s (countTaken (addParked (leaveBuffer (recordStream s h) k f.id) (parkedOf k f why plain h)) k f)
  rw [parkFrame_room why plain hh hroom, hlow]
  refine ⟨⟨ps, l', r, o, ?_⟩, hcounted.trans hleft, ?_⟩
  · rw [htaken, hleave]
    rfl
  · have hstreams : l'.streams = (recordStream s h).lark.streams := by
      rw [hl', hleave]
      exact hl
    rw [← hstream, htaken]
    exact congrArg (fun rs : List StreamRec => (rs.find? (fun r => decide (r.key = streamKey h))).map (·.seq)) hstreams

end

/-! ### The first frame of a ticket -/

theorem returnScaled_closed {fab : State → FabIn → State} {s : State} {p g t : Nat} (h : openWin s p g t = none) : returnScaled fab s p g t = s := by
  rw [returnScaled, h]

/-- What the first frame of a ticket leaves: its entry, the frame in parking memory, and its stream's record. -/
structure FirstParked (s t : State) (k : Nat) (h : Hdr) (x : Parked) : Prop where
  frame : ∃ ps l r o ls, t = { s with
    bus.pages := ps, lark := l, rhmb.srcCr := r, out := o, park.frames := s.park.frames ++ [x], grp.lists := ls }
  entry : findEntry t h.part h.group h.ticket = some (heardFrom (entryForFrame s h) h.rank)
  others : ∀ p, p ≠ h.part → t.entries p = s.entries p
  buf : (t.pipe k).buf = []
  stream : (streamRec t (streamKey h)).map (·.seq) = some h.seq

/-- The first frame of a ticket that opens comes to check 10, makes its entry and is parked (R197, R199). -/
theorem ingressFrame_of_first {fab : State → FabIn → State} {s : State} {f : Arrival} {k : Nat} {plain : Bytes} {h : Hdr} {d : Desc} {w : Bool}
    (hh : h = hdrOf f.bytes) (ho : FrameOpens s f k plain) (hcls : isCollective h.cls = true) (hdesc : descAt s h.part h.group h.step = some (d, w))
    (hroute : routeKind s h d w = .hop0 ∨ routeKind s h d w = .reduce ∨ routeKind s h d w = .dist)
    (hfind : findEntry s h.part h.group h.ticket = none) (hpast : ticketPast s h = false) (hcount : listCount s h.part < 64)
    (habove : ∀ m, (s.part h.part).overflow = some m → m < h.ticket) (helastic : flagElastic h = dElastic d)
    (hroom : canPark s h.part (unitsOf h.payLen) = true) (hclosed : openWin s h.part h.group h.ticket = none) :
    FirstParked s (ingressFrame fab s f) k h
      { part := h.part, group := h.group, ticket := h.ticket, pipe := k, why := .ticket, units := unitsOf h.payLen, arr := f, plain := some plain
        seen := s.mrd.wall } := by
  subst hh
  obtain ⟨u, ks, hu, hold⟩ := enterPort_of_opens (fab := fab) ho hcls
  obtain ⟨henter, -, -, -, -, -, hseq⟩ := ho
  have ⟨_, _, hcov, _⟩ := henter
  obtain ⟨l, rfl, hl⟩ := hold.lark
  have hadmit : admitFrame { s with lark := l } k (takenFrame s f) (hdrOf f.bytes) plain
      = parkFrame (firstHeard { s with lark := l } (hdrOf f.bytes)) k (takenFrame s f) .ticket (some plain) true := by
    simp only [admitFrame, check10_of_first (s := { s with lark := l }) hdesc hroute hfind hpast hcount habove helastic]
  have hnew : ∀ r, streamRec (firstHeard { s with lark := l } (hdrOf f.bytes)) (streamKey (hdrOf f.bytes)) = some r → r.seq < (hdrOf f.bytes).seq := by
    intro r hr
    refine lt_of_check9 hseq (Eq.trans ?_ hr)
    exact (congrArg (fun rs : List StreamRec => rs.find? (fun r => decide (r.key = streamKey (hdrOf f.bytes)))) hl).symm
  have hparks := parkFrame_parks (s := firstHeard { s with lark := l } (hdrOf f.bytes)) (k := k) (f := takenFrame s f) (h := hdrOf f.bytes) .ticket
    (some plain) (by rw [takenFrame_of_covered hcov]) hroom hold.buf hnew
  obtain ⟨ls, hls⟩ := firstHeard_frame { s with lark := l } (hdrOf f.bytes)
  have hentry := firstHeard_entry { s with lark := l } (hdrOf f.bytes)
  have hothers := fun p => firstHeard_entries_ne { s with lark := l } (hdrOf f.bytes) (p := p)
  rw [ingressFrame_of_enters henter, hu, hadmit]
  generalize parkFrame (firstHeard { s with lark := l } (hdrOf f.bytes)) k (takenFrame s f) .ticket (some plain) true = t at hparks
  generalize firstHeard { s with lark := l } (hdrOf f.bytes) = v at *
  obtain ⟨⟨ps, l', r, o, hframe⟩, hbuf, hstream⟩ := hparks
  rw [returnScaled_closed (by rw [hframe, hls]; exact hclosed)]
  refine ⟨⟨ps, l', r, o, ls, ?_⟩, ?_, fun p hp => ?_, hbuf, hstream⟩
  · rw [hframe, hls, takenFrame_of_covered hcov]
    rfl
  · rw [hframe]
    exact hentry
  · rw [hframe]
    exact hothers p hp

/-- The commands that bring a frame of a collective take it in, and count an add's codewords only where a check is new. -/
theorem exec_frame {s : State} {f : Arrival} {v : EccIn} {c : Instr}
    (hc : c ∈ [Instr.dataFrameReceive f v, .scaleFrameReceive (f, v), .resultFrameReceive f])
    (hsnd : (ingressFrame (fab noStepIn) s f).snd = s.snd) : exec c s = .next (ingressFrame (fab noStepIn) s f) := by
  simp only [List.mem_cons, List.not_mem_nil, or_false] at hc
  rcases hc with rfl | rfl | rfl
  · exact congrArg Host.Outcome.next (eccAdded_same v hsnd)
  · exact congrArg Host.Outcome.next (eccAdded_same v hsnd)
  · rfl

/-- Settles O27: the frame comes to check 10 as `enterPort_of_opens` brings it, makes its entry there (`check10_of_first`), and is parked
(`parkFrame_parks`). -/
theorem firstFramesMakeEntriesAndPark : Obligations.FirstFramesMakeEntriesAndPark := by
  intro s f v k plain h d w c hc hh ho hcls hdesc hroute hfind hpast hcount habove helastic hroom hclosed
  obtain ⟨⟨ps, l, r, o, ls, hframe⟩, hentry, hothers, hbuf, hstream⟩ :=
    ingressFrame_of_first (fab := fab noStepIn) hh ho hcls hdesc hroute hfind hpast hcount habove helastic hroom hclosed
  refine ⟨_, exec_frame hc (by rw [hframe]), hentry, ?_, hbuf, hstream, hothers, ?_, ?_⟩ <;> rw [hframe]

end Sys2Proof.Machine
end

section
/-! Tickets that nothing activates: the look for parked frames caps the pipes' allowances all the same (10 R321). -/

namespace Sys2Proof.Machine

/-- With no entry to activate and nothing parked, the allowance of a partition on pipe 0 falls to `WEIGHT` × 16. -/
theorem exec_entryActivate_allowance :
    ∃ t, exec (.entryActivate (0, noStepIn.ecc)) notLive = .next t ∧ tget 0 (t.pipe 0).allow 0 = 16 :=
  ⟨_, rfl, by decide +kernel⟩

/-- Refutes O25: `ENTRY_ACTIVATE` of a partition that has no entry, while nothing is parked, still runs the pipes' service among partitions
(`returnVia`), which caps the allowances of idle partitions (10 R321); the statement has nothing change. -/
theorem not_ticketsActivateAndExpire : ¬ Obligations.TicketsActivateAndExpire := by
  intro h
  obtain ⟨hidle, -⟩ := h notLive
  have hsame := hidle 0 noStepIn.ecc (.inr (.inr ⟨rfl, rfl⟩))
  obtain ⟨t, hrun, hcap⟩ := exec_entryActivate_allowance
  obtain rfl := Host.Outcome.next.inj (hsame.symm.trans hrun)
  exact absurd hcap (by decide)

end Sys2Proof.Machine
end

section
/-! Zinnia's budget requests: what each stage leaves, and how a request ends (R252 to R258, Table 7.10). -/

namespace Sys2Proof.Machine

/-! ### Fields of a string that was read in -/

theorem length_slice (l : Bytes) (k n : Nat) : (slice l k n).length = n := by
  simp [slice, zeros]

theorem getElem?_slice (l : Bytes) {k n i : Nat} (h : i < n) : (slice l k n)[i]? = some (l[k + i]?.getD 0) := by
  by_cases hi : i < ((l.drop k).take n).length
  · rw [slice, List.getElem?_append_left hi, List.getElem?_take_of_lt h, List.getElem?_drop]
    have hk : k + i < l.length := by simp at hi; omega
    simp [hk]
  · have hk : l.length ≤ k + i := by simp at hi; omega
    rw [slice, List.getElem?_append_right (Nat.le_of_not_lt hi), zeros, List.getElem?_replicate_of_lt (by omega), List.getElem?_eq_none hk]
    rfl

/-- What lies within the bytes that were read is what the memory held. -/
theorem slice_slice (l : Bytes) {k n len : Nat} (h : k + n ≤ len) : slice (slice l 0 len) k n = slice l k n := by
  refine List.ext_getElem? fun i => ?_
  by_cases hi : i < n
  · rw [getElem?_slice _ hi, getElem?_slice _ hi, getElem?_slice _ (by omega), Nat.zero_add, Option.getD_some]
  · rw [List.getElem?_eq_none (by rw [length_slice]; omega), List.getElem?_eq_none (by rw [length_slice]; omega)]

theorem leAt_slice (l : Bytes) {k n len : Nat} (h : k + n ≤ len) : leAt (slice l 0 len) k n = leAt l k n :=
  congrArg leNat (slice_slice l h)

/-! ### The engine, and the end of a request -/

theorem reloadAstr_frame (s : State) : ∃ e cf, reloadAstr s = { s with astr := e, helm.copyFault := cf } := by
  unfold reloadAstr loadAstr
  split
  · exact ⟨_, _, rfl⟩
  split
  · exact ⟨_, _, rfl⟩
  split <;> exact ⟨_, _, rfl⟩

/-- Powering Astrolabe changes the power page's state, the engine's, and the fault of a copy in SRAM (16 R470, 18 R538). -/
theorem engineUp_frame (s : State) :
    ∃ ps pw e cf, engineUp s = { s with bus.pages := ps, pwr := pw, astr := e, helm.copyFault := cf } := by
  unfold engineUp
  split
  · exact ⟨_, _, _, _, rfl⟩
  · obtain ⟨⟨ps, pw, hup⟩, -⟩ := handshake_spec s 3
    obtain ⟨e, cf, hload⟩ := reloadAstr_frame { handshake s 3 with astr := {} }
    rw [hload, hup]
    exact ⟨_, _, _, _, rfl⟩

/-- `ZIN_CMD_RESULT` of a request (Table 7.14). -/
def zinResult (st : Status) (stage signer : Nat) : Word := pack [(63, 48, stCode st), (47, 40, stage), (39, 32, signer)]

/-- A request that ends leaves its result, `CMD_DONE` and the record of a failure (R254). -/
theorem zinDone_spec (s : State) (a : Access) (st : Status) (stage signer : Nat) :
    (∃ ps, zinDone s a st stage signer = { s with bus.pages := ps, zin.result := zinResult st stage signer })
      ∧ bitOf ((zinDone s a st stage signer).page 0x55).cause 0 = true := by
  have hdone : zinDone s a st stage signer = noteCmd (raise { s with zin.result := zinResult st stage signer } 0x55 0) a zinCmdAddr st := rfl
  rw [hdone]
  refine ⟨?_, CausesKept.noteCmd _ a zinCmdAddr st 0x55 0 (raise_cause _ 0x55 (by decide))⟩
  unfold noteCmd
  split <;> exact ⟨_, rfl⟩

/-! ### Stage 6 -/

/-- A budget with every field but `SPENT` from the request (R255). -/
def requested (x : Budget) (b : Bytes) : Budget :=
  { x with
    total := leAt b 40 8, grant := leAt b 48 8, minCharge := leAt b 56 4, noiseMult2 := leAt b 60 2
    privRequired := decide (leAt b 62 1 = 1), seq := leAt b 32 8 }

/-- The fields of a request lie in its first 64 bytes. -/
theorem requested_slice (x : Budget) (m : Bytes) {len : Nat} (h : 64 ≤ len) : requested x (slice m 0 len) = requested x m := by
  have hfield {k n : Nat} (hk : k + n ≤ 64) : leAt (slice m 0 len) k n = leAt m k n := leAt_slice m (hk.trans h)
  simp only [requested, hfield (show 40 + 8 ≤ 64 by decide), hfield (show 48 + 8 ≤ 64 by decide), hfield (show 56 + 4 ≤ 64 by decide),
    hfield (show 60 + 2 ≤ 64 by decide), hfield (show 62 + 1 ≤ 64 by decide), hfield (show 32 + 8 ≤ 64 by decide)]

/-- Stage 6 writes the budget, and a total below what is spent raises causes beside it (R255). -/
theorem applyRequest_frame (s : State) (p : Nat) (b : Bytes) :
    ∃ ps, applyRequest s p b = { s.setBudget p (requested (s.budget p) b) with bus.pages := ps } := by
  have happly : applyRequest s p b = (let s1 := s.setBudget p (requested (s.budget p) b)
      if leAt b 40 8 < (s.budget p).spent then raise (raise s1 0x55 2) (0x80 + p) 5 else s1) := rfl
  rw [happly]
  dsimp only
  split <;> exact ⟨_, rfl⟩

/-! ### The stages -/

theorem helmRead_ok {inside : Bool} {m b : Bytes} {len : Nat} (h : helmRead inside (some m) len = .ok b) : b = slice m 0 len := by
  unfold helmRead at h
  split at h
  · nomatch h
  · exact (Except.ok.inj h).symm

/-- A request that passes every stage is applied as the memory holds it (R254, R255). -/
theorem budgetStages_ok {s u : State} {m : Bytes} {policy : Option Bytes} (h : budgetStages s (some m) policy = .ok u) :
    ∃ len, 64 ≤ len ∧ u = applyRequest s (fld s.zin.cmdAddr 52 48) (slice m 0 len) := by
  unfold budgetStages at h
  dsimp only at h
  -- the head, then the whole request, is read
  split at h
  · nomatch h
  split at h
  · nomatch h
  next hreq =>
    -- stages 2 to 4 let it pass
    iterate 4
      split at h
      · nomatch h
    -- stage 5: the policy record, then the signers
    split at h
    · nomatch h
    split at h
    · nomatch h
    exact ⟨_, Nat.le_add_right 64 _, (Except.ok.inj h).symm.trans (congrArg _ (helmRead_ok hreq))⟩

/-! ### The command -/

section
variable {s : State} {a : Access} {v : Word} (mem policy : Option Bytes) (hr : WriteReaches s a 0x55 0x80)
include hr

/-- A `BUDGET` write while a request waits is refused (R258). -/
theorem exec_zinBudget_waiting (hw : s.zin.waiting.isSome = true) :
    exec (.zinBudget a v mem policy) s = .next (refuse s a true (regAt 0x55 0x80) .wrongState) := by
  simp only [exec, execZinBudget, zinCmd, zinCmdAddr, refuseIf_true _ hw, regWrite_stateRefused _ _ hr]

/-- A `BUDGET` write that is taken waits for a running operation, or runs (R258; log 129). -/
theorem exec_zinBudget_taken (hv : v = 0x1000000000000000) (hw : s.zin.waiting = none) :
    exec (.zinBudget a v mem policy) s = .next (if s.astr.st = .running then { answer s 0 with zin.waiting := some (a, mem, policy) }
      else zinRun (answer s 0) a mem policy) := by
  have hfree : refuseIf s.zin.waiting.isSome .wrongState = none := refuseIf_false _ (by rw [hw]; rfl)
  have hgood : orElse (mbz v (maskBits 59 0)) (refuseIf (fld v 63 60 ≠ 1) .badArg) = none := by rw [hv]; decide
  simp only [exec, execZinBudget, zinCmd, zinCmdAddr, hfree, hgood, regWrite_taken _ hr]
  rfl

end

/-- A failed request changes no budget, and powers the engine from stage 5 on only (R254; 18 R538). -/
theorem zinRun_fails {s : State} {a : Access} {mem policy : Option Bytes} {st : Status} {stage signer : Nat}
    (h : budgetStages s mem policy = .error (st, stage, signer)) :
    ∃ ps pw e cf, zinRun s a mem policy
        = { s with bus.pages := ps, zin.result := zinResult st stage signer, pwr := pw, astr := e, helm.copyFault := cf }
      ∧ (stage < 5 → cf = s.helm.copyFault ∧ pw = s.pwr ∧ e = s.astr) ∧ bitOf ((zinRun s a mem policy).page 0x55).cause 0 = true := by
  have hrun : zinRun s a mem policy = zinDone (if 5 ≤ stage then engineUp s else s) a st stage signer := by rw [zinRun, h]
  obtain ⟨_, pw, e, cf, hup, hearly⟩ : ∃ ps pw e cf, (if 5 ≤ stage then engineUp s else s)
      = { s with bus.pages := ps, pwr := pw, astr := e, helm.copyFault := cf }
        ∧ (stage < 5 → cf = s.helm.copyFault ∧ pw = s.pwr ∧ e = s.astr) := by
    split
    next hstage =>
      obtain ⟨ps, pw, e, cf, hup⟩ := engineUp_frame s
      exact ⟨ps, pw, e, cf, hup, fun hlt => absurd hstage (by omega)⟩
    next => exact ⟨_, _, _, _, rfl, fun _ => ⟨rfl, rfl, rfl⟩⟩
  obtain ⟨⟨ps, hframe⟩, hdone⟩ := zinDone_spec (if 5 ≤ stage then engineUp s else s) a st stage signer
  rw [hrun]
  exact ⟨ps, pw, e, cf, by rw [hframe, hup], hearly, hdone⟩

/-- A request that passes every stage sets the partition's budget as the memory held the request, and no other (R255). -/
theorem zinRun_passes {s u : State} {a : Access} {m : Bytes} {policy : Option Bytes} {p : Nat} (hp : p = fld s.zin.cmdAddr 52 48)
    (h : budgetStages s (some m) policy = .ok u) :
    ∃ ps pw e cf, zinRun s a (some m) policy
        = { s.setBudget p (requested (s.budget p) m) with
            bus.pages := ps, zin.result := zinResult .ok 0 0xFF, pwr := pw, astr := e, helm.copyFault := cf }
      ∧ bitOf ((zinRun s a (some m) policy).page 0x55).cause 0 = true := by
  have hrun : zinRun s a (some m) policy = zinDone (engineUp u) a .ok 0 0xFF := by rw [zinRun, h]
  obtain ⟨⟨ps, hframe⟩, hdone⟩ := zinDone_spec (engineUp u) a .ok 0 0xFF
  obtain ⟨_, pw, e, cf, hup⟩ := engineUp_frame u
  obtain ⟨len, hlen, hu⟩ := budgetStages_ok h
  obtain ⟨_, happly⟩ := applyRequest_frame s p (slice m 0 len)
  rw [← hp, happly, requested_slice _ m hlen] at hu
  rw [hrun]
  exact ⟨ps, pw, e, cf, by rw [hframe, hup, hu], hdone⟩

/-- Settles O37: a write waits, is refused or runs (`exec_zinBudget_waiting`, `exec_zinBudget_taken`); a request that runs ends as `zinRun_fails`
or `zinRun_passes` has it. -/
theorem budgetRequestsAreJudged : Obligations.BudgetRequestsAreJudged := by
  intro s a v mem policy hr hv
  have hruns (hw : s.zin.waiting = none) (hidle : s.astr.st ≠ .running) :
      exec (.zinBudget a v mem policy) s = .next (zinRun (answer s 0) a mem policy) :=
    (exec_zinBudget_taken mem policy hr hv hw).trans (congrArg _ (if_neg hidle))
  refine ⟨fun hw => next_of_refuse (exec_zinBudget_waiting mem policy hr hw), fun hw hbusy => ?_, fun st stage signer hw hidle hfail => ?_,
    fun u m hw hidle hpass hm => ?_⟩
  · exact (exec_zinBudget_taken mem policy hr hv hw).trans (congrArg _ (if_pos hbusy))
  · obtain ⟨ps, pw, e, cf, hframe, hearly, hdone⟩ := zinRun_fails (a := a) hfail
    refine ⟨_, hruns hw hidle, ?_, fun hlt => ?_, ?_, hdone⟩
    · rw [hframe]
      rfl
    · obtain ⟨rfl, rfl, rfl⟩ := hearly hlt
      rw [hframe]
      exact ⟨rfl, rfl, rfl⟩
    · rw [hframe]
      rfl
  · subst hm
    obtain ⟨ps, pw, e, cf, hframe, hdone⟩ := zinRun_passes (a := a) rfl hpass
    refine ⟨_, hruns hw hidle, ?_, ?_, fun q hq => ?_, hdone⟩
    · rw [hframe]
      rfl
    · rw [hframe]
      exact State.setBudget_budget_self ..
    · rw [hframe]
      exact State.setBudget_budget_ne _ _ _ _ hq

end Sys2Proof.Machine
end

section
/-! A pipe listed twice, of which an abort takes the entry in front: the frames that stand in the other one run while the stores of a faulted
pipe are written again. -/

namespace Sys2Proof.Machine

/-- A pipe that waits for the key of a collective, and holds nothing else. -/
def coveringPipe : Pipe := { waitKey := some (0, 0, 0) }

/-- A bound pipe with the fabric's key of `STEP` frames, and one such frame in its buffer. -/
def coveredPipe : Pipe := { st := .bound, kc := [(0, { valid := true, use := 4, sel := 5 })], buf := [stepOneHeld] }

/-- The collective of that request: its abort drops the request, and with it the entry that covers the bound pipe. -/
def coveringEntry : Entry := { ticket := 0, group := 0, st := .known, launched := true, madeAt := 0 }

/-- A follower of `STEP` frames at step 0, with a self-test event at step 1, in which pipe 1 is listed twice. `STATION_LIVE` is about to fall. -/
def coveredPipes : State :=
  { State.reset with
    pins.stationLive := true, clkr.arithLock := true, clkr.secLock := true, pwr.live := 0xFFFFF, hashu.drbgs := [(1, { st := 1 })]
    mrd.mode := .followFrame, mrd.sched := [(0, { step := 1, typ := 6, valid := true })], snd.pipes := [(1, { cls := .healthy })]
    grp.lists := [(0, [coveringEntry])], lark.pipes := [(0, { st := .idle }), (1, coveringPipe), (1, coveredPipe)] }

/-- A faulted pipe, before it is suspended. -/
def parityFaulted (s : State) (k : Nat) : State :=
  let s2 := raise (setPipeSt s k .fault) (larkPage k) 2
  s2.setPipe k { s2.pipe k with outs := (s2.pipe k).outs.map (fun f => if 0 < f.waits then { f with failed := true, bad := outTile f } else f) }

/-- That block once pipe 0 has faulted: its suspension lets `STATION_LIVE` fall, and the collective has ended. -/
def uncoveredPipes : State :=
  let s := suspendPipe (parityFaulted coveredPipes 0) 0
  (s.setPipe 0 { s.pipe 0 with buf := [] }).setPipe 1 (s.pipe 1)

/-- The request the uncovered frame makes. -/
def uncoveredNeed : KeyReq := { stepOneNeed with pipe := 1 }

/-- The block once that frame holds its key. -/
def uncoveredKeyed : State := (lookupKeys uncoveredPipes 1 0 [uncoveredNeed]).1

/-- The block in which Meridian takes the frame. -/
def uncoveredTaken : State := countTaken (leaveBuffer uncoveredKeyed 1 0) 1 stepOneHeld

/-- A control store in which every bit takes stays as it is. -/
theorem reloadStore_nil (s : State) (k : Nat) : reloadStore s k [] = s := if_pos rfl

theorem frameNeeds_uncovered : frameNeeds uncoveredPipes 1 stepOneHeld = [uncoveredNeed] := by
  rw [frameNeeds, show stepOneHeld.arr.bytes = stepOne.bytes from rfl, hdrOf_stepOne]
  rfl

/-- What a parity error of an ingress pipe comes to where no check is open: the pipe is suspended, and the frames it has not started move. -/
theorem csParityError_ingress {s : State} {k : Nat} (fab : State → FabIn → State) (hk : k < 8) (hst : (s.pipe k).st = .idle)
    (hchecks : s.snd.checks = []) : csParityError fab s k [] = moveUnstarted fab (suspendPipe (parityFaulted s k) k) k := by
  have hcs : (raise (setPipeSt s k .fault) (larkPage k) 2).snd.checks = [] := by
    rw [← hchecks]
    unfold setPipeSt
    split
    · rfl
    · rfl
  simp only [csParityError, hst, hcs, hk, reduceCtorEq, or_self, if_false, if_true, List.filter_nil, List.foldl_nil, reloadStore_nil, parityFaulted]

/-- Meridian takes the `STEP` frame while the parity error is dealt with. -/
theorem csParityError_coveredPipes (fab : State → FabIn → State) :
    csParityError fab coveredPipes 0 [] = fab uncoveredTaken { stepOneIn with pipe := 1 } := by
  have hkeys : lookupKeys uncoveredPipes 1 0 (frameNeeds uncoveredPipes 1 stepOneHeld) = (uncoveredKeyed, true) := by
    rw [frameNeeds_uncovered]
    rfl
  have hkey : (frameNeeds uncoveredPipes 1 stepOneHeld).head?.bind (heldKeyOf uncoveredKeyed 1 0) = some 0 := by
    rw [frameNeeds_uncovered]
    rfl
  calc csParityError fab coveredPipes 0 [] = moveUnstarted fab (suspendPipe (parityFaulted coveredPipes 0) 0) 0 :=
      csParityError_ingress fab (by decide) rfl rfl
    _ = runFrame fab uncoveredPipes 1 stepOneHeld := rfl
    _ = fab uncoveredTaken { stepOneIn with pipe := 1 } :=
      runFrame_fabric hdrOf_stepOne ⟨rfl, rfl⟩ rfl rfl hkeys hkey openFrame_stepOne rfl rfl

theorem coveredPipes_buf (j : Nat) : (coveredPipes.pipe j).buf = [] := by
  unfold State.pipe coveredPipes
  simp only [tget]
  split
  · rfl
  split <;> rfl

/-- The frame moves the block into step 1, whose self-test event puts pipe 1 in the round. -/
theorem exec_csParityError_coveredPipes : ∃ t, exec (.csParityError 0 ([], noStepIn)) coveredPipes = .next t ∧ t.snd.round.length = 2 := by
  have hruns : arithRuns coveredPipes = true := rfl
  have hrun : exec (.csParityError 0 ([], noStepIn)) coveredPipes
      = .next (eccAdded coveredPipes (csParityError (fab noStepIn) coveredPipes 0 []) noStepIn.ecc) := by
    simp only [exec, execCsParityError, whenArith, hruns, if_true]
    rfl
  rw [csParityError_coveredPipes] at hrun
  exact ⟨_, hrun, by decide +kernel⟩

/-- Refutes O14: its clause on parity errors asks no canonical form of the table of pipes. Where pipe 1 is listed twice, the abort that the
fall of `STATION_LIVE` brings takes the entry in front away, and a `STEP` frame in the other one runs; the self-test event of its step then
stands in the round beside the confirmation of the faulted pipe, which the statement has alone. -/
theorem not_unitsAreTested : ¬ Obligations.UnitsAreTested := by
  intro h
  obtain ⟨hfaults, -⟩ := h.2 coveredPipes 0 [] noStepIn
  obtain ⟨hreload, -⟩ := hfaults (.inl rfl) rfl (.inr ⟨rfl, coveredPipes_buf⟩)
  obtain ⟨t, e, -, -, -, -, -, hround⟩ := hreload rfl
  obtain ⟨u, hrun, hlen⟩ := exec_csParityError_coveredPipes
  obtain rfl := Host.Outcome.next.inj (e.symm.trans hrun)
  rw [hround] at hlen
  exact absurd hlen (by decide)

end Sys2Proof.Machine
end

section
/-! What the end of a tile's check moves beside Sounding's own records: lanes and tile records, the groups' lists, and the frames that leave
their buffers (R178, R264, R265). -/

namespace Sys2Proof.Machine

/-! ### Tiles and groups -/

/-- From `s` to `t` windows and groups alone have changed. -/
def Landed (s t : State) : Prop := ∃ phlx grp, t = { s with phlx := phlx, grp := grp }

theorem Landed.refl (s : State) : Landed s s := ⟨_, _, rfl⟩

theorem Landed.trans {s t u : State} (h : Landed s t) (k : Landed t u) : Landed s u := by
  obtain ⟨_, _, rfl⟩ := h
  obtain ⟨_, _, rfl⟩ := k
  exact ⟨_, _, rfl⟩

theorem foldl_landed {α : Type} {f : State → α → State} (hf : ∀ x a, Landed x (f x a)) (l : List α) (s : State) : Landed s (l.foldl f s) := by
  induction l generalizing s with
  | nil => exact .refl s
  | cons a l ih => exact (hf s a).trans (ih _)

theorem foldl_phlx {α : Type} {f : State → α → State} (hf : ∀ x a, ∃ phlx, f x a = { x with phlx := phlx }) (l : List α) (s : State) :
    ∃ phlx, l.foldl f s = { s with phlx := phlx } := by
  induction l generalizing s with
  | nil => exact ⟨_, rfl⟩
  | cons a l ih =>
    obtain ⟨phlx, h⟩ := hf s a
    rw [List.foldl_cons, h]
    exact ih _

section
variable (s : State)

theorem setLanes_landed (wi t : Nat) (l : List Int) : Landed s (setLanes s wi t l) := ⟨_, _, rfl⟩

theorem setTileRec_landed (wi t : Nat) (r : TileRec) : Landed s (setTileRec s wi t r) := ⟨_, _, rfl⟩

theorem setWin_landed (wi : Nat) (w : Win) : Landed s (s.setWin wi w) := ⟨_, _, rfl⟩

theorem putEntry_landed (p : Nat) (e : Entry) : Landed s (putEntry s p e) := ⟨_, _, rfl⟩

theorem setGrpRec_landed (g : Nat) (r : GrpRec) : Landed s (s.setGrpRec g r) := ⟨_, _, rfl⟩

theorem modFlow_landed (p g t : Nat) (f : Flow → Flow) : Landed s (modFlow s p g t f) := by
  unfold modFlow
  split
  · exact .refl s
  · exact putEntry_landed ..

theorem dropUnchecked_landed (c : Check) : Landed s (dropUnchecked s c) := modFlow_landed ..

theorem settleScale_landed (p : Nat) (e : Entry) (d : Desc) (c : Bool) (wi : Nat) : Landed s (settleScale s p e d c wi) := by
  unfold settleScale
  split
  · exact .refl s
  · exact (foldl_landed (fun x _ => setTileRec_landed x ..) _ s).trans (putEntry_landed ..)

theorem progress_landed (p g t : Nat) : Landed s (progress s p g t) := by
  unfold progress
  split
  · split
    · exact .refl s
    · extract_lets s1
      have hs1 : Landed s s1 := settleScale_landed ..
      split
      · exact hs1
      · exact hs1.trans (setWin_landed ..)
  · exact .refl s

theorem nameWindow_landed (g wi : Nat) (on : Bool) : Landed s (nameWindow s g wi on) := by
  unfold nameWindow
  exact ⟨_, _, rfl⟩

theorem swapWindow_landed (wi : Nat) : Landed s (swapWindow s wi) := by
  unfold swapWindow
  extract_lets w
  split
  · exact setWin_landed ..
  · exact ((setWin_landed ..).trans (setWin_landed ..)).trans (nameWindow_landed ..)

theorem doSwap_landed (p : Nat) (e : Entry) (wi : Nat) : Landed s (doSwap s p e wi) :=
  (((swapWindow_landed s wi).trans (putEntry_landed ..)).trans (setGrpRec_landed ..)).trans (setGrpRec_landed ..)

theorem finishIfSent_landed (p g t : Nat) : Landed s (finishIfSent s p g t) := by
  unfold finishIfSent
  split
  · split
    · split
      · exact ⟨_, _, rfl⟩
      · exact putEntry_landed ..
    · exact .refl s
  · exact .refl s

theorem swapIfWritten_landed (p g t : Nat) : Landed s (swapIfWritten s p g t) := by
  unfold swapIfWritten
  split
  · split
    · exact .refl s
    · split
      · exact (doSwap_landed ..).trans (finishIfSent_landed ..)
      · exact .refl s
  · exact .refl s

theorem swapIfReleased_landed (p g t : Nat) : Landed s (swapIfReleased s p g t) := by
  unfold swapIfReleased
  split
  · split
    · exact .refl s
    · extract_lets open_
      split
      · exact doSwap_landed ..
      · exact .refl s
  · exact .refl s

/-- What a pipe left in lanes of a window changes nothing else (R267). -/
theorem faultWrite_phlx (c : Check) (w : List Int) : ∃ phlx, faultWrite s c w = { s with phlx := phlx } := by
  unfold faultWrite
  extract_lets v
  split
  · exact ⟨_, rfl⟩
  · split <;> exact ⟨_, rfl⟩

theorem faultStore_phlx (f : OutFrame) (x : TileFault) : ∃ phlx, faultStore s f x = { s with phlx := phlx } := by
  unfold faultStore
  split
  · split <;> exact ⟨_, rfl⟩
  · exact ⟨_, rfl⟩

theorem releaseWrites_phlx (f : OutFrame) : ∃ phlx, releaseWrites s f = { s with phlx := phlx } := by
  unfold releaseWrites
  split
  · exact ⟨_, rfl⟩
  · extract_lets s1
    have hs1 : ∃ phlx, s1 = { s with phlx := phlx } := foldl_phlx (fun x _ => ⟨_, rfl⟩) _ s
    clear_value s1
    obtain ⟨_, rfl⟩ := hs1
    exact ⟨_, rfl⟩

end

/-! ### Frames and pipes -/

/-- From `s` to `t` tiles have landed and frames have left their buffers or stand in them otherwise: every pipe is in the state it was in. -/
structure Moved (s t : State) : Prop where
  frame : ∃ ps lark phlx grp rhmb out, t = { s with bus.pages := ps, lark := lark, phlx := phlx, grp := grp, rhmb := rhmb, out := out }
  states : ∀ k, (t.pipe k).st = (s.pipe k).st

theorem Moved.refl (s : State) : Moved s s := ⟨⟨_, _, _, _, _, _, rfl⟩, fun _ => rfl⟩

theorem Moved.trans {s t u : State} (h : Moved s t) (k : Moved t u) : Moved s u := by
  obtain ⟨⟨_, _, _, _, _, _, rfl⟩, hst⟩ := h
  obtain ⟨⟨_, _, _, _, _, _, rfl⟩, hst'⟩ := k
  exact ⟨⟨_, _, _, _, _, _, rfl⟩, fun j => (hst' j).trans (hst j)⟩

theorem Landed.moved {s t : State} (h : Landed s t) : Moved s t := by
  obtain ⟨_, _, rfl⟩ := h
  exact ⟨⟨_, _, _, _, _, _, rfl⟩, fun _ => rfl⟩

theorem setPipe_moved (s : State) {k : Nat} {p : Pipe} (h : p.st = (s.pipe k).st) : Moved s (s.setPipe k p) := by
  refine ⟨⟨_, _, _, _, _, _, rfl⟩, fun j => ?_⟩
  rw [State.setPipe_pipe_eq]
  split
  · next hj => rw [h, hj]
  · rfl

theorem unholdKeys_st (p : Pipe) (ks : List Nat) : (unholdKeys p ks).st = p.st := by
  unfold unholdKeys
  induction ks generalizing p with
  | nil => rfl
  | cons i ks ih => exact ih _

theorem giveCredits_moved (s : State) (port : Nat) (vc : Bool) (n : Nat) : Moved s (giveCredits s port vc n) := by
  obtain ⟨_, _, _, h⟩ := giveCredits_frame s port vc n
  rw [h]
  exact ⟨⟨_, _, _, _, _, _, rfl⟩, fun _ => rfl⟩

section
variable (s : State)

theorem leaveBuffer_moved (k id : Nat) : Moved s (leaveBuffer s k id) := by
  unfold leaveBuffer
  extract_lets p
  split
  · exact .refl s
  · extract_lets p1
    have hleft : Moved s (s.setPipe k p1) := setPipe_moved s (unholdKeys_st ..)
    split
    · exact hleft
    · exact hleft.trans (giveCredits_moved ..)

theorem modHeld_moved (k id : Nat) (g : HeldFrame → HeldFrame) : Moved s (modHeld s k id g) := setPipe_moved s rfl

theorem modOut_moved (k : Nat) (f g : OutFrame) : Moved s (modOut s k f g) := setPipe_moved s rfl

theorem parkLow_moved (old : State) : Moved s (parkLow old s) := by
  obtain ⟨_, h⟩ := parkLow_frame old s
  rw [h]
  exact ⟨⟨_, _, _, _, _, _, rfl⟩, fun _ => rfl⟩

theorem leaveIfDone_moved (k id : Nat) : Moved s (leaveIfDone s k id) := by
  unfold leaveIfDone
  split
  · split
    · exact leaveBuffer_moved ..
    · exact .refl s
  · exact .refl s

theorem checkOver_moved (c : Check) : Moved s (checkOver s c) := (modHeld_moved ..).trans (leaveIfDone_moved ..)

theorem relayOver_moved (k id : Nat) : Moved s (relayOver s k id) := (modHeld_moved ..).trans (leaveIfDone_moved ..)

theorem inputPassed_moved (c : Check) : Moved s (inputPassed s c) :=
  ((checkOver_moved s c).trans (progress_landed ..).moved).trans (swapIfWritten_landed ..).moved

theorem frameChecked_moved (k : Nat) (f : OutFrame) : Moved s (frameChecked s k f) := by
  unfold frameChecked
  extract_lets s1
  have hs1 : Moved s s1 := by
    unfold s1
    split
    · exact relayOver_moved ..
    · exact .refl s
  split
  · exact hs1
  · split
    · exact hs1.trans (swapIfReleased_landed ..).moved
    · obtain ⟨_, hwritten⟩ := releaseWrites_phlx s1 f
      exact (hs1.trans (Landed.moved ⟨_, _, hwritten⟩)).trans (modOut_moved ..)

end
end Sys2Proof.Machine
end

section
/-! How Sounding records failing checks: the first under the rule of first record, those after it by `OVER` alone, each one counted (R266,
Tables 8.9, 8.12 and 8.13). -/

namespace Sys2Proof.Machine

/-- The counter of failing checks after some more. -/
def failsCounted (fs : List CheckFail) (ctr : Table Word) : Table Word := fs.foldl (fun m _ => tset 0 m 0x60 (tget 0 m 0x60 + 1)) ctr

theorem failsCounted_ne (fs : List CheckFail) (ctr : Table Word) {off : Nat} (h : off ≠ 0x60) : tget 0 (failsCounted fs ctr) off = tget 0 ctr off := by
  unfold failsCounted
  induction fs generalizing ctr with
  | nil => rfl
  | cons f fs ih => rw [List.foldl_cons, ih, tget_tset_ne _ _ _ _ _ h]

/-- The words of a first record, with `OVER` where it stood (Tables 8.12 and 8.13). -/
def recordWord0 (w : Word) (k part group tile : Nat) (f : CheckFail) : Word :=
  (w &&& bitWord 62) ||| pack [(63, 63, 1), (61, 61, dirOf k), (60, 58, numOf k), (57, 54, f.point), (53, 49, part), (48, 37, group), (36, 22, tile),
    (0, 0, f.internal.toNat)]

def recordWord1 (ticket : Nat) (f : CheckFail) : Word := pack [(63, 48, f.rowMask), (47, 32, f.colMask), (31, 0, ticket)]

def recordWord2 (f : CheckFail) : Word := pack [(47, 0, uNat 48 f.delta)]

/-- A first record is valid. -/
theorem recordWord0_valid (w : Word) (k part group tile : Nat) (f : CheckFail) : bitOf (recordWord0 w k part group tile f) 63 = true := by
  have hpack : bitOf (pack [(63, 63, 1), (61, 61, dirOf k), (60, 58, numOf k), (57, 54, f.point), (53, 49, part), (48, 37, group), (36, 22, tile),
      (0, 0, f.internal.toNat)]) 63 = true := by
    simp only [bitOf, pack, List.foldl_cons, List.foldl_nil, BitVec.toNat_ofNat, Nat.testBit_eq_decide_div_mod_eq, decide_eq_true_eq]
    omega
  rw [recordWord0, bitOf_or, hpack, Bool.or_true]

section
variable (s : State) (k part group ticket tile : Nat)

theorem latchFail_first (f : CheckFail) (h : bitOf s.snd.last0 63 = false) :
    ∃ ps, latchFail s k part group ticket tile f = { s with
      bus.pages := ps
      snd := { s.snd with
        ctr := failsCounted [f] s.snd.ctr, last0 := recordWord0 s.snd.last0 k part group tile f, last1 := recordWord1 ticket f, last2 := recordWord2 f } } := by
  simp only [latchFail, h, Bool.false_eq_true, if_false]
  exact ⟨_, rfl⟩

theorem latchFail_again (f : CheckFail) (h : bitOf s.snd.last0 63 = true) :
    ∃ ps, latchFail s k part group ticket tile f
      = { s with bus.pages := ps, snd := { s.snd with ctr := failsCounted [f] s.snd.ctr, last0 := s.snd.last0 ||| bitWord 62 } } := by
  simp only [latchFail, h, if_true]
  exact ⟨_, rfl⟩

/-- While a record stands, failing checks leave it but for `OVER`. -/
theorem latchFails_again (fs : List CheckFail) (h : bitOf s.snd.last0 63 = true) :
    ∃ ps, latchFails s k part group ticket tile fs = { s with
      bus.pages := ps
      snd := { s.snd with ctr := failsCounted fs s.snd.ctr, last0 := s.snd.last0 ||| (if fs = [] then 0 else bitWord 62) } } := by
  induction fs generalizing s with
  | nil =>
    have hsame : s.snd.last0 ||| (if ([] : List CheckFail) = [] then 0 else bitWord 62) = s.snd.last0 := BitVec.or_zero
    exact ⟨s.bus.pages, by rw [hsame]; rfl⟩
  | cons f fs ih =>
    obtain ⟨ps, hf⟩ := latchFail_again s k part group ticket tile f h
    rw [latchFails, List.foldl_cons, hf]
    have hover : s.snd.last0 ||| bitWord 62 ||| (if fs = [] then 0 else bitWord 62) = s.snd.last0 ||| bitWord 62 := by
      split
      · exact BitVec.or_zero
      · rw [BitVec.or_assoc, BitVec.or_self]
    obtain ⟨ps', hfs⟩ := ih { s with bus.pages := ps, snd := { s.snd with ctr := failsCounted [f] s.snd.ctr, last0 := s.snd.last0 ||| bitWord 62 } }
      (by rw [bitOf_or, h, Bool.true_or])
    refine ⟨ps', hfs.trans ?_⟩
    rw [hover, if_neg (List.cons_ne_nil f fs)]
    rfl

/-- Where no record stands the first failing check makes it (R266). -/
theorem latchFails_first (f : CheckFail) (fs : List CheckFail) (h : bitOf s.snd.last0 63 = false) :
    ∃ ps, latchFails s k part group ticket tile (f :: fs) = { s with
      bus.pages := ps
      snd := { s.snd with
        ctr := failsCounted (f :: fs) s.snd.ctr
        last0 := recordWord0 s.snd.last0 k part group tile f ||| (if fs = [] then 0 else bitWord 62)
        last1 := recordWord1 ticket f, last2 := recordWord2 f } } := by
  obtain ⟨ps, hf⟩ := latchFail_first s k part group ticket tile f h
  rw [latchFails, List.foldl_cons, hf]
  exact latchFails_again _ k part group ticket tile fs (recordWord0_valid ..)

/-- Failing checks are counted and recorded, and nothing else. -/
theorem latchFails_frame (fs : List CheckFail) :
    ∃ ps l0 l1 l2, latchFails s k part group ticket tile fs = { s with
      bus.pages := ps, snd := { s.snd with ctr := failsCounted fs s.snd.ctr, last0 := l0, last1 := l1, last2 := l2 } } := by
  cases hvalid : bitOf s.snd.last0 63 with
  | true =>
    obtain ⟨ps, h⟩ := latchFails_again s k part group ticket tile fs hvalid
    exact ⟨ps, _, _, _, h⟩
  | false =>
    cases fs with
    | nil => exact ⟨_, _, _, _, rfl⟩
    | cons f fs =>
      obtain ⟨ps, h⟩ := latchFails_first s k part group ticket tile f fs hvalid
      exact ⟨ps, _, _, _, h⟩

/-- The outcome of a record is written into its first word (Table 8.12). -/
theorem latchOutcome_frame (q outcome : Nat) : ∃ l0, latchOutcome s k part group ticket tile q outcome = { s with snd.last0 := l0 } := by
  simp only [latchOutcome]
  split <;> exact ⟨_, rfl⟩

end
end Sys2Proof.Machine
end

section
/-! How Sounding's sums judge a comparison (R259 to R261, Table 8.1): what the masks of a failing one name, and its own errors. -/

namespace Sys2Proof.Machine

/-! ### Exact sums -/

/-- A run of a list as the sum of its places. -/
theorem sum_take_drop (vs : List Int) (k n : Nat) : ((vs.drop k).take n).sum = ∑ j ∈ Finset.range n, vs.getD (k + j) 0 := by
  induction n with
  | zero => simp
  | succ n ih =>
    rw [Finset.sum_range_succ, ← ih, List.take_add_one, List.sum_append, List.getElem?_drop, List.getD_eq_getElem?_getD]
    cases vs[k + n]? <;> simp

theorem rowSum_eq (vs : List Int) (i : Nat) : rowSum vs i = ∑ j ∈ Finset.range 16, vs.getD (16 * i + j) 0 := by
  rw [rowSum, ← List.sum_eq_foldl, sum_take_drop]

theorem colSum_eq (vs : List Int) (j : Nat) : colSum vs j = ∑ i ∈ Finset.range 16, vs.getD (16 * i + j) 0 := by
  rw [colSum, ← List.foldl_map (f := fun i => vs.getD (16 * i + j) 0), ← List.sum_eq_foldl]
  rfl

/-- The 16 row sums and the 16 column sums of a tile have one total. -/
theorem rowTotal_eq_colTotal (vs : List Int) : ((List.range 16).map (rowSum vs)).sum = ((List.range 16).map (colSum vs)).sum := by
  calc ((List.range 16).map (rowSum vs)).sum = ∑ i ∈ Finset.range 16, rowSum vs i := rfl
    _ = ∑ i ∈ Finset.range 16, ∑ j ∈ Finset.range 16, vs.getD (16 * i + j) 0 := Finset.sum_congr rfl fun i _ => rowSum_eq vs i
    _ = ∑ j ∈ Finset.range 16, ∑ i ∈ Finset.range 16, vs.getD (16 * i + j) 0 := Finset.sum_comm
    _ = ∑ j ∈ Finset.range 16, colSum vs j := Finset.sum_congr rfl fun j _ => (colSum_eq vs j).symm
    _ = ((List.range 16).map (colSum vs)).sum := rfl

/-! ### Sums as Sounding forms them -/

/-- With sound sums an operand's sum is the exact one. -/
theorem tapSum_sound (sum : List Int → Nat → Int) (i : Nat) : tapSum sum [] i = fun o => sum o.2 i :=
  funext fun o => Int.add_zero (sum o.2 i)

/-- One error stands in the one sum it names. -/
theorem sumError_single (e : SumErr) (i : Nat) : sumError [e] e.tap i = if e.idx.toNat = i then e.err.toInt else 0 := by
  by_cases h : e.idx.toNat = i <;> simp [sumError, h]

/-- The errors of one operand's sums, all told. -/
theorem sumError_total (e : SumErr) : ((List.range 16).map (sumError [e] e.tap)).sum = e.err.toInt := by
  calc ((List.range 16).map (sumError [e] e.tap)).sum = ∑ i ∈ Finset.range 16, sumError [e] e.tap i := rfl
    _ = ∑ i ∈ Finset.range 16, if e.idx.toNat = i then e.err.toInt else 0 := Finset.sum_congr rfl fun i _ => sumError_single e i
    _ = e.err.toInt := by rw [Finset.sum_ite_eq, if_pos (Finset.mem_range.2 e.idx.isLt)]

theorem totalsDiffer_sound (o : Operand) : totalsDiffer [] [] o = false := by
  refine decide_eq_false (not_not.2 ?_)
  simp only [tapSum_sound]
  exact rowTotal_eq_colTotal o.2

section
variable {o : Operand} {e : SumErr} (htap : o.1 = e.tap) (herr : e.err ≠ 0)
include htap

theorem tapTotal_err (sum : List Int → Nat → Int) :
    ((List.range 16).map (fun i => tapSum sum [e] i o)).sum = ((List.range 16).map (sum o.2)).sum + e.err.toInt := by
  rw [← sumError_total e, ← htap]
  exact List.sum_map_add

include herr

/-- An error of one of its own sums parts the totals of an operand (R260). -/
theorem totalsDiffer_row : totalsDiffer [e] [] o = true := by
  have hne : e.err.toInt ≠ 0 := BitVec.toInt_ne.2 herr
  simp only [totalsDiffer, tapTotal_err htap, tapSum_sound, decide_eq_true_eq]
  rw [show (fun i => colSum o.2 i) = colSum o.2 from rfl, rowTotal_eq_colTotal]
  omega

theorem totalsDiffer_col : totalsDiffer [] [e] o = true := by
  have hne : e.err.toInt ≠ 0 := BitVec.toInt_ne.2 herr
  simp only [totalsDiffer, tapTotal_err htap, tapSum_sound, decide_eq_true_eq]
  rw [show (fun i => rowSum o.2 i) = rowSum o.2 from rfl, rowTotal_eq_colTotal]
  omega

end

/-! ### Masks -/

section
variable (c : Compare)

theorem Compare.diffs_getD (sum : List Int → Nat → Int) (errs : List SumErr) {i : Nat} (h : i < 16) :
    (c.diffs sum errs).getD i 0 = c.diff sum errs i := by
  rw [Compare.diffs, List.getD_eq_getElem?_getD, List.getElem?_map, List.getElem?_range h]
  rfl

/-- A mask names the sums of the 16 that break the condition. -/
theorem Compare.mask_testBit (ds : List Int) (i : Nat) : (c.mask ds).testBit i = (decide (i < 16) && c.breaks (ds.getD i 0)) := by
  rw [Compare.mask, ← List.foldl_filter (p := fun i => c.breaks (ds.getD i 0)), foldl_setBit_testBit, Nat.zero_testBit, Bool.false_or,
    Bool.eq_iff_iff]
  simp

theorem Compare.mask_lt (ds : List Int) : c.mask ds < 2 ^ 16 :=
  Nat.lt_pow_two_of_testBit _ fun i hi => by rw [c.mask_testBit, decide_eq_false (Nat.not_lt.2 hi), Bool.false_and]

theorem Compare.mask_diffs_testBit (sum : List Int → Nat → Int) (errs : List SumErr) {i : Nat} (h : i < 16) :
    (c.mask (c.diffs sum errs)).testBit i = c.breaks (c.diff sum errs i) := by
  rw [c.mask_testBit, c.diffs_getD _ _ h, decide_eq_true h, Bool.true_and]

theorem Compare.mask_eq_zero (sum : List Int → Nat → Int) (errs : List SumErr) :
    c.mask (c.diffs sum errs) = 0 ↔ ∀ i < 16, c.breaks (c.diff sum errs i) = false := by
  constructor
  · intro h i hi
    rw [← c.mask_diffs_testBit sum errs hi, h, Nat.zero_testBit]
  · refine fun h => Nat.eq_of_testBit_eq fun i => ?_
    rw [Nat.zero_testBit]
    by_cases hi : i < 16
    · rw [c.mask_diffs_testBit sum errs hi, h i hi]
    · rw [c.mask_testBit, decide_eq_false hi, Bool.false_and]

/-! ### Judgements -/

theorem Compare.internal_sound : c.internal [] [] = false := by
  simp only [Compare.internal, List.any_eq_false]
  exact fun o _ => by rw [totalsDiffer_sound]; exact Bool.false_ne_true

/-- A comparison of sound sums passes where nothing breaks the condition. -/
theorem Compare.judge_none :
    c.judge [] [] = none ↔ ∀ i < 16, c.breaks (c.diff rowSum [] i) = false ∧ c.breaks (c.diff colSum [] i) = false := by
  have hjudge : c.judge [] [] = none ↔ c.mask (c.diffs rowSum []) = 0 ∧ c.mask (c.diffs colSum []) = 0 := by
    simp only [Compare.judge, c.internal_sound, Bool.not_false, and_true]
    split
    · next h => simp only [h, and_self]
    · next h => simp only [reduceCtorEq, h]
  rw [hjudge, c.mask_eq_zero, c.mask_eq_zero]
  exact ⟨fun h i hi => ⟨h.1 i hi, h.2 i hi⟩, fun h => ⟨fun i hi => (h i hi).1, fun i hi => (h i hi).2⟩⟩

/-- What a comparison that fails holds. -/
theorem Compare.judge_some {rows cols : List SumErr} {f : CheckFail} (h : c.judge rows cols = some f) :
    f.point = c.point ∧ f.internal = c.internal rows cols ∧ f.rowMask = c.mask (c.diffs rowSum rows) ∧ f.colMask = c.mask (c.diffs colSum cols)
      ∧ ∀ d, (c.diffs rowSum rows).find? c.breaks = some d → f.delta = c.excess d := by
  simp only [Compare.judge] at h
  split at h
  · cases h
  · obtain rfl := Option.some.inj h
    exact ⟨rfl, rfl, rfl, rfl, fun d hd => by rw [hd]⟩

/-- An error of Sounding's own fails the check as an internal one (R260). -/
theorem Compare.judge_internal {rows cols : List SumErr} (h : c.internal rows cols = true) : ∃ f, c.judge rows cols = some f ∧ f.internal = true := by
  simp only [Compare.judge, h, Bool.not_true, Bool.false_eq_true, and_false, if_false]
  exact ⟨_, rfl, rfl⟩

theorem Compare.internal_of_mem {rows cols : List SumErr} {o : Operand} (hmem : o ∈ c.found ++ c.expected ++ c.others)
    (h : totalsDiffer rows cols o = true) : c.internal rows cols = true := List.any_eq_true.2 ⟨o, hmem, h⟩

/-- The first row that breaks the condition gives `DELTA`. -/
theorem Compare.find?_diffs {sum : List Int → Nat → Int} {errs : List SumErr} {i : Nat} (hi : i < 16) (hbreaks : c.breaks (c.diff sum errs i) = true)
    (hfirst : ∀ j < i, c.breaks (c.diff sum errs j) = false) : (c.diffs sum errs).find? c.breaks = some (c.diff sum errs i) := by
  have hrange : (List.range 16).find? (c.breaks ∘ c.diff sum errs) = some i :=
    List.find?_range_eq_some.2 ⟨hbreaks, List.mem_range.2 hi, fun j hj => by simp [hfirst j hj]⟩
  rw [Compare.diffs, List.find?_map, hrange]
  rfl

end
end Sys2Proof.Machine
end

section
/-! `SOUNDING_CHECK_DONE` of first checks (R264 to R267): a check that passes is counted and leaves; a failing one is counted and latched, and
its frame is kept for its replay. -/

namespace Sys2Proof.Machine

/-! ### The command -/

section
variable {s : State} {k : BitVec 4} {fault : Option TileFault}

theorem exec_checkDone_stopped (h : arithRuns s = false) : exec (.soundingCheckDone k fault) s = .next s := by
  simp only [exec, execSoundingCheckDone, whenArith, h, Bool.false_eq_true, if_false]

theorem exec_checkDone_input (hrun : arithRuns s = true) (hk : k.toNat < 8) :
    exec (.soundingCheckDone k fault) s = .next (inputCheckDone s k.toNat fault) := by
  simp only [exec, execSoundingCheckDone, whenArith, hrun, if_true, soundingCheckDone, hk]

theorem exec_checkDone_output (hrun : arithRuns s = true) (hk : 8 ≤ k.toNat) :
    exec (.soundingCheckDone k fault) s = .next (outputCheckDone s k.toNat fault) := by
  simp only [exec, execSoundingCheckDone, whenArith, hrun, if_true, soundingCheckDone, if_neg (Nat.not_lt.2 hk)]

theorem inputCheckDone_none (k : Nat) (h : s.snd.checks.find? (fun x => x.pipe = k) = none) : inputCheckDone s k fault = s := by
  rw [inputCheckDone, h]

theorem outputCheckDone_none (k : Nat) (h : (s.pipe k).outs.find? (fun x => 0 < x.waits && !x.failed) = none) : outputCheckDone s k fault = s := by
  rw [outputCheckDone, h]

end

/-! ### Input checks -/

/-- The check `c` leaves the list of open checks and is counted (R264). -/
def checkTaken (s : State) (c : Check) : State := sndCount { s with snd.checks := s.snd.checks.erase c } 0x50 1

/-- What the pipe made of the tile of a check. -/
def checkedWork (c : Check) : Option TileFault → TileWork
  | none => { a := c.job.a, w := (c.job.lanes c.job.a).map (·.1), fails := [] }
  | some f => c.job.run f

/-- A pipe that wrote the exact lanes left nothing to write (R267). -/
theorem faultWrite_exact (s : State) (c : Check) : faultWrite s c ((c.job.lanes c.job.a).map (·.1)) = s := if_pos rfl

section
variable {s : State} {k : Nat} {c : Check}

/-- A first check of a tile ends, and passes (R264). -/
theorem inputCheckDone_passed (hfind : s.snd.checks.find? (fun x => x.pipe = k) = some c) (hfirst : c.replay = none) :
    inputCheckDone s k none = inputPassed (dropUnchecked (checkTaken s c) c) c := by
  simp only [inputCheckDone, hfind, hfirst, Option.bind_none, Option.isSome_none, Bool.false_eq_true, if_false, faultWrite_exact, List.isEmpty_nil, if_true]
  rfl

/-- A first check of a tile ends, and fails (R266). -/
theorem inputCheckDone_failed (hfind : s.snd.checks.find? (fun x => x.pipe = k) = some c) (hfirst : c.replay = none) {f : TileFault}
    (hfails : (c.job.run f).fails ≠ []) :
    inputCheckDone s k (some f) = inputFailed (dropUnchecked (faultWrite (checkTaken s c) c (c.job.run f).w) c) c (c.job.run f) := by
  have hempty : (c.job.run f).fails.isEmpty = false := List.isEmpty_eq_false_iff.2 hfails
  simp only [inputCheckDone, hfind, hfirst, Option.bind_none, Option.isSome_none, Bool.false_eq_true, if_false, hempty]
  rfl

/-- The check of a replayed tile ends (R267). -/
theorem inputCheckDone_replay {no : Nat} {r : Reserve} (hfind : s.snd.checks.find? (fun x => x.pipe = k) = some c) (hreplay : c.replay = some no)
    (hr : s.park.reserve.find? (fun r => r.no = no) = some r) (fault : Option TileFault) :
    inputCheckDone s k fault = replayChecked (latchFails (faultWrite (checkTaken s c) c (checkedWork c fault).w)
      c.pipe c.part c.group c.ticket c.tile (checkedWork c fault).fails) c r (checkedWork c fault) := by
  simp only [inputCheckDone, hfind, hreplay, Option.bind_some, hr]
  cases fault <;> rfl

/-- The check of a tile that landed as it should leaves Sounding's other records, and the parts that no frame passes through (R178, R264). -/
theorem inputCheckDone_passes (hfind : s.snd.checks.find? (fun x => x.pipe = k) = some c) (hfirst : c.replay = none) :
    Moved (checkTaken s c) (inputCheckDone s k none) := by
  rw [inputCheckDone_passed hfind hfirst]
  exact (dropUnchecked_landed ..).moved.trans (inputPassed_moved ..)

end

/-! ### The replay reserve -/

section
variable (s : State) (c : Check) (internal : Bool) (w : List Int)

/-- A frame of the reserve after a tile of it has failed (R267). -/
def joined (r y : Reserve) : Reserve :=
  if y.no = r.no then
    { y with tiles := y.tiles.filter (fun x => x.tile ≠ c.tile) ++ [failTile c internal w], pipe := c.pipe, src := c.frame, taken := false } else y

/-- The reserve's record of a frame with its first failed tile (R267). -/
def entered : Reserve :=
  { units := unitsOf (hdrOf c.arr.bytes).payLen, pipe := c.pipe, part := c.part, group := c.group, ticket := c.ticket, no := s.lark.nextId,
    src := c.frame, arr := c.arr, seen := s.mrd.wall, tiles := [failTile c internal w] }

/-- What the reserve holds once a first check has failed. -/
def reserveAfter : List Reserve :=
  match s.park.reserve.find? (fun r => r.pipe = c.pipe && r.src = c.frame) with
  | none => s.park.reserve ++ [entered s c internal w]
  | some r => s.park.reserve.map (joined c internal w r)

variable {s c} (hfirst : c.replay = none)
include hfirst

theorem reserveOf_first : reserveOf s c = s.park.reserve.find? (fun r => r.pipe = c.pipe && r.src = c.frame) := by
  simp only [reserveOf, hfirst]

/-- A later failed tile joins its frame in the reserve. -/
theorem keepForReplay_joins {r : Reserve} (hr : s.park.reserve.find? (fun r => r.pipe = c.pipe && r.src = c.frame) = some r) :
    Moved { s with park.reserve := s.park.reserve.map (joined c internal w r) } (keepForReplay s c internal w) := by
  simp only [keepForReplay, reserveOf_first hfirst, hr, hfirst, Option.isSome_none, Bool.false_eq_true, if_false]
  exact (modFlow_landed ..).moved.trans (leaveBuffer_moved ..)

/-- The frame of a first failed tile enters the reserve, where it has room. -/
theorem keepForReplay_enters (hr : s.park.reserve.find? (fun r => r.pipe = c.pipe && r.src = c.frame) = none)
    (hroom : reserveUsed s + unitsOf (hdrOf c.arr.bytes).payLen ≤ 256) :
    Moved { s with park.reserve := s.park.reserve ++ [entered s c internal w] } (keepForReplay s c internal w) := by
  simp only [keepForReplay, reserveOf_first hfirst, hr, hfirst, Option.isSome_none, Bool.false_eq_true, if_false, if_neg (Nat.not_lt.2 hroom)]
  have hentered : Moved { s with park.reserve := s.park.reserve ++ [entered s c internal w] }
      { s with park.reserve := s.park.reserve ++ [entered s c internal w], lark.nextId := s.lark.nextId + 1 } :=
    ⟨⟨_, _, _, _, _, _, rfl⟩, fun _ => rfl⟩
  exact ((hentered.trans (modFlow_landed ..).moved).trans (leaveBuffer_moved ..)).trans (parkLow_moved ..)

end
end Sys2Proof.Machine
end

section
/-! First checks that fail, and the output checks of an egress pipe (R264 to R268). -/

namespace Sys2Proof.Machine

/-! ### An input check that fails -/

/-- An input tile whose record agrees and whose lanes keep off the bound is kept for its replay (R266, R267). -/
theorem inputFailed_kept {u : State} {c : Check} {x : TileWork} (hpoints : ∀ y ∈ x.fails, y.point ≠ 4) (hbound : atBound x.w = false) :
    inputFailed u c x = progress (keepForReplay (latchFails u c.pipe c.part c.group c.ticket c.tile x.fails) c (x.fails.any (·.internal)) x.w)
      c.part c.group c.ticket := by
  have hrecord : x.fails.any (fun f => f.point = 4) = false := List.any_eq_false.2 fun y hy => by simpa using hpoints y hy
  simp only [inputFailed, hrecord, hbound, Bool.false_eq_true, if_false]

theorem keepForReplay_first {s : State} {c : Check} (internal : Bool) (w : List Int) (hfirst : c.replay = none)
    (hroom : s.park.reserve.find? (fun r => r.pipe = c.pipe && r.src = c.frame) = none → reserveUsed s + unitsOf (hdrOf c.arr.bytes).payLen ≤ 256) :
    Moved { s with park.reserve := reserveAfter s c internal w } (keepForReplay s c internal w) := by
  unfold reserveAfter
  cases hr : s.park.reserve.find? (fun r => r.pipe = c.pipe && r.src = c.frame) with
  | none => exact keepForReplay_enters internal w hfirst hr (hroom hr)
  | some r => exact keepForReplay_joins internal w hfirst hr

theorem keepForReplay_progress {s : State} {c : Check} (internal : Bool) (w : List Int) (hfirst : c.replay = none)
    (hroom : s.park.reserve.find? (fun r => r.pipe = c.pipe && r.src = c.frame) = none → reserveUsed s + unitsOf (hdrOf c.arr.bytes).payLen ≤ 256) :
    (progress (keepForReplay s c internal w) c.part c.group c.ticket).snd = s.snd
      ∧ (progress (keepForReplay s c internal w) c.part c.group c.ticket).park.reserve = reserveAfter s c internal w := by
  obtain ⟨⟨_, _, _, _, _, _, hkept⟩, -⟩ := (keepForReplay_first internal w hfirst hroom).trans (progress_landed _ c.part c.group c.ticket).moved
  rw [hkept]
  exact ⟨rfl, rfl⟩

section
variable {s : State} {k : Nat} {c : Check} {f : TileFault} {x : CheckFail} {r : List CheckFail}

/-- What a first check leaves where it fails and its frame is kept. -/
theorem inputCheckDone_kept (hfind : s.snd.checks.find? (fun x => x.pipe = k) = some c) (hfirst : c.replay = none)
    (hfails : (c.job.run f).fails = x :: r) (hpoints : ∀ y ∈ x :: r, y.point ≠ 4) (hbound : atBound (c.job.run f).w = false)
    (hvalid : bitOf s.snd.last0 63 = false)
    (hroom : s.park.reserve.find? (fun r => r.pipe = c.pipe && r.src = c.frame) = none → reserveUsed s + unitsOf (hdrOf c.arr.bytes).payLen ≤ 256) :
    (inputCheckDone s k (some f)).snd = { (checkTaken s c).snd with
        ctr := failsCounted (x :: r) (checkTaken s c).snd.ctr
        last0 := recordWord0 s.snd.last0 c.pipe c.part c.group c.tile x ||| (if r = [] then 0 else bitWord 62)
        last1 := recordWord1 c.ticket x, last2 := recordWord2 x }
      ∧ (inputCheckDone s k (some f)).park.reserve = reserveAfter s c ((x :: r).any (·.internal)) (c.job.run f).w := by
  obtain ⟨_, hwrite⟩ := faultWrite_phlx (checkTaken s c) c (c.job.run f).w
  obtain ⟨_, _, hdrop⟩ := dropUnchecked_landed (faultWrite (checkTaken s c) c (c.job.run f).w) c
  rw [inputCheckDone_failed hfind hfirst (by rw [hfails]; exact List.cons_ne_nil x r), inputFailed_kept (by rwa [hfails]) hbound, hfails, hdrop, hwrite]
  obtain ⟨_, hlatch⟩ := latchFails_first { checkTaken s c with phlx := _, grp := _ } c.pipe c.part c.group c.ticket c.tile x r hvalid
  rw [hlatch]
  exact keepForReplay_progress ((x :: r).any (·.internal)) (c.job.run f).w hfirst hroom

end

/-! ### Output checks -/

section
variable {s : State} {k : Nat} {f : OutFrame} (hfind : (s.pipe k).outs.find? (fun x => 0 < x.waits && !x.failed) = some f)
include hfind

theorem outputCheckDone_passed : outputCheckDone s k none = outTilePassed (sndCount s 0x58 1) k f := by
  simp only [outputCheckDone, hfind]

/-- The failing check of a frame that was built once makes it wait for its replay (R268). -/
theorem outputCheckDone_failed {b : TileFault} (hfails : outFails f b ≠ []) (hfirst : f.redone = none) :
    outputCheckDone s k (some b) = modOut (latchFails (faultStore (sndCount s 0x58 1) f b) k f.part f.group f.ticket (outTile f) (outFails f b)) k f
      { f with failed := true, internal := (outFails f b).any (·.internal), bad := outTile f } := by
  simp only [outputCheckDone, hfind, List.isEmpty_eq_false_iff.2 hfails, Bool.false_eq_true, if_false, hfirst]

/-- The failing check of a frame that was recomputed ends its collective (R269). -/
theorem outputCheckDone_again {b : TileFault} {q : Nat} (hfails : outFails f b ≠ []) (hredone : f.redone = some q) :
    outputCheckDone s k (some b) = unattributed (latchFails (faultStore (sndCount s 0x58 1) f b) k f.part f.group f.ticket (outTile f) (outFails f b))
      k f.part f.group f.ticket f.bad q 1 true := by
  simp only [outputCheckDone, hfind, List.isEmpty_eq_false_iff.2 hfails, Bool.false_eq_true, if_false, hredone]

end

theorem modOut_pipe_self (s : State) (k : Nat) (f g : OutFrame) :
    (modOut s k f g).pipe k = { s.pipe k with outs := (s.pipe k).outs.map (fun y => if y = f then g else y) } := by
  rw [modOut]
  exact (State.setPipe_pipe_self ..).trans (by simp only [decide_eq_true_eq])

/-- A tile of a frame that was built once passes: frames and tiles move (R264, R265). -/
theorem outTilePassed_moved {s : State} {k : Nat} {f : OutFrame} (hfirst : f.redone = none) : Moved s (outTilePassed s k f) := by
  unfold outTilePassed
  split
  · exact modOut_moved ..
  · extract_lets g
    have hredo (u : State) : redoPassed u k f = u := by simp only [redoPassed, hfirst]
    rw [hredo]
    exact (modOut_moved ..).trans (frameChecked_moved ..)

/-- What a failing check of a frame that was built once leaves. -/
theorem outputCheckDone_latched {s : State} {k : Nat} {f : OutFrame} {b : TileFault} {x : CheckFail} {r : List CheckFail}
    (hfind : (s.pipe k).outs.find? (fun x => 0 < x.waits && !x.failed) = some f) (hfirst : f.redone = none) (hfails : outFails f b = x :: r)
    (hvalid : bitOf s.snd.last0 63 = false) :
    (outputCheckDone s k (some b)).snd = { (sndCount s 0x58 1).snd with
        ctr := failsCounted (x :: r) (sndCount s 0x58 1).snd.ctr
        last0 := recordWord0 s.snd.last0 k f.part f.group (outTile f) x ||| (if r = [] then 0 else bitWord 62)
        last1 := recordWord1 f.ticket x, last2 := recordWord2 x }
      ∧ ((outputCheckDone s k (some b)).pipe k).outs = (s.pipe k).outs.map (fun y => if y = f then
          { f with failed := true, internal := (x :: r).any (·.internal), bad := outTile f } else y) := by
  obtain ⟨_, hstore⟩ := faultStore_phlx (sndCount s 0x58 1) f b
  obtain ⟨_, hlatch⟩ := latchFails_first { sndCount s 0x58 1 with phlx := _ } k f.part f.group f.ticket (outTile f) x r hvalid
  rw [outputCheckDone_failed hfind (by rw [hfails]; exact List.cons_ne_nil x r) hfirst, hfails, hstore, hlatch]
  exact ⟨rfl, congrArg Pipe.outs (modOut_pipe_self ..)⟩

/-! ### Comparisons -/

theorem Compare.diff_sound (c : Compare) (sum : List Int → Nat → Int) : c.diff sum [] = fun i => 2 ^ c.scale * (c.found.map (fun o => sum o.2 i)).sum
    - ((c.expected.map (fun o => sum o.2 i)).sum - (c.off.map (fun l => sum l i)).sum) := by
  funext i
  simp only [Compare.diff, tapSum_sound]

/-- What a comparison of sound sums says of its rows and columns, and what an error of Sounding's own does (R259, R260, R264). -/
theorem Compare.judged (c : Compare) :
    (c.judge [] [] = none ↔ ∀ i < 16, c.breaks (c.diff rowSum [] i) = false ∧ c.breaks (c.diff colSum [] i) = false)
    ∧ (∀ f, c.judge [] [] = some f → f.point = c.point ∧ f.internal = false ∧ f.rowMask < 2 ^ 16 ∧ f.colMask < 2 ^ 16
      ∧ (∀ i < 16, f.rowMask.testBit i = c.breaks (c.diff rowSum [] i) ∧ f.colMask.testBit i = c.breaks (c.diff colSum [] i))
      ∧ ∀ i < 16, c.breaks (c.diff rowSum [] i) = true → (∀ j < i, c.breaks (c.diff rowSum [] j) = false) → f.delta = c.excess (c.diff rowSum [] i))
    ∧ (∀ (o : Operand) (e : SumErr), o ∈ c.found ++ c.expected ++ c.others → o.1 = e.tap → e.err ≠ 0 →
      (∃ f, c.judge [e] [] = some f ∧ f.internal = true) ∧ ∃ f, c.judge [] [e] = some f ∧ f.internal = true) := by
  refine ⟨c.judge_none, fun f hf => ?_, fun o e hmem htap herr =>
    ⟨c.judge_internal (c.internal_of_mem hmem (totalsDiffer_row htap herr)), c.judge_internal (c.internal_of_mem hmem (totalsDiffer_col htap herr))⟩⟩
  obtain ⟨hpoint, hinternal, hrows, hcols, hdelta⟩ := c.judge_some hf
  refine ⟨hpoint, hinternal.trans c.internal_sound, hrows ▸ c.mask_lt _, hcols ▸ c.mask_lt _, fun i hi => ⟨?_, ?_⟩, fun i hi hbreaks hfirst => ?_⟩
  · rw [hrows, c.mask_diffs_testBit _ _ hi]
  · rw [hcols, c.mask_diffs_testBit _ _ hi]
  · exact hdelta _ (c.find?_diffs hi hbreaks hfirst)

/-! ### The statement -/

/-- An input check's record names its ingress pipe. -/
theorem recordWord0_input {k : Nat} (hk : k < 8) (w : Word) (part group tile : Nat) (f : CheckFail) :
    recordWord0 w k part group tile f = (w &&& bitWord 62) ||| pack [(63, 63, 1), (61, 61, 0), (60, 58, k), (57, 54, f.point), (53, 49, part),
      (48, 37, group), (36, 22, tile), (0, 0, f.internal.toNat)] := by
  rw [recordWord0, dirOf, numOf, if_pos hk, if_pos hk]

/-- An output check's record names its egress pipe. -/
theorem recordWord0_output {k : Nat} (hk : 8 ≤ k) (w : Word) (part group tile : Nat) (f : CheckFail) :
    recordWord0 w k part group tile f = (w &&& bitWord 62) ||| pack [(63, 63, 1), (61, 61, 1), (60, 58, k - 8), (57, 54, f.point), (53, 49, part),
      (48, 37, group), (36, 22, tile), (0, 0, f.internal.toNat)] := by
  rw [recordWord0, dirOf, numOf, if_neg (Nat.not_lt.2 hk), if_neg (Nat.not_lt.2 hk)]

/-- Settles O11: first checks by `inputCheckDone_passes`, `inputCheckDone_kept`, `outTilePassed_moved` and `outputCheckDone_latched`, comparisons by
`Compare.judge_none`, `Compare.judge_some` and `Compare.judge_internal`. -/
theorem checksAreCounted : Obligations.ChecksAreCounted := by
  refine ⟨fun s k hrun => ⟨fun c hk hfind hfirst => ⟨?_, fun f x r hfails hpoints hbound hvalid u z hu hz hroom => ?_⟩,
      fun f hk hfind hfirst => ⟨?_, fun b x r hfails hvalid => ?_⟩⟩,
    fun s k f => ⟨fun hk hnone => ?_, fun hk hnone => ?_, exec_checkDone_stopped⟩, fun c => ?_⟩
  · obtain ⟨⟨_, _, _, _, _, _, hmoved⟩, -⟩ := inputCheckDone_passes hfind hfirst
    refine ⟨_, exec_checkDone_input hrun hk, ?_⟩
    rw [hmoved]
    exact ⟨rfl, rfl, rfl, rfl, rfl, rfl, rfl⟩
  · have hpipe : c.pipe = k.toNat := by simpa using List.find?_some hfind
    subst hu hz
    obtain ⟨hsnd, hreserve⟩ := inputCheckDone_kept hfind hfirst hfails hpoints hbound hvalid hroom
    rw [hpipe, recordWord0_input hk] at hsnd
    refine ⟨_, exec_checkDone_input hrun hk, hsnd, hreserve.trans ?_⟩
    rw [← hpipe]
    rfl
  · obtain ⟨⟨_, _, _, _, _, _, hmoved⟩, -⟩ := outTilePassed_moved (s := sndCount s 0x58 1) (k := k.toNat) hfirst
    refine ⟨_, exec_checkDone_output hrun hk, ?_⟩
    rw [outputCheckDone_passed hfind, hmoved]
    rfl
  · obtain ⟨hsnd, houts⟩ := outputCheckDone_latched hfind hfirst hfails hvalid
    rw [recordWord0_output hk] at hsnd
    exact ⟨_, exec_checkDone_output hrun hk, hsnd, houts⟩
  · cases hrun : arithRuns s with
    | false => exact exec_checkDone_stopped hrun
    | true => rw [exec_checkDone_input hrun hk, inputCheckDone_none _ hnone]
  · cases hrun : arithRuns s with
    | false => exact exec_checkDone_stopped hrun
    | true => rw [exec_checkDone_output hrun hk, outputCheckDone_none _ hnone]
  · have h := c.judged
    simp only [Compare.diff_sound] at h
    exact h

end Sys2Proof.Machine
end

section
/-! What a pipe's going out of service, the end of a collective and a replay leave of Sounding's records, of the replay reserve and of the
retired pipes (R203, R267, R271, R276). -/

namespace Sys2Proof.Machine

/-- From `s` to `t` Sounding's counters and its records of the pipes stand, no frame has entered the replay reserve, and no retired pipe is back. -/
structure SoundingKept (s t : State) : Prop where
  pipes : t.snd.pipes = s.snd.pipes
  ctr : t.snd.ctr = s.snd.ctr
  reserve : t.park.reserve ⊆ s.park.reserve
  retired : ∀ k, (s.pipe k).st = .retired → (t.pipe k).st = .retired

theorem SoundingKept.refl (s : State) : SoundingKept s s := ⟨rfl, rfl, fun _ h => h, fun _ h => h⟩

theorem SoundingKept.trans {s t u : State} (h : SoundingKept s t) (k : SoundingKept t u) : SoundingKept s u :=
  ⟨k.pipes.trans h.pipes, k.ctr.trans h.ctr, fun _ hr => h.reserve (k.reserve hr), fun j hj => k.retired j (h.retired j hj)⟩

theorem SoundingKept.sndPipe {s t : State} (h : SoundingKept s t) (k : Nat) : t.sndPipe k = s.sndPipe k := by
  unfold State.sndPipe
  rw [h.pipes]

section
variable {s u : State} (h : SoundingKept s u)
include h

/-- A change beside Sounding, the reserve and the pipes. -/
theorem SoundingKept.beside {v : State} (hpipes : v.snd.pipes = u.snd.pipes) (hctr : v.snd.ctr = u.snd.ctr)
    (hres : v.park.reserve = u.park.reserve) (hlark : v.lark.pipes = u.lark.pipes) : SoundingKept s v :=
  h.trans ⟨hpipes, hctr, fun _ hr => hres ▸ hr, fun k hk => (congrArg (fun t => (tget {} t k).st) hlark).trans hk⟩

theorem SoundingKept.raised (p i : Nat) : SoundingKept s (raise u p i) := h.beside rfl rfl rfl rfl

/-- A change of a pipe that does not bring a retired one back. -/
theorem SoundingKept.setPipe {k : Nat} {p : Pipe} (hp : (u.pipe k).st = .retired → p.st = .retired) : SoundingKept s (u.setPipe k p) := by
  refine h.trans ⟨rfl, rfl, fun _ hr => hr, fun j hj => ?_⟩
  by_cases hjk : j = k
  · subst hjk
    rw [State.setPipe_pipe_self]
    exact hp hj
  · rwa [State.setPipe_pipe_ne _ _ _ _ hjk]

end

theorem Moved.soundingKept {s t : State} (h : Moved s t) : SoundingKept s t := by
  obtain ⟨⟨_, _, _, _, _, _, rfl⟩, hst⟩ := h
  exact ⟨rfl, rfl, fun _ hr => hr, fun k hk => (hst k).trans hk⟩

theorem foldl_soundingKept {α : Type} {s u : State} {f : State → α → State} {l : List α}
    (hf : ∀ x a, SoundingKept s x → SoundingKept s (f x a)) (h : SoundingKept s u) : SoundingKept s (l.foldl f u) := by
  induction l generalizing u with
  | nil => exact h
  | cons a l ih => exact ih (hf u a h)

/-! ### Frames and ports -/

section
variable {s u : State} (h : SoundingKept s u)
include h

theorem larkCount_soundingKept (k off n : Nat) : SoundingKept s (larkCount u k off n) := h.setPipe id

theorem leaveBuffer_soundingKept (k id : Nat) : SoundingKept s (leaveBuffer u k id) := h.trans (leaveBuffer_moved ..).soundingKept

theorem modHeld_soundingKept (k id : Nat) (g : HeldFrame → HeldFrame) : SoundingKept s (modHeld u k id g) := h.trans (modHeld_moved ..).soundingKept

theorem queueOut_soundingKept (k : Nat) (f : OutFrame) : SoundingKept s (queueOut u k f) := h.setPipe id

theorem kcTouch_soundingKept (k i : Nat) : SoundingKept s (kcTouch u k i) :=
  (h.setPipe (k := k) (p := { u.pipe k with kc := tset {} (u.pipe k).kc i { tget {} (u.pipe k).kc i with used := u.lark.nextUse + 1 } }) id).beside
    rfl rfl rfl rfl

theorem grantPort_soundingKept (b : Nat) : SoundingKept s (grantPort u b) := by
  obtain ⟨_, _, _, hgrant⟩ := grantPort_frame u b
  rw [hgrant]
  exact h.beside rfl rfl rfl rfl

theorem noteBad_soundingKept (i : Nat) : SoundingKept s (noteBad u i) := by
  simp only [noteBad]
  split
  · exact h.beside rfl rfl rfl rfl
  · split
    · exact h.beside rfl rfl rfl rfl
    · exact h

theorem noteFabric_soundingKept : SoundingKept s (noteFabric u) := by
  unfold noteFabric
  split
  · exact noteBad_soundingKept h _
  · exact h

theorem fabricLost_soundingKept (w : FabWait) : SoundingKept s (fabricLost u w) := by
  unfold fabricLost
  split
  · exact h.beside rfl rfl rfl rfl
  · split
    · exact h.beside rfl rfl rfl rfl
    · exact h

theorem fabricSeal_soundingKept (key : Key) (k : Nat) (w : FabWait) : SoundingKept s (fabricSeal u key k w) := by
  unfold fabricSeal
  extract_lets st now n hdr f0 _ s1
  refine queueOut_soundingKept ?_ _ _
  unfold s1
  split
  · exact h.beside rfl rfl rfl rfl
  · exact h

end

theorem startFabric_soundingKept {s : State} (n : Nat) {u : State} (h : SoundingKept s u) : SoundingKept s (startFabric n u) := by
  induction n generalizing u with
  | zero => exact h
  | succ n ih =>
    unfold startFabric
    split
    · exact h
    · next w rest _ =>
      split
      · exact h
      · next k _ =>
        extract_lets _ s0 r
        have hs0 : SoundingKept s s0 := h.beside rfl rfl rfl rfl
        split
        · exact ih (fabricLost_soundingKept hs0 w)
        · split
          · refine ih (fabricSeal_soundingKept (kcTouch_soundingKept ?_ _ _) _ _ _)
            split
            · exact hs0
            · exact larkCount_soundingKept hs0 ..
          · split
            · exact h
            · refine larkCount_soundingKept ?_ ..
              exact h.beside rfl rfl rfl rfl

section
variable {s u : State} (h : SoundingKept s u)
include h

theorem fabricSend_soundingKept {cls ports part group hop : Nat} {payload : Bytes} :
    SoundingKept s (fabricSend u cls ports part group hop payload) := startFabric_soundingKept _ (h.beside rfl rfl rfl rfl)

theorem sendAbort_soundingKept {ports part group hop : Nat} {payload : Bytes} : SoundingKept s (sendAbort u ports part group hop payload) := by
  unfold sendAbort
  split
  · exact h
  · split
    · split <;> exact h.beside rfl rfl rfl rfl
    · extract_lets s1
      have hs1 : SoundingKept s s1 := noteFabric_soundingKept h
      split
      · exact fabricSend_soundingKept hs1
      · exact hs1.beside rfl rfl rfl rfl

/-! ### Aborts -/

theorem dropParked_soundingKept (p g t : Nat) : SoundingKept s (dropParked u p g t) := by
  unfold dropParked
  extract_lets mine s1
  have hs1 : SoundingKept s s1 := foldl_soundingKept (fun _ _ hx => larkCount_soundingKept hx ..) h
  exact hs1.trans ⟨rfl, rfl, fun _ hr => List.mem_of_mem_filter hr, fun _ hk => hk⟩

end

/-- A listed value that a function on a table does not take to the default stands there after it. -/
theorem tget_tmap_of_ne {α : Type} [DecidableEq α] {d : α} {f : Nat → α → α} {t : Table α} {k : Nat} (hd : tget d t k ≠ d) (hf : f k (tget d t k) ≠ d) :
    tget d (tmap d f t) k = f k (tget d t k) := by
  induction t with
  | nil => exact absurd rfl hd
  | cons e r ih =>
    obtain ⟨i, v⟩ := e
    have hkept : tmap d f ((i, v) :: r) = if f i v ≠ d then (i, f i v) :: tmap d f r else tmap d f r := by
      simp only [tmap, List.map_cons, List.filter_cons, decide_eq_true_eq]
    rw [hkept]
    by_cases hi : i = k
    · subst hi
      rw [tget, if_pos rfl] at hf ⊢
      rw [if_pos hf, tget, if_pos rfl]
    · rw [tget, if_neg hi] at hd hf ⊢
      split
      · rw [tget, if_neg hi, ih hd hf]
      · exact ih hd hf

section
variable {s u : State} (h : SoundingKept s u)
include h

theorem discardOuts_soundingKept (p g t : Nat) : SoundingKept s (discardOuts u p g t) := by
  unfold discardOuts
  extract_lets mine all s1 rel
  refine foldl_soundingKept (fun _ _ hx => leaveBuffer_soundingKept hx ..) (h.trans ⟨rfl, rfl, fun _ hr => hr, fun k hk => ?_⟩)
  have hd : ∀ q : Pipe, q.st = .retired → q ≠ {} := fun q hq hd => by rw [hd] at hq; exact absurd hq (by decide)
  have hpipe := tget_tmap_of_ne (f := fun (_ : Nat) (q : Pipe) => { q with
    outs := q.outs.filter (fun f => !mine f), waitKey := if q.waitKey = some (p, g, t) then none else q.waitKey }) (hd _ hk) (hd _ hk)
  exact (congrArg Pipe.st hpipe).trans hk

theorem idleWindow_soundingKept (wi : Nat) : SoundingKept s (idleWindow u wi) :=
  h.trans (((setWin_landed ..).trans (foldl_landed (fun x _ => setTileRec_landed x ..) ..)).moved).soundingKept

theorem refund_soundingKept (p : Nat) (e : Entry) : SoundingKept s (refund u p e) := by
  unfold refund
  split
  · exact h
  · exact h.beside rfl rfl rfl rfl

theorem abortEntry_soundingKept (p : Nat) (e : Entry) (i : AbortInfo) : SoundingKept s (abortEntry u p e i) := by
  unfold abortEntry
  split
  · split
    · exact h
    · extract_lets s1 _ s2
      have hs1 : SoundingKept s s1 := discardOuts_soundingKept h ..
      have hs2 : SoundingKept s s2 := by
        unfold s2
        split <;> exact hs1.beside rfl rfl rfl rfl
      exact hs2.beside rfl rfl rfl rfl
  · split
    · exact h
    · extract_lets origin code s1 s2 _ s3 s4 s5 s6 mine _ s6' s7 s8 ports s9
      have hs1 : SoundingKept s s1 := by
        unfold s1
        split
        · obtain ⟨_, hlatch⟩ := ((latchAbort_records u e.group code origin i.detail i.dl i.dr).noteAborted p e.ticket (entryEpoch u p e)).frame
          rw [hlatch]
          exact h.beside rfl rfl rfl rfl
        · exact h
      have hs2 : SoundingKept s s2 := by
        unfold s2
        split
        · exact hs1.beside rfl rfl rfl rfl
        · exact hs1
      have hs4 : SoundingKept s s4 := discardOuts_soundingKept (dropParked_soundingKept (u := s3) (hs2.beside rfl rfl rfl rfl) ..) ..
      have hs5 : SoundingKept s s5 := by
        unfold s5
        split
        · exact idleWindow_soundingKept hs4 _
        · exact hs4
      have hs6' : SoundingKept s s6' := (refund_soundingKept hs5 p e).beside rfl rfl rfl rfl
      have hs7 : SoundingKept s s7 := foldl_soundingKept (fun _ _ hx => leaveBuffer_soundingKept hx ..) hs6'
      have hs8 : SoundingKept s s8 := hs7.beside rfl rfl rfl rfl
      have hs9 : SoundingKept s s9 := by
        unfold s9
        split <;> exact sendAbort_soundingKept hs8
      exact (hs9.raised _ _).raised _ _

theorem abortEach_soundingKept (i : AbortInfo) (l : List (Nat × Entry)) : SoundingKept s (abortEach i l u) := by
  refine foldl_soundingKept (fun x a hx => ?_) h
  split
  · exact abortEntry_soundingKept hx ..
  · exact hx

theorem sendBytes_soundingKept (k : Nat) (f : OutFrame) : SoundingKept s (sendBytes u k f) := by
  have hsent : SoundingKept s ((bitsOf 12 f.ports).foldl (fun st b => sendOn st b (classVc f.cls) f.bytes) u) := by
    refine foldl_soundingKept (fun x b hx => ?_) h
    simp only [sendOn]
    split <;> exact hx.beside rfl rfl rfl rfl
  simp only [sendBytes]
  split
  · exact hsent
  · exact larkCount_soundingKept (larkCount_soundingKept (larkCount_soundingKept hsent ..) ..) ..

omit h in
theorem flushSome_soundingKept (n : Nat) {u : State} (h : SoundingKept s u) : SoundingKept s (flushSome n u) := by
  induction n generalizing u with
  | zero => exact h
  | succ n ih =>
    unfold flushSome
    split
    · exact h
    · refine ih (sendBytes_soundingKept ?_ ..)
      exact h.setPipe id

theorem plannedFall_soundingKept (detail : Nat) : SoundingKept s (plannedFall u detail) :=
  (flushSome_soundingKept _ (abortEach_soundingKept h ..)).beside rfl rfl rfl rfl

theorem updateLive_soundingKept : SoundingKept s (updateLive u) := by
  unfold updateLive
  split
  · split
    · exact h
    · refine foldl_soundingKept (fun _ _ hx => grantPort_soundingKept hx _) ?_
      exact h.beside rfl rfl rfl rfl
  · split
    · exact plannedFall_soundingKept h 0
    · exact h

/-! ### Binding -/

omit h in
/-- A choice that each place of a list keeps or takes for itself ends at a place of the list, or where it began. -/
theorem mem_of_foldl_choice {f : Option Nat → Nat → Option Nat} (hf : ∀ acc j, f acc j = some j ∨ f acc j = acc) {l : List Nat} {acc : Option Nat}
    {x : Nat} (h : l.foldl f acc = some x) : x ∈ l ∨ acc = some x := by
  induction l generalizing acc with
  | nil => exact .inr h
  | cons j l ih =>
    rcases ih h with hmem | hacc
    · exact .inl (List.mem_cons_of_mem j hmem)
    · rcases hf acc j with htake | hkeep
      · exact .inl (Option.some.inj (htake.symm.trans hacc) ▸ List.mem_cons_self)
      · exact .inr (hkeep.symm.trans hacc)

omit h in
/-- A pipe that takes a port over is in service (R276). -/
theorem fewestPorts_bindable {s : State} {k j : Nat} (h : fewestPorts s k = some j) : (s.pipe j).st ≠ .retired := by
  have hmem := (mem_of_foldl_choice (fun acc j => by
    cases acc with
    | none => exact .inl rfl
    | some b => exact ite_eq_or_eq _ (some j) (some b)) h).resolve_right nofun
  have htakes : takesPort s j = true := (Bool.and_eq_true_iff.1 (List.mem_filter.1 hmem).2).2
  intro hret
  simp [takesPort, bindable, hret] at htakes

theorem setPipeSt_soundingKept {k : Nat} {st : PipeSt} (hst : (u.pipe k).st = .retired → st = .retired) : SoundingKept s (setPipeSt u k st) := by
  have hset : SoundingKept s (raise (u.setPipe k { u.pipe k with st := st }) (larkPage k) 0) := (h.setPipe hst).raised _ _
  simp only [setPipeSt]
  split
  · exact h
  · split
    · exact startFabric_soundingKept _ hset
    · exact hset

theorem setBind_soundingKept {k : Nat} (m : Nat) (hk : (u.pipe k).st ≠ .retired) : SoundingKept s (setBind u k m) := by
  obtain ⟨_, _, _, hbind⟩ := setBind_eq u k m
  have hports : SoundingKept s (u.setPipe k (newPorts (u.pipe k) k m)) := h.setPipe id
  have hbound : SoundingKept s (rebound u k m) :=
    setPipeSt_soundingKept hports fun hst => absurd (by rwa [State.setPipe_pipe_self] at hst) hk
  rw [hbind]
  exact hbound.beside rfl rfl rfl rfl

theorem movePorts_soundingKept (k ports : Nat) : SoundingKept s (movePorts u k ports) := by
  refine foldl_soundingKept (fun x b hx => ?_) h
  split
  · exact hx
  · split
    · next j hj => exact setBind_soundingKept hx _ (fewestPorts_bindable hj)
    · exact hx

/-! ### Replays of input frames -/

theorem recordFrame_soundingKept (k : Nat) (f : Arrival) (st : Status) : SoundingKept s (recordFrame u k f st) := by
  unfold recordFrame
  extract_lets pg e e' s1
  have hs1 : SoundingKept s s1 := h.beside rfl rfl rfl rfl
  split
  · exact hs1
  · exact hs1.setPipe id

theorem dropLate_soundingKept (k id : Nat) : SoundingKept s (dropLate u k id) := larkCount_soundingKept (leaveBuffer_soundingKept h ..) ..

theorem damagedAbort_soundingKept (hd : Hdr) (i : AbortInfo) : SoundingKept s (damagedAbort u hd i) := by
  unfold damagedAbort
  split
  · exact abortEach_soundingKept h ..
  · split
    · exact h
    · split
      · exact abortEntry_soundingKept h ..
      · split
        · exact h.beside rfl rfl rfl rfl
        · exact h

theorem damaged_soundingKept (k : Nat) (f : HeldFrame) (i : AbortInfo) (record : Bool) : SoundingKept s (damaged u k f i record) := by
  unfold damaged
  extract_lets hd s1 s2 s3
  have hs1 : SoundingKept s s1 := leaveBuffer_soundingKept h ..
  have hs2 : SoundingKept s s2 := by
    unfold s2
    split
    · exact larkCount_soundingKept hs1 ..
    · exact hs1
  have hs3 : SoundingKept s s3 := by
    unfold s3
    split
    · exact recordFrame_soundingKept hs2 ..
    · exact hs2
  split
  · exact dropLate_soundingKept h ..
  · exact damagedAbort_soundingKept hs3 ..

theorem dropReserve_soundingKept (no : Nat) : SoundingKept s (dropReserve u no) :=
  h.trans ⟨rfl, rfl, fun _ hr => List.mem_of_mem_filter hr, fun _ hk => hk⟩

theorem replayDamaged_soundingKept (k : Nat) (f : HeldFrame) (r : Reserve) (st : Status) (record : Bool) :
    SoundingKept s (replayDamaged u k f r st record) := damaged_soundingKept (dropReserve_soundingKept h _) ..

theorem kcHold_soundingKept (k id i : Nat) : SoundingKept s (kcHold u k id i) := by
  unfold kcHold
  extract_lets p e s1
  have hs1 : SoundingKept s s1 := h.setPipe fun hst => hst
  refine modHeld_soundingKept ?_ ..
  exact hs1.beside rfl rfl rfl rfl

theorem kcMiss_soundingKept (k id : Nat) (r : KeyReq) : SoundingKept s (kcMiss u k id r) := by
  refine larkCount_soundingKept (modHeld_soundingKept ?_ ..) ..
  exact h.beside rfl rfl rfl rfl

omit h in
theorem lookupKeys_soundingKept (k id : Nat) (l : List KeyReq) {u : State} (h : SoundingKept s u) : SoundingKept s (lookupKeys u k id l).1 := by
  induction l generalizing u with
  | nil => exact h
  | cons r l ih =>
    unfold lookupKeys
    split
    · exact ih h
    · split
      · exact ih (larkCount_soundingKept (kcHold_soundingKept h ..) ..)
      · exact kcMiss_soundingKept h ..

theorem releaseKeys_soundingKept (k id : Nat) : SoundingKept s (releaseKeys u k id) := by
  unfold releaseKeys
  split
  · exact h
  · refine modHeld_soundingKept (h.setPipe fun hst => ?_) ..
    rwa [unholdKeys_st]

theorem replayTiles_soundingKept (k : Nat) (f : HeldFrame) (hd : Hdr) (r : Reserve) (plain : Bytes) :
    SoundingKept s (replayTiles u k f hd r plain) := by
  have hwrite (d : Desc) (wi : Nat) (xs : List (Fed × FailTile)) : SoundingKept s (xs.foldl (replayWrite k f hd d wi r) u) :=
    foldl_soundingKept (fun x _ hx => hx.beside (v := replayWrite k f hd d wi r x _) rfl rfl rfl rfl) h
  have hdrop : ∀ st record, SoundingKept s (replayDamaged u k f r st record) := replayDamaged_soundingKept h k f r
  unfold replayTiles
  split
  · extract_lets body rd ts rk xs
    split
    · exact hdrop ..
    · split
      · exact modHeld_soundingKept (releaseKeys_soundingKept (hwrite ..) ..) ..
      · exact hdrop ..
  · exact leaveBuffer_soundingKept (dropReserve_soundingKept h _) ..

theorem replayFrame_soundingKept (k : Nat) (f : HeldFrame) (no : Nat) : SoundingKept s (replayFrame u k f no) := by
  unfold replayFrame
  extract_lets hd l
  have hl : SoundingKept s l.1 := lookupKeys_soundingKept _ _ _ h
  split
  · exact leaveBuffer_soundingKept h ..
  · split
    · exact replayDamaged_soundingKept h ..
    · split
      · exact replayDamaged_soundingKept h ..
      · exact replayDamaged_soundingKept h ..
      · split
        · exact hl
        · split
          · exact replayDamaged_soundingKept hl ..
          · exact replayTiles_soundingKept hl ..

end
end Sys2Proof.Machine
end

section
/-! What Sounding makes of a replay's outcome (R267 to R271, Table 8.2): a pass strikes the failing pipe and moves its class, a failure is
unattributed. -/

namespace Sys2Proof.Machine

/-! ### Leaving service -/

/-- From `s` to `t` Sounding has put one pipe in a class. -/
structure Reclassed (s t : State) (k : Nat) (c : PipeClass) : Prop where
  ctr : t.snd.ctr = s.snd.ctr
  self : t.sndPipe k = { s.sndPipe k with cls := c }
  others : ∀ j, j ≠ k → t.sndPipe j = s.sndPipe j

theorem Reclassed.refl (s : State) (k : Nat) : Reclassed s s k (s.sndPipe k).cls := ⟨rfl, rfl, fun _ _ => rfl⟩

theorem SoundingKept.reclassed {s t : State} {k : Nat} {c : PipeClass} (h : SoundingKept (setClass s k c) t) : Reclassed s t k c :=
  ⟨h.ctr, (h.sndPipe k).trans (State.setSndPipe_sndPipe_self ..), fun j hj => (h.sndPipe j).trans (State.setSndPipe_sndPipe_ne _ _ _ _ hj)⟩

theorem Reclassed.of_kept {s t u : State} {k : Nat} {c : PipeClass} (h : SoundingKept s t) (r : Reclassed t u k c) : Reclassed s u k c :=
  ⟨r.ctr.trans h.ctr, by rw [r.self, h.sndPipe], fun j hj => (r.others j hj).trans (h.sndPipe j)⟩

theorem dropPorts_soundingKept {s u : State} (h : SoundingKept s u) (k : Nat) : SoundingKept s (dropPorts u k) := h.setPipe fun hst => hst

/-- A pipe that is suspended leaves service, and no other pipe's record changes (R271). -/
theorem suspendPipe_reclassed (s : State) (k : Nat) : Reclassed s (suspendPipe s k) k .suspended := by
  refine SoundingKept.reclassed ?_
  unfold suspendPipe
  extract_lets ports s1 _ s2 s3 s4
  have hs2 : SoundingKept s1 s2 := (SoundingKept.refl s1).beside rfl rfl rfl rfl
  have hs3 : SoundingKept s1 s3 := dropPorts_soundingKept hs2 k
  have hs4 : SoundingKept s1 s4 := by
    unfold s4
    split
    · next hst =>
      refine setPipeSt_soundingKept hs3 fun hret => ?_
      simp [hret] at hst
    · exact hs3
  exact updateLive_soundingKept (movePorts_soundingKept hs4 ..)

section
variable {s : State} {k : Nat} (h : (s.pipe k).st ≠ .retired)
include h

theorem setPipeSt_retired : setPipeSt s k .retired = raise (s.setPipe k { s.pipe k with st := .retired }) (larkPage k) 0 := by
  rw [setPipeSt, if_neg h, if_neg (fun hst => nomatch hst.1)]

theorem retirePipe_soundingKept : SoundingKept (setClass (setPipeSt s k .retired) k .retired) (retirePipe s k) := by
  unfold retirePipe
  rw [if_neg h]
  extract_lets ports s1 _ s2 hit s3 s4 _ s5 s6
  have hs2 : SoundingKept s1 s2 := by
    unfold s2 leaveRound roundOver
    split <;> exact (SoundingKept.refl s1).beside rfl rfl rfl rfl
  have hs3 : SoundingKept s1 s3 := foldl_soundingKept (fun _ _ hx => leaveBuffer_soundingKept hx ..) hs2
  have hs4 : SoundingKept s1 s4 := abortEach_soundingKept (dropPorts_soundingKept hs3 k) ..
  have hs5 : SoundingKept s1 s5 := hs4.setPipe fun hst => hst
  exact updateLive_soundingKept (((movePorts_soundingKept hs5 ..).raised ..).raised ..)

/-- A pipe that is retired leaves service for good, and no other pipe's record changes (R276). -/
theorem retirePipe_reclassed : Reclassed s (retirePipe s k) k .retired ∧ ((retirePipe s k).pipe k).st = .retired := by
  have hkept := retirePipe_soundingKept h
  have hset := setPipeSt_retired h
  refine ⟨.of_kept (setPipeSt_soundingKept (.refl s) fun _ => rfl) hkept.reclassed, hkept.retired k ?_⟩
  rw [hset]
  exact congrArg Pipe.st (State.setPipe_pipe_self s k _)

end

/-! ### A replay that passes -/

theorem satInc_eq (top n : Nat) : satInc top n = min top (n + 1) := by
  unfold satInc
  split <;> omega

/-- A transient adds a strike and a life count to the failing pipe (Table 8.2). -/
def struck (s : State) (k : Nat) : State :=
  raise (sndCount (s.setSndPipe k
    { s.sndPipe k with strikes := satInc 0xFF (s.sndPipe k).strikes, life := satInc 0xFFFF (s.sndPipe k).life }) 0x68 1) 0x56 1

theorem struck_sndPipe_self (s : State) (k : Nat) : (struck s k).sndPipe k =
    { s.sndPipe k with strikes := min 0xFF ((s.sndPipe k).strikes + 1), life := min 0xFFFF ((s.sndPipe k).life + 1) } := by
  rw [← satInc_eq, ← satInc_eq]
  exact State.setSndPipe_sndPipe_self ..

theorem struck_sndPipe_ne (s : State) {k j : Nat} (h : j ≠ k) : (struck s k).sndPipe j = s.sndPipe j := State.setSndPipe_sndPipe_ne _ _ _ _ h

theorem replayPassed_internal (s : State) (k : Nat) : replayPassed s k true = raise (sndCount s 0x70 1) 0x56 4 := if_pos rfl

theorem replayPassed_transient (s : State) (k : Nat) :
    replayPassed s k false = if s.snd.limit ≤ min 0xFFFF ((s.sndPipe k).life + 1) then retirePipe (struck s k) k
      else if (s.sndPipe k).cls = .healthy then setClass (struck s k) k .suspect
      else if (s.sndPipe k).cls = .suspect then suspendPipe (struck s k) k
      else struck s k := by
  rw [← satInc_eq]
  rfl

/-- A transient moves the struck pipe by Table 8.2. -/
theorem replayPassed_reclassed (s : State) (k : Nat) : ∃ c, Reclassed (struck s k) (replayPassed s k false) k c
    ∧ (min 0xFFFF ((s.sndPipe k).life + 1) < s.snd.limit →
      ((s.sndPipe k).cls = .healthy → c = .suspect) ∧ ((s.sndPipe k).cls = .suspect → c = .suspended))
    ∧ (s.snd.limit ≤ min 0xFFFF ((s.sndPipe k).life + 1) → (s.pipe k).st ≠ .retired →
      c = .retired ∧ ((replayPassed s k false).pipe k).st = .retired) := by
  rw [replayPassed_transient]
  split
  · next hlimit =>
    by_cases hst : (s.pipe k).st = .retired
    · have hsame : retirePipe (struck s k) k = struck s k := if_pos hst
      rw [hsame]
      exact ⟨_, .refl _ k, fun hlt => absurd hlimit (Nat.not_le.2 hlt), fun _ hne => absurd hst hne⟩
    · obtain ⟨hclass, hret⟩ := retirePipe_reclassed (s := struck s k) hst
      exact ⟨_, hclass, fun hlt => absurd hlimit (Nat.not_le.2 hlt), fun _ _ => ⟨rfl, hret⟩⟩
  · next hlimit =>
    have hretire : ∀ {P : Prop}, s.snd.limit ≤ min 0xFFFF ((s.sndPipe k).life + 1) → P := fun hle => absurd hle hlimit
    split
    · next hcls =>
      exact ⟨_, (SoundingKept.refl _).reclassed, fun _ => ⟨fun _ => rfl, fun hsus => absurd (hcls.symm.trans hsus) nofun⟩, fun hle => hretire hle⟩
    · next hcls =>
      split
      · exact ⟨_, suspendPipe_reclassed .., fun _ => ⟨fun hh => absurd hh hcls, fun _ => rfl⟩, fun hle => hretire hle⟩
      · next hsus => exact ⟨_, .refl _ k, fun _ => ⟨fun hh => absurd hh hcls, fun hs => absurd hs hsus⟩, fun hle => hretire hle⟩

/-! ### A replay that fails -/

theorem abortTile_soundingKept (s : State) (k part group ticket tile reason : Nat) : SoundingKept s (abortTile s k part group ticket tile reason) := by
  unfold abortTile
  split
  · exact abortEntry_soundingKept (.refl s) ..
  · exact .refl s

theorem suspectPipe_ctr (s : State) (k : Nat) : (suspectPipe s k).snd.ctr = s.snd.ctr := by
  unfold suspectPipe
  split <;> rfl

/-- A pipe's record once an unattributed outcome has named it. -/
def suspected (p : SndPipe) : SndPipe := if p.cls = .healthy then { p with cls := .suspect } else p

theorem suspected_suspected (p : SndPipe) : suspected (suspected p) = suspected p := by
  by_cases h : p.cls = .healthy <;> simp [suspected, h]

theorem suspectPipe_sndPipe (s : State) (k j : Nat) : (suspectPipe s k).sndPipe j = if j = k then suspected (s.sndPipe j) else s.sndPipe j := by
  by_cases hcls : (s.sndPipe k).cls = .healthy
  · rw [suspectPipe, if_pos hcls, setClass, State.setSndPipe_sndPipe_eq]
    split
    · next hj => rw [hj, suspected, if_pos hcls]
    · rfl
  · rw [suspectPipe, if_neg hcls]
    split
    · next hj => rw [hj, suspected, if_neg hcls]
    · rfl

/-- An unattributed outcome is counted, and leaves the failing pipe `SUSPECT`, and the replaying one where both are to blame (Table 8.2). -/
theorem unattributed_spec (s : State) (k part group ticket tile q reason : Nat) (both : Bool) :
    (unattributed s k part group ticket tile q reason both).snd.ctr = tset 0 s.snd.ctr 0x70 (tget 0 s.snd.ctr 0x70 + 1)
      ∧ ∀ j, (unattributed s k part group ticket tile q reason both).sndPipe j
        = if j = k ∨ both = true ∧ j = q then suspected (s.sndPipe j) else s.sndPipe j := by
  unfold unattributed
  extract_lets s1 s2
  obtain ⟨_, hlatch⟩ := latchOutcome_frame s2 k part group ticket tile q 3
  have hkept : SoundingKept s2 (abortTile (latchOutcome s2 k part group ticket tile q 3) k part group ticket tile reason) := by
    refine .trans ?_ (abortTile_soundingKept ..)
    rw [hlatch]
    exact (SoundingKept.refl s2).beside rfl rfl rfl rfl
  have hs1 (j : Nat) : s1.sndPipe j = s.sndPipe j := rfl
  refine ⟨hkept.ctr.trans ?_, fun j => (hkept.sndPipe j).trans ?_⟩
  · unfold s2
    split
    · rw [suspectPipe_ctr, suspectPipe_ctr]
      rfl
    · exact suspectPipe_ctr ..
  · unfold s2
    cases both with
    | false => simp only [Bool.false_eq_true, if_false, suspectPipe_sndPipe, hs1, false_and, or_false]
    | true =>
      simp only [if_true, suspectPipe_sndPipe, hs1, true_and]
      by_cases hk : j = k
      · simp only [hk, if_true, true_or]
        split
        · exact suspected_suspected _
        · rfl
      · simp only [hk, if_false, false_or]

/-! ### The checks of a replay -/

/-- From `s` to `u` no pipe's record, counter or state has changed. -/
structure Unjudged (s u : State) : Prop where
  pipes : u.snd.pipes = s.snd.pipes
  ctr : u.snd.ctr = s.snd.ctr
  limit : u.snd.limit = s.snd.limit
  states : ∀ j, (u.pipe j).st = (s.pipe j).st

theorem Unjudged.trans {s t u : State} (h : Unjudged s t) (k : Unjudged t u) : Unjudged s u :=
  ⟨k.pipes.trans h.pipes, k.ctr.trans h.ctr, k.limit.trans h.limit, fun j => (k.states j).trans (h.states j)⟩

theorem Unjudged.sndPipe {s u : State} (h : Unjudged s u) (k : Nat) : u.sndPipe k = s.sndPipe k := by
  unfold State.sndPipe
  rw [h.pipes]

theorem Moved.unjudged {s u : State} (h : Moved s u) : Unjudged s u := by
  obtain ⟨⟨_, _, _, _, _, _, rfl⟩, hst⟩ := h
  exact ⟨rfl, rfl, rfl, hst⟩

theorem latchOutcome_unjudged (s : State) (k part group ticket tile q outcome : Nat) :
    Unjudged s (latchOutcome s k part group ticket tile q outcome) := by
  obtain ⟨_, h⟩ := latchOutcome_frame s k part group ticket tile q outcome
  rw [h]
  exact ⟨rfl, rfl, rfl, fun _ => rfl⟩

theorem tileKept_unjudged (s : State) (r : Reserve) (tile : Nat) : Unjudged s (tileKept s r tile) := by
  unfold tileKept
  split <;> exact ⟨rfl, rfl, rfl, fun _ => rfl⟩

section
variable {s : State} {c : Check} {r : Reserve} {x : TileWork}

/-- A replayed input tile that fails its check again is unattributed (R269). -/
theorem replayChecked_fails (h : x.fails ≠ []) : ∃ reason, replayChecked s c r x
    = unattributed (checkOver (tileKept s r c.tile) c) r.pipe r.part r.group r.ticket c.tile c.pipe reason true := by
  have hempty : (!x.fails.isEmpty) = true := by rw [List.isEmpty_eq_false_iff.2 h]; rfl
  simp only [replayChecked, hempty, if_true]
  split <;> exact ⟨_, rfl⟩

/-- A replayed input tile that passes its check off the bound is judged by Table 8.2. -/
theorem replayChecked_passes (h : x.fails = []) (hbound : atBound c.job.o = false) : ∃ u, Unjudged s u
    ∧ replayChecked s c r x = replayPassed u r.pipe (r.tiles.any (fun t => t.tile = c.tile && t.internal)) := by
  simp only [replayChecked, hbound, h, List.isEmpty_nil, Bool.not_true, Bool.false_eq_true, if_false]
  exact ⟨_, (((tileKept_unjudged s r c.tile).trans (modFlow_landed ..).moved.unjudged).trans (latchOutcome_unjudged ..)).trans
    (inputPassed_moved ..).unjudged, rfl⟩

end

/-- The last tile of a recomputed frame passes, and its pipe is judged by Table 8.2. -/
theorem outTilePassed_redone {s : State} {k : Nat} {f : OutFrame} {q : Nat} (hlast : f.waits = 1) (hredone : f.redone = some q) :
    ∃ u, Unjudged s u ∧ outTilePassed s k f = replayPassed u k f.internal := by
  simp only [outTilePassed, hlast, Nat.lt_irrefl, if_false, redoPassed, hredone]
  exact ⟨_, (((modOut_moved ..).trans (frameChecked_moved ..)).unjudged).trans (latchOutcome_unjudged ..), rfl⟩

end Sys2Proof.Machine
end

section
/-! The replay commands, and the two statements on the outcome of a replay (R267 to R271). -/

namespace Sys2Proof.Machine

/-! ### The commands -/

section
variable {s : State} {k : BitVec 4} {e : EccIn}

theorem exec_ingressReplay (hrun : arithRuns s = true) : exec (.ingressReplay k e) s = .next (eccAdded s (ingressReplay s k.toNat) e) := by
  simp only [exec, execIngressReplay, whenArith, hrun, if_true]

theorem exec_egressReplay (hrun : arithRuns s = true) : exec (.egressReplay k e) s = .next (eccReplayed s (egressReplay s k.toNat) k.toNat e) := by
  simp only [exec, execEgressReplay, whenArith, hrun, if_true]

theorem exec_ingressReplay_none (h : s.park.reserve.find? (fun r => r.pipe = k.toNat && replayReady s r) = none) :
    exec (.ingressReplay k e) s = .next s := by
  have hsame : whenArith s (fun x => ingressReplay x k.toNat) = s := by
    simp only [whenArith, ingressReplay, h, ite_self]
  simp only [exec, execIngressReplay, hsame, eccAdded_same]

theorem exec_egressReplay_none (h : (s.pipe k.toNat).outs.find? (fun f => f.failed) = none) : exec (.egressReplay k e) s = .next s := by
  have hsame : whenArith s (fun x => egressReplay x k.toNat) = s := by
    simp only [whenArith, egressReplay, h, ite_self]
  simp only [exec, execEgressReplay, hsame, eccReplayed, h]

end

section
variable {s : State} {k : Nat}

/-- A frame that waits in the reserve is put at the head of a pipe's buffer, and its entry is marked (R267). -/
def replayTaken (s : State) (k : Nat) (r : Reserve) : State :=
  let q := replayPipe s k
  let f : HeldFrame := { id := s.lark.nextId, arr := r.arr, st := .queued, again := true, seen := r.seen, replay := some r.no }
  { s.setPipe q { s.pipe q with buf := f :: (s.pipe q).buf } with
    lark.nextId := s.lark.nextId + 1, park.reserve := s.park.reserve.map (fun x => if x.no = r.no then { x with taken := true } else x) }

theorem ingressReplay_soundingKept {r : Reserve} (h : s.park.reserve.find? (fun r => r.pipe = k && replayReady s r) = some r) :
    SoundingKept (replayTaken s k r) (ingressReplay s k) := by
  simp only [ingressReplay, h]
  exact replayFrame_soundingKept (.refl _) ..

variable {f : OutFrame} (h : (s.pipe k).outs.find? (fun f => f.failed) = some f)
include h

theorem egressReplay_bound (hbound : outAtBound s f = true) :
    egressReplay s k = unattributed s k f.part f.group f.ticket f.bad (replayPipe s k) 3 false := by
  simp only [egressReplay, h, hbound, if_true]

theorem egressReplay_again (hbound : outAtBound s f = false) : egressReplay s k = modOut (if f.stored then releaseWrites s f else s) k f
    { f with failed := false, waits := f.count, redone := some (replayPipe s k) } := by
  simp only [egressReplay, h, hbound, Bool.false_eq_true, if_false]

end

/-! ### Replays that fail -/

section
variable (s : State)

theorem faultWrite_snd (c : Check) (w : List Int) : (faultWrite s c w).snd = s.snd := by
  obtain ⟨_, h⟩ := faultWrite_phlx s c w
  rw [h]

theorem faultStore_snd (f : OutFrame) (x : TileFault) : (faultStore s f x).snd = s.snd := by
  obtain ⟨_, h⟩ := faultStore_phlx s f x
  rw [h]

theorem latchFails_pipes (k part group ticket tile : Nat) (fs : List CheckFail) : (latchFails s k part group ticket tile fs).snd.pipes = s.snd.pipes := by
  obtain ⟨_, _, _, _, h⟩ := latchFails_frame s k part group ticket tile fs
  rw [h]

/-- Failing checks count no unattributed outcome. -/
theorem latchFails_ctr (k part group ticket tile : Nat) (fs : List CheckFail) :
    tget 0 (latchFails s k part group ticket tile fs).snd.ctr 0x70 = tget 0 s.snd.ctr 0x70 := by
  obtain ⟨_, _, _, _, h⟩ := latchFails_frame s k part group ticket tile fs
  rw [h]
  exact failsCounted_ne _ _ (by decide)

/-- Where a check counts at another offset, the counter of unattributed outcomes stands. -/
theorem sndCount_ctr_ne {off other : Nat} (h : other ≠ off) (n : Nat) : tget 0 (sndCount s off n).snd.ctr other = tget 0 s.snd.ctr other :=
  tget_tset_ne _ _ _ _ _ h

end

/-- The failing check of a replayed input tile is unattributed (R269). -/
theorem inputCheckDone_unattributed {s : State} {k no : Nat} {c : Check} {r : Reserve} {f : TileFault}
    (hfind : s.snd.checks.find? (fun x => x.pipe = k) = some c) (hreplay : c.replay = some no)
    (hr : s.park.reserve.find? (fun r => r.no = no) = some r) (hfails : (c.job.run f).fails ≠ []) :
    ∃ u reason, u.snd.pipes = s.snd.pipes ∧ tget 0 u.snd.ctr 0x70 = tget 0 s.snd.ctr 0x70
      ∧ inputCheckDone s k (some f) = unattributed u r.pipe r.part r.group r.ticket c.tile k reason true := by
  have hpipe : c.pipe = k := by simpa using List.find?_some hfind
  rw [inputCheckDone_replay hfind hreplay hr]
  obtain ⟨reason, h⟩ := replayChecked_fails (c := c) (r := r) (x := checkedWork c (some f)) hfails
  have hkept (v : State) : Unjudged v (checkOver (tileKept v r c.tile) c) := (tileKept_unjudged ..).trans (checkOver_moved ..).unjudged
  refine ⟨_, reason, ?_, ?_, hpipe ▸ h⟩
  · rw [(hkept _).pipes, latchFails_pipes, faultWrite_snd]
    rfl
  · rw [(hkept _).ctr, latchFails_ctr, faultWrite_snd]
    exact sndCount_ctr_ne _ (by decide) 1

/-- The failing check of a recomputed frame is unattributed (R269). -/
theorem outputCheckDone_unattributed {s : State} {k q : Nat} {o : OutFrame} {f : TileFault}
    (hfind : (s.pipe k).outs.find? (fun x => 0 < x.waits && !x.failed) = some o) (hredone : o.redone = some q) (hfails : outFails o f ≠ []) :
    ∃ u, u.snd.pipes = s.snd.pipes ∧ tget 0 u.snd.ctr 0x70 = tget 0 s.snd.ctr 0x70
      ∧ outputCheckDone s k (some f) = unattributed u k o.part o.group o.ticket o.bad q 1 true := by
  refine ⟨_, ?_, ?_, outputCheckDone_again hfind hfails hredone⟩
  · rw [latchFails_pipes, faultStore_snd]
    rfl
  · rw [latchFails_ctr, faultStore_snd]
    exact sndCount_ctr_ne _ (by decide) 1

/-- What an unattributed outcome with two pipes to blame leaves, told from the state before its check. -/
theorem unattributed_both {s u : State} (hpipes : u.snd.pipes = s.snd.pipes) (hctr : tget 0 u.snd.ctr 0x70 = tget 0 s.snd.ctr 0x70)
    (k part group ticket tile q reason : Nat) :
    tget 0 (unattributed u k part group ticket tile q reason true).snd.ctr 0x70 = tget 0 s.snd.ctr 0x70 + 1
      ∧ ∀ j, (unattributed u k part group ticket tile q reason true).sndPipe j
        = if (j = k ∨ j = q) ∧ (s.sndPipe j).cls = .healthy then { s.sndPipe j with cls := .suspect } else s.sndPipe j := by
  obtain ⟨hcount, hclass⟩ := unattributed_spec u k part group ticket tile q reason true
  refine ⟨by rw [hcount, tget_tset_self, hctr], fun j => (hclass j).trans ?_⟩
  have hj : u.sndPipe j = s.sndPipe j := by
    unfold State.sndPipe
    rw [hpipes]
  rw [hj, ite_and]
  simp only [true_and, suspected]

/-- Settles O13: the failing checks by `inputCheckDone_unattributed` and `outputCheckDone_unattributed`, the frame at the bound by
`egressReplay_bound`, and what they leave of the pipes' records by `unattributed_spec`. -/
theorem failedReplaysAbort : Obligations.FailedReplaysAbort := by
  refine ⟨fun s c k q hrun h => ?_, fun s k e => ⟨fun f hrun hfind hbound => ?_, exec_ingressReplay_none, exec_egressReplay_none⟩⟩
  · rcases h with ⟨d, ck, no, r, f, hd, hfind, hreplay, hr, rfl, rfl, hfails, rfl⟩ | ⟨d, o, f, hd, hfind, hredone, rfl, hfails, rfl⟩
    · obtain ⟨u, reason, hpipes, hctr, hdone⟩ := inputCheckDone_unattributed hfind hreplay hr hfails
      exact ⟨_, (exec_checkDone_input hrun hd).trans (congrArg _ hdone), unattributed_both hpipes hctr ..⟩
    · obtain ⟨u, hpipes, hctr, hdone⟩ := outputCheckDone_unattributed hfind hredone hfails
      exact ⟨_, (exec_checkDone_output hrun hd).trans (congrArg _ hdone), unattributed_both hpipes hctr ..⟩
  · obtain ⟨hcount, hclass⟩ := unattributed_spec s k.toNat f.part f.group f.ticket f.bad (replayPipe s k.toNat) 3 false
    refine ⟨_, by rw [exec_egressReplay hrun, egressReplay_bound hfind hbound], hcount, fun j => (hclass j).trans ?_⟩
    rw [ite_and]
    simp only [Bool.false_eq_true, false_and, or_false, suspected]

/-! ### Replays that pass -/

/-- Where the last check of a replay passes, the failing pipe is judged by Table 8.2. -/
theorem exec_checkDone_judged {s : State} {c : Instr} {k off : Nat} {internal : Bool} (hrun : arithRuns s = true)
    (h : (∃ q ck no r, q.toNat < 8 ∧ s.snd.checks.find? (fun x => x.pipe = q.toNat) = some ck ∧ ck.replay = some no
        ∧ s.park.reserve.find? (fun r => r.no = no) = some r ∧ atBound ck.job.o = false ∧ r.pipe = k
        ∧ r.tiles.any (fun y => y.tile = ck.tile && y.internal) = internal
        ∧ off = 0x50 ∧ c = .soundingCheckDone q none)
      ∨ (∃ q f j, 8 ≤ q.toNat ∧ (s.pipe q.toNat).outs.find? (fun x => 0 < x.waits && !x.failed) = some f ∧ f.waits = 1 ∧ f.redone = some j
        ∧ q.toNat = k ∧ f.internal = internal ∧ off = 0x58 ∧ c = .soundingCheckDone q none)) :
    ∃ u, Unjudged (sndCount s off 1) u ∧ exec c s = .next (replayPassed u k internal) ∧ off < 0x68 := by
  rcases h with ⟨q, ck, no, r, hq, hfind, hreplay, hr, hbound, rfl, rfl, rfl, rfl⟩ | ⟨q, f, j, hq, hfind, hlast, hredone, rfl, rfl, rfl, rfl⟩
  · obtain ⟨u, hu, hpassed⟩ := replayChecked_passes (s := checkTaken s ck) (c := ck) (r := r) (x := checkedWork ck none) rfl hbound
    have htaken : Unjudged (sndCount s 0x50 1) (checkTaken s ck) := ⟨rfl, rfl, rfl, fun _ => rfl⟩
    refine ⟨u, htaken.trans hu, ?_, by decide⟩
    rw [exec_checkDone_input hrun hq, inputCheckDone_replay hfind hreplay hr none]
    simp only [checkedWork, faultWrite_exact]
    exact congrArg _ hpassed
  · obtain ⟨u, hu, hpassed⟩ := outTilePassed_redone (s := sndCount s 0x58 1) (k := q.toNat) hlast hredone
    exact ⟨u, hu, (exec_checkDone_output hrun hq).trans (congrArg _ ((outputCheckDone_passed hfind).trans hpassed)), by decide⟩

/-- Settles O12: the judgements by `exec_checkDone_judged`, `replayPassed_internal` and `replayPassed_reclassed`, the commands by
`ingressReplay_soundingKept` and `egressReplay_again`. -/
theorem replaysClassifyPipes : Obligations.ReplaysClassifyPipes := by
  refine ⟨fun s c k off internal hrun h => ?_, fun s k e hrun => ⟨fun r hr => ?_, fun f hfind hbound => ?_⟩⟩
  · obtain ⟨u, hu, hexec, hoff⟩ := exec_checkDone_judged hrun h
    have hctr : u.snd.ctr = tset 0 s.snd.ctr off (tget 0 s.snd.ctr off + 1) := hu.ctr
    have hk : u.sndPipe k = s.sndPipe k := hu.sndPipe k
    refine ⟨?_, ?_⟩
    · rintro rfl
      rw [replayPassed_internal] at hexec
      refine ⟨_, hexec, hu.pipes, ?_⟩
      have hcount : tget 0 u.snd.ctr 0x70 = tget 0 s.snd.ctr 0x70 := by rw [hctr, tget_tset_ne _ _ _ _ _ (by omega)]
      rw [← hctr, ← hcount]
      rfl
    · rintro rfl
      obtain ⟨cls, hclass, hmoves, hretires⟩ := replayPassed_reclassed u k
      have hcount : tget 0 u.snd.ctr 0x68 = tget 0 s.snd.ctr 0x68 := by rw [hctr, tget_tset_ne _ _ _ _ _ (by omega)]
      have hlimit : u.snd.limit = s.snd.limit := hu.limit
      have hst : (u.pipe k).st = (s.pipe k).st := hu.states k
      have hself := hclass.self
      rw [struck_sndPipe_self, hk] at hself
      rw [hk, hlimit] at hmoves hretires
      rw [hst] at hretires
      refine ⟨_, hexec, hclass.ctr.trans ?_, by rw [hself], by rw [hself], fun j hj => ?_, fun hlt => ?_, fun hle hne => ?_⟩
      · rw [← hctr, ← hcount]
        rfl
      · rw [hclass.others j hj, struck_sndPipe_ne u hj]
        exact hu.sndPipe j
      · rw [hself]
        exact hmoves hlt
      · rw [hself]
        exact hretires hle hne
  · have hkept := ingressReplay_soundingKept hr
    refine ⟨_, exec_ingressReplay hrun, fun x hx hno => ?_, fun x hx hno => ?_, hkept.pipes, hkept.ctr⟩
    · obtain ⟨y, -, rfl⟩ := List.mem_map.1 (hkept.reserve hx)
      split
      · rfl
      · next hne =>
        rw [if_neg hne] at hno
        exact absurd hno hne
    · obtain ⟨y, hy, rfl⟩ := List.mem_map.1 (hkept.reserve hx)
      split
      · next heq => exact absurd (by rw [if_pos heq]; exact heq) hno
      · exact hy
  · obtain ⟨_, hwritten⟩ := releaseWrites_phlx s f
    rw [exec_egressReplay hrun, egressReplay_again hfind hbound]
    refine ⟨_, rfl, ?_⟩
    cases hstored : f.stored with
    | false =>
      simp only [Bool.false_eq_true, if_false]
      exact ⟨rfl, modOut_pipe_self .., fun _ => rfl, rfl, rfl⟩
    | true =>
      simp only [if_true, hwritten]
      exact ⟨rfl, modOut_pipe_self .., nofun, rfl, rfl⟩

end Sys2Proof.Machine
end

section
/-! `SND_CTX_CMD` (R278 to R281): a context command that starts stands and runs its channel; a save first has its key pushed, or ends for want of
one. -/

namespace Sys2Proof.Machine

/-! ### Slots -/

section
variable {s d : State} (h : d.chrt = s.chrt)
include h

theorem activeSlot_of_chrt (cls part owner epoch : Nat) : activeSlot d cls part owner epoch = activeSlot s cls part owner epoch := by
  unfold activeSlot findSlot
  rw [h]

theorem slotSound_of_chrt (i : Nat) : slotSound d i = slotSound s i := by
  unfold slotSound checkedClass slotTag State.slot
  rw [h]

theorem slotKey_of_chrt (i : Nat) : slotKey d i = slotKey s i := by
  unfold slotKey
  rw [slotSound_of_chrt h, State.slot, h]
  rfl

/-- The check of a slot that is read looks at Chartroom alone (R363). -/
theorem noteBad_chrt_of_chrt (i : Nat) : (noteBad d i).chrt = (noteBad s i).chrt := by
  have hslot : d.slot i = s.slot i := by rw [State.slot, State.slot, h]
  simp only [noteBad, slotSound_of_chrt h, hslot]
  split
  · simp only [raise, State.setPage, State.setSlot, h]
  · split
    · simp only [State.setSlot, h]
    · exact h

end

theorem noteBad_frame (s : State) (i : Nat) : ∃ ps chrt, noteBad s i = { s with bus.pages := ps, chrt := chrt } := by
  simp only [noteBad]
  split
  · exact ⟨_, _, rfl⟩
  · split <;> exact ⟨_, _, rfl⟩

/-! ### The save key -/

/-- From `s` to `t` a key has been looked for, and may have been pushed. -/
def KeySought (s t : State) : Prop := ∃ ps chrt lark, t = { s with bus.pages := ps, chrt := chrt, lark := lark }

theorem noteBad_keySought (s : State) (i : Nat) : KeySought s (noteBad s i) := by
  obtain ⟨_, _, h⟩ := noteBad_frame s i
  exact ⟨_, _, _, h⟩

theorem kcPush_keySought {s t : State} (h : KeySought s t) (k : Nat) (r : KeyReq) (key : Key) : KeySought s (kcPush t k r key).1 := by
  obtain ⟨_, _, _, rfl⟩ := h
  simp only [kcPush]
  split <;> exact ⟨_, _, _, rfl⟩

section
variable {s : State} {part epoch : Nat} (pipe group : Nat) (salt : BitVec 128)

theorem saveKeyPush_none (h : activeSlot s 7 part 0 epoch = none) : saveKeyPush s pipe part group epoch salt = (s, .error .tagFail) := by
  simp only [saveKeyPush, h]

section
variable {i : Nat} (h : activeSlot s 7 part 0 epoch = some i)
include h

theorem saveKeyPush_bad (hkey : slotKey (noteBad s i) i = none) : saveKeyPush s pipe part group epoch salt = (noteBad s i, .error .tagFail) := by
  simp only [saveKeyPush, h, hkey]

variable {ck : Key} (hkey : slotKey (noteBad s i) i = some ck)
include hkey

theorem saveKeyPush_denied (hdest : (atMask ((noteBad s i).slot i).attr).testBit pipe = false) :
    saveKeyPush s pipe part group epoch salt = (noteBad s i, .error .destDenied) := by
  simp only [saveKeyPush, h, hkey, hdest, Bool.not_false, if_true]

theorem saveKeyPush_ok (hdest : (atMask ((noteBad s i).slot i).attr).testBit pipe = true) :
    ∃ t, KeySought s t ∧ saveKeyPush s pipe part group epoch salt = (t, .ok (saveKey ck salt part group)) := by
  simp only [saveKeyPush, h, hkey, hdest, Bool.not_true, Bool.false_eq_true, if_false]
  obtain ⟨_, _, _, hpush⟩ := kcPush_keySought (noteBad_keySought s i) pipe { pipe := pipe, use := 3, part := part, sel := group, epoch := epoch }
    (saveKey ck salt part group)
  rw [hpush]
  exact ⟨_, ⟨_, _, _, rfl⟩, rfl⟩

end
end

/-! ### The end of a context command -/

/-- A context command ends: its result, `CTX_DONE` and the record of a failure are all that changes (R59, R283). -/
theorem ctxEnd_spec (s : State) (x : CtxCmd) (st : Status) :
    (∃ ps, ctxEnd s x st = { s with bus.pages := ps, snd.ctx := none, snd.ctxResult := pack [(63, 48, stCode st), (47, 36, x.chunks)] })
      ∧ bitOf ((ctxEnd s x st).page 0x56).cause 5 = true := by
  simp only [ctxEnd, ctxEndCode]
  split
  · exact ⟨⟨_, rfl⟩, raise_cause _ _ (by decide)⟩
  · exact ⟨⟨_, rfl⟩, CausesKept.pageError _ _ _ _ _ _ _ (raise_cause _ _ (by decide))⟩

/-! ### The command -/

/-- The lower 43 bits of the register are zero. -/
theorem mbz_ctxCmd {v : Word} (h : fld v 42 0 = 0) : mbz v (maskBits 42 0) = none := by
  refine mbz_ok ?_
  have hmask : maskBits 42 0 = 2 ^ 43 - 1 := rfl
  rw [hmask, Nat.and_two_pow_sub_one_eq_mod]
  exact h

theorem pumpReached_reaches {s : State} {a : Access} {p off : Nat} (h : WriteReaches s a p off) (t : State) :
    pumpReached s a (regAt p off) 0xFF t = pumpAll busFn t := by
  have hgate : gate s a (regAt p off) 0xFF true = .pass := h
  simp only [pumpReached, hgate]

/-- A context command as it starts. -/
def ctxStarted (s : State) (a : Access) (save : Bool) (wi ch : Nat) (salt : BitVec 128) (fault : Option (Nat × TileFault)) : CtxCmd :=
  { acc := a, save := save, win := wi, ch := ch, chunks := 0, epoch := atEpoch (s.slot (34 + 4 * (s.win wi).part)).attr, salt := salt, passed := 0
    buf := [], hdr := [], headed := false, pipe := (ctxPipe s).getD 8, key := 0, fault := fault }

/-- A save as it starts, with the salt it has drawn. -/
def saveStarted (s : State) (a : Access) (v : Word) (fault : Option (Nat × TileFault)) : CtxCmd :=
  ctxStarted s a true (fld v 59 47) (fld v 46 43) (BitVec.ofNat 128 (Config.freeNat s.free)) fault

/-- What a save that has drawn its salt does next: it runs under its key, or ends for want of one (R280). -/
def saveGoesOn (s : State) (x : CtxCmd) (mgmt : Bool) : State :=
  match saveKeyPush s x.pipe (s.win x.win).part (s.win x.win).group x.epoch x.salt with
  | (t, .error st) => ctxEnd { t with snd.ctx := some x } x st
  | (t, .ok key) => startRun { t with snd.ctx := some { x with key := key } } x.ch mgmt

section
variable {s t : State} {x : CtxCmd} {mgmt : Bool}

theorem saveGoesOn_error {st : Status}
    (h : saveKeyPush s x.pipe (s.win x.win).part (s.win x.win).group x.epoch x.salt = (t, .error st)) :
    saveGoesOn s x mgmt = ctxEnd { t with snd.ctx := some x } x st := by
  simp only [saveGoesOn, h]

theorem saveGoesOn_ok {key : Key} (h : saveKeyPush s x.pipe (s.win x.win).part (s.win x.win).group x.epoch x.salt = (t, .ok key)) :
    saveGoesOn s x mgmt = startRun { t with snd.ctx := some { x with key := key } } x.ch mgmt := by
  simp only [saveGoesOn, h]

end

/-- The state in which a save that starts has drawn its salt. -/
def saltDrawn (s : State) : State := (drbgDraw (answer s 0) 0).2

theorem saltDrawn_frame (s : State) : ∃ h, saltDrawn s = { answer s 0 with hashu := h, free := s.free + 1 } := by
  simp only [saltDrawn, drbgDraw]
  split <;> exact ⟨_, rfl⟩

theorem saltDrawn_win (s : State) : (saltDrawn s).win = s.win := by
  obtain ⟨_, hdrawn⟩ := saltDrawn_frame s
  rw [hdrawn]
  rfl

theorem saltDrawn_chrt (s : State) : (saltDrawn s).chrt = s.chrt := by
  obtain ⟨_, hdrawn⟩ := saltDrawn_frame s
  rw [hdrawn]
  rfl

section
variable {s : State} {a : Access} {v : Word} (fault : Option (Nat × TileFault)) (hr : WriteReaches s a 0x56 0xC8)
include hr

theorem ctxCmd_busy (hbusy : ctxBusy s (fld v 59 47) (fld v 46 43) = true) : ctxCmd s a v fault = refuse s a true ctxCmdAddr .wrongState := by
  unfold ctxCmd
  extract_lets save wi ch w badOp
  rw [refuseIf_true _ (by rw [hbusy, Bool.true_or])]
  exact regWrite_stateRefused _ _ hr

variable (hz : fld v 42 0 = 0) (hch : fld v 46 43 < 12) (hkind : (s.win (fld v 59 47)).kind ≠ .free)
  (howner : chanOwner s (fld v 46 43) = some (s.win (fld v 59 47)).part) (hbusy : ctxBusy s (fld v 59 47) (fld v 46 43) = false)
include hz hch hkind howner

omit hr in
/-- The argument checks of a context command pass (R278). -/
theorem ctxCmd_argsPass (hop : fld v 63 60 = 1 ∨ fld v 63 60 = 2) : orElse (mbz v (maskBits 42 0))
    (refuseIf ((decide (fld v 63 60 ≠ 1) && decide (fld v 63 60 ≠ 2)) || 12 ≤ fld v 46 43 || (s.win (fld v 59 47)).kind = .free
      || chanOwner s (fld v 46 43) ≠ some (s.win (fld v 59 47)).part) .badArg) = none := by
  rw [mbz_ctxCmd hz]
  refine refuseIf_false _ ?_
  rcases hop with hop | hop <;> simp [hop, hkind, howner, hch]

include hbusy

theorem ctxCmd_save (hop : fld v 63 60 = 1) (hserves : drbgServes s 0 = true) :
    ctxCmd s a v fault = saveGoesOn (saltDrawn s) (saveStarted s a v fault) (isMgmt a) := by
  unfold ctxCmd
  extract_lets save wi ch w badOp
  rw [refuseIf_false _ (by simp [ch, wi, hbusy, hserves]), ctxCmd_argsPass hz hch hkind howner (.inl hop)]
  refine (regWrite_taken _ hr).trans ?_
  extract_lets d epoch salt x
  rw [if_neg (by simp [save, hop])]
  have hd : d = drbgDraw (answer s 0) 0 := if_pos hop
  have hx : x = saveStarted s a v fault := by
    have hsave : decide save = true := decide_eq_true hop
    simp only [x, salt, hd, hsave]
    rfl
  rw [← hx]
  simp only [saveGoesOn, saltDrawn_win]
  rw [hd]
  rfl

theorem ctxCmd_restore (hop : fld v 63 60 = 2) :
    ctxCmd s a v fault
      = startRun { answer s 0 with snd.ctx := some (ctxStarted s a false (fld v 59 47) (fld v 46 43) 0 fault) } (fld v 46 43) (isMgmt a) := by
  unfold ctxCmd
  extract_lets save wi ch w badOp
  have hnot : ¬ save := fun h => absurd (hop.symm.trans h) (by decide)
  rw [refuseIf_false _ (by simp [ch, wi, hbusy, hnot]), ctxCmd_argsPass hz hch hkind howner (.inr hop)]
  refine (regWrite_taken _ hr).trans ?_
  simp only [hnot, decide_false, Bool.not_false, if_true, if_false]
  rfl

end

/-! ### The key of a save that has drawn its salt -/

theorem saltDrawn_activeSlot (s : State) (cls part owner epoch : Nat) :
    activeSlot (saltDrawn s) cls part owner epoch = activeSlot s cls part owner epoch := activeSlot_of_chrt (saltDrawn_chrt s) ..

theorem saltDrawn_slotKey (s : State) (i : Nat) : slotKey (noteBad (saltDrawn s) i) i = slotKey (noteBad s i) i :=
  slotKey_of_chrt (noteBad_chrt_of_chrt (saltDrawn_chrt s) i) i

theorem saltDrawn_noteBad_slot (s : State) (i : Nat) : (noteBad (saltDrawn s) i).slot i = (noteBad s i).slot i := by
  rw [State.slot, State.slot, noteBad_chrt_of_chrt (saltDrawn_chrt s)]

/-- A save finds no context key (log 94). -/
theorem saltDrawn_keyless {s : State} {part epoch pipe group : Nat} {salt : BitVec 128}
    (h : activeSlot s 7 part 0 epoch = none ∨ ∃ i, activeSlot s 7 part 0 epoch = some i ∧ slotKey (noteBad s i) i = none) :
    ∃ t, KeySought (saltDrawn s) t ∧ saveKeyPush (saltDrawn s) pipe part group epoch salt = (t, .error .tagFail) := by
  rw [← saltDrawn_activeSlot] at h
  rcases h with hnone | ⟨i, hslot, hkey⟩
  · exact ⟨_, ⟨_, _, _, rfl⟩, saveKeyPush_none _ _ _ hnone⟩
  · rw [← saltDrawn_slotKey] at hkey
    exact ⟨_, noteBad_keySought _ i, saveKeyPush_bad _ _ _ hslot hkey⟩

/-! ### The statement -/

section
variable {s : State} {a : Access} {v : Word} {e : EccIn} {x : Option (BitVec 15 × TileFault)} (hr : WriteReaches s a 0x56 0xC8)
include hr

theorem exec_sndCtxSave : exec (.sndCtxSave a v (e, x)) s
    = .next (pumpAll busFn (eccContext s (ctxCmd s a v (x.map (fun f => (f.1.toNat, f.2)))) e)) :=
  congrArg _ (pumpReached_reaches hr _)

theorem exec_sndCtxRestore : exec (.sndCtxRestore a v (e, x)) s
    = .next (pumpAll busFn (eccContext s (ctxCmd s a v (x.map (fun f => (f.1.toNat, f.2)))) e)) :=
  congrArg _ (pumpReached_reaches hr _)

end

/-- Where no case of R278 refuses a context command, a pipe carries it. -/
theorem ctxPipe_of_not_busy {s : State} {wi ch : Nat} (h : ctxBusy s wi ch = false) : ctxPipe s = some ((ctxPipe s).getD 8) := by
  have hsome : (ctxPipe s).isNone = false := (Bool.or_eq_false_iff.1 h).2
  cases hp : ctxPipe s with
  | none => rw [hp] at hsome; exact absurd hsome (by decide)
  | some p => rfl

/-- A channel that starts its run keeps the other channels as they are (Table 11.3). -/
theorem startRun_spec (s : State) (k : Nat) (mgmt : Bool) : (startRun s k mgmt).snd = s.snd ∧ (startRun s k mgmt).free = s.free
    ∧ ((startRun s k mgmt).chan k).st = .running ∧ ∀ j, j ≠ k → (startRun s k mgmt).chan j = s.chan j :=
  ⟨rfl, rfl, congrArg Chan.st (State.setChan_chan_self ..), fun _ hj => State.setChan_chan_ne _ _ _ _ hj⟩

section
variable {s : State} {part epoch : Nat} {mgmt : Bool} {x : CtxCmd} (hpart : part = (s.win x.win).part) (hepoch : epoch = x.epoch)
include hpart hepoch

/-- A save whose key cannot be had ends at once (R280). -/
theorem saveGoesOn_ends {t : State} {st : Status} (hsought : KeySought (saltDrawn s) t)
    (h : saveKeyPush (saltDrawn s) x.pipe part (s.win x.win).group epoch x.salt = (t, .error st)) :
    (saveGoesOn (saltDrawn s) x mgmt).snd = { s.snd with ctx := none, ctxResult := pack [(63, 48, stCode st), (47, 36, x.chunks)] }
      ∧ (saveGoesOn (saltDrawn s) x mgmt).rhmb = s.rhmb ∧ bitOf ((saveGoesOn (saltDrawn s) x mgmt).page 0x56).cause 5 = true := by
  obtain ⟨_, hdrawn⟩ := saltDrawn_frame s
  subst hpart hepoch
  rw [saveGoesOn_error (by rw [saltDrawn_win]; exact h)]
  obtain ⟨⟨_, hend⟩, hcause⟩ := ctxEnd_spec { t with snd.ctx := some x } x st
  refine ⟨?_, ?_, hcause⟩
  · obtain ⟨_, _, _, rfl⟩ := hsought
    rw [hend, hdrawn]
    rfl
  · obtain ⟨_, _, _, rfl⟩ := hsought
    rw [hend, hdrawn]
    rfl

/-- A save whose key has been pushed runs under it (R280). -/
theorem saveGoesOn_runs {t : State} {key : Key} (hsought : KeySought (saltDrawn s) t)
    (h : saveKeyPush (saltDrawn s) x.pipe part (s.win x.win).group epoch x.salt = (t, .ok key)) :
    (saveGoesOn (saltDrawn s) x mgmt).snd = { s.snd with ctx := some { x with key := key } }
      ∧ (saveGoesOn (saltDrawn s) x mgmt).free = s.free + 1 ∧ ((saveGoesOn (saltDrawn s) x mgmt).chan x.ch).st = .running
      ∧ ∀ j, j ≠ x.ch → (saveGoesOn (saltDrawn s) x mgmt).chan j = s.chan j := by
  obtain ⟨_, hdrawn⟩ := saltDrawn_frame s
  subst hpart hepoch
  rw [saveGoesOn_ok (by rw [saltDrawn_win]; exact h)]
  obtain ⟨hsnd, hfree, hrun, hothers⟩ := startRun_spec { t with snd.ctx := some { x with key := key } } x.ch mgmt
  obtain ⟨_, _, _, rfl⟩ := hsought
  refine ⟨hsnd.trans ?_, hfree.trans ?_, hrun, fun j hj => (hothers j hj).trans ?_⟩
  · rw [hdrawn]
    rfl
  · rw [hdrawn]
  · rw [hdrawn]
    rfl

end

/-- Settles O19: the command by `ctxCmd_busy`, `ctxCmd_save` and `ctxCmd_restore`, the save key by `saveKeyPush_ok` and its failures, and what a
save then leaves by `saveGoesOn_runs` and `saveGoesOn_ends`. -/
theorem contextCommandsRunOnAChannel : Obligations.ContextCommandsRunOnAChannel := by
  intro s a v e x wi ch part epoch hr hz hwi hch hpart hepoch hlt hkind howner
  subst hwi hch hpart
  refine ⟨fun hbusy => ⟨fun hop hserves => ?_, fun hop => ?_⟩, fun hbusy _ => ?_⟩
  · have hcmd := ctxCmd_save (x.map (fun f => (f.1.toNat, f.2))) hr hz hlt hkind howner hbusy hop hserves
    rw [exec_sndCtxSave hr, hcmd]
    refine ⟨fun i ck hslot hkey => ⟨fun hdest => ?_, fun hdest => ?_⟩, fun hnone => ?_⟩
    · rw [← saltDrawn_activeSlot] at hslot
      rw [← saltDrawn_slotKey] at hkey
      rw [← saltDrawn_noteBad_slot] at hdest
      obtain ⟨t, hsought, hpush⟩ := saveKeyPush_ok ((ctxPipe s).getD 8) (s.win (fld v 59 47)).group (BitVec.ofNat 128 (Config.freeNat s.free))
        hslot hkey hdest
      obtain ⟨hsnd, hfree, hrun, hothers⟩ := saveGoesOn_runs (mgmt := isMgmt a)
        (x := saveStarted s a v (x.map (fun f => (f.1.toNat, f.2)))) rfl hepoch hsought hpush
      exact ⟨_, _, rfl, hsnd, rfl, rfl, rfl, rfl, rfl, ctxPipe_of_not_busy hbusy, rfl, rfl, hfree, hrun, hothers⟩
    · rw [← saltDrawn_activeSlot] at hslot
      rw [← saltDrawn_slotKey] at hkey
      rw [← saltDrawn_noteBad_slot] at hdest
      obtain ⟨hsnd, hrhmb, -⟩ := saveGoesOn_ends (mgmt := isMgmt a) (x := saveStarted s a v (x.map (fun f => (f.1.toNat, f.2)))) rfl hepoch
        (noteBad_keySought _ i) (saveKeyPush_denied _ _ _ hslot hkey hdest)
      exact ⟨_, rfl, hsnd, hrhmb⟩
    · obtain ⟨t, hsought, hpush⟩ := saltDrawn_keyless (pipe := (ctxPipe s).getD 8) (group := (s.win (fld v 59 47)).group)
        (salt := BitVec.ofNat 128 (Config.freeNat s.free)) hnone
      obtain ⟨hsnd, hrhmb, hcause⟩ := saveGoesOn_ends (mgmt := isMgmt a)
        (x := saveStarted s a v (x.map (fun f => (f.1.toNat, f.2)))) rfl hepoch hsought hpush
      exact ⟨_, rfl, hsnd, hrhmb, hcause⟩
  · rw [exec_sndCtxRestore hr, ctxCmd_restore _ hr hz hlt hkind howner hbusy hop]
    obtain ⟨hsnd, -, hrun, hothers⟩ := startRun_spec { answer s 0 with
      snd.ctx := some (ctxStarted s a false (fld v 59 47) (fld v 46 43) 0 (x.map (fun f => (f.1.toNat, f.2)))) } (fld v 46 43) (isMgmt a)
    exact ⟨_, _, rfl, hsnd, rfl, rfl, rfl, rfl, rfl, hrun, hothers⟩
  · rw [exec_sndCtxSave hr, exec_sndCtxRestore hr, ctxCmd_busy _ hr hbusy,
      eccContext_same (s := s) (s1 := refuse s a true ctxCmdAddr .wrongState) e rfl]
    obtain ⟨hframe, hresp, -⟩ := refuse_spec s a true ctxCmdAddr .wrongState
    exact ⟨_, rfl, rfl, hframe, hresp⟩

end Sys2Proof.Machine
end

section
/-! The idle microsecond of an empty queue (R297, R523). -/

namespace Sys2Proof.Machine

/-- Settles O2: on an empty queue a step is `idleTick`, whose three parts write `MRD_WALL_US`, the levels of the key port and the management
windows. -/
theorem emptyQueueCountsAMicrosecond : Obligations.EmptyQueueCountsAMicrosecond := by
  intro s hempty
  have hstep : step s = .next (idleTick s) := by rw [step, hempty]
  exact ⟨_, hstep, rfl⟩

end Sys2Proof.Machine
end

section
/-! A pending boundary in a block whose pipes stand in no rising order: the end of the boundary that runs writes every pipe (10 R321) before the
relays of lower steps are counted (09 R289). -/

namespace Sys2Proof.Machine

/-- A block in which a boundary from the last step into step 0 runs and step 1 pends, whose pipe 0, with a relay of step 0, is listed behind pipe 1. -/
def unsortedBoundary : State := { unsortedPipes with mrd.running := some (2 ^ 48 - 1), mrd.pendingStep := some 1 }

/-- At the end of the running boundary the look for parked frames writes pipe 0 (10 R321), which lists it a second time; the relay is then
counted twice as the pending boundary begins. -/
theorem exec_pendingBoundary_unsorted : ∃ t, exec (.pendingBoundary noStepIn) unsortedBoundary = .next t ∧ t.mrd.drops = 2 :=
  ⟨_, rfl, by decide +kernel⟩

/-- The statement counts the relay in the block as the command finds it. -/
theorem dropRelays_unsortedBoundary : (dropRelays unsortedBoundary 1).mrd.drops = 1 := by decide +kernel

/-- Refutes O38: its clause on a pending boundary that ends a running one asks no canonical form of the table of pipes. Where pipe 0 stands behind
pipe 1, the service of parked frames at the end of the running boundary lists pipe 0 a second time, and the relay that stands on it is dropped
once and counted twice; the statement has the drops that the table counts before. -/
theorem not_stepsAdvance : ¬ Obligations.StepsAdvance := by
  intro h
  obtain ⟨-, -, hquiet⟩ := h unsortedBoundary noStepIn 1 rfl
  obtain ⟨-, -, -, -, -, -, -, hpending⟩ := hquiet rfl rfl
  obtain ⟨t, hnext, hmrd, -⟩ := hpending 1 (by decide +kernel) rfl rfl (by decide)
  obtain ⟨u, hrun, hdrops⟩ := exec_pendingBoundary_unsorted
  obtain rfl := Host.Outcome.next.inj (hnext.symm.trans hrun)
  have hcounted : (dropRelays unsortedBoundary 1).mrd.drops + 0 = 2 := by
    rw [hmrd] at hdrops
    exact hdrops
  rw [dropRelays_unsortedBoundary] at hcounted
  exact absurd hcounted (by decide)

end Sys2Proof.Machine
end

section
/-! Re-masking of masked slots (R360, R361, R363): each slot that is re-masked keeps its key, and its sweep over the table takes each slot once. -/

namespace Sys2Proof.Machine

/-! ### The mask source -/

/-- DRBG 34 of Table 12.11, which gives the masks, answers every request: it is instantiated, and a reseed that falls due does not fail (R383, R384). -/
def MasksServed (s : State) : Prop := (tget {} s.hashu.drbgs 34 : Drbg).st = 1 ∧ s.hashu.failed = false

theorem MasksServed.drbgServes {s : State} (h : MasksServed s) : drbgServes s 34 = true := by
  obtain ⟨hready, hseeded⟩ := h
  simp [Machine.drbgServes, drbgServesAll, hready, hseeded]

theorem MasksServed.drbgDraw {s : State} (h : MasksServed s) :
    ∃ drbgs, (drbgDraw s 34).2 = { s with hashu.drbgs := drbgs, free := s.free + 1 } ∧ (tget {} drbgs 34 : Drbg).st = 1 := by
  have hdraw : (Machine.drbgDraw s 34).2 = { s with
      hashu.drbgs := tset {} s.hashu.drbgs 34 { (tget {} s.hashu.drbgs 34 : Drbg) with
        requests := if (tget {} s.hashu.drbgs 34 : Drbg).requests < 2 ^ 20 then (tget {} s.hashu.drbgs 34 : Drbg).requests + 1 else 1 }
      free := s.free + 1 } := if_pos h.drbgServes
  exact ⟨_, hdraw, (congrArg Drbg.st (tget_tset_self ..)).trans h.1⟩

/-! ### What a sweep leaves -/

/-- From `s` to `t` slots may have been re-masked, and the masks are still served. -/
def RemaskFrame (s t : State) : Prop :=
  (∃ slots n h f, t = { s with chrt.slots := slots, chrt.remasks := n, hashu := h, free := f }) ∧ MasksServed t

theorem RemaskFrame.trans {s t u : State} (h : RemaskFrame s t) (k : RemaskFrame t u) : RemaskFrame s u := by
  obtain ⟨⟨_, _, _, _, rfl⟩, -⟩ := h
  obtain ⟨⟨_, _, _, _, rfl⟩, hserved⟩ := k
  exact ⟨⟨_, _, _, _, rfl⟩, hserved⟩

theorem RemaskFrame.eq {s t : State} (h : RemaskFrame s t) :
    t = { s with chrt.slots := t.chrt.slots, chrt.remasks := t.chrt.remasks, hashu := t.hashu, free := t.free } := by
  obtain ⟨⟨_, _, _, _, rfl⟩, -⟩ := h
  rfl

theorem RemaskFrame.wall {s t : State} (h : RemaskFrame s t) : t.mrd.wall = s.mrd.wall := by
  obtain ⟨⟨_, _, _, _, rfl⟩, -⟩ := h
  rfl

/-- The check of a slot reads the slot, the modes and the tag key. -/
theorem RemaskFrame.slotSound {s t : State} (h : RemaskFrame s t) {i : Nat} (hslot : t.slot i = s.slot i) : slotSound t i = slotSound s i := by
  obtain ⟨⟨_, _, _, _, rfl⟩, -⟩ := h
  unfold Machine.slotSound
  rw [hslot]
  rfl

/-- A slot with the same key under other shares, the check bits beside them perhaps put right. -/
def Reshared (x y : Slot) : Prop :=
  y.key ^^^ y.mask = x.key ^^^ x.mask ∧ y = { x with ecc := y.ecc, key := y.key, mask := y.mask, remaskAt := y.remaskAt }

theorem Reshared.refl (x : Slot) : Reshared x x := ⟨rfl, rfl⟩

theorem Reshared.trans {x y z : Slot} (h : Reshared x y) (k : Reshared y z) : Reshared x z := by
  obtain ⟨hkey, hrest⟩ := h
  obtain ⟨kkey, krest⟩ := k
  refine ⟨kkey.trans hkey, ?_⟩
  rw [hrest] at krest
  exact krest

theorem Reshared.bad {x y : Slot} (h : Reshared x y) : y.bad = x.bad := by rw [h.2]

/-! ### One slot -/

/-- A slot whose check passes is read: a single wrong bit is put right, and nothing else changes (R360). -/
theorem noteBad_sound {s : State} {i : Nat} (h : slotSound s i = true) :
    ∃ x, noteBad s i = { s with chrt.slots := x } ∧ (∀ j, j ≠ i → (noteBad s i).slot j = s.slot j)
      ∧ (noteBad s i).slot i = { s.slot i with ecc := ((noteBad s i).slot i).ecc } := by
  simp only [noteBad, h, Bool.not_true, Bool.and_false, Bool.false_eq_true, if_false]
  split
  · exact ⟨_, rfl, fun j hj => State.setSlot_slot_ne _ _ _ _ hj, by rw [State.setSlot_slot_self]⟩
  · exact ⟨_, rfl, fun _ _ => rfl, rfl⟩

/-- A slot that is not `BAD` is drawn a mask, which goes onto both shares (R360). -/
theorem remaskSlot_shares {s u : State} {i : Nat} (hread : noteBad s i = u) (hbad : (u.slot i).bad = false) (hserved : MasksServed u) :
    ∃ r drbgs, (tget {} drbgs 34 : Drbg).st = 1 ∧ remaskSlot s i =
      { u.setSlot i { u.slot i with key := (u.slot i).key ^^^ r, mask := (u.slot i).mask ^^^ r, remaskAt := u.mrd.wall } with
        chrt.remasks := bump u.chrt.remasks 1, hashu.drbgs := drbgs, free := u.free + 1 } := by
  obtain ⟨drbgs, hdraw, hready⟩ := hserved.drbgDraw
  refine ⟨BitVec.ofNat 256 (drbgDraw u 34).1, drbgs, hready, ?_⟩
  simp only [remaskSlot, hread, hbad, hserved.drbgServes, hdraw, Bool.not_true, Bool.or_self, Bool.false_eq_true, if_false]
  rfl

/-- A slot whose check passes gets new shares of its key, unless it is `BAD` (R361, R363). -/
theorem remaskSlot_spec {s : State} {i : Nat} (hsound : slotSound s i = true) (hserved : MasksServed s) :
    RemaskFrame s (remaskSlot s i) ∧ (∀ j, j ≠ i → (remaskSlot s i).slot j = s.slot j) ∧ Reshared (s.slot i) ((remaskSlot s i).slot i)
      ∧ ((remaskSlot s i).slot i).remaskAt = if (s.slot i).bad = false then s.mrd.wall else (s.slot i).remaskAt := by
  obtain ⟨slots, hnoted, hothers, hself⟩ := noteBad_sound hsound
  have hread : Reshared (s.slot i) ((noteBad s i).slot i) := ⟨by rw [hself], by rw [hself]⟩
  have hat : ((noteBad s i).slot i).remaskAt = (s.slot i).remaskAt := by rw [hself]
  have hreadServed : MasksServed (noteBad s i) := by rw [hnoted]; exact hserved
  have hwall : (noteBad s i).mrd.wall = s.mrd.wall := by rw [hnoted]
  by_cases hbad : (s.slot i).bad = false
  · obtain ⟨r, drbgs, hready, hshared⟩ := remaskSlot_shares rfl (hread.bad.trans hbad) hreadServed
    have hslot : (remaskSlot s i).slot i = { (noteBad s i).slot i with
        key := ((noteBad s i).slot i).key ^^^ r, mask := ((noteBad s i).slot i).mask ^^^ r, remaskAt := (noteBad s i).mrd.wall } := by
      rw [hshared]
      exact State.setSlot_slot_self ..
    refine ⟨⟨⟨_, _, _, _, hshared.trans (by rw [hnoted]; rfl)⟩, ?_⟩, fun j hj => ?_, hread.trans ?_, ?_⟩
    · rw [hshared]
      exact ⟨hready, hreadServed.2⟩
    · rw [hshared]
      exact (State.setSlot_slot_ne _ _ _ _ hj).trans (hothers j hj)
    · rw [hslot]
      exact ⟨by rw [BitVec.xor_assoc, BitVec.xor_comm r, BitVec.xor_assoc, BitVec.xor_self, BitVec.xor_zero], rfl⟩
    · rw [hslot, if_pos hbad, ← hwall]
  · have hkept : remaskSlot s i = noteBad s i := if_pos (by rw [hread.bad, eq_true_of_ne_false hbad]; rfl)
    rw [hkept, if_neg hbad]
    exact ⟨⟨⟨_, _, _, _, hnoted⟩, hreadServed⟩, hothers, hread, hat⟩

/-! ### The sweep -/

/-- The slots of some entries are re-masked in turn. -/
def remaskEach (l : List (Nat × Slot)) (s : State) : State := l.foldl (fun st e => remaskSlot st e.1) s

theorem remaskEach_spec (l : List (Nat × Slot)) {s : State} (hrising : l.Pairwise (fun a b => a.1 < b.1)) (hserved : MasksServed s)
    (hsound : ∀ e ∈ l, slotSound s e.1 = true) (i : Nat) :
    RemaskFrame s (remaskEach l s) ∧ Reshared (s.slot i) ((remaskEach l s).slot i)
      ∧ ((remaskEach l s).slot i).remaskAt
        = if i ∈ l.map (·.1) ∧ (s.slot i).bad = false then s.mrd.wall else (s.slot i).remaskAt := by
  induction l generalizing s with
  | nil => exact ⟨⟨⟨_, _, _, _, rfl⟩, hserved⟩, .refl _, (if_neg fun h => List.not_mem_nil h.1).symm⟩
  | cons e l ih =>
    obtain ⟨hlt, hrest⟩ := List.pairwise_cons.1 hrising
    obtain ⟨hframe, hothers, hself, hwhen⟩ := remaskSlot_spec (hsound e List.mem_cons_self) hserved
    have hsound' : ∀ x ∈ l, slotSound (remaskSlot s e.1) x.1 = true := fun x hx =>
      (hframe.slotSound (hothers x.1 (hlt x hx).ne')).trans (hsound x (List.mem_cons_of_mem _ hx))
    obtain ⟨kframe, kself, kwhen⟩ := ih hrest hframe.2 hsound'
    rw [show remaskEach (e :: l) s = remaskEach l (remaskSlot s e.1) from rfl]
    by_cases hi : i = e.1
    · subst hi
      have hout : e.1 ∉ l.map (·.1) := fun hm => by
        obtain ⟨x, hx, heq⟩ := List.mem_map.1 hm
        exact absurd heq (hlt x hx).ne'
      refine ⟨hframe.trans kframe, hself.trans kself, kwhen.trans ?_⟩
      rw [if_neg (fun h => hout h.1), hwhen]
      simp
    · rw [hothers i hi] at kself kwhen
      have hkeys : i ∈ (e :: l).map (·.1) ↔ i ∈ l.map (·.1) := List.mem_cons.trans (or_iff_right hi)
      refine ⟨hframe.trans kframe, kself, kwhen.trans ?_⟩
      rw [hframe.wall]
      simp only [hkeys]

/-- The keys of the entries of a table that satisfy a test which the default fails. -/
theorem mem_keys_filter {α : Type} {d : α} {t : Table α} {c : α → Bool} (hrising : t.Pairwise (fun a b => a.1 < b.1)) (hd : c d = false) (i : Nat) :
    i ∈ (t.filter (fun e => c e.2)).map (·.1) ↔ c (tget d t i) = true := by
  refine ⟨fun hm => ?_, fun hc => ?_⟩
  · obtain ⟨⟨j, x⟩, hx, rfl⟩ := List.mem_map.1 hm
    obtain ⟨hmem, hcx⟩ := List.mem_filter.1 hx
    rwa [tget_of_mem hrising hmem]
  · have hne : tget d t i ≠ d := fun h => by rw [h, hd] at hc; cases hc
    exact List.mem_map.2 ⟨_, List.mem_filter.2 ⟨mem_of_tget_ne hne, hc⟩, rfl⟩

/-- A sweep re-masks each masked slot that satisfies its test and is not `BAD`, and every slot keeps its key (R360, R363). -/
theorem remaskWhere_spec {s : State} {c : Slot → Bool} (hwf : tableWf {} s.chrt.slots = true) (hserved : MasksServed s)
    (hsound : ∀ i, slotSound s i = true) (i : Nat) :
    RemaskFrame s (remaskWhere s c) ∧ Reshared (s.slot i) ((remaskWhere s c).slot i)
      ∧ ((remaskWhere s c).slot i).remaskAt = if ((s.slot i).st ≠ .empty ∧ checkedClass s (atClass (s.slot i).attr) = false ∧ c (s.slot i) = true)
          ∧ (s.slot i).bad = false then s.mrd.wall else (s.slot i).remaskAt := by
  have hrising : s.chrt.slots.Pairwise (fun a b => a.1 < b.1) := of_decide_eq_true (Bool.and_eq_true_iff.1 hwf).1
  obtain ⟨hframe, hshared, hwhen⟩ := remaskEach_spec _ (hrising.filter _) hserved (fun e _ => hsound e.1) i
  refine ⟨hframe, hshared, hwhen.trans ?_⟩
  have hswept := mem_keys_filter (d := ({} : Slot)) (c := fun x => x.st ≠ .empty && !checkedClass s (atClass x.attr) && c x) hrising rfl i
  simp only [hswept]
  simp [State.slot, and_assoc]

/-! ### The floor -/

theorem exec_remaskFloor_stopped {s : State} (us : Nat) (h : secRuns s = false) : exec (.remaskFloor us) s = .next (passTime s us) :=
  congrArg Host.Outcome.next (if_neg (by rw [show secRuns (passTime s us) = secRuns s from rfl, h]; decide))

theorem exec_remaskFloor {s : State} (us : Nat) (h : secRuns s = true) : exec (.remaskFloor us) s = .next (remaskFloorOp (passTime s us)) :=
  congrArg Host.Outcome.next (if_pos h)

end Sys2Proof.Machine
end

section
/-! `MRD_STEP_SET`, the schedule table, the step timeout and the re-mask floor (R287, R292, R295, R299, R361). -/

namespace Sys2Proof.Machine

/-! ### Must-be-zero fields -/

/-- The bits of a field are the field's value in its place. -/
theorem and_maskBits (n hi lo : Nat) : n &&& maskBits hi lo = (n >>> lo) % 2 ^ (hi + 1 - lo) * 2 ^ lo := by
  refine Nat.eq_of_testBit_eq fun i => ?_
  rw [Nat.testBit_and, maskBits, Nat.testBit_mul_two_pow, Nat.testBit_mul_two_pow, Nat.testBit_two_pow_sub_one, Nat.testBit_mod_two_pow,
    Nat.testBit_shiftRight]
  by_cases h : lo ≤ i
  · rw [Nat.add_sub_cancel' h, Bool.and_comm, decide_eq_true h, Bool.true_and, Bool.true_and]
  · rw [decide_eq_false h, Bool.false_and, Bool.false_and, Bool.and_false]

/-- A field that is zero passes as must-be-zero (R546). -/
theorem mbz_fld {v : Word} {hi lo : Nat} (h : fld v hi lo = 0) : mbz v (maskBits hi lo) = none :=
  mbz_ok ((and_maskBits ..).trans (by rw [show (v.toNat >>> lo) % 2 ^ (hi + 1 - lo) = 0 from h, Nat.zero_mul]))

/-! ### `MRD_STEP_SET` -/

section
variable {s : State} {a : Access} {v : Word} (hr : WriteReaches s a 0x04 0x60)
include hr

theorem exec_mrdStepSet_refused (h : s.mrd.running = none) (hbusy : stepSetRefused s = true) :
    exec (.mrdStepSet a v) s = .next (refuse s a true (regAt 0x04 0x60) .wrongState) := by
  refine congrArg Host.Outcome.next ((if_neg (by rw [h]; decide)).trans ?_)
  rw [refuseIf_true _ hbusy, regWrite_stateRefused _ _ hr]

variable (hz : fld v 63 48 = 0)
include hz

theorem exec_mrdStepSet_held (h : s.mrd.running.isSome = true) :
    exec (.mrdStepSet a v) s = .next { answer s 0 with mrd.heldCmds := s.mrd.heldCmds ++ [.stepSet a v] } := by
  refine congrArg Host.Outcome.next ((if_pos h).trans ?_)
  rw [mbz_fld hz, regWrite_taken _ hr]
  rfl

theorem exec_mrdStepSet_taken (h : s.mrd.running = none) (hfree : stepSetRefused s = false) :
    exec (.mrdStepSet a v) s = .next (stepSetNow (answer s 0) v) := by
  refine congrArg Host.Outcome.next ((if_neg (by rw [h]; decide)).trans ?_)
  rw [refuseIf_false _ hfree, mbz_fld hz, regWrite_taken _ hr]

end

theorem stepSetRefused_false {s : State} (hadmitted : anyAdmitted s = false) (hempty : ∀ e ∈ s.mrd.sched, e.2.valid = false) :
    stepSetRefused s = false := by
  rw [stepSetRefused, hadmitted, Bool.false_or, List.any_eq_false]
  exact fun e he => by rw [hempty e he]; decide

/-! ### Schedule entries -/

section
variable {s : State} {a : Access} {i : BitVec 6} {v : Word} (hr : WriteReaches s a 0x05 (0x100 + 16 * i.toNat))
include hr

theorem exec_scheduleEntryWrite_held (h : s.mrd.running.isSome = true) :
    exec (.scheduleEntryWrite a i v) s = .next { answer s 0 with mrd.heldCmds := s.mrd.heldCmds ++ [.sched a i.toNat false v] } := by
  refine congrArg Host.Outcome.next ((if_pos h).trans ?_)
  rw [schedAddr, regWrite_taken _ hr]
  rfl

variable (h : s.mrd.running = none)
include h

theorem exec_scheduleEntryWrite_locked (hlocked : schedLocked s i.toNat = true) :
    exec (.scheduleEntryWrite a i v) s = .next (refuse s a true (schedAddr i.toNat) .wrongState) := by
  refine congrArg Host.Outcome.next ((if_neg (by rw [h]; decide)).trans ?_)
  rw [refuseIf_true _ hlocked, schedAddr, regWrite_stateRefused _ _ hr]

variable (hfree : schedLocked s i.toNat = false)
include hfree

theorem exec_scheduleEntryWrite_bad (hbad : schedBad s i.toNat v = true) :
    exec (.scheduleEntryWrite a i v) s = .next (refuse s a true (schedAddr i.toNat) .badArg) := by
  refine congrArg Host.Outcome.next ((if_neg (by rw [h]; decide)).trans ?_)
  rw [refuseIf_false _ hfree, refuseIf_true _ hbad, schedAddr, regWrite_argRefused _ hr]

theorem exec_scheduleEntryWrite_taken (hgood : schedBad s i.toNat v = false) :
    exec (.scheduleEntryWrite a i v) s = .next (schedNow (answer s 0) i.toNat v) := by
  refine congrArg Host.Outcome.next ((if_neg (by rw [h]; decide)).trans ?_)
  rw [refuseIf_false _ hfree, refuseIf_false _ hgood, schedAddr, regWrite_taken _ hr]

end

/-- A write of word 0 commits or cancels its own entry, and the shadow copy is frozen exactly while a `GROUP_SWAP` waits (R295, R216). -/
theorem schedNow_spec (s : State) (i : Nat) (v : Word) :
    schedNow s i v = { s with
      mrd := { s.mrd with sched := (schedNow s i v).mrd.sched }, grp := { s.grp with frozen := (pendingSwap (schedNow s i v)).isSome } }
      ∧ (schedNow s i v).schedOf i = (if fld v 15 12 = 0 then { w1 := (s.schedOf i).w1 } else schedEntry v (s.schedOf i).w1)
      ∧ ∀ j, j ≠ i → (schedNow s i v).schedOf j = s.schedOf j :=
  ⟨rfl, State.setSched_schedOf_self .., fun _ hj => State.setSched_schedOf_ne _ _ _ _ hj⟩

/-! ### The step timeout -/

/-- The wait for a boundary has reached its limit, and `LATE` has not been set for it (R299). -/
def waitOver (s : State) : Bool := s.mrd.timeout ≠ 0 && !s.mrd.lateDone && s.mrd.lastBoundary + s.mrd.timeout ≤ s.mrd.wall

theorem waitOver_iff {s : State} :
    waitOver s = true ↔ s.mrd.timeout ≠ 0 ∧ s.mrd.lateDone = false ∧ s.mrd.lastBoundary + s.mrd.timeout ≤ s.mrd.wall := by
  simp [waitOver, and_assoc]

theorem exec_stepTimeout_late {s : State} {us : Nat} (hruns : secRuns s = true) (h : waitOver (passTime s us) = true) :
    exec (.stepTimeout us) s = .next (raise { passTime s us with mrd.lateDone := true } 0x04 2) :=
  congrArg Host.Outcome.next ((if_pos hruns).trans (if_pos h))

theorem exec_stepTimeout_quiet {s : State} {us : Nat} (h : secRuns s = false ∨ waitOver (passTime s us) = false) :
    exec (.stepTimeout us) s = .next (passTime s us) := by
  refine congrArg Host.Outcome.next ?_
  cases hruns : secRuns s with
  | false => exact if_neg (by rw [show secRuns (passTime s us) = secRuns s from rfl, hruns]; decide)
  | true =>
    have hquiet : waitOver (passTime s us) = false := h.resolve_left (by rw [hruns]; decide)
    exact (if_pos hruns).trans (if_neg (ne_true_of_eq_false hquiet))

/-- Settles O39: the two writes by their outcomes, the timeout by `waitOver`, and the floor by `remaskWhere_spec`. -/
theorem stepsAndSchedulesAreSet : Obligations.StepsAndSchedulesAreSet := by
  intro s a v
  refine ⟨fun hr hz => ⟨fun hrun hadmitted hempty => ?_, fun hrun hbusy => ?_, fun hrun => exec_mrdStepSet_held hr hz hrun⟩,
    fun i hr => ⟨fun hrun hfree hgood => ?_, fun hrun hlocked => ?_, fun hrun hfree hbad => ?_, fun hrun => exec_scheduleEntryWrite_held hr hrun⟩,
    fun us w hw => ⟨fun hruns htimeout hfirst hover => ?_, fun hstopped => ?_, fun hquiet => ?_, fun hruns hwf hready hseeded hsound => ?_⟩⟩
  · exact exec_mrdStepSet_taken hr hz hrun (stepSetRefused_false hadmitted hempty)
  · exact next_of_refuse (exec_mrdStepSet_refused hr hrun hbusy)
  · obtain ⟨hframe, hself, hothers⟩ := schedNow_spec (answer s 0) i.toNat v
    exact ⟨_, exec_scheduleEntryWrite_taken hr hrun hfree hgood, hframe, hself, hothers⟩
  · exact next_of_refuse (exec_scheduleEntryWrite_locked hr hrun hlocked)
  · exact next_of_refuse (exec_scheduleEntryWrite_bad hr hrun hfree hbad)
  · subst hw
    have hwait : waitOver (passTime s us) = true := waitOver_iff.2 ⟨htimeout, hfirst, hover⟩
    obtain ⟨hframe, -, hothers⟩ := raise_spec { passTime s us with mrd.lateDone := true } 0x04 2
    exact ⟨_, exec_stepTimeout_late hruns hwait, hframe, raise_cause _ _ (by decide), hothers⟩
  · subst hw
    exact exec_remaskFloor_stopped us hstopped
  · subst hw
    refine exec_stepTimeout_quiet (hquiet.imp_right fun h => Bool.eq_false_iff.2 fun hwait => ?_)
    obtain ⟨hset, hfirst, hover⟩ := waitOver_iff.1 hwait
    rcases h with h | h | h
    · exact hset h
    · exact Bool.false_ne_true (hfirst.symm.trans h)
    · exact h.not_ge hover
  · subst hw
    have hspec := fun i => remaskWhere_spec (s := passTime s us)
      (c := fun x => x.remaskAt + 1000 * s.chrt.floorMs ≤ (s.mrd.wall + us) % 2 ^ 64) hwf ⟨hready, hseeded⟩ hsound i
    refine ⟨_, exec_remaskFloor us hruns, (hspec 0).1.eq, fun i => ?_⟩
    obtain ⟨-, ⟨hkey, hrest⟩, hwhen⟩ := hspec i
    exact ⟨hkey, hrest, hwhen.trans (if_congr ⟨fun ⟨⟨hst, hmasked, hlong⟩, hgood⟩ => ⟨hst, hgood, hmasked, of_decide_eq_true hlong⟩,
      fun ⟨hst, hgood, hmasked, hlong⟩ => ⟨⟨hst, hmasked, decide_eq_true hlong⟩, hgood⟩⟩ rfl rfl)⟩

end Sys2Proof.Machine
end

section
/-! The registers of a `PART` page: region windows, the member-list range, the channel mask and the quotas (R312 to R320). -/

namespace Sys2Proof.Machine

/-! ### Region windows -/

section
variable {s : State} {a : Access} {n : BitVec 5} {w : BitVec 3} {limit : Bool} {v : Word}
  (hr : WriteReaches s a (0x80 + n.toNat) (0x100 + 16 * w.toNat + (if limit then 8 else 0)))
include hr

theorem exec_partRegionWrite_locked (hlocked : regionLocked (tget {} (s.part n.toNat).regions w.toNat) limit v = true) :
    exec (.partRegionWrite a n w limit v) s
      = .next (refuse s a true (regAt (0x80 + n.toNat) (0x100 + 16 * w.toNat + (if limit then 8 else 0))) .wrongState) := by
  refine congrArg Host.Outcome.next ?_
  unfold regionWrite
  extract_lets r
  rw [refuseIf_true _ hlocked]
  exact regWrite_stateRefused _ _ hr

variable (hfree : regionLocked (tget {} (s.part n.toNat).regions w.toNat) limit v = false)
include hfree

theorem exec_partRegionWrite_bad
    (hbad : regionBad (tget {} (s.part n.toNat).regions w.toNat) limit v (meetsParts s (some n.toNat)) = true) :
    exec (.partRegionWrite a n w limit v) s
      = .next (refuse s a true (regAt (0x80 + n.toNat) (0x100 + 16 * w.toNat + (if limit then 8 else 0))) .badArg) := by
  refine congrArg Host.Outcome.next ?_
  unfold regionWrite
  extract_lets r
  rw [refuseIf_false _ hfree, refuseIf_true _ hbad]
  exact regWrite_argRefused _ hr

theorem exec_partRegionWrite_taken
    (hgood : regionBad (tget {} (s.part n.toNat).regions w.toNat) limit v (meetsParts s (some n.toNat)) = false) :
    exec (.partRegionWrite a n w limit v) s = .next ((answer s 0).setPart n.toNat { s.part n.toNat with
      regions := tset {} (s.part n.toNat).regions w.toNat
        (regionAfter (tget {} (s.part n.toNat).regions w.toNat) limit v (windowUsers s (some n.toNat) w.toNat)) }) := by
  refine congrArg Host.Outcome.next ?_
  unfold regionWrite
  extract_lets r
  rw [refuseIf_false _ hfree, refuseIf_false _ hgood]
  exact regWrite_taken _ hr

end

/-! ### The member-list range -/

/-- A range that lies clear of the ranges of the other partitions (R319). -/
def rangeClear (s : State) (p base len : Nat) : Prop :=
  len = 0 ∨ ∀ q, q < 32 → q ≠ p → (s.part q).mbrLen = 0 ∨ base + len ≤ (s.part q).mbrBase ∨ (s.part q).mbrBase + (s.part q).mbrLen ≤ base

theorem rangeClear.meets_false {s : State} {p base len : Nat} (h : rangeClear s p base len) :
    (1 ≤ len && (List.range 32).any (fun q => q ≠ p && 1 ≤ (s.part q).mbrLen && base < (s.part q).mbrBase + (s.part q).mbrLen
      && (s.part q).mbrBase < base + len)) = false := by
  rcases h with hempty | hclear
  · rw [hempty]
    rfl
  · refine Bool.and_eq_false_iff.2 (.inr (List.any_eq_false.2 fun q hq => ?_))
    have hother := hclear q (List.mem_range.1 hq)
    simp only [Bool.and_eq_true, decide_eq_true_eq]
    omega

section
variable {s : State} {a : Access} {n : BitVec 5} {v : Word} (hr : WriteReaches s a (0x80 + n.toNat) 0xA8)
include hr

theorem exec_partMbrRangeWrite_owned (hst : (s.part n.toNat).st ≠ .free) :
    exec (.partMbrRangeWrite a n v) s = .next (refuse s a true (regAt (0x80 + n.toNat) 0xA8) .wrongState) := by
  refine congrArg Host.Outcome.next ?_
  unfold mbrRangeWrite
  extract_lets b len meets
  rw [refuseIf_true _ (decide_eq_true hst)]
  exact regWrite_stateRefused _ _ hr

variable (hst : (s.part n.toNat).st = .free)
include hst

theorem exec_partMbrRangeWrite_outside (hout : 262144 < fld v 63 46 + fld v 45 27) :
    exec (.partMbrRangeWrite a n v) s = .next (refuse s a true (regAt (0x80 + n.toNat) 0xA8) .badArg) := by
  refine congrArg Host.Outcome.next ?_
  unfold mbrRangeWrite
  extract_lets b len meets
  rw [refuseIf_false _ (decide_eq_false (not_not_intro hst)), refuseIf_true _ (by rw [decide_eq_true hout, Bool.true_or])]
  exact regWrite_argRefused _ hr

theorem exec_partMbrRangeWrite_taken (hin : fld v 63 46 + fld v 45 27 ≤ 262144) (hclear : rangeClear s n.toNat (fld v 63 46) (fld v 45 27)) :
    exec (.partMbrRangeWrite a n v) s
      = .next ((answer s 0).setPart n.toNat { s.part n.toNat with mbrBase := fld v 63 46, mbrLen := fld v 45 27 }) := by
  refine congrArg Host.Outcome.next ?_
  unfold mbrRangeWrite
  extract_lets b len meets
  rw [refuseIf_false _ (decide_eq_false (not_not_intro hst)),
    refuseIf_false _ (by rw [decide_eq_false (Nat.not_lt.2 hin), Bool.false_or]; exact hclear.meets_false)]
  exact regWrite_taken _ hr

end

/-! ### The channel mask -/

theorem mem_bitsOf_xor_mask {old : Nat} {v : Word} {k : Nat} :
    k ∈ bitsOf 16 (old ^^^ fld v 15 0) ↔ k < 16 ∧ old.testBit k ≠ v.toNat.testBit k := by
  rw [bitsOf, List.mem_filter, List.mem_range]
  refine and_congr_right fun hk => ?_
  have hlow : (fld v 15 0).testBit k = v.toNat.testBit k := by
    rw [fld, Nat.testBit_mod_two_pow, Nat.shiftRight_zero, decide_eq_true (by omega), Bool.true_and]
  rw [Nat.testBit_xor, hlow, bne_iff_ne]

section
variable {s : State} {a : Access} {n : BitVec 5} {v : Word} (hr : WriteReaches s a (0x80 + n.toNat) 0xB0)
include hr

theorem exec_partChannelsWrite_refused {k : Nat} (hk : k < 16) (hchange : (s.part n.toNat).channels.testBit k ≠ v.toNat.testBit k)
    (hbusy : (s.chan k).st ≠ .idle) :
    exec (.partChannelsWrite a n v) s = .next (refuse s a true (regAt (0x80 + n.toNat) 0xB0) .wrongState) := by
  refine congrArg Host.Outcome.next ?_
  unfold channelsWrite
  extract_lets old new busy
  have hbars : busy = true := List.any_eq_true.2 ⟨k, mem_bitsOf_xor_mask.2 ⟨hk, hchange⟩, by rw [decide_eq_true hbusy, Bool.true_or]⟩
  rw [refuseIf_true _ hbars]
  exact regWrite_stateRefused _ _ hr

theorem exec_partChannelsWrite_taken (hfree : ∀ k, k < 16 → (s.part n.toNat).channels.testBit k ≠ v.toNat.testBit k →
      (s.chan k).st = .idle ∧ ∀ q, chanOwner s k = some q → q = n.toNat) :
    exec (.partChannelsWrite a n v) s = .next ((answer s 0).setPart n.toNat { s.part n.toNat with channels := fld v 15 0 }) := by
  refine congrArg Host.Outcome.next ?_
  unfold channelsWrite
  extract_lets old new busy
  have hbars : busy = false := List.any_eq_false.2 fun k hk => by
    obtain ⟨hlt, hchange⟩ := mem_bitsOf_xor_mask.1 hk
    obtain ⟨hidle, hown⟩ := hfree k hlt hchange
    cases howner : chanOwner s k with
    | none => simp [hidle]
    | some q => simp [hidle, hown q howner]
  rw [refuseIf_false _ hbars]
  exact regWrite_taken _ hr

end

/-! ### The quotas -/

section
variable {s : State} {a : Access} {n : BitVec 5} {v : Word}

theorem exec_partQuota0Write_bad (hr : WriteReaches s a (0x80 + n.toNat) 0x98) (hout : 512 < fld v 53 44 ∨ 4096 < fld v 43 31 ∨ 8192 < fld v 30 17) :
    exec (.partQuotaWrite a n false v) s = .next (refuse s a true (regAt (0x80 + n.toNat) 0x98) .badArg) := by
  refine congrArg Host.Outcome.next ?_
  unfold quotaWrite
  extract_lets bad
  rw [refuseIf_true _ (show bad = true by simpa [bad, or_assoc] using hout)]
  exact regWrite_argRefused _ hr

theorem exec_partQuota0Write_taken (hr : WriteReaches s a (0x80 + n.toNat) 0x98) (hslots : fld v 53 44 ≤ 512) (hdescs : fld v 43 31 ≤ 4096)
    (hwins : fld v 30 17 ≤ 8192) :
    exec (.partQuotaWrite a n false v) s
      = .next ((answer s 0).setPart n.toNat { s.part n.toNat with qSlots := fld v 53 44, qDescs := fld v 43 31, qWins := fld v 30 17 }) := by
  refine congrArg Host.Outcome.next ?_
  unfold quotaWrite
  extract_lets bad
  rw [refuseIf_false _ (show bad = false by simp [bad, hslots, hdescs, hwins])]
  exact regWrite_taken _ hr

theorem exec_partQuota1Write_taken (hr : WriteReaches s a (0x80 + n.toNat) 0xA0) (hgran : fld v 63 49 ≤ 16384) (hpark : fld v 48 37 ≤ 3584) :
    exec (.partQuotaWrite a n true v) s
      = .next ((answer s 0).setPart n.toNat { s.part n.toNat with qGran := fld v 63 49, qPark := fld v 48 37, weight := fld v 36 29 }) := by
  refine congrArg Host.Outcome.next ?_
  unfold quotaWrite
  extract_lets bad
  rw [refuseIf_false _ (show bad = false by simp [bad, hgran, hpark])]
  exact regWrite_taken _ hr

end

/-- Settles O36: each register takes its write or refuses it as the lemmas above have it, and a closing window goes off by `closeRegion`. -/
theorem partitionRegistersAreWritten : Obligations.PartitionRegistersAreWritten := by
  intro s a n v
  refine ⟨fun w limit r hrdef hr => ?_, fun w r hrdef => ⟨fun hstopped => ?_, fun hruns => ?_⟩,
    fun hr => ⟨fun hst hin hclear => exec_partMbrRangeWrite_taken hr hst hin hclear,
      fun hst => next_of_refuse (exec_partMbrRangeWrite_owned hr hst),
      fun hst hout => next_of_refuse (exec_partMbrRangeWrite_outside hr hst hout)⟩,
    fun hr => ⟨exec_partChannelsWrite_taken hr, fun k hk hchange hbusy => next_of_refuse (exec_partChannelsWrite_refused hr hk hchange hbusy)⟩,
    fun hr => ⟨exec_partQuota0Write_taken hr, fun hout => next_of_refuse (exec_partQuota0Write_bad hr hout)⟩, exec_partQuota1Write_taken⟩
  · subst hrdef
    refine ⟨fun hfree hgood => ?_, fun hlocked => next_of_refuse (exec_partRegionWrite_locked hr hlocked),
      fun hfree hbad => next_of_refuse (exec_partRegionWrite_bad hr hfree hbad)⟩
    rw [exec_partRegionWrite_taken hr hfree hgood]
    simp only [regionAfter, List.isEmpty_iff, baseWrite]
  · exact congrArg Host.Outcome.next (if_neg (by rw [hstopped]; decide))
  · subst hrdef
    refine congrArg Host.Outcome.next ((if_pos hruns).trans ?_)
    simp only [regionDisableDone, closeRegion, Bool.and_eq_true, Bool.not_eq_true']

end Sys2Proof.Machine
end

section
/-! Keys that are derived into slots, and the requests of the random unit that mask them (R360, R364, R369, R383, R384). -/

namespace Sys2Proof.Machine

/-! ### Requests in a row -/

theorem drbgDraw_frame (s : State) (i : Nat) : ∃ h f, (drbgDraw s i).2 = { s with hashu := h, free := f } := by
  simp only [drbgDraw]
  split <;> exact ⟨_, _, rfl⟩

theorem drbgDraws_frame (s : State) (i n : Nat) : ∃ h f, (drbgDraws s i n).2 = { s with hashu := h, free := f } := by
  induction n generalizing s with
  | zero => exact ⟨_, _, rfl⟩
  | succ n ih =>
    obtain ⟨_, _, hdraw⟩ := drbgDraw_frame s i
    obtain ⟨h, f, hrest⟩ := ih (drbgDraw s i).2
    refine ⟨h, f, hrest.trans ?_⟩
    rw [hdraw]

theorem drbgServes_of_all {s : State} {i n : Nat} (h : drbgServesAll s i (n + 1) = true) : drbgServes s i = true := by
  simp only [drbgServes, drbgServesAll, Bool.and_eq_true, Bool.or_eq_true, decide_eq_true_eq] at h ⊢
  obtain ⟨hst, hcount | hseeded⟩ := h
  · exact ⟨hst, .inl (by omega)⟩
  · exact ⟨hst, .inr hseeded⟩

/-- A generator that can serve some requests in a row serves all but one of them after the first (R384). -/
theorem drbgServesAll_drawn {s : State} {i n : Nat} (h : drbgServesAll s i (n + 1) = true) : drbgServesAll (drbgDraw s i).2 i n = true := by
  have hdraw : (drbgDraw s i).2 = { s with
      hashu.drbgs := tset {} s.hashu.drbgs i { (tget {} s.hashu.drbgs i : Drbg) with
        requests := if (tget {} s.hashu.drbgs i : Drbg).requests < 2 ^ 20 then (tget {} s.hashu.drbgs i : Drbg).requests + 1 else 1 }
      free := s.free + 1 } := if_pos (drbgServes_of_all h)
  rw [hdraw]
  simp only [drbgServesAll, tget_tset_self, Bool.and_eq_true, Bool.or_eq_true, decide_eq_true_eq] at h ⊢
  obtain ⟨hst, hcount | hseeded⟩ := h
  · exact ⟨hst, .inl (by rw [if_pos (by omega)]; omega)⟩
  · exact ⟨hst, .inr hseeded⟩

/-! ### Writing slots in a row -/

/-- The masks that writing slots of these classes takes (R360). -/
def masksFor (s : State) (l : List Nat) : Nat := (l.filter (fun c => !checkedClass s c)).length

theorem canPutAll_iff {s : State} {l : List Nat} : canPutAll s l = true ↔ masksFor s l = 0 ∨ drbgServesAll s 34 (masksFor s l) = true := by
  rw [canPutAll, Bool.or_eq_true, decide_eq_true_eq]
  rfl

theorem masksFor_cons_checked {s : State} {c : Nat} (l : List Nat) (h : checkedClass s c = true) : masksFor s (c :: l) = masksFor s l := by
  rw [masksFor, List.filter_cons_of_neg (by rw [h]; decide), masksFor]

theorem masksFor_cons_masked {s : State} {c : Nat} (l : List Nat) (h : checkedClass s c = false) :
    masksFor s (c :: l) = masksFor s l + 1 := by
  rw [masksFor, List.filter_cons_of_pos (by rw [h]; rfl), List.length_cons, masksFor]

/-- From `s` to `t` slots have been written. -/
def SlotsWritten (s t : State) : Prop := ∃ slots h f, t = { s with chrt.slots := slots, hashu := h, free := f }

theorem SlotsWritten.trans {s t u : State} (h : SlotsWritten s t) (k : SlotsWritten t u) : SlotsWritten s u := by
  obtain ⟨_, _, _, rfl⟩ := h
  obtain ⟨_, _, _, rfl⟩ := k
  exact ⟨_, _, _, rfl⟩

/-- From `s` to `t` the slot `i` has been written with a key, and more may be written. -/
structure SlotPut (s t : State) (i : Nat) (key : Key) (l : List Nat) : Prop where
  frame : SlotsWritten s t
  active : (t.slot i).st = .active
  key : (t.slot i).key ^^^ (t.slot i).mask = key
  others : ∀ j, j ≠ i → t.slot j = s.slot j
  rest : canPutAll t l = true

/-- A slot that can be written among others holds its key then, under a mask or with a tag (R360, R362). -/
theorem putSlot_slotPut {s : State} {i : Nat} {key : Key} {attr : Word} {partner : Option Nat} {l : List Nat}
    (h : canPutAll s (atClass attr :: l) = true) : SlotPut s (putSlot s i .active key attr partner) i key l := by
  rw [canPutAll_iff] at h
  cases hmode : checkedClass s (atClass attr) with
  | true =>
    rw [masksFor_cons_checked l hmode] at h
    rw [putSlot, if_pos hmode]
    refine ⟨⟨_, _, _, rfl⟩, ?_, ?_, fun j hj => State.setSlot_slot_ne _ _ _ _ hj, canPutAll_iff.2 h⟩
    · rw [State.setSlot_slot_self]
    · rw [State.setSlot_slot_self]
      exact BitVec.xor_zero
  | false =>
    rw [masksFor_cons_masked l hmode] at h
    have hserves : drbgServesAll s 34 (masksFor s l + 1) = true := h.resolve_left (Nat.succ_ne_zero _)
    obtain ⟨hu, f, hdraw⟩ := drbgDraw_frame s 34
    have hrest := drbgServesAll_drawn hserves
    rw [putSlot, if_neg (by rw [hmode]; decide), if_neg (by rw [drbgServes_of_all hserves]; decide)]
    extract_lets d m
    rw [hdraw] at hrest
    have hd : d.2 = { s with hashu := hu, free := f } := hdraw
    rw [hd]
    refine ⟨⟨_, _, _, rfl⟩, ?_, ?_, fun j hj => State.setSlot_slot_ne _ _ _ _ hj, canPutAll_iff.2 (.inr hrest)⟩
    · rw [State.setSlot_slot_self]
    · rw [State.setSlot_slot_self, BitVec.xor_assoc, BitVec.xor_self, BitVec.xor_zero]

/-! ### The keys of a partition -/

/-- From `s` to `t` the keys of a partition have been derived (R369). -/
structure PartDerived (s t : State) (p : Nat) (ctx : Key) : Prop where
  frame : ∃ slots c d h f, t = { s with chrt := { s.chrt with slots := slots, ctxEpoch := c, derives := d }, hashu := h, free := f }
  aliasKey : (t.slot (32 + 4 * p)).st = .active
  importKey : (t.slot (33 + 4 * p)).st = .active
  contextKey : (t.slot (34 + 4 * p)).st = .active ∧ (t.slot (34 + 4 * p)).key ^^^ (t.slot (34 + 4 * p)).mask = ctx
  previous : t.slot (35 + 4 * p) = {}
  others : ∀ i, i < 32 + 4 * p ∨ 35 + 4 * p < i → t.slot i = s.slot i

theorem atClass_mkAttr {cls : Nat} (h : cls < 16) (owner part usage epoch mask bank dests : Nat) (block : Bool) :
    atClass (mkAttr owner part cls usage epoch mask bank dests block) = cls := by
  have hbit : (if block then 1 else 0) < 2 := by split <;> decide
  simp only [atClass, mkAttr, fld, pack, List.foldl, BitVec.toNat_ofNat, Nat.shiftRight_eq_div_pow]
  omega

/-- The three keys of a partition in their slots (Table 17.1, Table 12.4). -/
def partKeys (s : State) (root : Key) (p : Nat) : State :=
  let pol := (s.part p).policy
  let s1 := putSlot s (32 + 4 * p) .active (partAlias s root p) (mkAttr 0 p 1 (usageOf 1) 0 (2 ^ 16) 0 0 false) none
  let s2 := putSlot s1 (33 + 4 * p) .active (kdf root "ORPV-IK1" (beBytes 1 p ++ digestBytes pol)) (mkAttr 0 p 2 (usageOf 2) 0 (2 ^ 16) 0 0 false) none
  putSlot s2 (34 + 4 * p) .active (contextKey root p pol 0) (mkAttr 0 p 7 (usageOf 7) 0 (255 * 256) 0 0 false) none

/-- The context epochs of a partition begin, without a previous one (R369). -/
def contextBegun (s : State) (p : Nat) : State :=
  { s.setSlot (35 + 4 * p) {} with chrt.ctxEpoch := tset 0 s.chrt.ctxEpoch p 0, chrt.derives := bump s.chrt.derives 3 }

theorem derivePart_eq {s : State} {root : Key} (hroot : s.chrt.root = some root) (p : Nat) :
    derivePart s p = contextBegun (partKeys s root p) p := by
  rw [derivePart, hroot]
  rfl

theorem contextBegun_slot (s : State) (p i : Nat) : (contextBegun s p).slot i = if i = 35 + 4 * p then {} else s.slot i :=
  State.setSlot_slot_eq s (35 + 4 * p) {} i

theorem derivePart_derived {s : State} {p : Nat} {root : Key} (hroot : s.chrt.root = some root) (h : canPutAll s [1, 2, 7] = true) :
    PartDerived s (derivePart s p) p (contextKey root p (s.part p).policy 0) := by
  rw [derivePart_eq hroot, partKeys]
  generalize heq1 : putSlot s (32 + 4 * p) _ _ _ _ = s1
  have hs1 : SlotPut s s1 (32 + 4 * p) _ [2, 7] := heq1 ▸ putSlot_slotPut (by rw [atClass_mkAttr (by decide)]; exact h)
  generalize heq2 : putSlot s1 (33 + 4 * p) _ _ _ _ = s2
  have hs2 : SlotPut s1 s2 (33 + 4 * p) _ [7] := heq2 ▸ putSlot_slotPut (by rw [atClass_mkAttr (by decide)]; exact hs1.rest)
  generalize heq3 : putSlot s2 (34 + 4 * p) _ _ _ _ = s3
  have hs3 : SlotPut s2 s3 (34 + 4 * p) _ [] := heq3 ▸ putSlot_slotPut (by rw [atClass_mkAttr (by decide)]; exact hs2.rest)
  refine ⟨?_, ?_, ?_, ?_, ?_, fun i hi => ?_⟩
  · obtain ⟨_, _, _, hwritten⟩ := (hs1.frame.trans hs2.frame).trans hs3.frame
    rw [hwritten]
    exact ⟨_, _, _, _, _, rfl⟩
  · rw [contextBegun_slot, if_neg (by omega), hs3.others _ (by omega), hs2.others _ (by omega)]
    exact hs1.active
  · rw [contextBegun_slot, if_neg (by omega), hs3.others _ (by omega)]
    exact hs2.active
  · rw [contextBegun_slot, if_neg (by omega)]
    exact ⟨hs3.active, hs3.key⟩
  · rw [contextBegun_slot, if_pos rfl]
  · rw [contextBegun_slot, if_neg (by omega), hs3.others i (by omega), hs2.others i (by omega), hs1.others i (by omega)]

/-! ### Slots that are read -/

/-- The check of a slot that is read changes its `BAD` mark and its check bits alone (R360, R363). -/
theorem noteBad_slot (s : State) (i : Nat) :
    (∃ bad ecc, (noteBad s i).slot i = { s.slot i with bad := bad, ecc := ecc }) ∧ ∀ j, j ≠ i → (noteBad s i).slot j = s.slot j := by
  simp only [noteBad]
  split
  · exact ⟨⟨_, _, State.setSlot_slot_self ..⟩, fun j hj => State.setSlot_slot_ne _ _ _ _ hj⟩
  · split
    · exact ⟨⟨_, _, State.setSlot_slot_self ..⟩, fun j hj => State.setSlot_slot_ne _ _ _ _ hj⟩
    · exact ⟨⟨_, _, rfl⟩, fun _ _ => rfl⟩

theorem slotSound_of_slotKey {s : State} {i : Nat} (h : (slotKey s i).isSome = true) : slotSound s i = true := by
  unfold slotKey at h
  extract_lets x at h
  split at h
  · next hgood => exact (Bool.and_eq_true_iff.1 hgood).2
  · exact absurd h (by decide)

/-! ### The engine, and the pair of a partition -/

theorem engineRuns_frame (s : State) (n : Nat) : ∃ ps pw e cf h f,
    engineRuns s n = { s with bus.pages := ps, pwr := pw, astr := e, helm.copyFault := cf, hashu := h, free := f } := by
  obtain ⟨ps, pw, e, cf, hup⟩ := engineUp_frame s
  obtain ⟨h, f, hdraws⟩ := drbgDraws_frame (engineUp s) 0 n
  exact ⟨ps, pw, e, cf, h, f, hdraws.trans (by rw [hup])⟩

/-- The issue of a partition's pair reads slot 1 and the alias seed, runs the engine, and leaves the pair (17 R498). -/
theorem issuePart_frame (s : State) (p : Nat) : ∃ ps pw e cf h f d, issuePart s p = { noteBad (noteBad s 1) (32 + 4 * p) with
    bus.pages := ps, pwr := pw, astr := e, helm.copyFault := cf, hashu := h, free := f, spdm := d } := by
  generalize hread : noteBad (noteBad s 1) (32 + 4 * p) = s0
  obtain ⟨_, _, _, _, _, _, hran⟩ : ∃ ps pw e cf h f, (drbgDraws (engineRuns s0 keygenDraws) 0 signDraws).2
      = { s0 with bus.pages := ps, pwr := pw, astr := e, helm.copyFault := cf, hashu := h, free := f } := by
    obtain ⟨_, _, _, _, _, _, hruns⟩ := engineRuns_frame s0 keygenDraws
    obtain ⟨_, _, hdraws⟩ := drbgDraws_frame (engineRuns s0 keygenDraws) 0 signDraws
    rw [hdraws, hruns]
    exact ⟨_, _, _, _, _, _, rfl⟩
  unfold issuePart issuePair
  rw [hread]
  dsimp only
  split
  · rw [hran]
    exact ⟨_, _, _, _, _, _, _, rfl⟩
  · exact ⟨_, _, _, _, _, _, _, rfl⟩

end Sys2Proof.Machine
end

section
/-! `PART_CMD`: `ASSIGN`, which takes a free partition or ends at the step that fails, and `RELEASE` (R307, R309, R323). -/

namespace Sys2Proof.Machine

/-! ### The steps of `ASSIGN` -/

/-- An operation of step 6 that fails ends an `ASSIGN` that passes every step before (17 R498). -/
theorem assignChecks_eq (s : State) (p : Nat) (x : AssignIn) : assignChecks s p x = (match assignChecks s p { x with fail := none } with
    | .error e => .error e
    | .ok r => match x.fail with
      | some f => .error (6, faultStatus f)
      | none => .ok r) := by
  unfold assignChecks
  dsimp only
  -- step 1, and the head of the record
  split
  · rfl
  split
  · rfl
  -- steps 3 and 4, and the record
  split
  · rfl
  split
  · rfl
  split
  · rfl
  -- step 5, and what keeps step 6 from running
  split
  · rfl
  split
  · rfl
  split
  · rfl
  · rfl

theorem assignChecks_faults {s : State} {p : Nat} {x : AssignIn} {r : Nat × Bytes} {f : OpFault}
    (h : assignChecks s p { x with fail := none } = .ok r) (hf : x.fail = some f) : assignChecks s p x = .error (6, faultStatus f) := by
  rw [assignChecks_eq, h, hf]

/-- A partition that passes the steps is free, and its keys can be derived and its pair signed (R307; 17 R498). -/
structure Assignable (s : State) (p : Nat) : Prop where
  free : (s.part p).st = .free
  slots : canPutAll s [1, 2, 7] = true
  signs : (slotKey s 1).isSome = true

theorem assignChecks_ok {s : State} {p : Nat} {x : AssignIn} {r : Nat × Bytes} (h : assignChecks s p x = .ok r) : Assignable s p := by
  unfold assignChecks at h
  dsimp only at h
  split at h
  · nomatch h
  next hfree =>
  -- steps 2 to 5
  iterate 5
    split at h
    · nomatch h
  split at h
  · nomatch h
  next hready =>
  split at h
  · nomatch h
  next hsigns =>
  simp only [Bool.or_eq_true, not_or, decide_eq_true_eq, not_not] at hfree
  simp only [Bool.or_eq_true, not_or, Bool.not_eq_true', Bool.not_eq_false] at hready
  exact ⟨hfree.1.1, hready.1.2, by simpa [Option.isSome_iff_ne_none] using hsigns⟩

/-! ### The end of a command -/

/-- A partition whose command has ended with a status at a step (Table 10.7). -/
def ended (q : Part) (st : Status) (k : Nat) : Part := { q with status := stCode st, stepFailed := k }

theorem partDone_frame (s : State) (a : Access) (p : Nat) (st : Status) (k : Nat) :
    ∃ ps, partDone s a p st k = { s.setPart p (ended (s.part p) st k) with bus.pages := ps } := by
  unfold partDone noteCmd
  dsimp only
  split <;> exact ⟨_, rfl⟩

theorem partDone_part (s : State) (a : Access) (p : Nat) (st : Status) (k : Nat) :
    (partDone s a p st k).part p = ended (s.part p) st k ∧ ∀ q, q ≠ p → (partDone s a p st k).part q = s.part q := by
  obtain ⟨_, hframe⟩ := partDone_frame s a p st k
  rw [hframe]
  exact ⟨State.setPart_part_self .., fun q hq => State.setPart_part_ne _ _ _ _ hq⟩

section
variable {s : State} {a : Access} {n : BitVec 5} {v : Word} (mem : AssignIn) (hr : WriteReaches s a (0x80 + n.toNat) 0x88)
include hr

theorem exec_assign_busy (hbusy : partBusy s n.toNat = true) :
    exec (.assign a n v mem) s = .next (refuse s a true (regAt (0x80 + n.toNat) 0x88) .wrongState) := by
  refine congrArg Host.Outcome.next ?_
  rw [partAssign, refuseIf_true _ hbusy]
  exact regWrite_stateRefused _ _ hr

omit mem in
theorem exec_partCmdRelease_busy (hbusy : partBusy s n.toNat = true) :
    exec (.partCmdRelease a n v) s = .next (refuse s a true (regAt (0x80 + n.toNat) 0x88) .wrongState) := by
  refine congrArg Host.Outcome.next ?_
  rw [partRelease, refuseIf_true _ hbusy]
  exact regWrite_stateRefused _ _ hr

variable (hbusy : partBusy s n.toNat = false)
include hbusy

omit mem in
/-- `RELEASE` of a partition that is not owned is refused, and shows the refusal (R309; log 69). -/
theorem exec_partCmdRelease_free (hst : (s.part n.toNat).st = .free) : exec (.partCmdRelease a n v) s
    = .next (refuse ((answer s 0).setPart n.toNat (ended (s.part n.toNat) .wrongState 0)) a true (regAt (0x80 + n.toNat) 0x88) .wrongState) := by
  refine congrArg Host.Outcome.next ?_
  rw [partRelease, refuseIf_false _ hbusy]
  refine (regWrite_taken _ hr).trans (if_pos ?_)
  rw [show ((answer s 0).part n.toNat).st = .free from hst]
  decide

variable (hz : fld v 59 0 = 0)
include hz

theorem exec_assign_taken : exec (.assign a n v mem) s = .next (assignOp (answer s 0) a n.toNat mem) := by
  refine congrArg Host.Outcome.next ?_
  rw [partAssign, refuseIf_false _ hbusy, mbz_fld hz]
  exact regWrite_taken _ hr

omit mem in
/-- `RELEASE` of an owned partition starts its wipe (R309). -/
theorem exec_partCmdRelease_owned (hst : (s.part n.toNat).st = .owned) : exec (.partCmdRelease a n v) s
    = .next (raise (partDone ((answer s 0).setPart n.toNat { s.part n.toNat with st := .wiping, wipeTag := errTag a }) a n.toNat .ok 0)
        (0x80 + n.toNat) 3) := by
  refine congrArg Host.Outcome.next ?_
  rw [partRelease, refuseIf_false _ hbusy]
  refine (regWrite_taken _ hr).trans ((if_neg (not_not_intro hst)).trans ?_)
  rw [mbz_fld hz]
  rfl

end

/-! ### `ASSIGN` that fails -/

/-- What a step that fails has done before it ends: step 6 alone reads slot 1 and powers the engine (17 R498). -/
def triedTo (s : State) (k : Nat) : State := if k = 6 then engineUp (noteBad s 1) else s

theorem triedTo_frame (s : State) (k : Nat) : ∃ ps chrt pw e cf,
    triedTo s k = { s with bus.pages := ps, chrt := chrt, pwr := pw, astr := e, helm.copyFault := cf }
      ∧ (k ≠ 6 → chrt = s.chrt ∧ cf = s.helm.copyFault ∧ pw = s.pwr ∧ e = s.astr) ∧ ∀ i, i ≠ 1 → (triedTo s k).slot i = s.slot i := by
  unfold triedTo
  split
  · next hk =>
    obtain ⟨_, _, _, _, hup⟩ := engineUp_frame (noteBad s 1)
    obtain ⟨_, _, hnoted⟩ := noteBad_frame s 1
    have hslots (i : Nat) (hi : i ≠ 1) : (engineUp (noteBad s 1)).slot i = s.slot i := by
      rw [hup]
      exact (noteBad_slot s 1).2 i hi
    obtain ⟨ps, chrt, pw, e, cf, hframe⟩ : ∃ ps chrt pw e cf, engineUp (noteBad s 1)
        = { s with bus.pages := ps, chrt := chrt, pwr := pw, astr := e, helm.copyFault := cf } := by
      rw [hup, hnoted]
      exact ⟨_, _, _, _, _, rfl⟩
    exact ⟨ps, chrt, pw, e, cf, hframe, fun h => absurd hk h, hslots⟩
  · exact ⟨_, _, _, _, _, rfl, fun _ => ⟨rfl, rfl, rfl, rfl⟩, fun _ _ => rfl⟩

theorem assignOp_fails {s : State} {p k : Nat} {mem : AssignIn} {st : Status} (a : Access) (h : assignChecks s p mem = .error (k, st)) :
    assignOp s a p mem = partDone (triedTo s k) a p st k := by
  rw [assignOp, h]
  rfl

/-! ### `ASSIGN` that passes -/

/-- The partition taken (R307 step 7). -/
def taken (s : State) (p n : Nat) (rec : Bytes) : State :=
  s.setPart p { s.part p with st := .owned, owners := 2 ^ n - 1, policy := Config.sha384 rec }

theorem assignOp_passes {s : State} {p n : Nat} {mem : AssignIn} {rec : Bytes} (a : Access) (h : assignChecks s p mem = .ok (n, rec)) :
    assignOp s a p mem = raise (partDone (issuePart (engineRuns (derivePart (taken s p n rec) p) keygenDraws) p) a p .ok 0) (0x80 + p) 3 := by
  rw [assignOp, h]
  rfl

/-- From `s` to `t` keys have been derived and signed with: the partitions and all else that software sees of the block stand. -/
def KeysMade (s t : State) : Prop := ∃ ps chrt h d pw e cf f, t = { s with
  bus.pages := ps, chrt := chrt, hashu := h, spdm := d, pwr := pw, astr := e, helm.copyFault := cf, free := f }

theorem KeysMade.trans {s t u : State} (h : KeysMade s t) (k : KeysMade t u) : KeysMade s u := by
  obtain ⟨_, _, _, _, _, _, _, _, rfl⟩ := h
  obtain ⟨_, _, _, _, _, _, _, _, rfl⟩ := k
  exact ⟨_, _, _, _, _, _, _, _, rfl⟩

theorem noteBad_keysMade (s : State) (i : Nat) : KeysMade s (noteBad s i) := by
  obtain ⟨_, _, h⟩ := noteBad_frame s i
  exact ⟨_, _, _, _, _, _, _, _, h⟩

theorem engineRuns_keysMade (s : State) (n : Nat) : KeysMade s (engineRuns s n) := by
  obtain ⟨_, _, _, _, _, _, h⟩ := engineRuns_frame s n
  exact ⟨_, _, _, _, _, _, _, _, h⟩

theorem issuePart_keysMade (s : State) (p : Nat) : KeysMade s (issuePart s p) := by
  obtain ⟨_, _, _, _, _, _, _, h⟩ := issuePart_frame s p
  exact ((noteBad_keysMade s 1).trans (noteBad_keysMade _ (32 + 4 * p))).trans ⟨_, _, _, _, _, _, _, _, h⟩

/-- From `s` to `t` the keys of a partition stand in its slots, with its pair issued. -/
structure Provisioned (s t : State) (p : Nat) (ctx : Key) : Prop where
  frame : KeysMade s t
  contextKey : (t.slot (34 + 4 * p)).st = .active ∧ (t.slot (34 + 4 * p)).key ^^^ (t.slot (34 + 4 * p)).mask = ctx
  importKey : (t.slot (33 + 4 * p)).st = .active
  aliasKey : (t.slot (32 + 4 * p)).st = .active
  previous : t.slot (35 + 4 * p) = {}
  others : ∀ i, i < 32 + 4 * p ∨ 35 + 4 * p < i → t.slot i = { s.slot i with ecc := (t.slot i).ecc } ∧ (i ≠ 1 → t.slot i = s.slot i)

/-- The issue of a partition's pair notes the checks of slot 1, which passes, and of the alias seed, and leaves the slots otherwise as they are. -/
theorem issuePart_slot {s : State} (p : Nat) (hsound : slotSound s 1 = true) :
    (issuePart s p).slot 1 = { s.slot 1 with ecc := ((issuePart s p).slot 1).ecc }
      ∧ ((issuePart s p).slot (32 + 4 * p)).st = (s.slot (32 + 4 * p)).st
      ∧ ∀ i, i ≠ 1 → i ≠ 32 + 4 * p → (issuePart s p).slot i = s.slot i := by
  obtain ⟨_, _, _, _, _, _, _, hissued⟩ := issuePart_frame s p
  have hend (i : Nat) : (issuePart s p).slot i = (noteBad (noteBad s 1) (32 + 4 * p)).slot i := by rw [hissued]; rfl
  obtain ⟨_, _, hothersOne, hone⟩ := noteBad_sound hsound
  obtain ⟨⟨_, _, halias⟩, hothers⟩ := noteBad_slot (noteBad s 1) (32 + 4 * p)
  refine ⟨?_, ?_, fun i h1 h32 => ?_⟩
  · rw [hend, hothers 1 (by omega)]
    exact hone
  · rw [hend, halias, hothersOne _ (by omega)]
  · rw [hend, hothers i h32, hothersOne i h1]

theorem provisioned {s : State} {p : Nat} {root : Key} (hroot : s.chrt.root = some root) (hslots : canPutAll s [1, 2, 7] = true)
    (hsigns : (slotKey s 1).isSome = true) :
    Provisioned s (issuePart (engineRuns (derivePart s p) keygenDraws) p) p (contextKey root p (s.part p).policy 0) := by
  obtain ⟨⟨_, _, _, _, _, hderived⟩, halias, himport, hctx, hprev, hothers⟩ := derivePart_derived (p := p) hroot hslots
  obtain ⟨_, _, _, _, _, _, hruns⟩ := engineRuns_frame (derivePart s p) keygenDraws
  have hslot (i : Nat) : (engineRuns (derivePart s p) keygenDraws).slot i = (derivePart s p).slot i := by rw [hruns]; rfl
  have hbefore : slotSound (engineRuns (derivePart s p) keygenDraws) 1 = true := by
    rw [← slotSound_of_slotKey hsigns]
    unfold slotSound
    rw [hslot, hothers 1 (.inl (by omega)), hruns, hderived]
    rfl
  have hmade : KeysMade s (derivePart s p) := ⟨_, _, _, _, _, _, _, _, hderived⟩
  obtain ⟨hone, hissuedAlias, hkept⟩ := issuePart_slot p hbefore
  refine ⟨(hmade.trans (engineRuns_keysMade _ _)).trans (issuePart_keysMade _ _), ?_, ?_, ?_, ?_, fun i hi => ?_⟩
  · rw [hkept _ (by omega) (by omega), hslot]
    exact hctx
  · rw [hkept _ (by omega) (by omega), hslot]
    exact himport
  · rw [hissuedAlias, hslot]
    exact halias
  · rw [hkept _ (by omega) (by omega), hslot]
    exact hprev
  · by_cases h1 : i = 1
    · subst h1
      refine ⟨?_, fun h => absurd rfl h⟩
      rw [hslot, hothers 1 hi] at hone
      exact hone
    · have hsame : (issuePart (engineRuns (derivePart s p) keygenDraws) p).slot i = s.slot i := by
        rw [hkept i h1 (by omega), hslot, hothers i hi]
      exact ⟨by rw [hsame], fun _ => hsame⟩

theorem KeysMade.part {s t : State} (h : KeysMade s t) (q : Nat) : t.part q = s.part q := by
  obtain ⟨_, _, _, _, _, _, _, _, rfl⟩ := h
  rfl

theorem taken_part (s : State) (p n : Nat) (rec : Bytes) :
    (taken s p n rec).part p = { s.part p with st := .owned, owners := 2 ^ n - 1, policy := Config.sha384 rec }
      ∧ ∀ q, q ≠ p → (taken s p n rec).part q = s.part q :=
  ⟨State.setPart_part_self .., fun _ hq => State.setPart_part_ne _ _ _ _ hq⟩

/-- Settles O34: a busy page refuses both commands; `ASSIGN` ends by the step that fails (`assignOp_fails`) or takes the partition with its keys
(`assignOp_passes`, `provisioned`), and `RELEASE` goes by the partition's state. -/
theorem partitionsAreAssignedAndReleased : Obligations.PartitionsAreAssignedAndReleased := by
  intro s a n v mem hr hz
  have hp : n.toNat < 32 := n.isLt
  refine ⟨fun hbusy c hc => ?_, fun hbusy => ⟨fun k st hfail => ?_, fun k rec f hpass hf => ?_, fun k rec root hpass hroot => ?_, fun hst => ?_,
    fun hst => ?_⟩⟩
  · rcases List.mem_pair.1 hc with rfl | rfl
    · exact next_of_refuse (exec_assign_busy mem hr hbusy)
    · exact next_of_refuse (exec_partCmdRelease_busy hr hbusy)
  · have hend : exec (.assign a n v mem) s = .next (partDone (triedTo (answer s 0) k) a n.toNat st k) :=
      (exec_assign_taken mem hr hbusy hz).trans (congrArg _ (assignOp_fails a hfail))
    obtain ⟨_, _, _, _, _, htried, hearly, hslots⟩ := triedTo_frame (answer s 0) k
    obtain ⟨hself, hothers⟩ := partDone_part (triedTo (answer s 0) k) a n.toNat st k
    obtain ⟨_, hdone⟩ := partDone_frame (triedTo (answer s 0) k) a n.toNat st k
    refine ⟨_, hend, ?_, hself.trans ?_, fun hk => ?_, fun i hi => ?_, fun q hq => (hothers q hq).trans ?_⟩
    · rw [hdone, htried]
      rfl
    · rw [htried]
      rfl
    · obtain ⟨rfl, rfl, rfl, rfl⟩ := hearly hk
      rw [hdone, htried]
      exact ⟨rfl, rfl, rfl, rfl⟩
    · rw [hdone]
      exact hslots i hi
    · rw [htried]
      rfl
  · have hfail : assignChecks s n.toNat mem = .error (6, faultStatus f) := assignChecks_faults hpass hf
    have hend : exec (.assign a n v mem) s = .next (partDone (triedTo (answer s 0) 6) a n.toNat (faultStatus f) 6) :=
      (exec_assign_taken mem hr hbusy hz).trans (congrArg _ (assignOp_fails a hfail))
    obtain ⟨_, _, _, _, _, htried, -⟩ := triedTo_frame (answer s 0) 6
    obtain ⟨hself, -⟩ := partDone_part (triedTo (answer s 0) 6) a n.toNat (faultStatus f) 6
    refine ⟨_, hend, ?_⟩
    rw [hself, htried]
    exact ⟨(assignChecks_ok hpass).free, rfl, by cases f <;> rfl⟩
  · obtain ⟨hfree, hslots, hsigns⟩ := assignChecks_ok hpass
    obtain ⟨hmade, hctx, himport, halias, hprev, hkept⟩ :=
      provisioned (s := taken (answer s 0) n.toNat k rec) (p := n.toNat) (root := root) hroot hslots hsigns
    have hend := (exec_assign_taken mem hr hbusy hz).trans (congrArg _ (assignOp_passes a hpass))
    generalize issuePart (engineRuns (derivePart (taken (answer s 0) n.toNat k rec) n.toNat) keygenDraws) n.toNat = u at *
    obtain ⟨hself, hothers⟩ := partDone_part u a n.toNat .ok 0
    obtain ⟨hown, hrest⟩ := taken_part (answer s 0) n.toNat k rec
    obtain ⟨_, hdone⟩ := partDone_frame u a n.toNat .ok 0
    have hslot (i : Nat) : (raise (partDone u a n.toNat .ok 0) (0x80 + n.toNat) 3).slot i = u.slot i := by rw [hdone]; rfl
    refine ⟨_, hend, ?_, hself.trans ?_, fun q hq => (hothers q hq).trans ((hmade.part q).trans (hrest q hq)), ?_, ?_, ?_, ?_, ?_,
      fun i hi => ?_, raise_cause _ _ (by decide)⟩
    · obtain ⟨_, _, _, _, _, _, _, _, rfl⟩ := hmade
      rw [hdone]
      rfl
    · rw [hmade.part, hown]
      rfl
    · rw [hslot]
      exact hctx.1
    · rw [hslot, hctx.2, hown]
    · rw [hslot]
      exact himport
    · rw [hslot]
      exact halias
    · rw [hslot]
      exact hprev
    · rw [hslot]
      exact hkept i hi
  · have hend := exec_partCmdRelease_owned hr hbusy hz hst
    obtain ⟨hself, hothers⟩ := partDone_part ((answer s 0).setPart n.toNat { s.part n.toNat with st := .wiping, wipeTag := errTag a }) a n.toNat .ok 0
    obtain ⟨_, hdone⟩ := partDone_frame ((answer s 0).setPart n.toNat { s.part n.toNat with st := .wiping, wipeTag := errTag a }) a n.toNat .ok 0
    refine ⟨_, hend, ?_, hself.trans ?_, fun q hq => (hothers q hq).trans (State.setPart_part_ne _ _ _ _ hq), raise_cause _ _ (by decide)⟩
    · rw [hdone]
      rfl
    · rw [State.setPart_part_self]
      rfl
  · have hend := exec_partCmdRelease_free (a := a) (v := v) hr hbusy hst
    refine ⟨_, hend, rfl, State.setPart_part_self (answer s 0) n.toNat (ended (s.part n.toNat) .wrongState 0), rfl⟩

end Sys2Proof.Machine
end

section
/-! What the end of a partition's traffic leaves of its tenancy (R310, Table 10.4 steps 1 to 3): the records of the partitions, and whose key each
slot holds. -/

namespace Sys2Proof.Machine

/-- From `s` to `t` the records of the partitions and the `attr` words of the key slots stand. -/
structure TenancyKept (s t : State) : Prop where
  parts : t.parts = s.parts
  attrs : ∀ i, (t.slot i).attr = (s.slot i).attr

theorem TenancyKept.refl (s : State) : TenancyKept s s := ⟨rfl, fun _ => rfl⟩

theorem TenancyKept.trans {s t u : State} (h : TenancyKept s t) (k : TenancyKept t u) : TenancyKept s u :=
  ⟨k.parts.trans h.parts, fun i => (k.attrs i).trans (h.attrs i)⟩

/-- A change of anything beside the partitions and the slots. -/
theorem TenancyKept.within {s u t : State} (h : TenancyKept s u) (hp : t.parts = u.parts := by rfl)
    (hs : t.chrt.slots = u.chrt.slots := by rfl) : TenancyKept s t :=
  h.trans ⟨hp, fun i => by rw [State.slot, State.slot, hs]⟩

theorem TenancyKept.raised {s u : State} (h : TenancyKept s u) (p i : Nat) : TenancyKept s (raise u p i) := h.within

theorem foldl_tenancyKept {α : Type} {s u : State} {f : State → α → State} {l : List α}
    (hf : ∀ x a, TenancyKept s x → TenancyKept s (f x a)) (h : TenancyKept s u) : TenancyKept s (l.foldl f u) := by
  induction l generalizing u with
  | nil => exact h
  | cons a l ih => exact ih (hf u a h)

/-! ### Collectives -/

section
variable {s u : State} (h : TenancyKept s u)
include h

theorem noteBad_tenancyKept (i : Nat) : TenancyKept s (noteBad u i) := by
  obtain ⟨⟨_, _, hself⟩, hothers⟩ := noteBad_slot u i
  obtain ⟨_, _, hframe⟩ := noteBad_frame u i
  refine h.trans ⟨by rw [hframe], fun j => ?_⟩
  by_cases hj : j = i
  · rw [hj, hself]
  · rw [hothers j hj]

theorem noteFabric_tenancyKept : TenancyKept s (noteFabric u) := by
  unfold noteFabric
  split
  · exact noteBad_tenancyKept h _
  · exact h

theorem leaveBuffer_tenancyKept (k id : Nat) : TenancyKept s (leaveBuffer u k id) := by
  obtain ⟨_, _, _, hframe, -⟩ := leaveBuffer_frame u k id
  rw [hframe]
  exact h.within

theorem dropParked_tenancyKept (p g t : Nat) : TenancyKept s (dropParked u p g t) := by
  unfold dropParked
  extract_lets mine s1 _
  have hs1 : TenancyKept s s1 := foldl_tenancyKept (fun _ _ hx => hx.within) h
  exact hs1.within

theorem discardOuts_tenancyKept (p g t : Nat) : TenancyKept s (discardOuts u p g t) := by
  unfold discardOuts
  extract_lets mine all _ s1 rel
  have hs1 : TenancyKept s s1 := h.within
  exact foldl_tenancyKept (fun _ _ hx => leaveBuffer_tenancyKept hx ..) hs1

theorem setLanes_tenancyKept (wi t : Nat) (l : List Int) : TenancyKept s (setLanes u wi t l) := h.within

theorem mapRecs_tenancyKept (wi : Nat) (f : TileRec → TileRec) : TenancyKept s (mapRecs u wi f) :=
  foldl_tenancyKept (fun _ _ hx => hx.within) h

theorem refund_tenancyKept (p : Nat) (e : Entry) : TenancyKept s (refund u p e) := by
  unfold refund
  split
  · exact h
  · exact h.within

theorem fabricLost_tenancyKept (w : FabWait) : TenancyKept s (fabricLost u w) := by
  unfold fabricLost
  split
  · exact h.within
  · split
    · exact h.within
    · exact h

theorem fabricSeal_tenancyKept (key : Key) (k : Nat) (w : FabWait) : TenancyKept s (fabricSeal u key k w) := by
  unfold fabricSeal
  extract_lets st now n hdr f0 _ s1
  have hs1 : TenancyKept s s1 := by
    unfold s1
    split
    · exact h.within
    · exact h
  exact hs1.within

omit h in
theorem startFabric_tenancyKept (n : Nat) {u : State} (h : TenancyKept s u) : TenancyKept s (startFabric n u) := by
  induction n generalizing u with
  | zero => exact h
  | succ n ih =>
    unfold startFabric
    split
    · exact h
    next w rest _ =>
    split
    · exact h
    next k _ =>
    extract_lets _ s0 r
    have hs0 : TenancyKept s s0 := h.within
    split
    · exact ih (fabricLost_tenancyKept hs0 w)
    · split
      · refine ih (fabricSeal_tenancyKept (TenancyKept.within (u := if w.asked then s0 else larkCount s0 k 0x100 1) ?_) ..)
        split
        · exact hs0
        · exact hs0.within
      · split
        · exact h
        · exact h.within

theorem sendAbort_tenancyKept (ports part group hop : Nat) (payload : Bytes) :
    TenancyKept s (sendAbort u ports part group hop payload) := by
  unfold sendAbort
  split
  · exact h
  · split
    · split <;> exact h.within
    · extract_lets s1
      have hs1 : TenancyKept s s1 := noteFabric_tenancyKept h
      split
      · exact startFabric_tenancyKept _ hs1.within
      · exact hs1.within

/-- The end of a collective, live or past its release (R202, R203). -/
theorem abortEntry_tenancyKept (p : Nat) (e : Entry) (i : AbortInfo) : TenancyKept s (abortEntry u p e i) := by
  unfold abortEntry
  split
  · split
    · exact h
    · extract_lets s1 _ s2
      have hs1 : TenancyKept s s1 := discardOuts_tenancyKept h ..
      have hs2 : TenancyKept s s2 := by
        unfold s2
        split <;> exact hs1.within
      exact hs2.within
  · split
    · exact h
    · extract_lets origin code s1 s2 _ s3 s4 s5 s6 mine _ s6' s7 s8 ports s9
      have hs1 : TenancyKept s s1 := by
        unfold s1
        split
        · obtain ⟨_, hlatch⟩ := ((latchAbort_records u e.group code origin i.detail i.dl i.dr).noteAborted p e.ticket (entryEpoch u p e)).frame
          rw [hlatch]
          exact h.within
        · exact h
      have hs2 : TenancyKept s s2 := by
        unfold s2
        split
        · exact hs1.within
        · exact hs1
      have hs3 : TenancyKept s s3 := hs2.within
      have hs4 : TenancyKept s s4 := discardOuts_tenancyKept (dropParked_tenancyKept hs3 ..) ..
      have hs5 : TenancyKept s s5 := by
        unfold s5
        split
        · exact mapRecs_tenancyKept (u := s4.setWin _ _) hs4.within ..
        · exact hs4
      have hs6' : TenancyKept s s6' := (refund_tenancyKept hs5 p e).within
      have hs7 : TenancyKept s s7 := foldl_tenancyKept (fun _ _ hx => leaveBuffer_tenancyKept hx ..) hs6'
      have hs8 : TenancyKept s s8 := hs7.within
      have hs9 : TenancyKept s s9 := by
        unfold s9
        split <;> exact sendAbort_tenancyKept hs8 ..
      exact hs9.within

theorem abortWhere_tenancyKept (c : Nat → Entry → Bool) (i : AbortInfo) : TenancyKept s (abortWhere c i u) := by
  refine foldl_tenancyKept (fun x a hx => ?_) h
  split
  · exact abortEntry_tenancyKept hx ..
  · exact hx

/-! ### Channels -/

theorem takeReleased_tenancyKept (k : Nat) : TenancyKept s (takeReleased u k) := by
  unfold takeReleased
  extract_lets c
  split
  · split
    · exact h.within
    · exact h
  · exact h

theorem unclaim_tenancyKept (k : Nat) : TenancyKept s (unclaim u k) :=
  foldl_tenancyKept (fun _ _ hx => takeReleased_tenancyKept hx _)
    (TenancyKept.within (t := { u with rhmb.claims := u.rhmb.claims.filter (fun e => e.2 ≠ k + 1) }) h)

omit h in
theorem consumeFrames_tenancyKept (port f : Nat) {n : Nat} {u : State} {l : List (Nat × Bool)} (h : TenancyKept s u) :
    TenancyKept s (consumeFrames port f n u l).1 := by
  induction f generalizing n u l with
  | zero => exact h
  | succ f ih =>
    cases l with
    | nil => exact h
    | cons x l =>
      unfold consumeFrames
      extract_lets whole m beats cr _ s1
      have hs1 : TenancyKept s s1 := by
        unfold s1
        split
        · exact h
        · exact h.within
      split
      · exact ih hs1.within
      · exact hs1

theorem ctxEndCode_tenancyKept (x : CtxCmd) (code : Nat) : TenancyKept s (ctxEndCode u x code) := by
  unfold ctxEndCode
  extract_lets _ s1
  have hs1 : TenancyKept s s1 := h.within
  split
  · exact hs1
  · exact hs1.within

theorem restoreWipe_tenancyKept (wi : Nat) : TenancyKept s (restoreWipe u wi) := by
  unfold restoreWipe
  extract_lets w s1
  have hs1 : TenancyKept s s1 := foldl_tenancyKept (fun _ _ hx => setLanes_tenancyKept hx ..) h
  have hs2 : TenancyKept s (mapRecs s1 wi fun _ => { scale := 0x81, fresh := true, flags := 0, hop := 0 }) := mapRecs_tenancyKept hs1 ..
  exact hs2.within

theorem ctxCut_tenancyKept (ch : Nat) (st : Status) : TenancyKept s (ctxCut u ch st) := by
  unfold ctxCut
  split
  · exact h
  next x _ =>
  split
  · exact h
  extract_lets s1 d
  have hs1 : TenancyKept s s1 := by
    unfold s1
    split
    · exact restoreWipe_tenancyKept h _
    · exact h
  split
  · exact ctxEndCode_tenancyKept (u := d.2) hs1.within ..
  · exact ctxEndCode_tenancyKept hs1 ..

theorem goStopped_tenancyKept (k : Nat) : TenancyKept s (goStopped u k) := by
  unfold goStopped goIdle
  extract_lets s1
  have hs1 : TenancyKept s (detach s1 (fun r => r.ch = k)) := h.within
  exact (ctxCut_tenancyKept (unclaim_tenancyKept hs1 k) k .aborted).raised _ _

theorem dropBegun_tenancyKept (j : Job) : TenancyKept s (dropBegun u j) := by
  unfold dropBegun
  split
  · dsimp only
    split
    · exact consumeFrames_tenancyKept _ _ h
    · exact h
  · exact h

/-- A channel that stops (R351). -/
theorem stopChan_tenancyKept (k : Nat) : TenancyKept s (stopChan u k) := by
  unfold stopChan stopNow
  split
  · exact h.within
  · extract_lets c
    split
    · exact h
    · refine goStopped_tenancyKept ?_ k
      split
      · exact dropBegun_tenancyKept h _
      · exact h

omit h in
theorem wipeTraffic_tenancyKept (s : State) (p : Nat) : TenancyKept s (wipeTraffic s p) := by
  unfold wipeTraffic
  extract_lets s1 s2
  have hs1 : TenancyKept s s1 := abortWhere_tenancyKept (.refl s) ..
  have hs2 : TenancyKept s s2 := foldl_tenancyKept (fun _ _ hx => stopChan_tenancyKept hx _) hs1
  exact hs2.within

end

theorem TenancyKept.part {s t : State} (h : TenancyKept s t) (q : Nat) : t.part q = s.part q := by
  rw [State.part, State.part, h.parts]

theorem TenancyKept.slotOfPart {s t : State} (h : TenancyKept s t) (p i : Nat) :
    slotOfPart p i (t.slot i) = slotOfPart p i (s.slot i) := by
  rw [Machine.slotOfPart, Machine.slotOfPart, h.attrs]

end Sys2Proof.Machine
end

section
/-! What a wipe clears (R310, Table 10.4 steps 4 to 9): keys, engine slots, windows, parking, entries, descriptors and semaphores. -/

namespace Sys2Proof.Machine

/-! ### Key slots -/

theorem zeroSlot_slot (s : State) (i j : Nat) : (zeroSlot s i).slot j = if j = i then {} else s.slot j := by
  have hkept : (flushDerived s i).slot j = s.slot j := by
    unfold flushDerived
    dsimp only
    split <;> rfl
  rw [zeroSlot, State.setSlot_slot_eq, hkept]

theorem zeroSlot_frame (s : State) (i : Nat) : ∃ chrt lark, zeroSlot s i = { s with chrt := chrt, lark := lark } := by
  unfold zeroSlot flushDerived
  dsimp only
  split <;> exact ⟨_, _, rfl⟩

theorem zeroEach_spec (l : List (Nat × Slot)) (s : State) :
    (∃ chrt lark, l.foldl (fun st e => zeroSlot st e.1) s = { s with chrt := chrt, lark := lark })
      ∧ ∀ j, (l.foldl (fun st e => zeroSlot st e.1) s).slot j = if j ∈ l.map (·.1) then {} else s.slot j := by
  induction l generalizing s with
  | nil => exact ⟨⟨_, _, rfl⟩, fun j => (if_neg List.not_mem_nil).symm⟩
  | cons e l ih =>
    obtain ⟨⟨chrt, lark, hrest⟩, hslots⟩ := ih (zeroSlot s e.1)
    obtain ⟨_, _, hfirst⟩ := zeroSlot_frame s e.1
    refine ⟨⟨chrt, lark, hrest.trans (by rw [hfirst])⟩, fun j => (hslots j).trans ?_⟩
    rw [zeroSlot_slot, List.map_cons]
    by_cases hl : j ∈ l.map (·.1)
    · rw [if_pos hl, if_pos (List.mem_cons_of_mem _ hl)]
    · rw [if_neg hl]
      exact if_congr (by rw [List.mem_cons, or_iff_left hl]) rfl rfl

/-- A sweep of the slots zeroes each one that satisfies its test (R381). -/
theorem zeroSlots_spec (s : State) (c : Nat → Slot → Bool) : (∃ chrt lark, zeroSlots s c = { s with chrt := chrt, lark := lark })
    ∧ ∀ j, c j (s.slot j) = true → (zeroSlots s c).slot j = {} := by
  obtain ⟨hframe, hslots⟩ := zeroEach_spec (s.chrt.slots.filter (fun e => c e.1 e.2)) s
  refine ⟨hframe, fun j hj => (hslots j).trans ?_⟩
  by_cases hempty : s.slot j = {}
  · rw [hempty, ite_self]
  · exact if_pos (List.mem_map.2 ⟨_, List.mem_filter.2 ⟨mem_of_tget_ne hempty, hj⟩, rfl⟩)

/-! ### Astrolabe -/

/-- From `s` to `t` the engine has ended its operation or zeroed slots of its own. -/
def EngineOnly (s t : State) : Prop := ∃ ps e f, t = { s with bus.pages := ps, astr := e, free := f }

theorem EngineOnly.refl (s : State) : EngineOnly s s := ⟨_, _, _, rfl⟩

theorem EngineOnly.trans {s t u : State} (h : EngineOnly s t) (k : EngineOnly t u) : EngineOnly s u := by
  obtain ⟨_, _, _, rfl⟩ := h
  obtain ⟨_, _, _, rfl⟩ := k
  exact ⟨_, _, _, rfl⟩

theorem foldl_engineOnly {α : Type} {f : State → α → State} (hf : ∀ x a, EngineOnly x (f x a)) (l : List α) (s : State) :
    EngineOnly s (l.foldl f s) := by
  induction l generalizing s with
  | nil => exact .refl s
  | cons a l ih => exact (hf s a).trans (ih (f s a))

theorem zeroAstrSlots_engineOnly (s : State) (l : List Nat) : EngineOnly s (zeroAstrSlots s l) :=
  foldl_engineOnly (fun _ _ => ⟨_, _, _, rfl⟩) l s

theorem takeOwner_engineOnly (s : State) (g : Args) : EngineOnly s (takeOwner s g) := foldl_engineOnly (fun _ _ => ⟨_, _, _, rfl⟩) _ s

/-- An aborted operation leaves no result: its slots are zeroed (R405). -/
theorem endSlots_aborted_engineOnly (s : State) (g : Args) {v : Given} (hv : v.st = .aborted) : EngineOnly s (endSlots s g v) := by
  unfold endSlots
  extract_lets keys s1 s2
  have hs1 : EngineOnly s s1 := takeOwner_engineOnly s g
  have hs2 : EngineOnly s1 s2 := by
    unfold s2
    rw [hv]
    exact zeroAstrSlots_engineOnly s1 _
  exact (hs1.trans hs2).trans (zeroAstrSlots_engineOnly s2 keys)

theorem astrAbortNow_engineOnly (s : State) : EngineOnly s (astrAbortNow s) := by
  unfold astrAbortNow astrEnd
  extract_lets d g cyc s1 fault _ _ s2 s3 s4
  have hs1 : EngineOnly s s1 := EngineOnly.trans (t := d.2) ⟨_, _, _, rfl⟩ (endSlots_aborted_engineOnly d.2 g rfl)
  have hs2 : EngineOnly s1 s2 := ⟨_, _, _, rfl⟩
  have hs3 : EngineOnly s2 s3 := ⟨_, _, _, rfl⟩
  have hs4 : EngineOnly s3 s4 := ⟨_, _, _, rfl⟩
  exact ((hs1.trans hs2).trans (hs3.trans hs4)).trans ⟨_, _, _, rfl⟩

theorem astrWipe_engineOnly (s : State) (p : Nat) : EngineOnly s (astrWipe s p) := by
  unfold astrWipe
  extract_lets s1
  have hs1 : EngineOnly s s1 := by
    unfold s1
    split
    · exact astrAbortNow_engineOnly s
    · exact .refl s
  exact hs1.trans (zeroAstrSlots_engineOnly s1 _)

/-! ### Windows -/

/-- From `s` to `t` windows of a list have been freed: every window that stands is another, of the partition it was of (R169). -/
structure WindowsFreed (s t : State) (l : List Nat) : Prop where
  frame : ∃ ps phlx dA dS, t = { s with bus.pages := ps, phlx := phlx, grp := { s.grp with descA := dA, descS := dS } }
  left : ∀ w, (t.win w).kind ≠ .free → w ∉ l ∧ (s.win w).kind ≠ .free ∧ (t.win w).part = (s.win w).part

theorem freeWindowNow_freed (s : State) (wi : Nat) : WindowsFreed s (freeWindowNow s wi) [wi] := by
  by_cases hkind : (s.win wi).kind = .free
  · rw [show freeWindowNow s wi = s from if_pos hkind]
    refine ⟨⟨_, _, _, _, rfl⟩, fun w hw => ⟨fun hm => hw ?_, hw, rfl⟩⟩
    rw [List.mem_singleton.1 hm, hkind]
  · refine ⟨?_, fun w hw => ?_⟩
    · rw [freeWindowNow_eq hkind]
      exact ⟨_, _, _, _, rfl⟩
    · have hne : w ≠ wi := fun h => hw (by rw [h, freed_win_self hkind])
      rw [freed_win_ne hkind hne] at hw ⊢
      exact ⟨fun hm => hne (List.mem_singleton.1 hm), hw, rfl⟩

theorem freeWindowCmd_freed (s : State) (wi : Nat) : WindowsFreed s (freeWindowCmd s wi) [wi] := by
  obtain ⟨⟨_, _, _, _, hframe⟩, hleft⟩ := freeWindowNow_freed s wi
  refine ⟨?_, hleft⟩
  unfold freeWindowCmd winDone
  rw [hframe]
  exact ⟨_, _, _, _, rfl⟩

theorem freeWindowCmds_freed (l : List Nat) (s : State) : WindowsFreed s (l.foldl freeWindowCmd s) l := by
  induction l generalizing s with
  | nil => exact ⟨⟨_, _, _, _, rfl⟩, fun _ hw => ⟨List.not_mem_nil, hw, rfl⟩⟩
  | cons wi l ih =>
    obtain ⟨⟨ps, phlx, dA, dS, hrest⟩, hleft⟩ := ih (freeWindowCmd s wi)
    obtain ⟨⟨_, _, _, _, hfirst⟩, hfirstLeft⟩ := freeWindowCmd_freed s wi
    refine ⟨⟨ps, phlx, dA, dS, hrest.trans (by rw [hfirst])⟩, fun w hw => ?_⟩
    obtain ⟨hl, hstood, hpart⟩ := hleft w hw
    obtain ⟨hwi, hbefore, hpart'⟩ := hfirstLeft w hstood
    exact ⟨fun hm => (List.mem_cons.1 hm).elim (fun h => hwi (List.mem_singleton.2 h)) hl, hbefore, hpart.trans hpart'⟩

/-! ### Steps 4 to 6 -/

/-- From `s` to `t` the keys, the engine's slots and the windows of a partition have gone. -/
structure SecretsWiped (s t : State) (p : Nat) : Prop where
  frame : ∃ ps chrt lark h e f phlx dA dS, t = { s with
    bus.pages := ps, chrt := chrt, lark := lark, hashu := h, astr := e, free := f, phlx := phlx, grp := { s.grp with descA := dA, descS := dS } }
  slots : ∀ i, slotOfPart p i (s.slot i) = true → t.slot i = {}
  wins : ∀ w, (t.win w).kind ≠ .free → (t.win w).part ≠ p

theorem wipeSecrets_wiped (s : State) (p : Nat) : SecretsWiped s (wipeSecrets s p) p := by
  unfold wipeSecrets
  extract_lets s1 _ s2
  obtain ⟨⟨_, _, hzeroed⟩, hslots⟩ : (∃ chrt lark, s1 = { s with chrt := chrt, lark := lark })
      ∧ ∀ j, slotOfPart p j (s.slot j) = true → s1.slot j = {} := zeroSlots_spec s _
  obtain ⟨_, _, _, hwiped⟩ : EngineOnly { s1 with hashu.drbgs := tset {} s1.hashu.drbgs (2 + p) {} } s2 := astrWipe_engineOnly _ p
  obtain ⟨⟨_, _, _, _, hfreed⟩, hleft⟩ :=
    freeWindowCmds_freed ((s2.phlx.wins.filter (fun e => e.2.kind ≠ .free && e.2.part = p)).map (·.1)) s2
  refine ⟨?_, fun i hi => ?_, fun w hw hp => ?_⟩
  · rw [hfreed, hwiped, hzeroed]
    exact ⟨_, _, _, _, _, _, _, _, _, rfl⟩
  · refine Eq.trans ?_ (hslots i hi)
    rw [hfreed, hwiped]
    rfl
  · obtain ⟨hunlisted, hstood, hpart⟩ := hleft w hw
    refine hunlisted (List.mem_map.2 ⟨(w, s2.win w), List.mem_filter.2 ⟨mem_of_tget_ne fun h => hstood ?_, ?_⟩, rfl⟩)
    · exact congrArg Win.kind h
    · rw [← hpart, hp]
      simpa using hstood

end Sys2Proof.Machine
end

section
/-! A budget request that waited for the engine and runs once it is free: what it leaves of the block, and of the budget of a partition that is
not owned (R254, R258). -/

namespace Sys2Proof.Machine

/-- From `s` to `t` a budget request may have run, not for the partition `p`. -/
structure RequestRan (s t : State) (p : Nat) : Prop where
  frame : ∃ ps z pw e cf, t = { s with bus.pages := ps, zin := z, pwr := pw, astr := e, helm.copyFault := cf }
  budget : t.budget p = s.budget p
  causes : CausesKept s t

theorem RequestRan.refl (s : State) (p : Nat) : RequestRan s s p := ⟨⟨_, _, _, _, _, rfl⟩, rfl, .refl s⟩

theorem RequestRan.trans {s t u : State} {p : Nat} (h : RequestRan s t p) (k : RequestRan t u p) : RequestRan s u p := by
  obtain ⟨⟨_, _, _, _, _, rfl⟩, hbudget, hcauses⟩ := h
  obtain ⟨⟨_, _, _, _, _, rfl⟩, hbudget', hcauses'⟩ := k
  exact ⟨⟨_, _, _, _, _, rfl⟩, hbudget'.trans hbudget, hcauses.trans hcauses'⟩

theorem CausesKept.handshake (s : State) (d : Nat) : CausesKept s (handshake s d) := by
  unfold Machine.handshake
  split
  · exact .refl s
  · split
    · exact (CausesKept.of_bus (t := { setLive s d with pwr.status := stCode .ok, pwr.domain := d, pwr.running := none }) rfl).trans
        ((CausesKept.raise _ 0xC0 0).trans (CausesKept.noteCmd _ _ _ _))
    · exact .of_bus rfl

theorem CausesKept.engineUp (s : State) : CausesKept s (engineUp s) := by
  unfold Machine.engineUp
  split
  · exact .refl s
  · obtain ⟨_, _, hload⟩ := reloadAstr_frame { Machine.handshake s 3 with astr := {} }
    rw [hload]
    exact (CausesKept.handshake s 3).trans (.of_bus rfl)

theorem engineUp_requestRan (s : State) (p : Nat) : RequestRan s (engineUp s) p := by
  have hcauses := CausesKept.engineUp s
  obtain ⟨_, _, _, _, hup⟩ := engineUp_frame s
  rw [hup] at hcauses ⊢
  exact ⟨⟨_, _, _, _, _, rfl⟩, rfl, hcauses⟩

/-- A request that ends writes its result, raises its cause and records its failure. -/
theorem noteCmd_raise_requestRan (s : State) (p q i addr : Nat) (r : Word) (a : Access) (st : Status) :
    RequestRan s (noteCmd (raise { s with zin.result := r } q i) a addr st) p := by
  have hresult : CausesKept s { s with zin.result := r } := .of_bus rfl
  have hcauses := hresult.trans ((CausesKept.raise _ q i).trans (.noteCmd _ a addr st))
  refine ⟨?_, ?_, hcauses⟩ <;> unfold noteCmd <;> split
  · exact ⟨_, _, _, _, _, rfl⟩
  · exact ⟨_, _, _, _, _, rfl⟩
  · rfl
  · rfl

theorem zinDone_requestRan (s : State) (p : Nat) (a : Access) (st : Status) (stage signer : Nat) :
    RequestRan s (zinDone s a st stage signer) p := noteCmd_raise_requestRan ..

theorem applyRequest_requestRan (s : State) {p q : Nat} (hne : p ≠ q) (b : Bytes) : RequestRan s (applyRequest s q b) p := by
  have hcauses : CausesKept s (applyRequest s q b) := by
    have happly : applyRequest s q b = (let s1 := s.setBudget q (requested (s.budget q) b)
        if leAt b 40 8 < (s.budget q).spent then raise (raise s1 0x55 2) (0x80 + q) 5 else s1) := rfl
    have hset : CausesKept s (s.setBudget q (requested (s.budget q) b)) := .of_bus rfl
    rw [happly]
    dsimp only
    split
    · exact hset.trans ((CausesKept.raise _ 0x55 2).trans (.raise _ (0x80 + q) 5))
    · exact hset
  obtain ⟨_, hframe⟩ := applyRequest_frame s q b
  rw [hframe] at hcauses ⊢
  exact ⟨⟨_, _, _, _, _, rfl⟩, State.setBudget_budget_ne s q (requested (s.budget q) b) p hne, hcauses⟩

/-- A request that is applied is of an owned partition (Table 7.10 stage 2). -/
theorem budgetStages_owned {s u : State} {mem policy : Option Bytes} (h : budgetStages s mem policy = .ok u) :
    (s.part (fld s.zin.cmdAddr 52 48)).st = .owned ∧ ∃ b, u = applyRequest s (fld s.zin.cmdAddr 52 48) b := by
  unfold budgetStages at h
  dsimp only at h
  -- the head, the whole request, and its form
  iterate 3
    split at h
    · nomatch h
  split at h
  · nomatch h
  next howned =>
  -- stages 3 to 5
  iterate 4
    split at h
    · nomatch h
  exact ⟨not_not.1 howned, _, (Except.ok.inj h).symm⟩

theorem zinRun_requestRan {s : State} {p : Nat} (hst : (s.part p).st ≠ .owned) (a : Access) (mem policy : Option Bytes) :
    RequestRan s (zinRun s a mem policy) p := by
  unfold zinRun
  split
  · refine RequestRan.trans ?_ (zinDone_requestRan ..)
    split
    · exact engineUp_requestRan s p
    · exact .refl s p
  · next u hpass =>
    obtain ⟨howned, b, rfl⟩ := budgetStages_owned hpass
    have hne : p ≠ fld s.zin.cmdAddr 52 48 := fun h => hst (h ▸ howned)
    exact ((applyRequest_requestRan s hne b).trans (engineUp_requestRan _ p)).trans (zinDone_requestRan ..)

theorem zinResume_requestRan {s : State} {p : Nat} (hst : (s.part p).st ≠ .owned) : RequestRan s (zinResume s) p := by
  unfold zinResume
  split
  · split
    · exact .refl s p
    · refine RequestRan.trans (t := { s with zin.waiting := none }) ⟨⟨_, _, _, _, _, rfl⟩, rfl, .of_bus rfl⟩ (zinRun_requestRan ?_ ..)
      exact hst
  · exact .refl s p

end Sys2Proof.Machine
end

section
/-! The wipe of a partition (R309 to R311, Table 10.4). -/

namespace Sys2Proof.Machine

/-! ### Steps 7 to 9 -/

/-- A partition at the end of its wipe (R310). -/
def wipedPart (q : Part) : Part := { q with st := .free, owners := 0, policy := 0, wipeTag := 0, overflow := none }

/-- What stands of a partition `p` at the end of its wipe, and of the others. -/
structure Wiped (s t : State) (p : Nat) : Prop where
  part : t.part p = wipedPart (s.part p)
  others : ∀ q, q ≠ p → t.part q = s.part q
  entries : t.entries p = []
  budget : t.budget p = {}
  wins : ∀ w, (t.win w).kind ≠ .free → (t.win w).part ≠ p
  frames : ∀ f ∈ t.park.frames, f.part ≠ p
  descs : ∀ c g, descOwner (t.desc c g) ≠ some p
  slots : ∀ i, slotOfPart p i (s.slot i) = true → t.slot i = {}
  sems : ∀ i, (tget {} t.rhmb.sems i : Sem).owned = true → (tget {} t.rhmb.sems i : Sem).part = p → (tget {} t.rhmb.sems i : Sem).value = 0
  cause : bitOf (t.page (0x80 + p)).cause 3 = true

/-- A descriptor after the wipe of a partition. -/
def descWiped (p : Nat) (d : Desc) : Desc := if descOwner d = some p then {} else d

theorem descOwner_wiped (p g : Nat) (t : Table Desc) : descOwner (tget {} (tmap {} (fun _ => descWiped p) t) g) ≠ some p := by
  have hnone : descOwner {} ≠ some p := nofun
  rcases tget_tmap_cases {} (fun _ => descWiped p) t g with h | ⟨d, h⟩
  · rwa [h]
  · rw [h, descWiped]
    split
    · exact hnone
    · next hother => exact hother

theorem wipeDescs_desc (s : State) (p : Nat) (c : Bool) (g : Nat) : descOwner ((wipeDescs s p).desc c g) ≠ some p := by
  cases c
  · exact descOwner_wiped p g s.grp.descA
  · exact descOwner_wiped p g s.grp.descS

/-- A semaphore after the wipe of a partition. -/
def semWiped (p : Nat) (x : Sem) : Sem := if x.owned && x.part = p then { x with value := 0 } else x

theorem semWiped_value (p i : Nat) (t : Table Sem) (howned : (tget {} (tmap {} (fun _ => semWiped p) t) i : Sem).owned = true)
    (hpart : (tget {} (tmap {} (fun _ => semWiped p) t) i : Sem).part = p) : (tget {} (tmap {} (fun _ => semWiped p) t) i : Sem).value = 0 := by
  rcases tget_tmap_cases {} (fun _ => semWiped p) t i with h | ⟨x, h⟩
  · rw [h]
  · rw [h, semWiped] at howned hpart ⊢
    split
    · rfl
    · next hother =>
      rw [if_neg hother] at howned hpart
      exact absurd (by rw [howned, hpart, decide_eq_true rfl]; rfl) hother

/-- Step 7 empties the lists and the parking of the partition. -/
theorem wipeTables_spec (s : State) (p : Nat) :
    (∃ parts park lists recs lark, wipeTables s p = { s with
        parts := parts, park := park, grp := { s.grp with lists := lists, recs := recs }, lark := lark })
      ∧ (wipeTables s p).part p = { s.part p with overflow := none } ∧ (∀ q, q ≠ p → (wipeTables s p).part q = s.part q)
      ∧ (wipeTables s p).entries p = [] ∧ ∀ f ∈ (wipeTables s p).park.frames, f.part ≠ p := by
  refine ⟨⟨_, _, _, _, _, rfl⟩, ?_, fun q hq => ?_, ?_, fun f hf => ?_⟩
  · exact State.setPart_part_self s p { s.part p with overflow := none }
  · exact State.setPart_part_ne s p { s.part p with overflow := none } q hq
  · exact tget_tset_self [] s.grp.lists p []
  · exact of_decide_eq_true (List.mem_filter.1 hf).2

theorem wipeDescs_frame (s : State) (p : Nat) : ∃ dA dS mA mS, wipeDescs s p = { s with
    grp := { s.grp with descA := dA, descS := dS, mbrA := mA, mbrS := mS } } := ⟨_, _, _, _, rfl⟩

/-- Step 9 frees the partition. -/
theorem wipeEnd_spec (s : State) (p : Nat) :
    (∃ ps d z parts sems, wipeEnd s p = { s with bus.pages := ps, spdm := d, zin := z, parts := parts, rhmb.sems := sems })
      ∧ (wipeEnd s p).part p = { s.part p with policy := 0, owners := 0, st := .free, wipeTag := 0 }
      ∧ (∀ q, q ≠ p → (wipeEnd s p).part q = s.part q) ∧ (wipeEnd s p).budget p = {}
      ∧ (∀ i, (tget {} (wipeEnd s p).rhmb.sems i : Sem).owned = true → (tget {} (wipeEnd s p).rhmb.sems i : Sem).part = p →
        (tget {} (wipeEnd s p).rhmb.sems i : Sem).value = 0)
      ∧ bitOf ((wipeEnd s p).page (0x80 + p)).cause 3 = true := by
  refine ⟨⟨_, _, _, _, _, rfl⟩, ?_, fun q hq => ?_, ?_, fun i => semWiped_value p i s.rhmb.sems, raise_cause _ _ (by decide)⟩
  · exact State.setPart_part_self s p _
  · exact State.setPart_part_ne s p _ q hq
  · exact State.setBudget_budget_self s p {}

/-- Steps 7 to 9 after the secrets have gone (Table 10.4). -/
theorem wipeEnd_wiped {s u : State} {p : Nat} (h : SecretsWiped s u p) : Wiped s (wipeEnd (wipeDescs (wipeTables u p) p) p) p := by
  have hdescs := wipeDescs_desc (wipeTables u p) p
  obtain ⟨⟨_, _, _, _, _, _, _, _, _, hsecrets⟩, hslots, hwins⟩ := h
  obtain ⟨⟨_, _, _, _, _, htables⟩, hmark, hothers, hentries, hframes⟩ := wipeTables_spec u p
  obtain ⟨_, _, _, _, hdescsFrame⟩ := wipeDescs_frame (wipeTables u p) p
  obtain ⟨⟨_, _, _, _, _, hend⟩, hfree, hrest, hbudget, hsems, hcause⟩ := wipeEnd_spec (wipeDescs (wipeTables u p) p) p
  have hu (q : Nat) : u.part q = s.part q := by rw [hsecrets]; rfl
  have hpart (q : Nat) : (wipeDescs (wipeTables u p) p).part q = (wipeTables u p).part q := by rw [hdescsFrame]; rfl
  have hphlx : (wipeEnd (wipeDescs (wipeTables u p) p) p).phlx = u.phlx := by rw [hend, hdescsFrame, htables]
  have hchrt : (wipeEnd (wipeDescs (wipeTables u p) p) p).chrt = u.chrt := by rw [hend, hdescsFrame, htables]
  have hgrp : (wipeEnd (wipeDescs (wipeTables u p) p) p).grp = (wipeDescs (wipeTables u p) p).grp := by rw [hend]
  have hlists : (wipeDescs (wipeTables u p) p).grp.lists = (wipeTables u p).grp.lists := by rw [hdescsFrame]
  have hpark : (wipeEnd (wipeDescs (wipeTables u p) p) p).park = (wipeTables u p).park := by rw [hend, hdescsFrame]
  refine ⟨?_, fun q hq => ?_, ?_, hbudget, fun w => ?_, fun f hf => ?_, fun c g => ?_, fun i hi => ?_, hsems, hcause⟩
  · rw [hfree, hpart, hmark, hu]
    rfl
  · rw [hrest q hq, hpart, hothers q hq, hu]
  · rw [State.entries, hgrp, hlists]
    exact hentries
  · rw [State.win, hphlx]
    exact hwins w
  · exact hframes f (hpark ▸ hf)
  · rw [State.desc, hgrp]
    exact hdescs c g
  · rw [State.slot, hchrt]
    exact hslots i hi

theorem wipeRest_wiped (s : State) (p : Nat) : Wiped s (wipeRest s p) p := wipeEnd_wiped (wipeSecrets_wiped s p)

/-- A budget request that runs at the end of a wipe brings nothing of the partition back. -/
theorem Wiped.ran {s t u : State} {p : Nat} (h : Wiped s t p) (k : RequestRan t u p) : Wiped s u p := by
  obtain ⟨hpart, hothers, hentries, hbudget, hwins, hframes, hdescs, hslots, hsems, hcause⟩ := h
  obtain ⟨⟨_, _, _, _, _, rfl⟩, hkept, hcauses⟩ := k
  exact ⟨hpart, hothers, hentries, hkept.trans hbudget, hwins, hframes, hdescs, hslots, hsems, hcauses _ _ hcause⟩

/-- The end of the partition's traffic keeps what the wipe is told by. -/
theorem Wiped.afterTraffic {s t u : State} {p : Nat} (h : TenancyKept s t) (k : Wiped t u p) : Wiped s u p := by
  obtain ⟨hpart, hothers, hentries, hbudget, hwins, hframes, hdescs, hslots, hsems, hcause⟩ := k
  exact ⟨hpart.trans (by rw [h.part]), fun q hq => (hothers q hq).trans (h.part q), hentries, hbudget, hwins, hframes, hdescs,
    fun i hi => hslots i ((h.slotOfPart p i).trans hi), hsems, hcause⟩

/-! ### `WIPE_DONE` -/

section
variable {s : State} {p : Nat}

/-- A wipe goes on only while the partition wipes, Helm runs, and none of its launches is held at a boundary (R309, R310). -/
theorem wipeDone_waits (h : (s.part p).st ≠ .wiping ∨ secRuns s = false ∨ launchHeld s p = true) : wipeDone s p = s := by
  refine if_neg ?_
  rcases h with h | h | h <;> simp [h]

variable (hst : (s.part p).st = .wiping) (hruns : secRuns s = true) (hheld : launchHeld s p = false)
include hst hruns hheld

theorem wipeDone_goesOn : wipeDone s p
    = if chansStopped (wipeTraffic s p) p then zinResume (wipeRest (wipeTraffic s p) p) else wipeTraffic s p :=
  if_pos (by rw [hst, hruns, hheld]; rfl)

theorem wipeDone_wiped (hstopped : chansStopped (wipeTraffic s p) p = true) : Wiped s (wipeDone s p) p := by
  rw [wipeDone_goesOn hst hruns hheld, if_pos hstopped]
  have hrest := wipeRest_wiped (wipeTraffic s p) p
  have hfree : ((wipeRest (wipeTraffic s p) p).part p).st ≠ .owned := by
    rw [hrest.part]
    exact nofun
  exact (hrest.ran (zinResume_requestRan hfree)).afterTraffic (wipeTraffic_tenancyKept s p)

end

/-- Settles O35: a wipe waits (`wipeDone_waits`), stands at its second step while a channel runs, or ends as `wipeDone_wiped` has it. -/
theorem wipesFreeThePartition : Obligations.WipesFreeThePartition := by
  intro s n
  have hexec : exec (.wipeDone n) s = .next (pumpAll busFn (wipeDone s n.toNat)) := rfl
  refine ⟨fun hwaits => ?_, fun hst hruns hheld hrunning => ⟨?_, ?_⟩, fun hst hruns hheld hstopped => ?_⟩
  · rw [hexec, wipeDone_waits hwaits]
  · rw [hexec, wipeDone_goesOn hst hruns hheld, if_neg (by rw [hrunning]; decide)]
  · rw [(wipeTraffic_tenancyKept s n.toNat).part]
    exact hst
  · obtain ⟨hpart, hothers, hentries, hbudget, hwins, hframes, hdescs, hslots, hsems, hcause⟩ := wipeDone_wiped hst hruns hheld hstopped
    exact ⟨_, hexec, hpart, hothers, hentries, hbudget, hwins, hframes, hdescs, fun _ => hslots, hsems, hcause⟩

end Sys2Proof.Machine
end
